-- ==== Sys2Proof/Word.lean ====
section
/-!
DEFINITION. The word types of the device and their plainest arithmetic (R7: registers are 32 bits wide, multi-byte
integers little-endian), and the one sparse-map type in which every memory and register file of the model is held.
-/
namespace Sys2Proof

/-- One byte. -/
abbrev Byte := BitVec 8
/-- One register or 32-bit datum (R7). -/
abbrev W32 := BitVec 32
/-- One timebase value, control-core register or global address. -/
abbrev W64 := BitVec 64

/-- A sparse map from keys to values: keys strictly rising, no entry equal to what an unlisted key reads as. The
unlisted value is not part of the data; each reader names it. -/
abbrev SMap (α : Type) := List (Nat × α)

namespace SMap

/-- The value at key `k`, or `d` where `k` is not listed. -/
def get {α : Type} (m : SMap α) (k : Nat) (d : α) : α :=
  match m with
  | [] => d
  | (k', v) :: r => if k' = k then v else get r k d

/-- `m` without any entry of key `k`. -/
def erase {α : Type} (m : SMap α) (k : Nat) : SMap α :=
  match m with
  | [] => []
  | (k', v) :: r => if k' = k then erase r k else (k', v) :: erase r k

/-- `m` with `(k, v)` put before the first larger key. -/
def insert {α : Type} (m : SMap α) (k : Nat) (v : α) : SMap α :=
  match m with
  | [] => [(k, v)]
  | (k', v') :: r => if k < k' then (k, v) :: (k', v') :: r else (k', v') :: insert r k v

/-- `m` with key `k` reading as `v`, kept in canonical form for the unlisted value `d`. -/
def set {α : Type} [DecidableEq α] (m : SMap α) (k : Nat) (v d : α) : SMap α :=
  if v = d then erase m k else insert (erase m k) k v

/-- The canonical form: keys strictly rising and no listed value equal to `d k`. -/
def wf {α : Type} [DecidableEq α] (d : Nat → α) : SMap α → Bool
  | [] => true
  | [(k, v)] => !decide (v = d k)
  | (k, v) :: (k', v') :: r => decide (k < k') && !decide (v = d k) && wf d ((k', v') :: r)

end SMap
end Sys2Proof
end

