-- ==== Sys2Proof/Config.lean ====
section
/-!
DEFINITION. What the spec leaves open, as constants without a body: nothing in Lean can evaluate them, so a statement
holds whatever they are (notes/assumptions/2.md).
-/
namespace Sys2Proof.Config

/-- The n-th free value: a random draw (R40, R329, R417), an unpredictable content (R216, R246, R263), or a value the
spec does not state. The state's counter `free` picks n. -/
opaque freeValue : Nat → BitVec 512
/-- Byte o of the n-th unpredictable memory content (tiles after a quench, R216; the audio buffer, R246). -/
opaque freeByte : Nat → Nat → Byte
/-- Word k of the n-th unpredictable word store (direct-path banks after a chip warm reset, R263). -/
opaque freeWord : Nat → Nat → W32
/-- The value of a vector function at an operand for which R114 or R112 gives only an error bound, wherever it keeps that
bound (Machine/Exact.lean): function code, operand bits. -/
opaque vectorFunction : Nat → W32 → W32
/-- The order in which an unordered FP32 sum adds its terms (R46, R256): for draw n and sum i, the place at which the term with
k terms after it goes among them. -/
opaque sumOrder : Nat → Nat → Nat → Nat
/-- The sine of a phase (units of 2^-32 revolution) as FP32, wherever it keeps the bound of R255. -/
opaque sine : W32 → W32
/-- A free tap of a half-band decimator of a PDM input, in units of 2^-24: stage, and the odd offset 2k+1 from the centre (R229). -/
opaque halfBandTap : Nat → Nat → Int
/-- Whether the decimator rounds an exact result, a numerator over a denominator, up (R229). -/
opaque pdmRoundUp : Int → Nat → Bool
/-- The first-order high-pass filter of R229: the input, the last input and the last output. -/
opaque dcCut : W32 → W32 → W32 → W32
/-- One frame of a PDM output channel (R230): the state of its interpolator and modulator, the limited sample and whether the
rate is 128-fold; answers the state after it and the bits sent, bit 0 first. -/
opaque densityModulator : BitVec 512 → W32 → Bool → BitVec 512 × BitVec 128
/-- Chovestan's device-issuing public key, held in the ROM (R414). -/
opaque deviceIssuer : List Byte
/-- Die revision fields of DV_ID: metal revision in [3:0], base layer in [7:4] (R450, 'per die'). -/
opaque dieRevision : BitVec 8

end Sys2Proof.Config
end

