-- ==== Sys2Proof/Machine/RegTable.lean ====
section
/-!
DEFINITION. The register map of every page (R440, R441 and each chapter's register tables): offsets by name, and for each
page kind the registers with their fields, access codes (R8) and reset values. Each list cites its rule.
-/
namespace Sys2Proof.Machine

/-- The access codes of R8. -/
inductive Acc where
  | ro | rw | wo | w1c | w1s | rc | rwl
deriving DecidableEq, Repr

/-- One register field: lowest bit, width, access code and reset value. -/
structure Field where
  lo : Nat
  w : Nat
  acc : Acc
  reset : Nat
deriving DecidableEq, Repr

/-- One register, or a row of `count` of them `stride` bytes apart. -/
structure RegDef where
  off : Nat
  stride : Nat
  count : Nat
  fields : List Field
deriving DecidableEq, Repr

/-- The kinds of register page (R447). -/
inductive PageKind where
  | device | clocks | timebase | angle | pattern | streams | queueMgr | semaphores | safety | hang | dump | power | thermal | security | compression | mirror | dpMain | dpPair | cache | debug | coreCtrl | coreMatrix | coreVector | coreScan | corePort | coreMover | coreStat | link | linkVc | linkSec | fabric | tsync | dram | serial | pdmIn | pdmOut | apll | asrc | audioBuf
deriving DecidableEq, Repr

namespace Reg
/-- PG_ID, all pages (R441). -/
def PG_ID : Nat := 0x000
/-- PG_CTRL, all pages (R441). -/
def PG_CTRL : Nat := 0x004
/-- PG_STATE, all pages (R441). -/
def PG_STATE : Nat := 0x008
/-- PG_IRQ_STATUS, all pages (R441). -/
def PG_IRQ_STATUS : Nat := 0x00C
/-- PG_IRQ_ENABLE, all pages (R441). -/
def PG_IRQ_ENABLE : Nat := 0x010
/-- PG_IRQ_FORCE, all pages (R441). -/
def PG_IRQ_FORCE : Nat := 0x014
/-- PG_ERR_STATUS, all pages (R441). -/
def PG_ERR_STATUS : Nat := 0x018
/-- PG_ERR_COUNT, all pages (R441). -/
def PG_ERR_COUNT : Nat := 0x01C
/-- PG_ERR_ADDR_LO, all pages (R441). -/
def PG_ERR_ADDR_LO : Nat := 0x020
/-- PG_ERR_ADDR_HI, all pages (R441). -/
def PG_ERR_ADDR_HI : Nat := 0x024
/-- PG_LOCK, all pages (R441). -/
def PG_LOCK : Nat := 0x028
/-- PG_SCRATCH, all pages (R441). -/
def PG_SCRATCH : Nat := 0x02C
/-- DV_VENDOR, device pages (R449). -/
def DV_VENDOR : Nat := 0x040
/-- DV_ID, device pages (R449). -/
def DV_ID : Nat := 0x044
/-- DV_STATUS, device pages (R449). -/
def DV_STATUS : Nat := 0x048
/-- DV_STRAPS, device pages (R449). -/
def DV_STRAPS : Nat := 0x04C
/-- DV_RESET_CAUSE, device pages (R449). -/
def DV_RESET_CAUSE : Nat := 0x050
/-- DV_IRQ_GLOBAL, device pages (R449). -/
def DV_IRQ_GLOBAL : Nat := 0x054
/-- DV_IRQ_CORE, device pages (R449). -/
def DV_IRQ_CORE : Nat := 0x058
/-- DV_IRQ_LINK_MEM, device pages (R449). -/
def DV_IRQ_LINK_MEM : Nat := 0x05C
/-- DV_IRQ_AUDIO, device pages (R449). -/
def DV_IRQ_AUDIO : Nat := 0x060
/-- DV_IRQ_CTRL, device pages (R449). -/
def DV_IRQ_CTRL : Nat := 0x064
/-- CK_STATUS, clocks pages (R449). -/
def CK_STATUS : Nat := 0x040
/-- CK_ARITH, clocks pages (R449). -/
def CK_ARITH : Nat := 0x044
/-- CK_LOSS_COUNT, clocks pages (R449). -/
def CK_LOSS_COUNT : Nat := 0x048
/-- TB_CTRL, timebase pages (R218). -/
def TB_CTRL : Nat := 0x040
/-- TB_STATUS, timebase pages (R218). -/
def TB_STATUS : Nat := 0x044
/-- TB_NOW_LO, timebase pages (R218). -/
def TB_NOW_LO : Nat := 0x048
/-- TB_NOW_HI, timebase pages (R218). -/
def TB_NOW_HI : Nat := 0x04C
/-- TB_INC_LO, timebase pages (R218). -/
def TB_INC_LO : Nat := 0x050
/-- TB_INC_HI, timebase pages (R218). -/
def TB_INC_HI : Nat := 0x054
/-- TB_OFFSET, timebase pages (R218). -/
def TB_OFFSET : Nat := 0x058
/-- TB_SLEW_LIMIT, timebase pages (R218). -/
def TB_SLEW_LIMIT : Nat := 0x05C
/-- TB_STEP_THRESH, timebase pages (R218). -/
def TB_STEP_THRESH : Nat := 0x060
/-- TB_HOLD_LIMIT, timebase pages (R218). -/
def TB_HOLD_LIMIT : Nat := 0x064
/-- TB_LOCK_LOSS_COUNT, timebase pages (R218). -/
def TB_LOCK_LOSS_COUNT : Nat := 0x068
/-- TB_SET_LO, timebase pages (R218). -/
def TB_SET_LO : Nat := 0x06C
/-- TB_SET_HI, timebase pages (R218). -/
def TB_SET_HI : Nat := 0x070
/-- ANG_CTRL, angle pages (R218). -/
def ANG_CTRL : Nat := 0x040
/-- ANG_TIMEOUT, angle pages (R218). -/
def ANG_TIMEOUT : Nat := 0x044
/-- ANG_NOW, angle pages (R218). -/
def ANG_NOW : Nat := 0x048
/-- ANG_RATE, angle pages (R218). -/
def ANG_RATE : Nat := 0x04C
/-- ANG_STATUS, angle pages (R218). -/
def ANG_STATUS : Nat := 0x050
/-- ANG_SYNC_ERR_COUNT, angle pages (R218). -/
def ANG_SYNC_ERR_COUNT : Nat := 0x054
/-- ANG_HS_T_LO, angle pages (R218). -/
def ANG_HS_T_LO : Nat := 0x058
/-- ANG_HS_T_HI, angle pages (R218). -/
def ANG_HS_T_HI : Nat := 0x05C
/-- ANG_HS_ANGLE, angle pages (R218). -/
def ANG_HS_ANGLE : Nat := 0x060
/-- ANG_HS_RATE, angle pages (R218). -/
def ANG_HS_RATE : Nat := 0x064
/-- ANG_HS_COMMIT, angle pages (R218). -/
def ANG_HS_COMMIT : Nat := 0x068
/-- ANG_STALE_COUNT, angle pages (R218). -/
def ANG_STALE_COUNT : Nat := 0x06C
/-- PT_CTRL, pattern pages (R218). -/
def PT_CTRL : Nat := 0x040
/-- PT_STATUS, pattern pages (R218). -/
def PT_STATUS : Nat := 0x044
/-- PT_BAR_LEN, pattern pages (R218). -/
def PT_BAR_LEN : Nat := 0x048
/-- PT_EPOCH_LO, pattern pages (R218). -/
def PT_EPOCH_LO : Nat := 0x04C
/-- PT_EPOCH_HI, pattern pages (R218). -/
def PT_EPOCH_HI : Nat := 0x050
/-- PT_BAR_NOW_LO, pattern pages (R218). -/
def PT_BAR_NOW_LO : Nat := 0x054
/-- PT_BAR_NOW_HI, pattern pages (R218). -/
def PT_BAR_NOW_HI : Nat := 0x058
/-- PT_ENTRY_SEL, pattern pages (R218). -/
def PT_ENTRY_SEL : Nat := 0x05C
/-- PT_ENTRY, pattern pages (R218). -/
def PT_ENTRY : Nat := 0x060
/-- PT_BEAT_DROP_COUNT, pattern pages (R218). -/
def PT_BEAT_DROP_COUNT : Nat := 0x070
/-- PT_BEAT_MISSED_COUNT, pattern pages (R218). -/
def PT_BEAT_MISSED_COUNT : Nat := 0x074
/-- PT_BEAT_OVERRUN_COUNT, pattern pages (R218). -/
def PT_BEAT_OVERRUN_COUNT : Nat := 0x078
/-- PT_PREEMPT_MAX, pattern pages (R218). -/
def PT_PREEMPT_MAX : Nat := 0x07C
/-- PART_CORES, pattern pages (R218). -/
def PART_CORES : Nat := 0x100
/-- PART_MEM, pattern pages (R218). -/
def PART_MEM : Nat := 0x104
/-- PART_CTRL, pattern pages (R218). -/
def PART_CTRL : Nat := 0x108
/-- CTX_STATUS, pattern pages (R218). -/
def CTX_STATUS : Nat := 0x200
/-- SM_COUNTS, streams pages (R179). -/
def SM_COUNTS : Nat := 0x040
/-- SM_FLAGS, streams pages (R179). -/
def SM_FLAGS : Nat := 0x044
/-- SM_LATE_COUNT, streams pages (R179). -/
def SM_LATE_COUNT : Nat := 0x048
/-- SM_OVERRUN_COUNT, streams pages (R179). -/
def SM_OVERRUN_COUNT : Nat := 0x04C
/-- SM_CONCEAL_COUNT, streams pages (R179). -/
def SM_CONCEAL_COUNT : Nat := 0x050
/-- SM_STAGE_LATE_COUNT, streams pages (R179). -/
def SM_STAGE_LATE_COUNT : Nat := 0x054
/-- SM_WL_LATE_COUNT, streams pages (R179). -/
def SM_WL_LATE_COUNT : Nat := 0x058
/-- SM_OUT_SAT_COUNT, streams pages (R179). -/
def SM_OUT_SAT_COUNT : Nat := 0x05C
/-- SM_PUSH_FAIL_COUNT, streams pages (R179). -/
def SM_PUSH_FAIL_COUNT : Nat := 0x060
/-- SM_WL_TIME_MAX, streams pages (R179). -/
def SM_WL_TIME_MAX : Nat := 0x064
/-- SM_COMMIT_TIME_MAX, streams pages (R179). -/
def SM_COMMIT_TIME_MAX : Nat := 0x068
/-- SM_ENTRY_SEL, streams pages (R179). -/
def SM_ENTRY_SEL : Nat := 0x06C
/-- SM_ENTRY, streams pages (R179). -/
def SM_ENTRY : Nat := 0x080
/-- WL_BASE, streams pages (R179). -/
def WL_BASE : Nat := 0x100
/-- WL_STRIDE, streams pages (R179). -/
def WL_STRIDE : Nat := 0x104
/-- QM_STATUS, queueMgr pages (R354). -/
def QM_STATUS : Nat := 0x040
/-- QM_FLAGS, queueMgr pages (R354). -/
def QM_FLAGS : Nat := 0x044
/-- QM_ADMIN_SQ_LO, queueMgr pages (R354). -/
def QM_ADMIN_SQ_LO : Nat := 0x048
/-- QM_ADMIN_SQ_HI, queueMgr pages (R354). -/
def QM_ADMIN_SQ_HI : Nat := 0x04C
/-- QM_ADMIN_CQ_LO, queueMgr pages (R354). -/
def QM_ADMIN_CQ_LO : Nat := 0x050
/-- QM_ADMIN_CQ_HI, queueMgr pages (R354). -/
def QM_ADMIN_CQ_HI : Nat := 0x054
/-- QM_ADMIN_SHAPE, queueMgr pages (R354). -/
def QM_ADMIN_SHAPE : Nat := 0x058
/-- QM_ADMIN_CTRL, queueMgr pages (R354). -/
def QM_ADMIN_CTRL : Nat := 0x05C
/-- QM_Q_SEL, queueMgr pages (R354). -/
def QM_Q_SEL : Nat := 0x060
/-- QM_IMAGE_STATE, queueMgr pages (R354). -/
def QM_IMAGE_STATE : Nat := 0x064
/-- QM_PUSH_COUNT, queueMgr pages (R354). -/
def QM_PUSH_COUNT : Nat := 0x068
/-- QM_PUSH_REFUSED_COUNT, queueMgr pages (R354). -/
def QM_PUSH_REFUSED_COUNT : Nat := 0x06C
/-- QM_DB_ERR_COUNT, queueMgr pages (R354). -/
def QM_DB_ERR_COUNT : Nat := 0x070
/-- QM_CMD_COUNT, queueMgr pages (R354). -/
def QM_CMD_COUNT : Nat := 0x074
/-- QM_IRQ_COUNT, queueMgr pages (R354). -/
def QM_IRQ_COUNT : Nat := 0x078
/-- QM_Q_DESC, queueMgr pages (R354). -/
def QM_Q_DESC : Nat := 0x080
/-- QM_VEC_ADDR_LO, queueMgr pages (R354). -/
def QM_VEC_ADDR_LO : Nat := 0x800
/-- QM_VEC_ADDR_HI, queueMgr pages (R354). -/
def QM_VEC_ADDR_HI : Nat := 0x804
/-- QM_VEC_DATA, queueMgr pages (R354). -/
def QM_VEC_DATA : Nat := 0x808
/-- QM_VEC_CTRL, queueMgr pages (R354). -/
def QM_VEC_CTRL : Nat := 0x80C
/-- SE_WAITS, semaphores pages (R449). -/
def SE_WAITS : Nat := 0x040
/-- SE_HOLDERS, semaphores pages (R449). -/
def SE_HOLDERS : Nat := 0x044
/-- SE_BUSY_COUNT, semaphores pages (R449). -/
def SE_BUSY_COUNT : Nat := 0x048
/-- SE_SAT_COUNT, semaphores pages (R449). -/
def SE_SAT_COUNT : Nat := 0x04C
/-- SF_CTRL, safety pages (R378). -/
def SF_CTRL : Nat := 0x040
/-- SF_STATUS, safety pages (R378). -/
def SF_STATUS : Nat := 0x044
/-- SF_FAULT, safety pages (R378). -/
def SF_FAULT : Nat := 0x048
/-- SF_CLASS, safety pages (R378). -/
def SF_CLASS : Nat := 0x04C
/-- SF_LFT_STATUS, safety pages (R378). -/
def SF_LFT_STATUS : Nat := 0x050
/-- SF_CFG_FAULT_COUNT, safety pages (R378). -/
def SF_CFG_FAULT_COUNT : Nat := 0x054
/-- SF_CFG_CORR_COUNT, safety pages (R378). -/
def SF_CFG_CORR_COUNT : Nat := 0x058
/-- SF_FAULT_TIME_LO, safety pages (R378). -/
def SF_FAULT_TIME_LO : Nat := 0x05C
/-- SF_FAULT_TIME_HI, safety pages (R378). -/
def SF_FAULT_TIME_HI : Nat := 0x060
/-- SF_E2E, safety pages (R378). -/
def SF_E2E : Nat := 0x100
/-- SF_E2E_COUNT, safety pages (R378). -/
def SF_E2E_COUNT : Nat := 0x104
/-- SF_CTRL_N, safety pages (R378). -/
def SF_CTRL_N : Nat := 0x840
/-- SF_CLASS_N, safety pages (R378). -/
def SF_CLASS_N : Nat := 0x84C
/-- SF_E2E_N, safety pages (R378). -/
def SF_E2E_N : Nat := 0x900
/-- HG_CTRL, hang pages (R398). -/
def HG_CTRL : Nat := 0x040
/-- HG_STATUS, hang pages (R398). -/
def HG_STATUS : Nat := 0x044
/-- HG_NOPROG_US, hang pages (R398). -/
def HG_NOPROG_US : Nat := 0x048
/-- HG_SEM_US, hang pages (R398). -/
def HG_SEM_US : Nat := 0x04C
/-- HG_ENGINE_US, hang pages (R398). -/
def HG_ENGINE_US : Nat := 0x050
/-- HG_HOLD_US, hang pages (R398). -/
def HG_HOLD_US : Nat := 0x054
/-- HG_RESET_REQ, hang pages (R398). -/
def HG_RESET_REQ : Nat := 0x058
/-- HG_SUSPECT_LO, hang pages (R398). -/
def HG_SUSPECT_LO : Nat := 0x05C
/-- HG_SUSPECT_HI, hang pages (R398). -/
def HG_SUSPECT_HI : Nat := 0x060
/-- HG_CONDEMNED_LO, hang pages (R398). -/
def HG_CONDEMNED_LO : Nat := 0x064
/-- HG_CONDEMNED_HI, hang pages (R398). -/
def HG_CONDEMNED_HI : Nat := 0x068
/-- HG_REPLAY_CTX_LO, hang pages (R398). -/
def HG_REPLAY_CTX_LO : Nat := 0x06C
/-- HG_REPLAY_CTX_HI, hang pages (R398). -/
def HG_REPLAY_CTX_HI : Nat := 0x070
/-- HG_CKPT_BASE_LO, hang pages (R398). -/
def HG_CKPT_BASE_LO : Nat := 0x074
/-- HG_CKPT_BASE_HI, hang pages (R398). -/
def HG_CKPT_BASE_HI : Nat := 0x078
/-- HG_CKPT_BYTES, hang pages (R398). -/
def HG_CKPT_BYTES : Nat := 0x07C
/-- HG_RECORD_OVF, hang pages (R398). -/
def HG_RECORD_OVF : Nat := 0x080
/-- HG_HOLDER_OVF, hang pages (R398). -/
def HG_HOLDER_OVF : Nat := 0x084
/-- HG_CKPT_OVF, hang pages (R398). -/
def HG_CKPT_OVF : Nat := 0x088
/-- HG_HANG_COUNT, hang pages (R398). -/
def HG_HANG_COUNT : Nat := 0x08C
/-- HG_ENGINE_RESET_COUNT, hang pages (R398). -/
def HG_ENGINE_RESET_COUNT : Nat := 0x090
/-- HG_PART_RESET_COUNT, hang pages (R398). -/
def HG_PART_RESET_COUNT : Nat := 0x094
/-- HG_CHIP_RESET_COUNT, hang pages (R398). -/
def HG_CHIP_RESET_COUNT : Nat := 0x098
/-- HG_REPLAY_PASS_COUNT, hang pages (R398). -/
def HG_REPLAY_PASS_COUNT : Nat := 0x09C
/-- HG_REPLAY_FAIL_COUNT, hang pages (R398). -/
def HG_REPLAY_FAIL_COUNT : Nat := 0x0A0
/-- EV_WR, hang pages (R398). -/
def EV_WR : Nat := 0x0A4
/-- DM_SEL, dump pages (R398). -/
def DM_SEL : Nat := 0x040
/-- DM_SPAD_CORES, dump pages (R398). -/
def DM_SPAD_CORES : Nat := 0x044
/-- DM_SPAD_OFF, dump pages (R398). -/
def DM_SPAD_OFF : Nat := 0x048
/-- DM_SPAD_LEN, dump pages (R398). -/
def DM_SPAD_LEN : Nat := 0x04C
/-- DM_STATUS, dump pages (R398). -/
def DM_STATUS : Nat := 0x050
/-- DM_BYTES, dump pages (R398). -/
def DM_BYTES : Nat := 0x054
/-- DM_DEAD_COUNT, dump pages (R398). -/
def DM_DEAD_COUNT : Nat := 0x058
/-- DM_COUNT, dump pages (R398). -/
def DM_COUNT : Nat := 0x05C
/-- PW_CTRL, power pages (R438). -/
def PW_CTRL : Nat := 0x040
/-- PW_STATUS, power pages (R438). -/
def PW_STATUS : Nat := 0x044
/-- PW_LIMIT, power pages (R438). -/
def PW_LIMIT : Nat := 0x048
/-- PW_EST, power pages (R438). -/
def PW_EST : Nat := 0x04C
/-- PW_OP_CHANGE_COUNT, power pages (R438). -/
def PW_OP_CHANGE_COUNT : Nat := 0x050
/-- PW_LIMIT_EXCEED_COUNT, power pages (R438). -/
def PW_LIMIT_EXCEED_COUNT : Nat := 0x054
/-- PW_LAST_REFUSED, power pages (R438). -/
def PW_LAST_REFUSED : Nat := 0x058
/-- PW_DOM_CTRL, power pages (R438). -/
def PW_DOM_CTRL : Nat := 0x100
/-- PW_DOM_STATE, power pages (R438). -/
def PW_DOM_STATE : Nat := 0x300
/-- TH_CTRL, thermal pages (R438). -/
def TH_CTRL : Nat := 0x040
/-- TH_STATUS, thermal pages (R438). -/
def TH_STATUS : Nat := 0x044
/-- TH_MAX, thermal pages (R438). -/
def TH_MAX : Nat := 0x048
/-- TH_THROTTLE_COUNT, thermal pages (R438). -/
def TH_THROTTLE_COUNT : Nat := 0x04C
/-- TH_CRIT_COUNT, thermal pages (R438). -/
def TH_CRIT_COUNT : Nat := 0x050
/-- TH_TEMP, thermal pages (R438). -/
def TH_TEMP : Nat := 0x100
/-- SEC_BOOT_STATUS, security pages (R422). -/
def SEC_BOOT_STATUS : Nat := 0x040
/-- SEC_BOOT_GO, security pages (R422). -/
def SEC_BOOT_GO : Nat := 0x044
/-- SEC_LIFECYCLE, security pages (R422). -/
def SEC_LIFECYCLE : Nat := 0x048
/-- SEC_SVN, security pages (R422). -/
def SEC_SVN : Nat := 0x04C
/-- SEC_SIGNERS, security pages (R422). -/
def SEC_SIGNERS : Nat := 0x050
/-- SEC_FUSE_CMD, security pages (R422). -/
def SEC_FUSE_CMD : Nat := 0x054
/-- SEC_FUSE_STATUS, security pages (R422). -/
def SEC_FUSE_STATUS : Nat := 0x058
/-- SEC_TRNG_STATUS, security pages (R422). -/
def SEC_TRNG_STATUS : Nat := 0x05C
/-- SEC_TRNG_FAIL_COUNT, security pages (R422). -/
def SEC_TRNG_FAIL_COUNT : Nat := 0x060
/-- SEC_KEY_CTRL, security pages (R422). -/
def SEC_KEY_CTRL : Nat := 0x064
/-- SEC_KEY_STATUS, security pages (R422). -/
def SEC_KEY_STATUS : Nat := 0x068
/-- SEC_DBG_STATUS, security pages (R422). -/
def SEC_DBG_STATUS : Nat := 0x06C
/-- SEC_DBG_GO, security pages (R422). -/
def SEC_DBG_GO : Nat := 0x070
/-- SEC_DBG_RELOCK, security pages (R422). -/
def SEC_DBG_RELOCK : Nat := 0x074
/-- SEC_ATT_GO, security pages (R422). -/
def SEC_ATT_GO : Nat := 0x078
/-- SEC_ATT_STATUS, security pages (R422). -/
def SEC_ATT_STATUS : Nat := 0x07C
/-- SEC_SERIAL, security pages (R422). -/
def SEC_SERIAL : Nat := 0x080
/-- SEC_KEY_LABEL, security pages (R422). -/
def SEC_KEY_LABEL : Nat := 0x100
/-- SEC_FUSE_DATA, security pages (R422). -/
def SEC_FUSE_DATA : Nat := 0x180
/-- SEC_ATT_NONCE, security pages (R422). -/
def SEC_ATT_NONCE : Nat := 0x200
/-- SEC_DBG_CHAL, security pages (R422). -/
def SEC_DBG_CHAL : Nat := 0x300
/-- SEC_DBG_TOKEN, security pages (R422). -/
def SEC_DBG_TOKEN : Nat := 0x400
/-- SEC_CERT, security pages (R422). -/
def SEC_CERT : Nat := 0x600
/-- SEC_ATT_REPORT, security pages (R422). -/
def SEC_ATT_REPORT : Nat := 0x800
/-- CE_STATUS, compression pages (R297). -/
def CE_STATUS : Nat := 0x040
/-- CE_TAG_LIMIT, compression pages (R297). -/
def CE_TAG_LIMIT : Nat := 0x044
/-- CE_IN_FILL, compression pages (R297). -/
def CE_IN_FILL : Nat := 0x048
/-- CE_OUT_FILL, compression pages (R297). -/
def CE_OUT_FILL : Nat := 0x04C
/-- CE_DAMAGED_COUNT, compression pages (R297). -/
def CE_DAMAGED_COUNT : Nat := 0x050
/-- CE_STALE_COUNT, compression pages (R297). -/
def CE_STALE_COUNT : Nat := 0x054
/-- CE_RAW_STORED_COUNT, compression pages (R297). -/
def CE_RAW_STORED_COUNT : Nat := 0x058
/-- CE_JOB_REFUSED_COUNT, compression pages (R297). -/
def CE_JOB_REFUSED_COUNT : Nat := 0x05C
/-- CE_LANE_CYCLES, compression pages (R297). -/
def CE_LANE_CYCLES : Nat := 0x060
/-- CE_SLOT_VER, compression pages (R297). -/
def CE_SLOT_VER : Nat := 0x100
/-- CE_SLOT_REFS, compression pages (R297). -/
def CE_SLOT_REFS : Nat := 0x104
/-- CE_JOB, compression pages (R297). -/
def CE_JOB : Nat := 0x200
/-- CE_JOB_GO, compression pages (R297). -/
def CE_JOB_GO : Nat := 0x228
/-- MR_CTRL, mirror pages (R378). -/
def MR_CTRL : Nat := 0x040
/-- MR_STATUS, mirror pages (R378). -/
def MR_STATUS : Nat := 0x044
/-- MR_TAKEOVER_PORTS, mirror pages (R378). -/
def MR_TAKEOVER_PORTS : Nat := 0x048
/-- MR_SHADOW_CTX_LO, mirror pages (R378). -/
def MR_SHADOW_CTX_LO : Nat := 0x04C
/-- MR_SHADOW_CTX_HI, mirror pages (R378). -/
def MR_SHADOW_CTX_HI : Nat := 0x050
/-- MR_AUDIT_TOL, mirror pages (R378). -/
def MR_AUDIT_TOL : Nat := 0x054
/-- MR_AUDIT_ABS, mirror pages (R378). -/
def MR_AUDIT_ABS : Nat := 0x058
/-- MR_STAGE_BASE_LO, mirror pages (R378). -/
def MR_STAGE_BASE_LO : Nat := 0x05C
/-- MR_STAGE_BASE_HI, mirror pages (R378). -/
def MR_STAGE_BASE_HI : Nat := 0x060
/-- MR_STAGE_BYTES, mirror pages (R378). -/
def MR_STAGE_BYTES : Nat := 0x064
/-- MR_EXPORT_TIME_MAX, mirror pages (R378). -/
def MR_EXPORT_TIME_MAX : Nat := 0x068
/-- MR_IMPORT_DISCARD, mirror pages (R378). -/
def MR_IMPORT_DISCARD : Nat := 0x06C
/-- MR_AUDIT_FAIL, mirror pages (R378). -/
def MR_AUDIT_FAIL : Nat := 0x070
/-- MR_AUDIT_SKIP, mirror pages (R378). -/
def MR_AUDIT_SKIP : Nat := 0x074
/-- MR_TOLL_MISS_PIN, mirror pages (R378). -/
def MR_TOLL_MISS_PIN : Nat := 0x078
/-- MR_TOLL_MISS_LINK, mirror pages (R378). -/
def MR_TOLL_MISS_LINK : Nat := 0x07C
/-- MR_BIND_ERR, mirror pages (R378). -/
def MR_BIND_ERR : Nat := 0x080
/-- MR_TAKEOVER_TIME, mirror pages (R378). -/
def MR_TAKEOVER_TIME : Nat := 0x084
/-- MR_AUDIT_IN, mirror pages (R378). -/
def MR_AUDIT_IN : Nat := 0x088
/-- MR_RMAP_LO, mirror pages (R378). -/
def MR_RMAP_LO : Nat := 0x100
/-- MR_RMAP_HI, mirror pages (R378). -/
def MR_RMAP_HI : Nat := 0x104
/-- MR_BIND_IN, mirror pages (R378). -/
def MR_BIND_IN : Nat := 0x400
/-- MR_CTRL_N, mirror pages (R378). -/
def MR_CTRL_N : Nat := 0x840
/-- MR_TAKEOVER_PORTS_N, mirror pages (R378). -/
def MR_TAKEOVER_PORTS_N : Nat := 0x848
/-- DP_CTRL, dpMain pages (R265). -/
def DP_CTRL : Nat := 0x040
/-- DP_PHASE, dpMain pages (R265). -/
def DP_PHASE : Nat := 0x044
/-- DP_STATUS, dpMain pages (R265). -/
def DP_STATUS : Nat := 0x048
/-- DP_READY, dpMain pages (R265). -/
def DP_READY : Nat := 0x04C
/-- DP_ARMED, dpMain pages (R265). -/
def DP_ARMED : Nat := 0x050
/-- DP_COST, dpMain pages (R265). -/
def DP_COST : Nat := 0x054
/-- DP_SWAP_COUNT, dpMain pages (R265). -/
def DP_SWAP_COUNT : Nat := 0x058
/-- DP_SWAP_SKIP_COUNT, dpMain pages (R265). -/
def DP_SWAP_SKIP_COUNT : Nat := 0x05C
/-- DP_LOAD_REFUSED_COUNT, dpMain pages (R265). -/
def DP_LOAD_REFUSED_COUNT : Nat := 0x060
/-- DP_LOAD_ERR, dpMain pages (R265). -/
def DP_LOAD_ERR : Nat := 0x064
/-- DP_OUT_SAT_COUNT, dpMain pages (R265). -/
def DP_OUT_SAT_COUNT : Nat := 0x068
/-- DP_DIVERGE_COUNT, dpMain pages (R265). -/
def DP_DIVERGE_COUNT : Nat := 0x06C
/-- DP_DIVERGED, dpMain pages (R265). -/
def DP_DIVERGED : Nat := 0x070
/-- DP_REF_LOST, dpMain pages (R265). -/
def DP_REF_LOST : Nat := 0x074
/-- DP_ERR_LOST, dpMain pages (R265). -/
def DP_ERR_LOST : Nat := 0x078
/-- DP_ECC, dpMain pages (R265). -/
def DP_ECC : Nat := 0x07C
/-- DP_REF, dpMain pages (R265). -/
def DP_REF : Nat := 0x080
/-- DP_ERR, dpMain pages (R265). -/
def DP_ERR : Nat := 0x100
/-- DP_OUT, dpMain pages (R265). -/
def DP_OUT : Nat := 0x140
/-- DP_OSC, dpMain pages (R265). -/
def DP_OSC : Nat := 0x1A0
/-- DP_OSC_PHASE, dpMain pages (R265). -/
def DP_OSC_PHASE : Nat := 0x1A4
/-- DP_LOAD_DESC, dpMain pages (R265). -/
def DP_LOAD_DESC : Nat := 0x2C0
/-- DP_LOAD_GO, dpMain pages (R265). -/
def DP_LOAD_GO : Nat := 0x2DC
/-- DP_LOAD_PENDING, dpMain pages (R265). -/
def DP_LOAD_PENDING : Nat := 0x2E0
/-- DP_PAIR, dpPair pages (R265). -/
def DP_PAIR : Nat := 0x400
/-- CA_CTRL, cache pages (R297). -/
def CA_CTRL : Nat := 0x040
/-- CA_MAINT, cache pages (R297). -/
def CA_MAINT : Nat := 0x044
/-- CA_MAINT_STATUS, cache pages (R297). -/
def CA_MAINT_STATUS : Nat := 0x048
/-- CA_HITS, cache pages (R297). -/
def CA_HITS : Nat := 0x04C
/-- CA_MISSES, cache pages (R297). -/
def CA_MISSES : Nat := 0x050
/-- CA_WRITEBACKS, cache pages (R297). -/
def CA_WRITEBACKS : Nat := 0x054
/-- CA_ECC, cache pages (R297). -/
def CA_ECC : Nat := 0x058
/-- PR_BASE, cache pages (R297). -/
def PR_BASE : Nat := 0x100
/-- PR_END, cache pages (R297). -/
def PR_END : Nat := 0x104
/-- PR_CTRL, cache pages (R297). -/
def PR_CTRL : Nat := 0x108
/-- TR_CTRL, debug pages (R470). -/
def TR_CTRL : Nat := 0x040
/-- TR_STATUS, debug pages (R470). -/
def TR_STATUS : Nat := 0x044
/-- TR_BASE_LO, debug pages (R470). -/
def TR_BASE_LO : Nat := 0x048
/-- TR_BASE_HI, debug pages (R470). -/
def TR_BASE_HI : Nat := 0x04C
/-- TR_BYTES, debug pages (R470). -/
def TR_BYTES : Nat := 0x050
/-- TR_WR, debug pages (R470). -/
def TR_WR : Nat := 0x054
/-- TR_DROP_COUNT, debug pages (R470). -/
def TR_DROP_COUNT : Nat := 0x058
/-- CTRL_STATUS, coreCtrl pages (R91). -/
def CTRL_STATUS : Nat := 0x040
/-- CTRL_PC, coreCtrl pages (R91). -/
def CTRL_PC : Nat := 0x044
/-- CTRL_TOKENS, coreCtrl pages (R91). -/
def CTRL_TOKENS : Nat := 0x048
/-- CTRL_QFILL, coreCtrl pages (R91). -/
def CTRL_QFILL : Nat := 0x04C
/-- CTRL_FAULT, coreCtrl pages (R91). -/
def CTRL_FAULT : Nat := 0x050
/-- CTRL_ISSUE_COUNT, coreCtrl pages (R91). -/
def CTRL_ISSUE_COUNT : Nat := 0x054
/-- CTRL_IMEM_ECC, coreCtrl pages (R91). -/
def CTRL_IMEM_ECC : Nat := 0x058
/-- MX_STATUS, coreMatrix pages (R91). -/
def MX_STATUS : Nat := 0x040
/-- MX_BUSY_CYCLES, coreMatrix pages (R91). -/
def MX_BUSY_CYCLES : Nat := 0x044
/-- MX_MMA_COUNT, coreMatrix pages (R91). -/
def MX_MMA_COUNT : Nat := 0x048
/-- MX_MOUT_COUNT, coreMatrix pages (R91). -/
def MX_MOUT_COUNT : Nat := 0x04C
/-- VX_STATUS, coreVector pages (R120). -/
def VX_STATUS : Nat := 0x040
/-- VX_FLAGS, coreVector pages (R120). -/
def VX_FLAGS : Nat := 0x044
/-- VX_BUSY_CYCLES, coreVector pages (R120). -/
def VX_BUSY_CYCLES : Nat := 0x048
/-- VX_WORD_COUNT, coreVector pages (R120). -/
def VX_WORD_COUNT : Nat := 0x04C
/-- VX_OOR_TOTAL, coreVector pages (R120). -/
def VX_OOR_TOTAL : Nat := 0x050
/-- VX_EMPTY_COUNT, coreVector pages (R120). -/
def VX_EMPTY_COUNT : Nat := 0x054
/-- VX_SMAX_NAN_COUNT, coreVector pages (R120). -/
def VX_SMAX_NAN_COUNT : Nat := 0x058
/-- VX_DOMAIN_COUNT, coreVector pages (R120). -/
def VX_DOMAIN_COUNT : Nat := 0x05C
/-- VX_MASK, coreVector pages (R120). -/
def VX_MASK : Nat := 0x060
/-- VX_SUM_LO, coreVector pages (R120). -/
def VX_SUM_LO : Nat := 0x080
/-- VX_SUM_HI, coreVector pages (R120). -/
def VX_SUM_HI : Nat := 0x084
/-- VX_OOR_COUNT, coreVector pages (R120). -/
def VX_OOR_COUNT : Nat := 0x400
/-- SC_STATUS, coreScan pages (R150). -/
def SC_STATUS : Nat := 0x040
/-- SC_FLAGS, coreScan pages (R150). -/
def SC_FLAGS : Nat := 0x044
/-- SC_BLOCK_COUNT, coreScan pages (R150). -/
def SC_BLOCK_COUNT : Nat := 0x048
/-- SC_BUSY_CYCLES, coreScan pages (R150). -/
def SC_BUSY_CYCLES : Nat := 0x04C
/-- SC_MARK_COUNT, coreScan pages (R150). -/
def SC_MARK_COUNT : Nat := 0x050
/-- SC_FAULT, coreScan pages (R150). -/
def SC_FAULT : Nat := 0x054
/-- ST_STATUS, corePort pages (R150). -/
def ST_STATUS : Nat := 0x040
/-- ST_ECC, corePort pages (R150). -/
def ST_ECC : Nat := 0x044
/-- ST_ECC_SLOT, corePort pages (R150). -/
def ST_ECC_SLOT : Nat := 0x048
/-- ST_LINES_USED, corePort pages (R150). -/
def ST_LINES_USED : Nat := 0x04C
/-- ST_TAG_LIMIT, corePort pages (R150). -/
def ST_TAG_LIMIT : Nat := 0x050
/-- ST_XFER_BYTES, corePort pages (R150). -/
def ST_XFER_BYTES : Nat := 0x054
/-- ST_HOLD_COUNT, corePort pages (R150). -/
def ST_HOLD_COUNT : Nat := 0x058
/-- ST_REGION_BASE, corePort pages (R150). -/
def ST_REGION_BASE : Nat := 0x100
/-- ST_REGION_SHAPE, corePort pages (R150). -/
def ST_REGION_SHAPE : Nat := 0x104
/-- ST_REGION_SLOTS, corePort pages (R150). -/
def ST_REGION_SLOTS : Nat := 0x108
/-- ST_REGION_S2, corePort pages (R150). -/
def ST_REGION_S2 : Nat := 0x10C
/-- ST_REGION_FREE, corePort pages (R150). -/
def ST_REGION_FREE : Nat := 0x200
/-- MV_TAG_LIMIT, coreMover pages (R91). -/
def MV_TAG_LIMIT : Nat := 0x040
/-- MV_TAGS_IN_USE, coreMover pages (R91). -/
def MV_TAGS_IN_USE : Nat := 0x044
/-- MV_TIMEOUT, coreMover pages (R91). -/
def MV_TIMEOUT : Nat := 0x048
/-- MV_FAIL, coreMover pages (R91). -/
def MV_FAIL : Nat := 0x04C
/-- MV_BYTES, coreMover pages (R91). -/
def MV_BYTES : Nat := 0x050
/-- STAT_CTRL, coreStat pages (R54). -/
def STAT_CTRL : Nat := 0x040
/-- LAYER_ID, coreStat pages (R54). -/
def LAYER_ID : Nat := 0x044
/-- LAYER_ABSMAX, coreStat pages (R54). -/
def LAYER_ABSMAX : Nat := 0x048
/-- LAYER_SAT_COUNT, coreStat pages (R54). -/
def LAYER_SAT_COUNT : Nat := 0x04C
/-- LAYER_NAN_COUNT, coreStat pages (R54). -/
def LAYER_NAN_COUNT : Nat := 0x050
/-- ZERO_SCALE_COUNT, coreStat pages (R54). -/
def ZERO_SCALE_COUNT : Nat := 0x054
/-- ACC_SAT_COUNT, coreStat pages (R54). -/
def ACC_SAT_COUNT : Nat := 0x058
/-- SAT_TOTAL, coreStat pages (R54). -/
def SAT_TOTAL : Nat := 0x05C
/-- NAN_TOTAL, coreStat pages (R54). -/
def NAN_TOTAL : Nat := 0x060
/-- REHEAT_BUDGET_RT, coreStat pages (R54). -/
def REHEAT_BUDGET_RT : Nat := 0x064
/-- REHEAT_BUDGET_BE, coreStat pages (R54). -/
def REHEAT_BUDGET_BE : Nat := 0x068
/-- REHEAT_REMAIN_RT, coreStat pages (R54). -/
def REHEAT_REMAIN_RT : Nat := 0x06C
/-- REHEAT_REMAIN_BE, coreStat pages (R54). -/
def REHEAT_REMAIN_BE : Nat := 0x070
/-- REHEAT_RUN_COUNT, coreStat pages (R54). -/
def REHEAT_RUN_COUNT : Nat := 0x074
/-- REHEAT_DENIED_COUNT, coreStat pages (R54). -/
def REHEAT_DENIED_COUNT : Nat := 0x078
/-- REHEAT_MISSED_COUNT, coreStat pages (R54). -/
def REHEAT_MISSED_COUNT : Nat := 0x07C
/-- RNG_STATUS, coreStat pages (R54). -/
def RNG_STATUS : Nat := 0x080
/-- REHEAT_THRESH, coreStat pages (R54). -/
def REHEAT_THRESH : Nat := 0x400
/-- REHEAT_COST, coreStat pages (R54). -/
def REHEAT_COST : Nat := 0x404
/-- TILE_ABSMAX, coreStat pages (R54). -/
def TILE_ABSMAX : Nat := 0xC00
/-- TILE_COUNT, coreStat pages (R54). -/
def TILE_COUNT : Nat := 0xC04
/-- KL_CTRL, link pages (R337). -/
def KL_CTRL : Nat := 0x040
/-- KL_STATUS, link pages (R337). -/
def KL_STATUS : Nat := 0x044
/-- KL_FEC_CORR, link pages (R337). -/
def KL_FEC_CORR : Nat := 0x048
/-- KL_FEC_UNCORR, link pages (R337). -/
def KL_FEC_UNCORR : Nat := 0x04C
/-- KL_CRC_ERR, link pages (R337). -/
def KL_CRC_ERR : Nat := 0x050
/-- KL_REPLAY_COUNT, link pages (R337). -/
def KL_REPLAY_COUNT : Nat := 0x054
/-- KL_DOWN_COUNT, link pages (R337). -/
def KL_DOWN_COUNT : Nat := 0x058
/-- KL_TRAIN_TIME, link pages (R337). -/
def KL_TRAIN_TIME : Nat := 0x05C
/-- KL_LINK_DELAY, link pages (R337). -/
def KL_LINK_DELAY : Nat := 0x060
/-- KL_TAGS_OUT, link pages (R337). -/
def KL_TAGS_OUT : Nat := 0x064
/-- KL_TAG_LIMIT, link pages (R337). -/
def KL_TAG_LIMIT : Nat := 0x068
/-- KL_MALFORMED, link pages (R337). -/
def KL_MALFORMED : Nat := 0x06C
/-- KL_VC_CREDIT, linkVc pages (R337). -/
def KL_VC_CREDIT : Nat := 0x040
/-- KL_VC_TX_FLITS, linkVc pages (R337). -/
def KL_VC_TX_FLITS : Nat := 0x080
/-- KL_SEC_STATUS, linkSec pages (R337). -/
def KL_SEC_STATUS : Nat := 0x040
/-- KL_AUTH_FAIL, linkSec pages (R337). -/
def KL_AUTH_FAIL : Nat := 0x044
/-- KL_KEY_FAIL, linkSec pages (R337). -/
def KL_KEY_FAIL : Nat := 0x048
/-- KL_PEER_ID_LO, linkSec pages (R337). -/
def KL_PEER_ID_LO : Nat := 0x04C
/-- KL_PEER_ID_HI, linkSec pages (R337). -/
def KL_PEER_ID_HI : Nat := 0x050
/-- FB_NODE, fabric pages (R337). -/
def FB_NODE : Nat := 0x040
/-- FB_ENUM_CTRL, fabric pages (R337). -/
def FB_ENUM_CTRL : Nat := 0x044
/-- FB_ENUM_STATUS, fabric pages (R337). -/
def FB_ENUM_STATUS : Nat := 0x048
/-- FB_ACCESS, fabric pages (R337). -/
def FB_ACCESS : Nat := 0x04C
/-- FB_GEN_DROP, fabric pages (R337). -/
def FB_GEN_DROP : Nat := 0x050
/-- FB_ROUTE_DROP, fabric pages (R337). -/
def FB_ROUTE_DROP : Nat := 0x054
/-- FB_Z_DAMAGED, fabric pages (R337). -/
def FB_Z_DAMAGED : Nat := 0x058
/-- FB_ROUTE, fabric pages (R337). -/
def FB_ROUTE : Nat := 0x100
/-- FB_PEER, fabric pages (R337). -/
def FB_PEER : Nat := 0x180
/-- FB_ADJ, fabric pages (R337). -/
def FB_ADJ : Nat := 0x200
/-- TS_PDELAY_PERIOD, tsync pages (R337). -/
def TS_PDELAY_PERIOD : Nat := 0x040
/-- TS_STATUS, tsync pages (R337). -/
def TS_STATUS : Nat := 0x044
/-- TS_SYNC_COUNT, tsync pages (R337). -/
def TS_SYNC_COUNT : Nat := 0x048
/-- TS_SYNC_DROP, tsync pages (R337). -/
def TS_SYNC_DROP : Nat := 0x04C
/-- TS_LAST_ORIGIN_LO, tsync pages (R337). -/
def TS_LAST_ORIGIN_LO : Nat := 0x050
/-- TS_LAST_ORIGIN_HI, tsync pages (R337). -/
def TS_LAST_ORIGIN_HI : Nat := 0x054
/-- DC_STATUS, dram pages (R297). -/
def DC_STATUS : Nat := 0x040
/-- DC_ECC, dram pages (R297). -/
def DC_ECC : Nat := 0x044
/-- DC_SCRUB_CTRL, dram pages (R297). -/
def DC_SCRUB_CTRL : Nat := 0x048
/-- DC_SCRUB_POS, dram pages (R297). -/
def DC_SCRUB_POS : Nat := 0x04C
/-- DC_TEMP, dram pages (R297). -/
def DC_TEMP : Nat := 0x050
/-- DC_RD_UNITS, dram pages (R297). -/
def DC_RD_UNITS : Nat := 0x054
/-- DC_WR_UNITS, dram pages (R297). -/
def DC_WR_UNITS : Nat := 0x058
/-- DC_RETRAIN_COUNT, dram pages (R297). -/
def DC_RETRAIN_COUNT : Nat := 0x05C
/-- AP_FMT, serial pages (R249). -/
def AP_FMT : Nat := 0x040
/-- AP_CLK, serial pages (R249). -/
def AP_CLK : Nat := 0x044
/-- AP_RATE_NOM, serial pages (R249). -/
def AP_RATE_NOM : Nat := 0x048
/-- AP_START_T_LO, serial pages (R249). -/
def AP_START_T_LO : Nat := 0x04C
/-- AP_START_T_HI, serial pages (R249). -/
def AP_START_T_HI : Nat := 0x050
/-- AP_OUT_OFFSET, serial pages (R249). -/
def AP_OUT_OFFSET : Nat := 0x054
/-- AP_CTRL, serial pages (R249). -/
def AP_CTRL : Nat := 0x058
/-- AP_GATE, serial pages (R249). -/
def AP_GATE : Nat := 0x05C
/-- AP_RATE_CTRL, serial pages (R249). -/
def AP_RATE_CTRL : Nat := 0x060
/-- AP_STATUS, serial pages (R249). -/
def AP_STATUS : Nat := 0x064
/-- AP_RATE_MEAS, serial pages (R249). -/
def AP_RATE_MEAS : Nat := 0x068
/-- AP_UNDERRUN_COUNT, serial pages (R249). -/
def AP_UNDERRUN_COUNT : Nat := 0x06C
/-- AP_OVERWRITE_COUNT, serial pages (R249). -/
def AP_OVERWRITE_COUNT : Nat := 0x070
/-- AP_FILL_COUNT, serial pages (R249). -/
def AP_FILL_COUNT : Nat := 0x074
/-- AP_GATE_TO_COUNT, serial pages (R249). -/
def AP_GATE_TO_COUNT : Nat := 0x078
/-- AP_CLIP_COUNT, serial pages (R249). -/
def AP_CLIP_COUNT : Nat := 0x07C
/-- AP_MAP, serial pages (R249). -/
def AP_MAP : Nat := 0x100
/-- AP_MOD_RESET_COUNT, pdmOut pages (R249). -/
def AP_MOD_RESET_COUNT : Nat := 0x080
/-- APLL_CTRL, apll pages (R249). -/
def APLL_CTRL : Nat := 0x040
/-- APLL_MULT, apll pages (R249). -/
def APLL_MULT : Nat := 0x044
/-- APLL_STATUS, apll pages (R249). -/
def APLL_STATUS : Nat := 0x048
/-- APLL_STEER_NOW, apll pages (R249). -/
def APLL_STEER_NOW : Nat := 0x04C
/-- APLL_BELLOWS, apll pages (R249). -/
def APLL_BELLOWS : Nat := 0x050
/-- APLL_GAIN, apll pages (R249). -/
def APLL_GAIN : Nat := 0x054
/-- APLL_LIMIT, apll pages (R249). -/
def APLL_LIMIT : Nat := 0x058
/-- APLL_FILL, apll pages (R249). -/
def APLL_FILL : Nat := 0x05C
/-- APLL_LOCK_LOSS_COUNT, apll pages (R249). -/
def APLL_LOCK_LOSS_COUNT : Nat := 0x060
/-- ASRC_BANK, asrc pages (R249). -/
def ASRC_BANK : Nat := 0x040
/-- ASRC_RATIO, asrc pages (R249). -/
def ASRC_RATIO : Nat := 0x044
/-- ASRC_STATUS, asrc pages (R249). -/
def ASRC_STATUS : Nat := 0x048
/-- AB_USED, audioBuf pages (R249). -/
def AB_USED : Nat := 0x040
/-- AB_ECC, audioBuf pages (R249). -/
def AB_ECC : Nat := 0x044
/-- RING_BASE, audioBuf pages (R249). -/
def RING_BASE : Nat := 0x100
/-- RING_FRAMES, audioBuf pages (R249). -/
def RING_FRAMES : Nat := 0x104
/-- RING_SHAPE, audioBuf pages (R249). -/
def RING_SHAPE : Nat := 0x108
/-- RING_SLOT, audioBuf pages (R249). -/
def RING_SLOT : Nat := 0x10C
end Reg

/-- The registers of the header of all pages (rule R441). -/
def regsHeader : List RegDef :=
  [ ⟨Reg.PG_ID, 4, 1, [⟨0, 8, .ro, 0x1⟩, ⟨8, 8, .ro, 0x0⟩, ⟨16, 16, .ro, 0x0⟩]⟩,
    ⟨Reg.PG_CTRL, 4, 1, [⟨0, 1, .rw, 0x0⟩, ⟨1, 1, .wo, 0x0⟩, ⟨2, 1, .w1s, 0x0⟩]⟩,
    ⟨Reg.PG_STATE, 4, 1, [⟨0, 2, .ro, 0x0⟩, ⟨2, 1, .ro, 0x0⟩]⟩,
    ⟨Reg.PG_IRQ_STATUS, 4, 1, [⟨0, 16, .w1c, 0x0⟩]⟩,
    ⟨Reg.PG_IRQ_ENABLE, 4, 1, [⟨0, 16, .rw, 0x0⟩]⟩,
    ⟨Reg.PG_IRQ_FORCE, 4, 1, [⟨0, 16, .wo, 0x0⟩]⟩,
    ⟨Reg.PG_ERR_STATUS, 4, 1, [⟨0, 16, .w1c, 0x0⟩, ⟨27, 1, .w1c, 0x0⟩, ⟨28, 1, .w1c, 0x0⟩, ⟨29, 1, .w1c, 0x0⟩, ⟨30, 1, .w1c, 0x0⟩, ⟨31, 1, .w1c, 0x0⟩]⟩,
    ⟨Reg.PG_ERR_COUNT, 4, 1, [⟨0, 16, .rc, 0x0⟩]⟩,
    ⟨Reg.PG_ERR_ADDR_LO, 4, 1, [⟨0, 32, .ro, 0x0⟩]⟩,
    ⟨Reg.PG_ERR_ADDR_HI, 4, 1, [⟨0, 32, .ro, 0x0⟩]⟩,
    ⟨Reg.PG_LOCK, 4, 1, [⟨0, 1, .w1s, 0x0⟩]⟩,
    ⟨Reg.PG_SCRATCH, 4, 1, [⟨0, 32, .rw, 0x0⟩]⟩ ]

/-- The registers of the device pages (rule R449). -/
def regsDevice : List RegDef :=
  [ ⟨Reg.DV_VENDOR, 4, 1, [⟨0, 32, .ro, 0x43484F56⟩]⟩,
    ⟨Reg.DV_ID, 4, 1, [⟨0, 16, .ro, 0x7732⟩, ⟨16, 4, .ro, 0x0⟩, ⟨20, 4, .ro, 0x0⟩, ⟨24, 4, .ro, 0x0⟩]⟩,
    ⟨Reg.DV_STATUS, 4, 1, [⟨0, 1, .ro, 0x0⟩, ⟨1, 1, .ro, 0x0⟩, ⟨2, 1, .ro, 0x0⟩, ⟨4, 5, .ro, 0x1F⟩, ⟨9, 8, .ro, 0x0⟩]⟩,
    ⟨Reg.DV_STRAPS, 4, 1, [⟨0, 2, .ro, 0x0⟩, ⟨2, 1, .ro, 0x0⟩]⟩,
    ⟨Reg.DV_RESET_CAUSE, 4, 1, [⟨0, 1, .ro, 0x1⟩, ⟨1, 3, .ro, 0x0⟩]⟩,
    ⟨Reg.DV_IRQ_GLOBAL, 4, 1, [⟨0, 32, .ro, 0x0⟩]⟩,
    ⟨Reg.DV_IRQ_CORE, 4, 1, [⟨0, 32, .ro, 0x0⟩]⟩,
    ⟨Reg.DV_IRQ_LINK_MEM, 4, 1, [⟨0, 4, .ro, 0x0⟩, ⟨4, 2, .ro, 0x0⟩, ⟨6, 16, .ro, 0x0⟩]⟩,
    ⟨Reg.DV_IRQ_AUDIO, 4, 1, [⟨0, 12, .ro, 0x0⟩, ⟨12, 6, .ro, 0x0⟩, ⟨18, 2, .ro, 0x0⟩, ⟨20, 2, .ro, 0x0⟩, ⟨22, 1, .ro, 0x0⟩, ⟨23, 1, .ro, 0x0⟩]⟩,
    ⟨Reg.DV_IRQ_CTRL, 4, 1, [⟨0, 7, .rw, 0x0⟩, ⟨7, 1, .rw, 0x0⟩]⟩ ]

/-- The registers of the clocks pages (rule R449). -/
def regsClocks : List RegDef :=
  [ ⟨Reg.CK_STATUS, 4, 1, [⟨0, 1, .ro, 0x0⟩, ⟨1, 1, .ro, 0x0⟩, ⟨2, 4, .ro, 0x0⟩, ⟨6, 1, .ro, 0x0⟩, ⟨7, 1, .ro, 0x0⟩, ⟨8, 1, .ro, 0x0⟩, ⟨9, 1, .ro, 0x0⟩]⟩,
    ⟨Reg.CK_ARITH, 4, 1, [⟨0, 12, .ro, 0x8CA⟩]⟩,
    ⟨Reg.CK_LOSS_COUNT, 4, 1, [⟨0, 32, .rc, 0x0⟩]⟩ ]

/-- The registers of the timebase pages (rule R218). -/
def regsTimebase : List RegDef :=
  [ ⟨Reg.TB_CTRL, 4, 1, [⟨0, 2, .rw, 0x0⟩, ⟨2, 5, .rw, 0x0⟩, ⟨7, 1, .rw, 0x1⟩]⟩,
    ⟨Reg.TB_STATUS, 4, 1, [⟨0, 2, .ro, 0x0⟩, ⟨2, 1, .ro, 0x0⟩, ⟨3, 1, .ro, 0x0⟩]⟩,
    ⟨Reg.TB_NOW_LO, 4, 1, [⟨0, 32, .ro, 0x0⟩]⟩,
    ⟨Reg.TB_NOW_HI, 4, 1, [⟨0, 32, .ro, 0x0⟩]⟩,
    ⟨Reg.TB_INC_LO, 4, 1, [⟨0, 32, .rw, 0xAAAAAAA⟩]⟩,
    ⟨Reg.TB_INC_HI, 4, 1, [⟨0, 16, .rw, 0x1A⟩]⟩,
    ⟨Reg.TB_OFFSET, 4, 1, [⟨0, 32, .ro, 0x0⟩]⟩,
    ⟨Reg.TB_SLEW_LIMIT, 4, 1, [⟨0, 10, .rw, 0xC8⟩]⟩,
    ⟨Reg.TB_STEP_THRESH, 4, 1, [⟨0, 24, .rw, 0x3E8⟩]⟩,
    ⟨Reg.TB_HOLD_LIMIT, 4, 1, [⟨0, 16, .rw, 0xA⟩]⟩,
    ⟨Reg.TB_LOCK_LOSS_COUNT, 4, 1, [⟨0, 32, .rc, 0x0⟩]⟩,
    ⟨Reg.TB_SET_LO, 4, 1, [⟨0, 32, .wo, 0x0⟩]⟩,
    ⟨Reg.TB_SET_HI, 4, 1, [⟨0, 32, .wo, 0x0⟩]⟩ ]

/-- The registers of the angle pages (rule R218). -/
def regsAngle : List RegDef :=
  [ ⟨Reg.ANG_CTRL, 64, 2, [⟨0, 2, .rw, 0x0⟩, ⟨2, 1, .rw, 0x0⟩, ⟨3, 10, .rw, 0x0⟩, ⟨13, 2, .rw, 0x0⟩, ⟨15, 8, .rw, 0x0⟩]⟩,
    ⟨Reg.ANG_TIMEOUT, 64, 2, [⟨0, 16, .rw, 0x64⟩]⟩,
    ⟨Reg.ANG_NOW, 64, 2, [⟨0, 32, .ro, 0x0⟩]⟩,
    ⟨Reg.ANG_RATE, 64, 2, [⟨0, 32, .ro, 0x0⟩]⟩,
    ⟨Reg.ANG_STATUS, 64, 2, [⟨0, 2, .ro, 0x0⟩]⟩,
    ⟨Reg.ANG_SYNC_ERR_COUNT, 64, 2, [⟨0, 32, .rc, 0x0⟩]⟩,
    ⟨Reg.ANG_HS_T_LO, 64, 2, [⟨0, 32, .rw, 0x0⟩]⟩,
    ⟨Reg.ANG_HS_T_HI, 64, 2, [⟨0, 32, .rw, 0x0⟩]⟩,
    ⟨Reg.ANG_HS_ANGLE, 64, 2, [⟨0, 32, .rw, 0x0⟩]⟩,
    ⟨Reg.ANG_HS_RATE, 64, 2, [⟨0, 32, .rw, 0x0⟩]⟩,
    ⟨Reg.ANG_HS_COMMIT, 64, 2, [⟨0, 1, .wo, 0x0⟩]⟩,
    ⟨Reg.ANG_STALE_COUNT, 64, 2, [⟨0, 32, .rc, 0x0⟩]⟩ ]

/-- The registers of the pattern pages (rule R218). -/
def regsPattern : List RegDef :=
  [ ⟨Reg.PT_CTRL, 4, 1, [⟨0, 1, .rw, 0x0⟩, ⟨1, 1, .w1s, 0x0⟩]⟩,
    ⟨Reg.PT_STATUS, 4, 1, [⟨0, 1, .ro, 0x0⟩, ⟨1, 1, .ro, 0x0⟩, ⟨2, 1, .ro, 0x0⟩, ⟨3, 4, .ro, 0x0⟩, ⟨7, 9, .ro, 0x0⟩]⟩,
    ⟨Reg.PT_BAR_LEN, 4, 1, [⟨0, 26, .rw, 0x3D0900⟩]⟩,
    ⟨Reg.PT_EPOCH_LO, 4, 1, [⟨0, 32, .rw, 0x0⟩]⟩,
    ⟨Reg.PT_EPOCH_HI, 4, 1, [⟨0, 32, .rw, 0x0⟩]⟩,
    ⟨Reg.PT_BAR_NOW_LO, 4, 1, [⟨0, 32, .ro, 0x0⟩]⟩,
    ⟨Reg.PT_BAR_NOW_HI, 4, 1, [⟨0, 32, .ro, 0x0⟩]⟩,
    ⟨Reg.PT_ENTRY_SEL, 4, 1, [⟨0, 9, .rw, 0x0⟩, ⟨9, 1, .rw, 0x0⟩]⟩,
    ⟨Reg.PT_ENTRY, 4, 4, [⟨0, 32, .rw, 0x0⟩]⟩,
    ⟨Reg.PT_BEAT_DROP_COUNT, 4, 1, [⟨0, 32, .rc, 0x0⟩]⟩,
    ⟨Reg.PT_BEAT_MISSED_COUNT, 4, 1, [⟨0, 32, .rc, 0x0⟩]⟩,
    ⟨Reg.PT_BEAT_OVERRUN_COUNT, 4, 1, [⟨0, 32, .rc, 0x0⟩]⟩,
    ⟨Reg.PT_PREEMPT_MAX, 4, 1, [⟨0, 32, .rc, 0x0⟩]⟩,
    ⟨Reg.PART_CORES, 16, 8, [⟨0, 32, .rwl, 0x0⟩]⟩,
    ⟨Reg.PART_MEM, 16, 8, [⟨0, 4, .rwl, 0x0⟩, ⟨16, 16, .rwl, 0x0⟩]⟩,
    ⟨Reg.PART_CTRL, 16, 8, [⟨0, 16, .rwl, 0x3E8⟩, ⟨16, 16, .rwl, 0x14⟩]⟩,
    ⟨Reg.CTX_STATUS, 4, 64, [⟨0, 3, .ro, 0x0⟩, ⟨3, 2, .ro, 0x0⟩, ⟨5, 3, .ro, 0x0⟩, ⟨8, 3, .ro, 0x0⟩, ⟨11, 4, .ro, 0x0⟩, ⟨15, 2, .ro, 0x0⟩, ⟨17, 1, .ro, 0x0⟩]⟩ ]

/-- The registers of the streams pages (rule R179). -/
def regsStreams : List RegDef :=
  [ ⟨Reg.SM_COUNTS, 4, 1, [⟨0, 12, .ro, 0x0⟩, ⟨16, 12, .ro, 0x0⟩]⟩,
    ⟨Reg.SM_FLAGS, 4, 1, [⟨0, 1, .w1c, 0x0⟩, ⟨1, 1, .w1c, 0x0⟩, ⟨2, 1, .w1c, 0x0⟩, ⟨3, 1, .w1c, 0x0⟩, ⟨4, 1, .w1c, 0x0⟩, ⟨5, 1, .w1c, 0x0⟩]⟩,
    ⟨Reg.SM_LATE_COUNT, 4, 1, [⟨0, 32, .rc, 0x0⟩]⟩,
    ⟨Reg.SM_OVERRUN_COUNT, 4, 1, [⟨0, 32, .rc, 0x0⟩]⟩,
    ⟨Reg.SM_CONCEAL_COUNT, 4, 1, [⟨0, 32, .rc, 0x0⟩]⟩,
    ⟨Reg.SM_STAGE_LATE_COUNT, 4, 1, [⟨0, 32, .rc, 0x0⟩]⟩,
    ⟨Reg.SM_WL_LATE_COUNT, 4, 1, [⟨0, 32, .rc, 0x0⟩]⟩,
    ⟨Reg.SM_OUT_SAT_COUNT, 4, 1, [⟨0, 32, .rc, 0x0⟩]⟩,
    ⟨Reg.SM_PUSH_FAIL_COUNT, 4, 1, [⟨0, 32, .rc, 0x0⟩]⟩,
    ⟨Reg.SM_WL_TIME_MAX, 4, 1, [⟨0, 20, .rc, 0x0⟩]⟩,
    ⟨Reg.SM_COMMIT_TIME_MAX, 4, 1, [⟨0, 20, .rc, 0x0⟩]⟩,
    ⟨Reg.SM_ENTRY_SEL, 4, 1, [⟨0, 11, .rw, 0x0⟩]⟩,
    ⟨Reg.SM_ENTRY, 4, 16, [⟨0, 32, .ro, 0x0⟩]⟩,
    ⟨Reg.WL_BASE, 8, 32, [⟨0, 22, .rwl, 0x0⟩]⟩,
    ⟨Reg.WL_STRIDE, 8, 32, [⟨0, 18, .rwl, 0x0⟩]⟩ ]

/-- The registers of the queueMgr pages (rule R354). -/
def regsQueueMgr : List RegDef :=
  [ ⟨Reg.QM_STATUS, 4, 1, [⟨0, 16, .ro, 0x0⟩, ⟨16, 1, .ro, 0x0⟩, ⟨17, 9, .ro, 0x0⟩]⟩,
    ⟨Reg.QM_FLAGS, 4, 1, [⟨0, 1, .w1c, 0x0⟩, ⟨1, 1, .w1c, 0x0⟩, ⟨2, 1, .w1c, 0x0⟩, ⟨3, 1, .w1c, 0x0⟩]⟩,
    ⟨Reg.QM_ADMIN_SQ_LO, 4, 1, [⟨0, 32, .rw, 0x0⟩]⟩,
    ⟨Reg.QM_ADMIN_SQ_HI, 4, 1, [⟨0, 32, .rw, 0x0⟩]⟩,
    ⟨Reg.QM_ADMIN_CQ_LO, 4, 1, [⟨0, 32, .rw, 0x0⟩]⟩,
    ⟨Reg.QM_ADMIN_CQ_HI, 4, 1, [⟨0, 32, .rw, 0x0⟩]⟩,
    ⟨Reg.QM_ADMIN_SHAPE, 4, 1, [⟨0, 5, .rw, 0x0⟩, ⟨8, 5, .rw, 0x0⟩, ⟨16, 7, .rw, 0x0⟩, ⟨23, 1, .rw, 0x0⟩, ⟨24, 8, .rw, 0x0⟩]⟩,
    ⟨Reg.QM_ADMIN_CTRL, 4, 1, [⟨0, 1, .rw, 0x0⟩]⟩,
    ⟨Reg.QM_Q_SEL, 4, 1, [⟨0, 15, .rw, 0x0⟩]⟩,
    ⟨Reg.QM_IMAGE_STATE, 4, 1, [⟨0, 2, .ro, 0x0⟩, ⟨8, 8, .ro, 0x0⟩]⟩,
    ⟨Reg.QM_PUSH_COUNT, 4, 1, [⟨0, 32, .rc, 0x0⟩]⟩,
    ⟨Reg.QM_PUSH_REFUSED_COUNT, 4, 1, [⟨0, 32, .rc, 0x0⟩]⟩,
    ⟨Reg.QM_DB_ERR_COUNT, 4, 1, [⟨0, 32, .rc, 0x0⟩]⟩,
    ⟨Reg.QM_CMD_COUNT, 4, 1, [⟨0, 32, .rc, 0x0⟩]⟩,
    ⟨Reg.QM_IRQ_COUNT, 4, 1, [⟨0, 32, .rc, 0x0⟩]⟩,
    ⟨Reg.QM_Q_DESC, 4, 8, [⟨0, 32, .ro, 0x0⟩]⟩,
    ⟨Reg.QM_VEC_ADDR_LO, 16, 128, [⟨0, 32, .rw, 0x0⟩]⟩,
    ⟨Reg.QM_VEC_ADDR_HI, 16, 128, [⟨0, 32, .rw, 0x0⟩]⟩,
    ⟨Reg.QM_VEC_DATA, 16, 128, [⟨0, 32, .rw, 0x0⟩]⟩,
    ⟨Reg.QM_VEC_CTRL, 16, 128, [⟨0, 1, .rw, 0x1⟩, ⟨1, 1, .rw, 0x0⟩, ⟨2, 1, .w1c, 0x0⟩]⟩ ]

/-- The registers of the semaphores pages (rule R449). -/
def regsSemaphores : List RegDef :=
  [ ⟨Reg.SE_WAITS, 4, 1, [⟨0, 13, .ro, 0x0⟩]⟩,
    ⟨Reg.SE_HOLDERS, 4, 1, [⟨0, 12, .ro, 0x0⟩]⟩,
    ⟨Reg.SE_BUSY_COUNT, 4, 1, [⟨0, 32, .rc, 0x0⟩]⟩,
    ⟨Reg.SE_SAT_COUNT, 4, 1, [⟨0, 32, .rc, 0x0⟩]⟩ ]

/-- The registers of the safety pages (rule R378). -/
def regsSafety : List RegDef :=
  [ ⟨Reg.SF_CTRL, 4, 1, [⟨0, 1, .rwl, 0x0⟩, ⟨16, 10, .rwl, 0x64⟩]⟩,
    ⟨Reg.SF_STATUS, 4, 1, [⟨0, 1, .ro, 0x0⟩, ⟨1, 1, .ro, 0x0⟩, ⟨2, 1, .ro, 0x1⟩, ⟨8, 4, .ro, 0x0⟩, ⟨12, 1, .ro, 0x0⟩]⟩,
    ⟨Reg.SF_FAULT, 4, 1, [⟨0, 16, .w1c, 0x0⟩]⟩,
    ⟨Reg.SF_CLASS, 4, 1, [⟨0, 32, .rwl, 0x5D6576FF⟩]⟩,
    ⟨Reg.SF_LFT_STATUS, 4, 1, [⟨0, 1, .ro, 0x0⟩, ⟨8, 8, .ro, 0x0⟩, ⟨16, 16, .ro, 0x0⟩]⟩,
    ⟨Reg.SF_CFG_FAULT_COUNT, 4, 1, [⟨0, 32, .rc, 0x0⟩]⟩,
    ⟨Reg.SF_CFG_CORR_COUNT, 4, 1, [⟨0, 32, .rc, 0x0⟩]⟩,
    ⟨Reg.SF_FAULT_TIME_LO, 4, 1, [⟨0, 32, .ro, 0x0⟩]⟩,
    ⟨Reg.SF_FAULT_TIME_HI, 4, 1, [⟨0, 32, .ro, 0x0⟩]⟩,
    ⟨Reg.SF_E2E, 8, 16, [⟨0, 1, .rwl, 0x0⟩, ⟨1, 5, .rwl, 0x0⟩, ⟨6, 4, .rwl, 0x0⟩]⟩,
    ⟨Reg.SF_E2E_COUNT, 8, 16, [⟨0, 32, .rc, 0x0⟩]⟩,
    ⟨Reg.SF_CTRL_N, 4, 1, [⟨0, 32, .rwl, 0xFF9BFFFF⟩]⟩,
    ⟨Reg.SF_CLASS_N, 4, 1, [⟨0, 32, .rwl, 0xA29A8900⟩]⟩,
    ⟨Reg.SF_E2E_N, 8, 16, [⟨0, 32, .rwl, 0xFFFFFFFF⟩]⟩ ]

/-- The registers of the hang pages (rule R398). -/
def regsHang : List RegDef :=
  [ ⟨Reg.HG_CTRL, 4, 1, [⟨0, 1, .rw, 0x1⟩, ⟨1, 1, .rw, 0x1⟩, ⟨2, 1, .rw, 0x1⟩, ⟨3, 1, .rw, 0x1⟩]⟩,
    ⟨Reg.HG_STATUS, 4, 1, [⟨0, 2, .ro, 0x0⟩, ⟨2, 1, .ro, 0x0⟩, ⟨3, 6, .ro, 0x0⟩, ⟨9, 1, .ro, 0x0⟩]⟩,
    ⟨Reg.HG_NOPROG_US, 4, 1, [⟨0, 16, .rw, 0x1F4⟩]⟩,
    ⟨Reg.HG_SEM_US, 4, 1, [⟨0, 16, .rw, 0x1F40⟩]⟩,
    ⟨Reg.HG_ENGINE_US, 4, 1, [⟨0, 16, .rw, 0x64⟩]⟩,
    ⟨Reg.HG_HOLD_US, 4, 1, [⟨0, 16, .rw, 0x3E8⟩]⟩,
    ⟨Reg.HG_RESET_REQ, 4, 1, [⟨0, 2, .wo, 0x0⟩, ⟨2, 5, .wo, 0x0⟩, ⟨7, 3, .wo, 0x0⟩, ⟨10, 3, .wo, 0x0⟩, ⟨24, 8, .wo, 0x0⟩]⟩,
    ⟨Reg.HG_SUSPECT_LO, 4, 1, [⟨0, 32, .ro, 0x0⟩]⟩,
    ⟨Reg.HG_SUSPECT_HI, 4, 1, [⟨0, 32, .ro, 0x0⟩]⟩,
    ⟨Reg.HG_CONDEMNED_LO, 4, 1, [⟨0, 32, .ro, 0x0⟩]⟩,
    ⟨Reg.HG_CONDEMNED_HI, 4, 1, [⟨0, 32, .ro, 0x0⟩]⟩,
    ⟨Reg.HG_REPLAY_CTX_LO, 4, 1, [⟨0, 32, .rwl, 0x0⟩]⟩,
    ⟨Reg.HG_REPLAY_CTX_HI, 4, 1, [⟨0, 32, .rwl, 0x0⟩]⟩,
    ⟨Reg.HG_CKPT_BASE_LO, 4, 1, [⟨0, 32, .rwl, 0x0⟩]⟩,
    ⟨Reg.HG_CKPT_BASE_HI, 4, 1, [⟨0, 32, .rwl, 0x0⟩]⟩,
    ⟨Reg.HG_CKPT_BYTES, 4, 1, [⟨0, 29, .rwl, 0x0⟩]⟩,
    ⟨Reg.HG_RECORD_OVF, 4, 1, [⟨0, 32, .rc, 0x0⟩]⟩,
    ⟨Reg.HG_HOLDER_OVF, 4, 1, [⟨0, 32, .rc, 0x0⟩]⟩,
    ⟨Reg.HG_CKPT_OVF, 4, 1, [⟨0, 32, .rc, 0x0⟩]⟩,
    ⟨Reg.HG_HANG_COUNT, 4, 1, [⟨0, 32, .rc, 0x0⟩]⟩ ] ++
  [ ⟨Reg.HG_ENGINE_RESET_COUNT, 4, 1, [⟨0, 32, .rc, 0x0⟩]⟩,
    ⟨Reg.HG_PART_RESET_COUNT, 4, 1, [⟨0, 32, .rc, 0x0⟩]⟩,
    ⟨Reg.HG_CHIP_RESET_COUNT, 4, 1, [⟨0, 32, .rc, 0x0⟩]⟩,
    ⟨Reg.HG_REPLAY_PASS_COUNT, 4, 1, [⟨0, 32, .rc, 0x0⟩]⟩,
    ⟨Reg.HG_REPLAY_FAIL_COUNT, 4, 1, [⟨0, 32, .rc, 0x0⟩]⟩,
    ⟨Reg.EV_WR, 4, 1, [⟨0, 32, .ro, 0x0⟩]⟩ ]

/-- The registers of the dump pages (rule R398). -/
def regsDump : List RegDef :=
  [ ⟨Reg.DM_SEL, 4, 1, [⟨0, 6, .rw, 0xF⟩]⟩,
    ⟨Reg.DM_SPAD_CORES, 4, 1, [⟨0, 32, .rw, 0x0⟩]⟩,
    ⟨Reg.DM_SPAD_OFF, 4, 1, [⟨0, 22, .rw, 0x0⟩]⟩,
    ⟨Reg.DM_SPAD_LEN, 4, 1, [⟨0, 23, .rw, 0x0⟩]⟩,
    ⟨Reg.DM_STATUS, 4, 1, [⟨0, 1, .ro, 0x0⟩, ⟨1, 1, .ro, 0x0⟩, ⟨8, 8, .ro, 0x0⟩]⟩,
    ⟨Reg.DM_BYTES, 4, 1, [⟨0, 32, .ro, 0x0⟩]⟩,
    ⟨Reg.DM_DEAD_COUNT, 4, 1, [⟨0, 32, .rc, 0x0⟩]⟩,
    ⟨Reg.DM_COUNT, 4, 1, [⟨0, 32, .rc, 0x0⟩]⟩ ]

/-- The registers of the power pages (rule R438). -/
def regsPower : List RegDef :=
  [ ⟨Reg.PW_CTRL, 4, 1, [⟨0, 3, .rw, 0x5⟩, ⟨3, 3, .rw, 0x0⟩, ⟨6, 1, .rw, 0x0⟩]⟩,
    ⟨Reg.PW_STATUS, 4, 1, [⟨0, 3, .ro, 0x0⟩, ⟨3, 1, .ro, 0x0⟩, ⟨4, 1, .ro, 0x0⟩, ⟨5, 1, .ro, 0x0⟩, ⟨6, 3, .ro, 0x0⟩]⟩,
    ⟨Reg.PW_LIMIT, 4, 1, [⟨0, 9, .rw, 0x120⟩, ⟨16, 7, .rw, 0xA⟩]⟩,
    ⟨Reg.PW_EST, 4, 1, [⟨0, 16, .ro, 0x0⟩]⟩,
    ⟨Reg.PW_OP_CHANGE_COUNT, 4, 1, [⟨0, 32, .rc, 0x0⟩]⟩,
    ⟨Reg.PW_LIMIT_EXCEED_COUNT, 4, 1, [⟨0, 32, .rc, 0x0⟩]⟩,
    ⟨Reg.PW_LAST_REFUSED, 4, 1, [⟨0, 7, .ro, 0x0⟩]⟩,
    ⟨Reg.PW_DOM_CTRL, 4, 80, [⟨0, 1, .rw, 0x1⟩]⟩,
    ⟨Reg.PW_DOM_STATE, 4, 80, [⟨0, 2, .ro, 0x2⟩, ⟨2, 1, .ro, 0x0⟩]⟩ ]

/-- The registers of the thermal pages (rule R438). -/
def regsThermal : List RegDef :=
  [ ⟨Reg.TH_CTRL, 4, 1, [⟨0, 8, .rw, 0x6E⟩]⟩,
    ⟨Reg.TH_STATUS, 4, 1, [⟨0, 4, .ro, 0x0⟩, ⟨8, 8, .ro, 0x0⟩, ⟨16, 4, .ro, 0x0⟩]⟩,
    ⟨Reg.TH_MAX, 4, 1, [⟨0, 8, .rc, 0x80⟩]⟩,
    ⟨Reg.TH_THROTTLE_COUNT, 4, 1, [⟨0, 32, .rc, 0x0⟩]⟩,
    ⟨Reg.TH_CRIT_COUNT, 4, 1, [⟨0, 32, .rc, 0x0⟩]⟩,
    ⟨Reg.TH_TEMP, 4, 16, [⟨0, 8, .ro, 0x0⟩, ⟨8, 1, .ro, 0x0⟩, ⟨9, 1, .ro, 0x0⟩]⟩ ]

/-- The registers of the security pages (rule R422). -/
def regsSecurity : List RegDef :=
  [ ⟨Reg.SEC_BOOT_STATUS, 4, 1, [⟨0, 3, .ro, 0x0⟩, ⟨3, 2, .ro, 0x0⟩, ⟨5, 5, .ro, 0x0⟩, ⟨10, 5, .ro, 0x0⟩]⟩,
    ⟨Reg.SEC_BOOT_GO, 4, 1, [⟨0, 1, .wo, 0x0⟩]⟩,
    ⟨Reg.SEC_LIFECYCLE, 4, 1, [⟨0, 2, .ro, 0x0⟩, ⟨4, 4, .ro, 0x0⟩]⟩,
    ⟨Reg.SEC_SVN, 4, 1, [⟨0, 6, .ro, 0x0⟩, ⟨8, 6, .ro, 0x0⟩]⟩,
    ⟨Reg.SEC_SIGNERS, 4, 1, [⟨0, 4, .ro, 0x0⟩, ⟨4, 4, .ro, 0x0⟩, ⟨8, 12, .ro, 0x0⟩]⟩,
    ⟨Reg.SEC_FUSE_CMD, 4, 1, [⟨0, 3, .wo, 0x0⟩, ⟨3, 5, .wo, 0x0⟩, ⟨8, 8, .wo, 0x0⟩, ⟨24, 8, .wo, 0x0⟩]⟩,
    ⟨Reg.SEC_FUSE_STATUS, 4, 1, [⟨0, 1, .ro, 0x0⟩, ⟨1, 1, .ro, 0x0⟩]⟩,
    ⟨Reg.SEC_TRNG_STATUS, 4, 1, [⟨0, 1, .ro, 0x0⟩, ⟨1, 1, .ro, 0x0⟩]⟩,
    ⟨Reg.SEC_TRNG_FAIL_COUNT, 4, 1, [⟨0, 32, .rc, 0x0⟩]⟩,
    ⟨Reg.SEC_KEY_CTRL, 4, 1, [⟨0, 4, .wo, 0x0⟩, ⟨4, 2, .wo, 0x0⟩]⟩,
    ⟨Reg.SEC_KEY_STATUS, 4, 1, [⟨0, 16, .ro, 0x0⟩]⟩,
    ⟨Reg.SEC_DBG_STATUS, 4, 1, [⟨0, 3, .ro, 0x0⟩, ⟨3, 2, .ro, 0x0⟩, ⟨5, 1, .ro, 0x0⟩, ⟨6, 1, .ro, 0x0⟩]⟩,
    ⟨Reg.SEC_DBG_GO, 4, 1, [⟨0, 1, .wo, 0x0⟩]⟩,
    ⟨Reg.SEC_DBG_RELOCK, 4, 1, [⟨0, 1, .wo, 0x0⟩]⟩,
    ⟨Reg.SEC_ATT_GO, 4, 1, [⟨0, 1, .wo, 0x0⟩]⟩,
    ⟨Reg.SEC_ATT_STATUS, 4, 1, [⟨0, 1, .ro, 0x0⟩, ⟨1, 1, .ro, 0x0⟩]⟩,
    ⟨Reg.SEC_SERIAL, 4, 4, [⟨0, 32, .ro, 0x0⟩]⟩,
    ⟨Reg.SEC_KEY_LABEL, 4, 8, [⟨0, 32, .rw, 0x0⟩]⟩,
    ⟨Reg.SEC_FUSE_DATA, 4, 16, [⟨0, 32, .rw, 0x0⟩]⟩,
    ⟨Reg.SEC_ATT_NONCE, 4, 8, [⟨0, 32, .rw, 0x0⟩]⟩ ] ++
  [ ⟨Reg.SEC_DBG_CHAL, 4, 8, [⟨0, 32, .ro, 0x0⟩]⟩,
    ⟨Reg.SEC_DBG_TOKEN, 4, 48, [⟨0, 32, .wo, 0x0⟩]⟩,
    ⟨Reg.SEC_CERT, 4, 40, [⟨0, 32, .ro, 0x0⟩]⟩,
    ⟨Reg.SEC_ATT_REPORT, 4, 48, [⟨0, 32, .ro, 0x0⟩]⟩ ]

/-- The registers of the compression pages (rule R297). -/
def regsCompression : List RegDef :=
  [ ⟨Reg.CE_STATUS, 4, 1, [⟨0, 7, .ro, 0x0⟩, ⟨16, 16, .ro, 0x0⟩]⟩,
    ⟨Reg.CE_TAG_LIMIT, 4, 1, [⟨0, 12, .rwl, 0x200⟩]⟩,
    ⟨Reg.CE_IN_FILL, 4, 1, [⟨0, 19, .ro, 0x0⟩]⟩,
    ⟨Reg.CE_OUT_FILL, 4, 1, [⟨0, 19, .ro, 0x0⟩]⟩,
    ⟨Reg.CE_DAMAGED_COUNT, 4, 1, [⟨0, 32, .rc, 0x0⟩]⟩,
    ⟨Reg.CE_STALE_COUNT, 4, 1, [⟨0, 32, .rc, 0x0⟩]⟩,
    ⟨Reg.CE_RAW_STORED_COUNT, 4, 1, [⟨0, 32, .rc, 0x0⟩]⟩,
    ⟨Reg.CE_JOB_REFUSED_COUNT, 4, 1, [⟨0, 32, .rc, 0x0⟩]⟩,
    ⟨Reg.CE_LANE_CYCLES, 4, 1, [⟨0, 32, .rc, 0x0⟩]⟩,
    ⟨Reg.CE_SLOT_VER, 16, 16, [⟨0, 8, .ro, 0x0⟩, ⟨8, 8, .ro, 0x0⟩, ⟨16, 1, .ro, 0x0⟩, ⟨17, 1, .ro, 0x0⟩, ⟨18, 1, .ro, 0x0⟩]⟩,
    ⟨Reg.CE_SLOT_REFS, 16, 16, [⟨0, 16, .ro, 0x0⟩, ⟨16, 16, .ro, 0x0⟩]⟩,
    ⟨Reg.CE_JOB, 4, 10, [⟨0, 32, .rw, 0x0⟩]⟩,
    ⟨Reg.CE_JOB_GO, 4, 1, [⟨0, 1, .wo, 0x0⟩]⟩ ]

/-- The registers of the mirror pages (rule R378). -/
def regsMirror : List RegDef :=
  [ ⟨Reg.MR_CTRL, 4, 1, [⟨0, 1, .rwl, 0x0⟩, ⟨1, 1, .rwl, 0x0⟩, ⟨2, 5, .rwl, 0x0⟩, ⟨8, 11, .rwl, 0x0⟩]⟩,
    ⟨Reg.MR_STATUS, 4, 1, [⟨0, 2, .ro, 0x0⟩, ⟨2, 1, .ro, 0x0⟩, ⟨3, 1, .ro, 0x0⟩, ⟨4, 1, .ro, 0x0⟩, ⟨5, 2, .ro, 0x0⟩, ⟨7, 1, .ro, 0x0⟩, ⟨8, 1, .ro, 0x0⟩]⟩,
    ⟨Reg.MR_TAKEOVER_PORTS, 4, 1, [⟨0, 14, .rwl, 0x0⟩]⟩,
    ⟨Reg.MR_SHADOW_CTX_LO, 4, 1, [⟨0, 32, .rwl, 0x0⟩]⟩,
    ⟨Reg.MR_SHADOW_CTX_HI, 4, 1, [⟨0, 32, .rwl, 0x0⟩]⟩,
    ⟨Reg.MR_AUDIT_TOL, 4, 1, [⟨0, 32, .rwl, 0x3E000000⟩]⟩,
    ⟨Reg.MR_AUDIT_ABS, 4, 1, [⟨0, 32, .rwl, 0x3C800000⟩]⟩,
    ⟨Reg.MR_STAGE_BASE_LO, 4, 1, [⟨0, 32, .rwl, 0x0⟩]⟩,
    ⟨Reg.MR_STAGE_BASE_HI, 4, 1, [⟨0, 32, .rwl, 0x0⟩]⟩,
    ⟨Reg.MR_STAGE_BYTES, 4, 1, [⟨0, 28, .rwl, 0x0⟩]⟩,
    ⟨Reg.MR_EXPORT_TIME_MAX, 4, 1, [⟨0, 32, .rc, 0x0⟩]⟩,
    ⟨Reg.MR_IMPORT_DISCARD, 4, 1, [⟨0, 32, .rc, 0x0⟩]⟩,
    ⟨Reg.MR_AUDIT_FAIL, 4, 1, [⟨0, 32, .rc, 0x0⟩]⟩,
    ⟨Reg.MR_AUDIT_SKIP, 4, 1, [⟨0, 32, .rc, 0x0⟩]⟩,
    ⟨Reg.MR_TOLL_MISS_PIN, 4, 1, [⟨0, 32, .rc, 0x0⟩]⟩,
    ⟨Reg.MR_TOLL_MISS_LINK, 4, 1, [⟨0, 32, .rc, 0x0⟩]⟩,
    ⟨Reg.MR_BIND_ERR, 4, 1, [⟨0, 32, .rc, 0x0⟩]⟩,
    ⟨Reg.MR_TAKEOVER_TIME, 4, 1, [⟨0, 32, .ro, 0x0⟩]⟩,
    ⟨Reg.MR_AUDIT_IN, 4, 1, [⟨0, 11, .wo, 0x0⟩]⟩,
    ⟨Reg.MR_RMAP_LO, 8, 32, [⟨0, 32, .rwl, 0x0⟩]⟩ ] ++
  [ ⟨Reg.MR_RMAP_HI, 8, 32, [⟨0, 32, .rwl, 0x0⟩]⟩,
    ⟨Reg.MR_BIND_IN, 4, 16, [⟨0, 32, .wo, 0x0⟩]⟩,
    ⟨Reg.MR_CTRL_N, 4, 1, [⟨0, 32, .rwl, 0xFFFFFFFF⟩]⟩,
    ⟨Reg.MR_TAKEOVER_PORTS_N, 4, 1, [⟨0, 32, .rwl, 0xFFFFFFFF⟩]⟩ ]

/-- The registers of the dpMain pages (rule R265). -/
def regsDpMain : List RegDef :=
  [ ⟨Reg.DP_CTRL, 4, 1, [⟨0, 5, .rw, 0x0⟩, ⟨5, 7, .rw, 0x40⟩, ⟨12, 1, .rw, 0x1⟩, ⟨13, 1, .rw, 0x0⟩]⟩,
    ⟨Reg.DP_PHASE, 4, 1, [⟨0, 16, .rw, 0x3E8⟩]⟩,
    ⟨Reg.DP_STATUS, 4, 1, [⟨0, 24, .ro, 0x0⟩, ⟨24, 1, .ro, 0x0⟩, ⟨25, 1, .ro, 0x0⟩, ⟨26, 1, .ro, 0x0⟩]⟩,
    ⟨Reg.DP_READY, 4, 1, [⟨0, 24, .ro, 0x0⟩]⟩,
    ⟨Reg.DP_ARMED, 4, 1, [⟨0, 24, .ro, 0x0⟩]⟩,
    ⟨Reg.DP_COST, 4, 1, [⟨0, 24, .ro, 0x0⟩]⟩,
    ⟨Reg.DP_SWAP_COUNT, 4, 1, [⟨0, 32, .rc, 0x0⟩]⟩,
    ⟨Reg.DP_SWAP_SKIP_COUNT, 4, 1, [⟨0, 32, .rc, 0x0⟩]⟩,
    ⟨Reg.DP_LOAD_REFUSED_COUNT, 4, 1, [⟨0, 32, .rc, 0x0⟩]⟩,
    ⟨Reg.DP_LOAD_ERR, 4, 1, [⟨0, 4, .ro, 0x0⟩, ⟨4, 16, .ro, 0x0⟩]⟩,
    ⟨Reg.DP_OUT_SAT_COUNT, 4, 1, [⟨0, 32, .rc, 0x0⟩]⟩,
    ⟨Reg.DP_DIVERGE_COUNT, 4, 1, [⟨0, 32, .rc, 0x0⟩]⟩,
    ⟨Reg.DP_DIVERGED, 4, 1, [⟨0, 24, .w1c, 0x0⟩]⟩,
    ⟨Reg.DP_REF_LOST, 4, 1, [⟨0, 32, .ro, 0x0⟩]⟩,
    ⟨Reg.DP_ERR_LOST, 4, 1, [⟨0, 16, .ro, 0x0⟩]⟩,
    ⟨Reg.DP_ECC, 4, 1, [⟨0, 16, .rc, 0x0⟩, ⟨16, 16, .rc, 0x0⟩]⟩,
    ⟨Reg.DP_REF, 4, 32, [⟨0, 2, .rw, 0x0⟩, ⟨2, 5, .rw, 0x0⟩, ⟨7, 4, .rw, 0x0⟩, ⟨11, 5, .rw, 0x0⟩]⟩,
    ⟨Reg.DP_ERR, 4, 16, [⟨0, 1, .rw, 0x0⟩, ⟨1, 5, .rw, 0x0⟩, ⟨6, 4, .rw, 0x0⟩]⟩,
    ⟨Reg.DP_OUT, 4, 24, [⟨0, 1, .rw, 0x0⟩, ⟨1, 16, .rw, 0x0⟩, ⟨17, 4, .rw, 0x0⟩]⟩,
    ⟨Reg.DP_OSC, 8, 32, [⟨0, 24, .rw, 0x0⟩, ⟨24, 1, .rw, 0x0⟩, ⟨25, 1, .rw, 0x0⟩]⟩ ] ++
  [ ⟨Reg.DP_OSC_PHASE, 8, 32, [⟨0, 16, .rw, 0x0⟩]⟩,
    ⟨Reg.DP_LOAD_DESC, 4, 3, [⟨0, 32, .rw, 0x0⟩]⟩,
    ⟨0x2CC, 4, 1, [⟨0, 24, .rw, 0x0⟩]⟩,
    ⟨0x2D0, 4, 3, [⟨0, 32, .rw, 0x0⟩]⟩,
    ⟨Reg.DP_LOAD_GO, 4, 1, [⟨0, 1, .wo, 0x0⟩]⟩,
    ⟨Reg.DP_LOAD_PENDING, 4, 1, [⟨0, 3, .ro, 0x0⟩]⟩ ]

/-- The registers of the dpPair pages (rule R265). -/
def regsDpPair : List RegDef :=
  [ ⟨Reg.DP_PAIR, 4, 768, [⟨0, 11, .rw, 0x0⟩, ⟨11, 17, .rw, 0x0⟩, ⟨28, 1, .rw, 0x0⟩]⟩ ]

/-- The registers of the cache pages (rule R297). -/
def regsCache : List RegDef :=
  [ ⟨Reg.CA_CTRL, 4, 1, [⟨0, 16, .rw, 0x0⟩]⟩,
    ⟨Reg.CA_MAINT, 4, 1, [⟨0, 16, .wo, 0x0⟩, ⟨16, 1, .wo, 0x0⟩, ⟨17, 1, .wo, 0x0⟩]⟩,
    ⟨Reg.CA_MAINT_STATUS, 4, 1, [⟨0, 1, .ro, 0x0⟩]⟩,
    ⟨Reg.CA_HITS, 4, 1, [⟨0, 32, .rc, 0x0⟩]⟩,
    ⟨Reg.CA_MISSES, 4, 1, [⟨0, 32, .rc, 0x0⟩]⟩,
    ⟨Reg.CA_WRITEBACKS, 4, 1, [⟨0, 32, .rc, 0x0⟩]⟩,
    ⟨Reg.CA_ECC, 4, 1, [⟨0, 16, .rc, 0x0⟩, ⟨16, 16, .rc, 0x0⟩]⟩,
    ⟨Reg.PR_BASE, 16, 16, [⟨0, 21, .rwl, 0x0⟩]⟩,
    ⟨Reg.PR_END, 16, 16, [⟨0, 22, .rwl, 0x0⟩]⟩,
    ⟨Reg.PR_CTRL, 16, 16, [⟨0, 1, .rwl, 0x0⟩, ⟨1, 4, .rwl, 0x0⟩, ⟨5, 8, .rwl, 0x0⟩, ⟨13, 1, .rwl, 0x0⟩, ⟨14, 1, .rwl, 0x0⟩, ⟨15, 1, .rwl, 0x0⟩]⟩ ]

/-- The registers of the debug pages (rule R470). -/
def regsDebug : List RegDef :=
  [ ⟨Reg.TR_CTRL, 4, 1, [⟨0, 1, .rw, 0x0⟩, ⟨1, 1, .rw, 0x0⟩, ⟨2, 5, .rw, 0x0⟩]⟩,
    ⟨Reg.TR_STATUS, 4, 1, [⟨0, 1, .ro, 0x0⟩, ⟨1, 1, .ro, 0x0⟩]⟩,
    ⟨Reg.TR_BASE_LO, 4, 1, [⟨0, 32, .rw, 0x0⟩]⟩,
    ⟨Reg.TR_BASE_HI, 4, 1, [⟨0, 32, .rw, 0x0⟩]⟩,
    ⟨Reg.TR_BYTES, 4, 1, [⟨0, 28, .rw, 0x0⟩]⟩,
    ⟨Reg.TR_WR, 4, 1, [⟨0, 32, .ro, 0x0⟩]⟩,
    ⟨Reg.TR_DROP_COUNT, 4, 1, [⟨0, 32, .rc, 0x0⟩]⟩ ]

/-- The registers of the coreCtrl pages (rule R91). -/
def regsCoreCtrl : List RegDef :=
  [ ⟨Reg.CTRL_STATUS, 4, 1, [⟨0, 6, .ro, 0x0⟩, ⟨6, 1, .ro, 0x0⟩, ⟨7, 1, .ro, 0x0⟩, ⟨8, 1, .ro, 0x0⟩]⟩,
    ⟨Reg.CTRL_PC, 4, 1, [⟨0, 14, .ro, 0x0⟩]⟩,
    ⟨Reg.CTRL_TOKENS, 4, 1, [⟨0, 32, .ro, 0x0⟩]⟩,
    ⟨Reg.CTRL_QFILL, 4, 1, [⟨0, 8, .ro, 0x0⟩, ⟨8, 8, .ro, 0x0⟩, ⟨16, 8, .ro, 0x0⟩, ⟨24, 8, .ro, 0x0⟩]⟩,
    ⟨Reg.CTRL_FAULT, 4, 1, [⟨0, 8, .ro, 0x0⟩, ⟨8, 14, .ro, 0x0⟩, ⟨22, 6, .ro, 0x0⟩]⟩,
    ⟨Reg.CTRL_ISSUE_COUNT, 4, 1, [⟨0, 32, .rc, 0x0⟩]⟩,
    ⟨Reg.CTRL_IMEM_ECC, 4, 1, [⟨0, 16, .rc, 0x0⟩, ⟨16, 16, .rc, 0x0⟩]⟩ ]

/-- The registers of the coreMatrix pages (rule R91). -/
def regsCoreMatrix : List RegDef :=
  [ ⟨Reg.MX_STATUS, 4, 1, [⟨0, 1, .ro, 0x0⟩, ⟨1, 4, .ro, 0x0⟩]⟩,
    ⟨Reg.MX_BUSY_CYCLES, 4, 1, [⟨0, 32, .rc, 0x0⟩]⟩,
    ⟨Reg.MX_MMA_COUNT, 4, 1, [⟨0, 32, .rc, 0x0⟩]⟩,
    ⟨Reg.MX_MOUT_COUNT, 4, 1, [⟨0, 32, .rc, 0x0⟩]⟩ ]

/-- The registers of the coreVector pages (rule R120). -/
def regsCoreVector : List RegDef :=
  [ ⟨Reg.VX_STATUS, 4, 1, [⟨0, 1, .ro, 0x0⟩, ⟨1, 1, .ro, 0x0⟩]⟩,
    ⟨Reg.VX_FLAGS, 4, 1, [⟨0, 1, .w1c, 0x0⟩, ⟨1, 1, .w1c, 0x0⟩, ⟨2, 1, .w1c, 0x0⟩, ⟨3, 1, .w1c, 0x0⟩]⟩,
    ⟨Reg.VX_BUSY_CYCLES, 4, 1, [⟨0, 32, .rc, 0x0⟩]⟩,
    ⟨Reg.VX_WORD_COUNT, 4, 1, [⟨0, 32, .rc, 0x0⟩]⟩,
    ⟨Reg.VX_OOR_TOTAL, 4, 1, [⟨0, 32, .rc, 0x0⟩]⟩,
    ⟨Reg.VX_EMPTY_COUNT, 4, 1, [⟨0, 32, .rc, 0x0⟩]⟩,
    ⟨Reg.VX_SMAX_NAN_COUNT, 4, 1, [⟨0, 32, .rc, 0x0⟩]⟩,
    ⟨Reg.VX_DOMAIN_COUNT, 4, 1, [⟨0, 32, .rc, 0x0⟩]⟩,
    ⟨Reg.VX_MASK, 4, 8, [⟨0, 32, .ro, 0xFFFFFFFF⟩]⟩,
    ⟨Reg.VX_SUM_LO, 8, 16, [⟨0, 32, .ro, 0x0⟩]⟩,
    ⟨Reg.VX_SUM_HI, 8, 16, [⟨0, 32, .ro, 0x0⟩]⟩,
    ⟨Reg.VX_OOR_COUNT, 4, 64, [⟨0, 16, .rc, 0x0⟩]⟩ ]

/-- The registers of the coreScan pages (rule R150). -/
def regsCoreScan : List RegDef :=
  [ ⟨Reg.SC_STATUS, 4, 1, [⟨0, 1, .ro, 0x0⟩, ⟨1, 1, .ro, 0x0⟩]⟩,
    ⟨Reg.SC_FLAGS, 4, 1, [⟨0, 1, .w1c, 0x0⟩, ⟨1, 1, .w1c, 0x0⟩]⟩,
    ⟨Reg.SC_BLOCK_COUNT, 4, 1, [⟨0, 32, .rc, 0x0⟩]⟩,
    ⟨Reg.SC_BUSY_CYCLES, 4, 1, [⟨0, 32, .rc, 0x0⟩]⟩,
    ⟨Reg.SC_MARK_COUNT, 4, 1, [⟨0, 32, .rc, 0x0⟩]⟩,
    ⟨Reg.SC_FAULT, 4, 1, [⟨0, 16, .ro, 0x0⟩, ⟨16, 4, .ro, 0x0⟩, ⟨20, 12, .ro, 0x0⟩]⟩ ]

/-- The registers of the corePort pages (rule R150). -/
def regsCorePort : List RegDef :=
  [ ⟨Reg.ST_STATUS, 4, 1, [⟨0, 1, .ro, 0x0⟩, ⟨1, 1, .ro, 0x0⟩, ⟨2, 1, .ro, 0x0⟩]⟩,
    ⟨Reg.ST_ECC, 4, 1, [⟨0, 16, .rc, 0x0⟩, ⟨16, 16, .rc, 0x0⟩]⟩,
    ⟨Reg.ST_ECC_SLOT, 4, 1, [⟨0, 16, .ro, 0x0⟩, ⟨16, 4, .ro, 0x0⟩, ⟨20, 12, .ro, 0x0⟩]⟩,
    ⟨Reg.ST_LINES_USED, 4, 1, [⟨0, 18, .ro, 0x0⟩]⟩,
    ⟨Reg.ST_TAG_LIMIT, 4, 1, [⟨0, 7, .rwl, 0x20⟩]⟩,
    ⟨Reg.ST_XFER_BYTES, 4, 1, [⟨0, 32, .rc, 0x0⟩]⟩,
    ⟨Reg.ST_HOLD_COUNT, 4, 1, [⟨0, 32, .rc, 0x0⟩]⟩,
    ⟨Reg.ST_REGION_BASE, 16, 16, [⟨0, 17, .rwl, 0x0⟩]⟩,
    ⟨Reg.ST_REGION_SHAPE, 16, 16, [⟨0, 13, .rwl, 0x0⟩, ⟨13, 2, .rwl, 0x0⟩, ⟨15, 5, .rwl, 0x0⟩, ⟨20, 1, .rwl, 0x0⟩, ⟨21, 1, .rwl, 0x0⟩]⟩,
    ⟨Reg.ST_REGION_SLOTS, 16, 16, [⟨0, 12, .rwl, 0x0⟩]⟩,
    ⟨Reg.ST_REGION_S2, 16, 16, [⟨0, 32, .rwl, 0x0⟩]⟩,
    ⟨Reg.ST_REGION_FREE, 4, 16, [⟨0, 12, .ro, 0x0⟩]⟩ ]

/-- The registers of the coreMover pages (rule R91). -/
def regsCoreMover : List RegDef :=
  [ ⟨Reg.MV_TAG_LIMIT, 4, 1, [⟨0, 8, .rwl, 0x80⟩]⟩,
    ⟨Reg.MV_TAGS_IN_USE, 4, 1, [⟨0, 8, .ro, 0x0⟩]⟩,
    ⟨Reg.MV_TIMEOUT, 4, 1, [⟨0, 16, .rw, 0x14⟩]⟩,
    ⟨Reg.MV_FAIL, 4, 1, [⟨0, 8, .ro, 0x0⟩, ⟨8, 6, .ro, 0x0⟩]⟩,
    ⟨Reg.MV_BYTES, 4, 1, [⟨0, 32, .rc, 0x0⟩]⟩ ]

/-- The registers of the coreStat pages (rule R54). -/
def regsCoreStat : List RegDef :=
  [ ⟨Reg.STAT_CTRL, 4, 1, [⟨0, 1, .wo, 0x0⟩, ⟨1, 1, .wo, 0x0⟩]⟩,
    ⟨Reg.LAYER_ID, 4, 1, [⟨0, 8, .ro, 0x0⟩, ⟨8, 1, .ro, 0x0⟩]⟩,
    ⟨Reg.LAYER_ABSMAX, 4, 1, [⟨0, 32, .ro, 0x0⟩]⟩,
    ⟨Reg.LAYER_SAT_COUNT, 4, 1, [⟨0, 32, .ro, 0x0⟩]⟩,
    ⟨Reg.LAYER_NAN_COUNT, 4, 1, [⟨0, 32, .ro, 0x0⟩]⟩,
    ⟨Reg.ZERO_SCALE_COUNT, 4, 1, [⟨0, 32, .rc, 0x0⟩]⟩,
    ⟨Reg.ACC_SAT_COUNT, 4, 1, [⟨0, 32, .rc, 0x0⟩]⟩,
    ⟨Reg.SAT_TOTAL, 4, 1, [⟨0, 32, .rc, 0x0⟩]⟩,
    ⟨Reg.NAN_TOTAL, 4, 1, [⟨0, 32, .rc, 0x0⟩]⟩,
    ⟨Reg.REHEAT_BUDGET_RT, 4, 1, [⟨0, 28, .rw, 0x0⟩]⟩,
    ⟨Reg.REHEAT_BUDGET_BE, 4, 1, [⟨0, 28, .rw, 0x0⟩]⟩,
    ⟨Reg.REHEAT_REMAIN_RT, 4, 1, [⟨0, 28, .ro, 0x0⟩]⟩,
    ⟨Reg.REHEAT_REMAIN_BE, 4, 1, [⟨0, 28, .ro, 0x0⟩]⟩,
    ⟨Reg.REHEAT_RUN_COUNT, 4, 1, [⟨0, 32, .rc, 0x0⟩]⟩,
    ⟨Reg.REHEAT_DENIED_COUNT, 4, 1, [⟨0, 32, .rc, 0x0⟩]⟩,
    ⟨Reg.REHEAT_MISSED_COUNT, 4, 1, [⟨0, 32, .rc, 0x0⟩]⟩,
    ⟨Reg.RNG_STATUS, 4, 1, [⟨0, 1, .ro, 0x0⟩, ⟨1, 1, .ro, 0x0⟩, ⟨2, 1, .ro, 0x0⟩]⟩,
    ⟨Reg.REHEAT_THRESH, 8, 256, [⟨0, 16, .rw, 0x0⟩, ⟨30, 1, .rw, 0x0⟩, ⟨31, 1, .rw, 0x0⟩]⟩,
    ⟨Reg.REHEAT_COST, 8, 256, [⟨0, 28, .rw, 0x0⟩]⟩,
    ⟨Reg.TILE_ABSMAX, 8, 64, [⟨0, 32, .ro, 0x0⟩]⟩ ] ++
  [ ⟨Reg.TILE_COUNT, 8, 64, [⟨0, 16, .ro, 0x0⟩, ⟨16, 16, .ro, 0x0⟩]⟩ ]

/-- The registers of the link pages (rule R337). -/
def regsLink : List RegDef :=
  [ ⟨Reg.KL_CTRL, 4, 1, [⟨0, 1, .rw, 0x1⟩, ⟨1, 1, .rw, 0x1⟩, ⟨2, 1, .rw, 0x0⟩, ⟨3, 1, .rw, 0x1⟩]⟩,
    ⟨Reg.KL_STATUS, 4, 1, [⟨0, 4, .ro, 0x0⟩, ⟨4, 1, .ro, 0x0⟩, ⟨5, 1, .ro, 0x0⟩, ⟨6, 5, .ro, 0x1F⟩, ⟨11, 8, .ro, 0x0⟩, ⟨19, 1, .ro, 0x0⟩, ⟨20, 1, .ro, 0x0⟩, ⟨21, 2, .ro, 0x0⟩, ⟨23, 4, .ro, 0x0⟩]⟩,
    ⟨Reg.KL_FEC_CORR, 4, 1, [⟨0, 32, .rc, 0x0⟩]⟩,
    ⟨Reg.KL_FEC_UNCORR, 4, 1, [⟨0, 32, .rc, 0x0⟩]⟩,
    ⟨Reg.KL_CRC_ERR, 4, 1, [⟨0, 32, .rc, 0x0⟩]⟩,
    ⟨Reg.KL_REPLAY_COUNT, 4, 1, [⟨0, 32, .rc, 0x0⟩]⟩,
    ⟨Reg.KL_DOWN_COUNT, 4, 1, [⟨0, 32, .rc, 0x0⟩]⟩,
    ⟨Reg.KL_TRAIN_TIME, 4, 1, [⟨0, 24, .ro, 0x0⟩]⟩,
    ⟨Reg.KL_LINK_DELAY, 4, 1, [⟨0, 32, .ro, 0x0⟩]⟩,
    ⟨Reg.KL_TAGS_OUT, 4, 1, [⟨0, 13, .ro, 0x0⟩]⟩,
    ⟨Reg.KL_TAG_LIMIT, 4, 1, [⟨0, 13, .rwl, 0x1000⟩]⟩,
    ⟨Reg.KL_MALFORMED, 4, 1, [⟨0, 32, .rc, 0x0⟩]⟩ ]

/-- The registers of the linkVc pages (rule R337). -/
def regsLinkVc : List RegDef :=
  [ ⟨Reg.KL_VC_CREDIT, 4, 8, [⟨0, 11, .rwl, 0x0⟩, ⟨16, 4, .rwl, 0x0⟩]⟩,
    ⟨Reg.KL_VC_TX_FLITS, 4, 8, [⟨0, 32, .rc, 0x0⟩]⟩ ]

/-- The registers of the linkSec pages (rule R337). -/
def regsLinkSec : List RegDef :=
  [ ⟨Reg.KL_SEC_STATUS, 4, 1, [⟨0, 1, .ro, 0x0⟩, ⟨1, 16, .ro, 0x0⟩]⟩,
    ⟨Reg.KL_AUTH_FAIL, 4, 1, [⟨0, 32, .rc, 0x0⟩]⟩,
    ⟨Reg.KL_KEY_FAIL, 4, 1, [⟨0, 32, .rc, 0x0⟩]⟩,
    ⟨Reg.KL_PEER_ID_LO, 4, 1, [⟨0, 32, .ro, 0x0⟩]⟩,
    ⟨Reg.KL_PEER_ID_HI, 4, 1, [⟨0, 32, .ro, 0x0⟩]⟩ ]

/-- The registers of the fabric pages (rule R337). -/
def regsFabric : List RegDef :=
  [ ⟨Reg.FB_NODE, 4, 1, [⟨0, 5, .ro, 0x1F⟩, ⟨5, 1, .ro, 0x0⟩, ⟨6, 8, .ro, 0x0⟩, ⟨14, 1, .ro, 0x0⟩, ⟨15, 2, .ro, 0x0⟩, ⟨17, 1, .ro, 0x0⟩, ⟨18, 2, .ro, 0x0⟩]⟩,
    ⟨Reg.FB_ENUM_CTRL, 4, 1, [⟨0, 1, .wo, 0x0⟩, ⟨1, 5, .wo, 0x2⟩]⟩,
    ⟨Reg.FB_ENUM_STATUS, 4, 1, [⟨0, 5, .ro, 0x0⟩, ⟨5, 1, .ro, 0x0⟩, ⟨6, 1, .ro, 0x0⟩, ⟨7, 1, .ro, 0x0⟩]⟩,
    ⟨Reg.FB_ACCESS, 4, 1, [⟨0, 4, .rwl, 0xF⟩, ⟨4, 4, .rwl, 0xF⟩, ⟨8, 1, .rwl, 0x0⟩]⟩,
    ⟨Reg.FB_GEN_DROP, 4, 1, [⟨0, 32, .rc, 0x0⟩]⟩,
    ⟨Reg.FB_ROUTE_DROP, 4, 1, [⟨0, 32, .rc, 0x0⟩]⟩,
    ⟨Reg.FB_Z_DAMAGED, 4, 1, [⟨0, 32, .rc, 0x0⟩]⟩,
    ⟨Reg.FB_ROUTE, 4, 32, [⟨0, 3, .rw, 0x7⟩, ⟨4, 3, .rw, 0x7⟩]⟩,
    ⟨Reg.FB_PEER, 4, 32, [⟨0, 8, .ro, 0x0⟩, ⟨8, 1, .ro, 0x0⟩]⟩,
    ⟨Reg.FB_ADJ, 4, 32, [⟨0, 20, .ro, 0xFFFFF⟩]⟩ ]

/-- The registers of the tsync pages (rule R337). -/
def regsTsync : List RegDef :=
  [ ⟨Reg.TS_PDELAY_PERIOD, 4, 1, [⟨0, 16, .rw, 0x1⟩]⟩,
    ⟨Reg.TS_STATUS, 4, 1, [⟨0, 1, .ro, 0x0⟩, ⟨1, 2, .ro, 0x0⟩]⟩,
    ⟨Reg.TS_SYNC_COUNT, 4, 1, [⟨0, 32, .rc, 0x0⟩]⟩,
    ⟨Reg.TS_SYNC_DROP, 4, 1, [⟨0, 32, .rc, 0x0⟩]⟩,
    ⟨Reg.TS_LAST_ORIGIN_LO, 4, 1, [⟨0, 32, .ro, 0x0⟩]⟩,
    ⟨Reg.TS_LAST_ORIGIN_HI, 4, 1, [⟨0, 32, .ro, 0x0⟩]⟩ ]

/-- The registers of the dram pages (rule R297). -/
def regsDram : List RegDef :=
  [ ⟨Reg.DC_STATUS, 4, 1, [⟨0, 1, .ro, 0x0⟩, ⟨1, 1, .ro, 0x0⟩, ⟨2, 2, .ro, 0x0⟩, ⟨4, 1, .ro, 0x0⟩]⟩,
    ⟨Reg.DC_ECC, 4, 1, [⟨0, 16, .rc, 0x0⟩, ⟨16, 16, .rc, 0x0⟩]⟩,
    ⟨Reg.DC_SCRUB_CTRL, 4, 1, [⟨0, 16, .rw, 0xC⟩, ⟨16, 1, .rw, 0x1⟩]⟩,
    ⟨Reg.DC_SCRUB_POS, 4, 1, [⟨0, 21, .ro, 0x0⟩]⟩,
    ⟨Reg.DC_TEMP, 4, 1, [⟨0, 8, .ro, 0x0⟩]⟩,
    ⟨Reg.DC_RD_UNITS, 4, 1, [⟨0, 32, .rc, 0x0⟩]⟩,
    ⟨Reg.DC_WR_UNITS, 4, 1, [⟨0, 32, .rc, 0x0⟩]⟩,
    ⟨Reg.DC_RETRAIN_COUNT, 4, 1, [⟨0, 32, .rc, 0x0⟩]⟩ ]

/-- The registers of the serial pages (rule R249). -/
def regsSerial : List RegDef :=
  [ ⟨Reg.AP_FMT, 4, 1, [⟨0, 1, .rw, 0x0⟩, ⟨1, 4, .rw, 0x1⟩, ⟨5, 2, .rw, 0x2⟩, ⟨7, 2, .rw, 0x2⟩, ⟨9, 1, .rw, 0x1⟩, ⟨10, 2, .rw, 0x2⟩, ⟨12, 1, .rw, 0x0⟩, ⟨13, 1, .rw, 0x0⟩, ⟨14, 1, .rw, 0x0⟩, ⟨15, 1, .rw, 0x0⟩]⟩,
    ⟨Reg.AP_CLK, 4, 1, [⟨0, 1, .rw, 0x0⟩, ⟨1, 2, .rw, 0x0⟩, ⟨4, 12, .rw, 0x0⟩, ⟨16, 16, .rw, 0x0⟩]⟩,
    ⟨Reg.AP_RATE_NOM, 4, 1, [⟨0, 18, .rw, 0xBB80⟩]⟩,
    ⟨Reg.AP_START_T_LO, 4, 1, [⟨0, 32, .rw, 0x0⟩]⟩,
    ⟨Reg.AP_START_T_HI, 4, 1, [⟨0, 32, .rw, 0x0⟩]⟩,
    ⟨Reg.AP_OUT_OFFSET, 4, 1, [⟨0, 26, .rw, 0x0⟩]⟩,
    ⟨Reg.AP_CTRL, 4, 1, [⟨0, 1, .rw, 0x1⟩, ⟨1, 8, .rw, 0xA⟩, ⟨9, 8, .rw, 0x2⟩]⟩,
    ⟨Reg.AP_GATE, 4, 1, [⟨0, 16, .rw, 0x1E0⟩]⟩,
    ⟨Reg.AP_RATE_CTRL, 4, 1, [⟨0, 10, .rw, 0x64⟩, ⟨10, 10, .rw, 0x3E8⟩, ⟨20, 4, .rw, 0x4⟩]⟩,
    ⟨Reg.AP_STATUS, 4, 1, [⟨0, 1, .ro, 0x0⟩, ⟨1, 1, .ro, 0x0⟩, ⟨2, 1, .ro, 0x0⟩, ⟨3, 1, .ro, 0x0⟩, ⟨4, 1, .ro, 0x0⟩, ⟨5, 1, .ro, 0x0⟩, ⟨6, 1, .ro, 0x0⟩, ⟨7, 16, .ro, 0x0⟩]⟩,
    ⟨Reg.AP_RATE_MEAS, 4, 1, [⟨0, 32, .ro, 0x0⟩]⟩,
    ⟨Reg.AP_UNDERRUN_COUNT, 4, 1, [⟨0, 32, .rc, 0x0⟩]⟩,
    ⟨Reg.AP_OVERWRITE_COUNT, 4, 1, [⟨0, 32, .rc, 0x0⟩]⟩,
    ⟨Reg.AP_FILL_COUNT, 4, 1, [⟨0, 32, .rc, 0x0⟩]⟩,
    ⟨Reg.AP_GATE_TO_COUNT, 4, 1, [⟨0, 32, .rc, 0x0⟩]⟩,
    ⟨Reg.AP_CLIP_COUNT, 4, 1, [⟨0, 32, .rc, 0x0⟩]⟩,
    ⟨Reg.AP_MAP, 4, 16, [⟨0, 1, .rw, 0x1⟩, ⟨1, 2, .rw, 0x0⟩, ⟨3, 5, .rw, 0x0⟩, ⟨8, 1, .rw, 0x1⟩]⟩ ]

/-- The registers of the pdmIn pages (rule R249). -/
def regsPdmIn : List RegDef :=
  [ ⟨Reg.AP_FMT, 4, 1, [⟨0, 2, .rw, 0x2⟩, ⟨2, 4, .rw, 0x0⟩, ⟨6, 1, .rw, 0x0⟩, ⟨7, 3, .rw, 0x0⟩]⟩,
    ⟨Reg.AP_CLK, 4, 1, [⟨0, 1, .ro, 0x1⟩, ⟨1, 2, .rw, 0x0⟩, ⟨4, 12, .rw, 0x0⟩, ⟨16, 16, .rw, 0x0⟩]⟩,
    ⟨Reg.AP_RATE_NOM, 4, 1, [⟨0, 18, .rw, 0xBB80⟩]⟩,
    ⟨Reg.AP_START_T_LO, 4, 1, [⟨0, 32, .rw, 0x0⟩]⟩,
    ⟨Reg.AP_START_T_HI, 4, 1, [⟨0, 32, .rw, 0x0⟩]⟩,
    ⟨Reg.AP_CTRL, 4, 1, [⟨0, 1, .rw, 0x1⟩, ⟨1, 8, .rw, 0xA⟩, ⟨9, 8, .rw, 0x2⟩]⟩,
    ⟨Reg.AP_RATE_CTRL, 4, 1, [⟨0, 10, .rw, 0x64⟩, ⟨10, 10, .rw, 0x3E8⟩, ⟨20, 4, .rw, 0x4⟩]⟩,
    ⟨Reg.AP_STATUS, 4, 1, [⟨0, 1, .ro, 0x0⟩, ⟨1, 1, .ro, 0x0⟩, ⟨2, 1, .ro, 0x0⟩, ⟨3, 1, .ro, 0x0⟩, ⟨4, 1, .ro, 0x0⟩, ⟨5, 1, .ro, 0x0⟩, ⟨6, 1, .ro, 0x0⟩, ⟨7, 16, .ro, 0x0⟩]⟩,
    ⟨Reg.AP_RATE_MEAS, 4, 1, [⟨0, 32, .ro, 0x0⟩]⟩,
    ⟨Reg.AP_OVERWRITE_COUNT, 4, 1, [⟨0, 32, .rc, 0x0⟩]⟩,
    ⟨Reg.AP_FILL_COUNT, 4, 1, [⟨0, 32, .rc, 0x0⟩]⟩,
    ⟨Reg.AP_CLIP_COUNT, 4, 1, [⟨0, 32, .rc, 0x0⟩]⟩ ]

/-- The registers of the pdmOut pages (rule R249). -/
def regsPdmOut : List RegDef :=
  [ ⟨Reg.AP_FMT, 4, 1, [⟨0, 1, .rw, 0x0⟩, ⟨1, 4, .rw, 0x0⟩]⟩,
    ⟨Reg.AP_CLK, 4, 1, [⟨0, 1, .ro, 0x1⟩, ⟨1, 2, .rw, 0x0⟩, ⟨4, 12, .rw, 0x0⟩, ⟨16, 16, .rw, 0x0⟩]⟩,
    ⟨Reg.AP_RATE_NOM, 4, 1, [⟨0, 18, .rw, 0xBB80⟩]⟩,
    ⟨Reg.AP_START_T_LO, 4, 1, [⟨0, 32, .rw, 0x0⟩]⟩,
    ⟨Reg.AP_START_T_HI, 4, 1, [⟨0, 32, .rw, 0x0⟩]⟩,
    ⟨Reg.AP_OUT_OFFSET, 4, 1, [⟨0, 26, .rw, 0x0⟩]⟩,
    ⟨Reg.AP_CTRL, 4, 1, [⟨0, 1, .rw, 0x1⟩, ⟨1, 8, .rw, 0xA⟩, ⟨9, 8, .rw, 0x2⟩]⟩,
    ⟨Reg.AP_RATE_CTRL, 4, 1, [⟨0, 10, .rw, 0x64⟩, ⟨10, 10, .rw, 0x3E8⟩, ⟨20, 4, .rw, 0x4⟩]⟩,
    ⟨Reg.AP_STATUS, 4, 1, [⟨0, 1, .ro, 0x0⟩, ⟨1, 1, .ro, 0x0⟩, ⟨2, 1, .ro, 0x0⟩, ⟨3, 1, .ro, 0x0⟩, ⟨4, 1, .ro, 0x0⟩, ⟨5, 1, .ro, 0x0⟩, ⟨6, 1, .ro, 0x0⟩, ⟨7, 16, .ro, 0x0⟩]⟩,
    ⟨Reg.AP_RATE_MEAS, 4, 1, [⟨0, 32, .ro, 0x0⟩]⟩,
    ⟨Reg.AP_UNDERRUN_COUNT, 4, 1, [⟨0, 32, .rc, 0x0⟩]⟩,
    ⟨Reg.AP_CLIP_COUNT, 4, 1, [⟨0, 32, .rc, 0x0⟩]⟩,
    ⟨Reg.AP_MOD_RESET_COUNT, 4, 1, [⟨0, 32, .rc, 0x0⟩]⟩,
    ⟨Reg.AP_MAP, 4, 8, [⟨0, 1, .rw, 0x1⟩, ⟨1, 2, .rw, 0x0⟩, ⟨3, 5, .rw, 0x0⟩, ⟨8, 1, .rw, 0x1⟩]⟩ ]

/-- The registers of the apll pages (rule R249). -/
def regsApll : List RegDef :=
  [ ⟨Reg.APLL_CTRL, 4, 1, [⟨0, 2, .rw, 0x0⟩, ⟨2, 8, .rw, 0x19⟩, ⟨10, 2, .rw, 0x0⟩, ⟨12, 5, .rw, 0x1F⟩, ⟨17, 1, .rw, 0x0⟩]⟩,
    ⟨Reg.APLL_MULT, 4, 1, [⟨0, 22, .rw, 0x0⟩, ⟨22, 10, .rw, 0x40⟩]⟩,
    ⟨Reg.APLL_STATUS, 4, 1, [⟨0, 4, .ro, 0x0⟩]⟩,
    ⟨Reg.APLL_STEER_NOW, 4, 1, [⟨0, 32, .ro, 0x0⟩]⟩,
    ⟨Reg.APLL_BELLOWS, 4, 1, [⟨0, 5, .rw, 0x0⟩, ⟨8, 16, .rw, 0x0⟩]⟩,
    ⟨Reg.APLL_GAIN, 4, 1, [⟨0, 16, .rw, 0x0⟩, ⟨16, 16, .rw, 0x0⟩]⟩,
    ⟨Reg.APLL_LIMIT, 4, 1, [⟨0, 10, .rw, 0xC8⟩]⟩,
    ⟨Reg.APLL_FILL, 4, 1, [⟨0, 32, .ro, 0x0⟩]⟩,
    ⟨Reg.APLL_LOCK_LOSS_COUNT, 4, 1, [⟨0, 32, .rc, 0x0⟩]⟩ ]

/-- The registers of the asrc pages (rule R249). -/
def regsAsrc : List RegDef :=
  [ ⟨Reg.ASRC_BANK, 16, 3, [⟨0, 5, .rw, 0x0⟩, ⟨5, 1, .rw, 0x0⟩, ⟨6, 18, .rw, 0xBB80⟩]⟩,
    ⟨Reg.ASRC_RATIO, 16, 3, [⟨0, 32, .ro, 0x10000000⟩]⟩,
    ⟨Reg.ASRC_STATUS, 16, 3, [⟨0, 2, .ro, 0x0⟩]⟩ ]

/-- The registers of the audioBuf pages (rule R249). -/
def regsAudioBuf : List RegDef :=
  [ ⟨Reg.AB_USED, 4, 1, [⟨0, 22, .ro, 0x0⟩]⟩,
    ⟨Reg.AB_ECC, 4, 1, [⟨0, 16, .rc, 0x0⟩, ⟨16, 16, .rc, 0x0⟩]⟩,
    ⟨Reg.RING_BASE, 16, 32, [⟨0, 21, .rw, 0x0⟩]⟩,
    ⟨Reg.RING_FRAMES, 16, 32, [⟨0, 17, .rw, 0x0⟩]⟩,
    ⟨Reg.RING_SHAPE, 16, 32, [⟨0, 4, .rw, 0x0⟩, ⟨4, 9, .rw, 0x0⟩, ⟨13, 1, .rw, 0x0⟩]⟩,
    ⟨Reg.RING_SLOT, 16, 32, [⟨0, 14, .rw, 0x0⟩]⟩ ]

/-- The block-specific registers of a page kind. -/
def regsOf : PageKind → List RegDef
  | .device => regsDevice
  | .clocks => regsClocks
  | .timebase => regsTimebase
  | .angle => regsAngle
  | .pattern => regsPattern
  | .streams => regsStreams
  | .queueMgr => regsQueueMgr
  | .semaphores => regsSemaphores
  | .safety => regsSafety
  | .hang => regsHang
  | .dump => regsDump
  | .power => regsPower
  | .thermal => regsThermal
  | .security => regsSecurity
  | .compression => regsCompression
  | .mirror => regsMirror
  | .dpMain => regsDpMain
  | .dpPair => regsDpPair
  | .cache => regsCache
  | .debug => regsDebug
  | .coreCtrl => regsCoreCtrl
  | .coreMatrix => regsCoreMatrix
  | .coreVector => regsCoreVector
  | .coreScan => regsCoreScan
  | .corePort => regsCorePort
  | .coreMover => regsCoreMover
  | .coreStat => regsCoreStat
  | .link => regsLink
  | .linkVc => regsLinkVc
  | .linkSec => regsLinkSec
  | .fabric => regsFabric
  | .tsync => regsTsync
  | .dram => regsDram
  | .serial => regsSerial
  | .pdmIn => regsPdmIn
  | .pdmOut => regsPdmOut
  | .apll => regsApll
  | .asrc => regsAsrc
  | .audioBuf => regsAudioBuf

end Sys2Proof.Machine
end

