-- ==== Sys2Proof/Syntax.lean ====
section
/-!
DEFINITION. The commands of the block, one constructor per row of spec/opcode_table.json, and the data they carry.
The spec's table gives no operand bits, so each row's operands are the ones its rule names: the engine word that a
core issues, the packet that arrives, the register value written, the physical fact that an event reports.
-/
namespace Sys2Proof

/-- A core C0–C31 (R12). -/
abbrev CoreId := Fin 32
/-- A context CTX0–CTX63 (R204). -/
abbrev CtxId := Fin 64
/-- A stream S0–S2047 (R152). -/
abbrev StreamId := Fin 2048
/-- A node of the group: 0 host, 1–30 devices, 31 broadcast. -/
abbrev NodeId := Fin 32
/-- A link port KL0–KL3. -/
abbrev PortId := Fin 4
/-- An audio port: 0–11 SP0–SP11, 12–17 PDM input groups, 18–19 PDM output groups (the numbering of R250). -/
abbrev AudioPort := Fin 20
/-- A queue (R339). -/
abbrev QueueId := Fin 32768
/-- A requester tag (R87). -/
abbrev TagId := Fin 8192
/-- A register page 0x000–0x3BF (R316). -/
abbrev PageId := Fin 960

/-- What an access to protected memory finds in its SECDED code (R57, R149, R222, R264, R269, R277). -/
inductive Ecc where
  /-- no error -/
  | clean
  /-- a corrected single-bit error -/
  | corrected
  /-- an uncorrectable error -/
  | uncorrectable
deriving DecidableEq, Repr

/-- The four engine queues of a core (R56). -/
inductive EngineId where
  | matrix | vector | scan | mover
deriving DecidableEq, Repr

/-- The engines that HG_RESET_REQ names (R399). -/
inductive ResetEngine where
  | matrix | vector | scan | statePort | mover | compression
deriving DecidableEq, Repr

/-- Why a context is quenched (the causes of event QUENCH, R395). -/
inductive QuenchCause where
  | fault | damagedWeight | hang | safety | command | suspect
deriving DecidableEq, Repr

/-- A link-down cause (KL_STATUS.DOWN_CAUSE, R338). -/
inductive DownCause where
  | none | port | chip | retrain | rekey | lock | replay | hostRefused | keyFail | auth | trainFail
deriving DecidableEq, Repr

/-- A control or statistics word (R66, R68) without its opcode, which the constructor gives, and what its fetch found
in the instruction memory's code (R57). -/
structure CtrlWord where
  engine : BitVec 2
  wait : BitVec 8
  sig : BitVec 3
  sigv : Bool
  rd : BitVec 5
  rs1 : BitVec 5
  rs2 : BitVec 5
  /-- bits [90:64], reserved -/
  rsvd : BitVec 27
  imm : W64
  ecc : Ecc
deriving DecidableEq, Repr

/-- A tile word (R66, R67) without its opcode, and what its fetch found in the instruction memory's code. -/
structure TileWord where
  engine : BitVec 2
  wait : BitVec 8
  sig : BitVec 3
  sigv : Bool
  ta : BitVec 6
  tb : BitVec 6
  tc : BitVec 6
  td : BitVec 6
  /-- bits [81:32]; bit b of the word is bit b − 32 here -/
  ctl : BitVec 50
  imm : W32
  ecc : Ecc
deriving DecidableEq, Repr

/-- A packet: the 32-byte header of R311, field by field, and its data. -/
structure Packet where
  ttype : Byte
  dst : BitVec 5
  src : BitVec 5
  hops : BitVec 5
  tag : BitVec 13
  epoch : BitVec 3
  bgen : Byte
  rbgen : Byte
  ctx : BitVec 6
  cgv : Bool
  cgen : BitVec 4
  status : Byte
  z : Bool
  enc : Bool
  last : Bool
  len : BitVec 16
  wlen : BitVec 16
  addr : W64
  operand : W64
  data : List Byte
deriving DecidableEq, Repr

/-- What every flit carries beside its own content (R303, R304): ACK, a credit return, and the symbol errors that the receiver finds
in the codeword that begins in the flit, if one does (more than 15 are not corrected). -/
structure FlitHead where
  ackValid : Bool
  ack : BitVec 12
  creditVc : Fin 8
  creditCount : Byte
  errs : Nat
deriving DecidableEq, Repr

/-- The payload of an EXCHANGE flit (R302). -/
structure ExchangeInfo where
  host : Bool
  bridge : Bool
  encOffer : Bool
  encReq : Bool
  ackSeen : Bool
  nodeId : BitVec 5
  bgen : Byte
  port : BitVec 2
  credits : List (BitVec 11)
deriving DecidableEq, Repr

/-- An EXCHANGE flit as it arrives (R302, R304). -/
structure ExchangeFlit where
  head : FlitHead
  info : ExchangeInfo
deriving DecidableEq, Repr

/-- A NAK flit as it arrives (R304, R306): the SEQ from which it asks for a replay. -/
structure NakFlit where
  head : FlitHead
  seq : BitVec 12
deriving DecidableEq, Repr

/-- A LINK_RESET flit as it arrives (R304, R307). -/
structure ResetFlit where
  head : FlitHead
  cause : DownCause
deriving DecidableEq, Repr

/-- A command slot as fetched (R345): the queue it came from, its fields and its 56 argument bytes. -/
structure CmdSlot where
  queue : QueueId
  cmdId : W32
  flags : Byte
  rsvd : BitVec 16
  args : List Byte
deriving DecidableEq, Repr

/-- What a read over a link returned, where an operation reads a remote address: status and bytes. Not used where
the address is local. -/
structure Fetched where
  status : Byte
  bytes : List Byte
deriving DecidableEq, Repr

/-- On whose behalf a memory request is made (R275, R279). -/
inductive Requester where
  | ctx (n : CtxId)
  | host
  | peer (n : NodeId)
  | sys
deriving DecidableEq, Repr

/-- One request to DRAM through the system cache. -/
structure MemReq where
  who : Requester
  write : Bool
  addr : BitVec 59
  len : Fin 257
  data : List Byte
  /-- a source read of a compression job with KIND WEIGHT (R275) -/
  weight : Bool
deriving DecidableEq, Repr

/-- An uncorrectable bank word met in a path frame (R264): bank, kind of word and index. -/
structure DpFault where
  bank : Bool
  word : Nat
  corrected : Bool
deriving DecidableEq, Repr

/-- An error met in the read of a frame of a stream's ring chunk (R222): the frame counts from the chunk's first. -/
structure RingFault where
  stream : StreamId
  frame : Nat
  ecc : Ecc
deriving DecidableEq, Repr

/-- A CUTOFF beat: its pattern entry, and the errors met in the reads of the ring chunks that it admits (R162, R222). -/
structure CutoffRead where
  entry : Fin 512
  ecc : List RingFault
deriving DecidableEq, Repr

/-- A frame that a port has received for the direct filter path (R253): its stamp and its samples by channel. -/
structure PortFrame where
  port : AudioPort
  stamp : W64
  samples : List W32
deriving DecidableEq, Repr

/-- What the ROM self-test, the fuse check and the TRNG start-up test found (R401). -/
structure RomObs where
  romOk : Bool
  fusesOk : Bool
  trngOk : Bool
deriving DecidableEq, Repr

/-- One thermal sensor's update (R434, R435). -/
inductive SensorReading where
  | celsius (t : BitVec 8)
  | fault
deriving DecidableEq, Repr


/-- What SUPPLY_FAULT sees (R457, R459): a supply, numbered as R457 lists them, at a voltage in mV for some ns; or one of the PWRGD
inputs CORE, MEM, IO going low. -/
inductive SupplyEvent where
  | rail (r : Fin 8) (mv ns : Nat)
  | pwrgd (k : Fin 3)
deriving DecidableEq, Repr

/-- The commands of the block: one constructor per row of the spec's table of operations and events.
Each docstring gives the row's mnemonic, the rule that governs it and the row's summary. -/
inductive Instr where
  /-- `ADD` (R71): Control core writes rs1 plus rs2 into rd. -/
  | add (c : CoreId) (w : CtrlWord)
  /-- `SUB` (R71): Control core writes rs1 minus rs2 into rd. -/
  | sub (c : CoreId) (w : CtrlWord)
  /-- `AND` (R71): Control core writes the bitwise AND of rs1 and rs2 into rd. -/
  | and (c : CoreId) (w : CtrlWord)
  /-- `OR` (R71): Control core writes the bitwise OR of rs1 and rs2 into rd. -/
  | or (c : CoreId) (w : CtrlWord)
  /-- `XOR` (R71): Control core writes the bitwise XOR of rs1 and rs2 into rd. -/
  | xor (c : CoreId) (w : CtrlWord)
  /-- `SHL` (R71): Control core shifts rs1 left by rs2[5:0] into rd. -/
  | shl (c : CoreId) (w : CtrlWord)
  /-- `SHR` (R71): Control core shifts rs1 right logically by rs2[5:0] into rd. -/
  | shr (c : CoreId) (w : CtrlWord)
  /-- `SRA` (R71): Control core shifts rs1 right arithmetically by rs2[5:0] into rd. -/
  | sra (c : CoreId) (w : CtrlWord)
  /-- `MUL` (R71): Control core writes the low 64 bits of rs1 times rs2 into rd. -/
  | mul (c : CoreId) (w : CtrlWord)
  /-- `SLT` (R71): Control core sets rd to 1 when rs1 is below rs2 as signed values, else 0. -/
  | slt (c : CoreId) (w : CtrlWord)
  /-- `ADDI` (R71): Control core writes rs1 plus IMM64 into rd. -/
  | addi (c : CoreId) (w : CtrlWord)
  /-- `LI` (R71): Control core loads IMM64 into rd. -/
  | li (c : CoreId) (w : CtrlWord)
  /-- `LD` (R71): Control core loads 8 aligned scratchpad bytes into rd, faulting SCALAR_ACCESS when misaligned. -/
  | ld (c : CoreId) (w : CtrlWord)
  /-- `ST` (R71): Control core stores rs2 as 8 aligned bytes into the scratchpad, faulting SCALAR_ACCESS when misaligned. -/
  | st (c : CoreId) (w : CtrlWord)
  /-- `BEQ` (R71): Control core branches by IMM64 when rs1 equals rs2. -/
  | beq (c : CoreId) (w : CtrlWord)
  /-- `BNE` (R71): Control core branches by IMM64 when rs1 differs from rs2. -/
  | bne (c : CoreId) (w : CtrlWord)
  /-- `BLT` (R71): Control core branches by IMM64 when rs1 is below rs2 as signed values. -/
  | blt (c : CoreId) (w : CtrlWord)
  /-- `BGE` (R71): Control core branches by IMM64 when rs1 is at or above rs2 as signed values. -/
  | bge (c : CoreId) (w : CtrlWord)
  /-- `BLTU` (R71): Control core branches by IMM64 when rs1 is below rs2 as unsigned values. -/
  | bltu (c : CoreId) (w : CtrlWord)
  /-- `BGEU` (R71): Control core branches by IMM64 when rs1 is at or above rs2 as unsigned values. -/
  | bgeu (c : CoreId) (w : CtrlWord)
  /-- `JAL` (R71): Control core writes pc plus 1 into rd and jumps by IMM64. -/
  | jal (c : CoreId) (w : CtrlWord)
  /-- `JALR` (R71): Control core writes pc plus 1 into rd and jumps to rs1 plus IMM64. -/
  | jalr (c : CoreId) (w : CtrlWord)
  /-- `SUMRD` (R116): Control core reads a vector summary slot or mask register into rd. -/
  | sumrd (c : CoreId) (w : CtrlWord)
  /-- `WLREAD` (R71): Control core reads a word of the core's current work list into rd, or 0 when the core has no current list. -/
  | wlread (c : CoreId) (w : CtrlWord)
  /-- `BEATWAIT` (R167): Control core stalls until the next stage-start latch and its work list are ready, then makes that list current. -/
  | beatwait (c : CoreId) (w : CtrlWord)
  /-- `TOKWAIT` (R71): Control core waits on its WAIT mask and does nothing else. -/
  | tokwait (c : CoreId) (w : CtrlWord)
  /-- `PPOINT` (R210): Control core marks a pre-emption point and, with a request pending, switches contexts there. -/
  | ppoint (c : CoreId) (w : CtrlWord)
  /-- `END` (R71): Control core waits for every issued word to complete, then reports the stage complete for the current work list. -/
  | endStage (c : CoreId) (w : CtrlWord)
  /-- `NOP` (R71): Control core does nothing. -/
  | nop (c : CoreId) (w : CtrlWord)
  /-- `BRK` (R71): Control core halts with BRK_HALT set until debug access resumes it. -/
  | brk (c : CoreId) (w : CtrlWord)
  /-- `MVFAIL` (R89): Control core reads and clears the mover failure status of the running context. -/
  | mvfail (c : CoreId) (w : CtrlWord)
  /-- `STLB` (R83): Statistics unit clears the layer record and sets LAYER_ID.TAG. -/
  | stlb (c : CoreId) (w : CtrlWord)
  /-- `STRP` (R83): Control core blocks at a reheat point until the statistics unit decides. -/
  | strp (c : CoreId) (w : CtrlWord)
  /-- `REHEAT_DECISION` (R50): At the decision instant the statistics unit decides reheat or keep, charging the class budget. -/
  | reheatDecision (c : CoreId)
  /-- `STRD` (R83): Control core reads a selected layer or tile statistics field into rd. -/
  | strd (c : CoreId) (w : CtrlWord)
  /-- `MMA` (R73): Matrix engine multiplies an activation operand by a weight operand into an accumulator bank. -/
  | mma (c : CoreId) (w : TileWord)
  /-- `MOUT` (R78): Matrix engine drains a bank, de-quantises the outputs into tiles and closes the bank. -/
  | mout (c : CoreId) (w : TileWord)
  /-- `WORD_COMPLETE` (R62): An engine word finishes all its reads and writes, and its token is signalled when SIGV is set. -/
  | wordComplete (c : CoreId) (e : EngineId)
  /-- `TLOAD` (R84): Mover loads tiles from addresses into the tile register file. -/
  | tload (c : CoreId) (w : TileWord)
  /-- `TSTORE` (R84): Mover stores tiles to addresses. -/
  | tstore (c : CoreId) (w : TileWord)
  /-- `MCOPY` (R84): Mover copies a block between global addresses. -/
  | mcopy (c : CoreId) (w : TileWord)
  /-- `SEMSIG` (R88): Mover adds to a semaphore after every earlier write is acknowledged. -/
  | semsig (c : CoreId) (w : TileWord)
  /-- `SEMWAIT` (R84): Mover waits until a semaphore holds the count and then subtracts it. -/
  | semwait (c : CoreId) (w : TileWord)
  /-- `MATOM` (R84): Mover performs an atomic add or compare-and-swap and lands the old value in scratchpad. -/
  | matom (c : CoreId) (w : TileWord)
  /-- `MFENCE` (R84): Mover completes once every earlier mover transaction has completed. -/
  | mfence (c : CoreId) (w : TileWord)
  /-- `TRANSACTION_REPLY` (R89): A reply returns for an outstanding transaction and frees its tag, latching any failure status. -/
  | transactionReply (tag : TagId) (status : Byte) (data : List Byte)
  /-- `TRANSACTION_TIMEOUT` (R92): A transaction receives no reply within MV_TIMEOUT and completes with TIMEOUT. -/
  | transactionTimeout (tag : TagId)
  /-- `VADD` (R102): Vector engine writes a plus b. -/
  | vadd (c : CoreId) (w : TileWord)
  /-- `VSUB` (R102): Vector engine writes a minus b. -/
  | vsub (c : CoreId) (w : TileWord)
  /-- `VMUL` (R102): Vector engine writes a times b. -/
  | vmul (c : CoreId) (w : TileWord)
  /-- `VFMA` (R102): Vector engine writes a times b plus the old element, rounded once. -/
  | vfma (c : CoreId) (w : TileWord)
  /-- `VMAX` (R102): Vector engine writes the larger of a and b. -/
  | vmax (c : CoreId) (w : TileWord)
  /-- `VMIN` (R102): Vector engine writes the smaller of a and b. -/
  | vmin (c : CoreId) (w : TileWord)
  /-- `VCMP` (R104): Vector engine compares a with b, writing results, a mask and a count. -/
  | vcmp (c : CoreId) (w : TileWord)
  /-- `VMOV` (R102): Vector engine copies a tile or broadcasts an immediate. -/
  | vmov (c : CoreId) (w : TileWord)
  /-- `VCVT` (R103): Vector engine converts a tile to the destination format with scales. -/
  | vcvt (c : CoreId) (w : TileWord)
  /-- `VFUN` (R114): Vector engine applies a non-linear function element-wise. -/
  | vfun (c : CoreId) (w : TileWord)
  /-- `VPERM` (R107): Vector engine permutes elements within rows by an index tile. -/
  | vperm (c : CoreId) (w : TileWord)
  /-- `VSHUF` (R108): Vector engine applies a fixed shuffle pattern. -/
  | vshuf (c : CoreId) (w : TileWord)
  /-- `VPACK` (R109): Vector engine packs active lanes to the front of each row. -/
  | vpack (c : CoreId) (w : TileWord)
  /-- `VUNPACK` (R109): Vector engine spreads source lanes into active destination lanes. -/
  | vunpack (c : CoreId) (w : TileWord)
  /-- `VRED` (R111): Vector engine reduces along rows or down columns. -/
  | vred (c : CoreId) (w : TileWord)
  /-- `VSUM` (R115): Vector engine reduces every active element to one scalar summary. -/
  | vsum (c : CoreId) (w : TileWord)
  /-- `VSMAX` (R112): Vector engine computes a soft maximum per row. -/
  | vsmax (c : CoreId) (w : TileWord)
  /-- `VMSK_SET` (R105): Vector engine loads a mask register from the immediate. -/
  | vmskSet (c : CoreId) (w : TileWord)
  /-- `VMSK_AND` (R105): Vector engine writes the AND of two mask registers. -/
  | vmskAnd (c : CoreId) (w : TileWord)
  /-- `VMSK_OR` (R105): Vector engine writes the OR of two mask registers. -/
  | vmskOr (c : CoreId) (w : TileWord)
  /-- `VMSK_XOR` (R105): Vector engine writes the XOR of two mask registers. -/
  | vmskXor (c : CoreId) (w : TileWord)
  /-- `VMSK_ANDN` (R105): Vector engine writes one mask AND the inverse of another. -/
  | vmskAndn (c : CoreId) (w : TileWord)
  /-- `VMSK_NOT` (R105): Vector engine writes the inverse of a mask register. -/
  | vmskNot (c : CoreId) (w : TileWord)
  /-- `VMSK_FIRST` (R105): Vector engine sets the low lanes of a mask register. -/
  | vmskFirst (c : CoreId) (w : TileWord)
  /-- `SCAN` (R131): Scan unit runs the segmented recurrence over a block with carry-in and optional write-back. -/
  | scan (c : CoreId) (w : TileWord) (ecc : List Ecc)
  /-- `SSHIFT` (R136): Scan unit writes delayed copies of the input with history and reset cuts. -/
  | sshift (c : CoreId) (w : TileWord) (ecc : List Ecc)
  /-- `SHSAVE` (R137): Scan unit stores the last frames of a sequence into the history slot. -/
  | shsave (c : CoreId) (w : TileWord) (ecc : List Ecc)
  /-- `SPZERO` (R139): State port sets groups of a slot to zero codes and zero scales. -/
  | spzero (c : CoreId) (w : TileWord) (ecc : List Ecc)
  /-- `SPLOAD` (R139): State port loads slot groups and their scales into tiles. -/
  | spload (c : CoreId) (w : TileWord) (ecc : List Ecc)
  /-- `SPSTORE` (R139): State port stores tile rows and scales into slot groups. -/
  | spstore (c : CoreId) (w : TileWord) (ecc : List Ecc)
  /-- `MIRRORED_READ_HOLD_RELEASE` (R143): A read held on a mirrored slot resumes once the export read or the import of that slot completes. -/
  | mirroredReadHoldRelease (c : CoreId) (region : Fin 16) (slot : Fin 2048)
  /-- `STATE_DEBUG_READ` (R144): A read of the state store debug window returns stored codes, or ACCESS_DENIED without authorisation. -/
  | stateDebugRead (port : PortId) (vc : Fin 8) (p : Packet)
  /-- `PREEMPTION_REQUEST` (R207): The highest-ranked ready context on a core changes, raising a pre-emption request. -/
  | preemptionRequest (c : CoreId)
  /-- `BE_SLICE_EXPIRY` (R207): The BE_SLICE of a best-effort context ends, so an equal-priority context takes its turn. -/
  | beSliceExpiry (c : CoreId)
  /-- `ATOM_WAIT_EXPIRY` (R213): ATOM_WAIT ends at a point and the pending atomic detaches under the saved context. -/
  | atomWaitExpiry (c : CoreId)
  /-- `QUENCH` (R216): The device removes one context from every engine, increments its GEN and sets it QUENCHED. -/
  | quench (ctx : CtxId) (cause : QuenchCause)
  /-- `BAR_BOUNDARY` (R19): At T the device commits, exports, switches the bank and starts the new bar's beats in order. -/
  | barBoundary
  /-- `QUEUE_OUTPUT_COMMIT` (R171): The stream manager copies a payload, waits for its acknowledgement and pushes the commit record. -/
  | queueOutputCommit (s : StreamId) (copyStatus pushStatus : Byte)
  /-- `MIRROR_EXPORT` (R359): The mirror engine exports every mirrored slot of active streams to the partner. -/
  | mirrorExport
  /-- `PARK_RECORD_WRITE` (R145): The state port writes the park record, and then the stream's slots are released. -/
  | parkRecordWrite (s : StreamId) (status : Byte)
  /-- `UNPARK_RUN` (R146): At a boundary the stream manager allocates slots, checks the record and copies it in. -/
  | unparkRun (s : StreamId) (f : Fetched)
  /-- `OP_POINT_CHANGE` (R431): The manager changes the arithmetic operating point, with clock and voltage in order. -/
  | opPointChange
  /-- `STAGE_START_BEAT` (R197): The beat latches a stage slot's start on each named core. -/
  | stageStartBeat (e : Fin 512)
  /-- `CUTOFF_BEAT` (R162): At the admission cut-off the stream manager admits chunks of the context's streams. -/
  | cutoffBeat (b : CutoffRead)
  /-- `WORK_LIST_READY` (R167): The stream manager finishes writing the lists and inputs of a context after a cut-off. -/
  | workListReady (ctx : CtxId)
  /-- `STAT_BEAT` (R197): The beat latches statistics beat i on each named core. -/
  | statBeat (e : Fin 512)
  /-- `SWAP_BEAT` (R261): The beat arms a coefficient bank swap of the named outputs. -/
  | swapBeat (e : Fin 512)
  /-- `MIRROR_BEAT` (R197): The bank's MIRROR beat enables the bar-end export and selects Codec Z. -/
  | mirrorBeat (e : Fin 512)
  /-- `PATTERN_START` (R194): The pattern engine starts at the first eligible bar boundary after RUN is set. -/
  | patternStart
  /-- `PATTERN_STOP` (R194): The pattern engine stops at the boundary after RUN is cleared. -/
  | patternStop
  /-- `PT_CTRL_RUN` (R194): A write of RUN fixes the pattern start instant or requests a stop. -/
  | ptCtrlRun (src : NodeId) (run : Bool)
  /-- `SWITCH_REQ` (R201): A write to SWITCH_REQ validates the inactive bank and makes the switch pending or refuses it. -/
  | switchReq (src : NodeId)
  /-- `PT_ENTRY_WRITE` (R200): A write of PT_ENTRY words holds them, and the write of word 3 stores the entry. -/
  | ptEntryWrite (src : NodeId) (i : Fin 4) (v : W32)
  /-- `PT_ENTRY_SEL_WRITE` (R200): A write of PT_ENTRY_SEL selects an entry and clears the held words. -/
  | ptEntrySelWrite (src : NodeId) (v : W32)
  /-- `TB_SET` (R185): A write of TB_SET_LO sets the timebase, unless the pattern engine runs. -/
  | tbSet (src : NodeId) (v : W32)
  /-- `TB_HOLD_LIMIT_EXPIRY` (R184): No time update arrives for TB_HOLD_LIMIT, and the servo leaves LOCKED for HOLDOVER. -/
  | tbHoldLimitExpiry
  /-- `ANG_TOOTH` (R188): The angle timebase stamps a tooth edge and advances the angle, detecting gaps and position 0. -/
  | angTooth (a : Fin 2) (falling : Bool) (widthNs : Nat)
  /-- `ANG_INDEX` (R188): An index edge marks that the next tooth is position 0. -/
  | angIndex (a : Fin 2) (widthNs : Nat)
  /-- `ANG_TIMEOUT` (R191): No tooth or sample for ANG_TIMEOUT sets the angle STOPPED at rate 0. -/
  | angTimeout (a : Fin 2)
  /-- `ANG_HS_COMMIT` (R190): A host angle sample is submitted, replacing any waiting sample. -/
  | angHsCommit (src : NodeId) (a : Fin 2)
  /-- `ANG_SAMPLE_APPLY` (R190): When the timebase reaches ANG_HS_T, the device applies the host sample. -/
  | angSampleApply (a : Fin 2)
  /-- `PORT_ENABLE` (R244): A write of ENABLE = 1 to an audio port checks limits and starts the port. -/
  | portEnable (src : NodeId) (p : AudioPort)
  /-- `PORT_CLOCK_START` (R244): A master port's source locks and its clocks start on the frame grid. -/
  | portClockStart (p : AudioPort)
  /-- `PORT_ON` (R244): After pre-roll and validity, ring frame 0 is written or taken and the port goes ON. -/
  | portOn (p : AudioPort)
  /-- `PORT_DISABLE` (R245): A write of ENABLE = 0 stops a port through muting, post-roll and high impedance. -/
  | portDisable (src : NodeId) (p : AudioPort)
  /-- `PORT_STOP_DONE` (R245): The stop completes, the balls go high-impedance and the port is OFF. -/
  | portStopDone (p : AudioPort)
  /-- `PORT_BLOCK_RESET` (R246): BLOCK_RESET stops an audio port at once without gating or post-roll. -/
  | portBlockReset (src : NodeId) (p : AudioPort)
  /-- `BLOCK_LAND` (R223): A port writes a block of frames and its stamp entry into the ring. -/
  | blockLand (p : AudioPort) (stamp : W64) (frames : List (List (BitVec 128)))
  /-- `SLOT_TAKE` (R239): At a slot's take instant the port plays it, or plays zeros without its mark. -/
  | slotTake (p : AudioPort) (ecc : List Ecc)
  /-- `SLOT_READY_MARK` (R239): Once every commit targeting a slot completes, the stream manager sets its ready mark. -/
  | slotReadyMark (p : AudioPort) (slot : Nat)
  /-- `CLK_LOSS` (R238): A slave port sees no frame for LOSS_FRAMES periods and starts filling or discarding. -/
  | clkLoss (p : AudioPort)
  /-- `CLK_RETURN` (R238): Edges return for 2 frames and the port resumes real frames. -/
  | clkReturn (p : AudioPort)
  /-- `RATE_WINDOW_END` (R237): A rate meter window ends, updating AP_RATE_MEAS and raising RATE_CHANGE. -/
  | rateWindowEnd (p : AudioPort) (edges : Nat) (first last : W64)
  /-- `GATE_TIMEOUT` (R243): No zero crossing within GATE_TIMEOUT frames, so the slot opens or mutes. -/
  | gateTimeout (p : AudioPort) (slot : Fin 16)
  /-- `LINE_STUCK` (R229): A PDM input line does not change for 65,536 clocks. -/
  | lineStuck (g : Fin 6) (line : Fin 4)
  /-- `MODULATOR_RESET` (R230): A PDM output modulator exceeds its bound and is cleared for one frame. -/
  | modulatorReset (h : Fin 2) (ch : Fin 8)
  /-- `AP_MAP_APPLY` (R228): A written AP_MAP slot setting takes effect at the next frame boundary. -/
  | apMapApply (p : AudioPort) (slot : Fin 16)
  /-- `STANDBY_APPLY` (R240): A STANDBY change drives or releases the output balls at the next frame boundary. -/
  | standbyApply (p : AudioPort)
  /-- `RING_SHAPE_VALID` (R222): A write of RING_SHAPE.VALID checks the ring and sets or refuses VALID. -/
  | ringShapeValid (src : NodeId) (r : Fin 32) (v : W32)
  /-- `APLL_LOCK` (R232): An APLL locks after a change of APLL_MULT or APLL_CTRL. -/
  | apllLock (a : Fin 2)
  /-- `APLL_LOCK_LOST` (R232): An APLL loses lock and holds its last frequency. -/
  | apllLockLost (a : Fin 2)
  /-- `ASRC_LOCK` (R235): A converter bank locks after 20 ms of continuous port frames. -/
  | asrcLock (b : Fin 3)
  /-- `ASRC_OUT_OF_RANGE` (R248): A converter bank leaves plus or minus 2 % and holds its last ratio. -/
  | asrcOutOfRange (b : Fin 3)
  /-- `DIRECT_PATH_ENABLE` (R263): A write of ENABLE = 1 checks cost and clocks and starts the direct filter path. -/
  | directPathEnable (src : NodeId)
  /-- `DIRECT_PATH_DISABLE` (R263): A write of ENABLE = 0 outputs zero and stops the path two frames later. -/
  | directPathDisable (src : NodeId)
  /-- `DIRECT_PATH_BLOCK_RESET` (R444): BLOCK_RESET stops the direct filter path without the STOPPING step. -/
  | directPathBlockReset (src : NodeId)
  /-- `PATH_FRAME` (R256): At E_k the path filters, adapts and produces one output frame. -/
  | pathFrame (edge : W64) (inputs : List PortFrame) (ecc : List DpFault)
  /-- `RESYNC_DONE` (R258): The copy of an output's active words into its shadow completes. -/
  | resyncDone (o : Fin 24)
  /-- `DP_LOAD_GO` (R259): A write of DP_LOAD_GO queues a load list, or is refused with 4 pending. -/
  | dpLoadGo (src : NodeId)
  /-- `LOAD_LIST_DONE` (R260): A load list finishes filling the shadow and marks outputs ready, or stops on an error. -/
  | loadListDone (t : W64)
  /-- `DRAM_ACCESS` (R269): A DRAM channel serves a transaction, correcting or reporting ECC errors. -/
  | dramAccess (q : MemReq) (ecc : Ecc)
  /-- `PATROL_SCRUB` (R271): The scrubber reads the next 256-byte unit of a channel and corrects it. -/
  | patrolScrub (ch : Fin 16) (ecc : Ecc)
  /-- `REFRESH_RATE_CHANGE` (R272): The stack temperature crosses a threshold and the refresh interval changes. -/
  | refreshRateChange (ch : Fin 16) (celsius : Byte)
  /-- `DRAM_RETRAIN` (R273): Every 256 ms a channel retrains its timing. -/
  | dramRetrain (ch : Fin 16)
  /-- `DRAM_TRAINING_DONE` (R273): Channel training completes, or fails and sets DC_STATUS.FAILED. -/
  | dramTrainingDone (ch : Fin 16) (ok : Bool)
  /-- `CACHE_ACCESS` (R275): The system cache looks up a request and allocates or bypasses by the mask. -/
  | cacheAccess (q : MemReq) (ecc : Ecc)
  /-- `CA_MAINT` (R276): A write of CA_MAINT starts a write-back or invalidate pass over ways. -/
  | caMaint (src : NodeId) (v : W32)
  /-- `CACHE_PASS_DONE` (R276): A maintenance pass completes and BUSY clears. -/
  | cachePassDone
  /-- `PR_ENABLE` (R281): A write of PR_CTRL.EN = 1 checks and enables a protected region. -/
  | prEnable (src : NodeId) (n : Fin 16) (v : W32)
  /-- `PR_DISABLE` (R281): A write of EN = 0 writes back the range's cached lines and then disables it. -/
  | prDisable (src : NodeId) (n : Fin 16) (v : W32)
  /-- `CE_JOB_GO` (R294): A write of CE_JOB_GO queues a compression job, or refuses it with 64 pending. -/
  | ceJobGo (src : NodeId)
  /-- `BLOCK_CODE` (R292): A lane decodes or encodes one block, finding damage by R290. -/
  | blockCode (lane : Fin 16)
  /-- `CE_JOB_DONE` (R295): After every destination write is acknowledged, the engine writes the status record and signals. -/
  | ceJobDone
  /-- `LINK_ENABLE` (R300): A write of ENABLE = 1 to a LINK page checks credits and starts bring-up at DETECT. -/
  | linkEnable (src : NodeId) (port : PortId)
  /-- `LINK_DETECT_DONE` (R300): The port finds a peer receiver on both lanes. -/
  | linkDetectDone (port : PortId)
  /-- `LINK_TRAIN_DONE` (R300): Equalisation training completes, fast or full. -/
  | linkTrainDone (port : PortId) (fast : Bool) (laneSwap : Bool) (laneInv : BitVec 2)
  /-- `LINK_ALIGN_DONE` (R303): Codeword lock and lane deskew complete. -/
  | linkAlignDone (port : PortId)
  /-- `EXCHANGE` (R302): The port receives the peer's EXCHANGE flit and learns its identity and credits. -/
  | exchange (port : PortId) (f : ExchangeFlit)
  /-- `EXCHANGE_RESEND` (R302): Every 1 µs in EXCHANGE the port resends its EXCHANGE flit. -/
  | exchangeResend (port : PortId)
  /-- `KEY_OFFER` (R320): The port takes the peer's key offer and verifies its certificate. -/
  | keyOffer (port : PortId) (p : Packet)
  /-- `KEY_CONFIRM` (R320): The port verifies the peer's confirm signature, derives keys and enters UP. -/
  | keyConfirm (port : PortId) (p : Packet)
  /-- `KEYING_TIMEOUT` (R320): KEYING exceeds 2 ms and the port goes DOWN with KEY_FAIL. -/
  | keyingTimeout (port : PortId)
  /-- `LINK_DOWN` (R332): A port goes DOWN, completing its requests, broadcasting PEER_LOST and restarting after 10 µs. -/
  | linkDown (port : PortId) (cause : DownCause)
  /-- `LOCK_LOSS_TIMEOUT` (R301): An UP port loses codeword lock for 1 µs and goes DOWN. -/
  | lockLossTimeout (port : PortId)
  /-- `LINK_RESTART` (R301): 10 µs after going DOWN the port starts again at DETECT. -/
  | linkRestart (port : PortId)
  /-- `DATA_FLIT` (R306): The receiver accepts an in-order good DATA flit or discards it and sends NAK. -/
  | dataFlit (port : PortId) (flit : List Byte) (errs : Nat)
  /-- `NULL_FLIT` (R304): A NULL flit arrives carrying ACK and credit return. -/
  | nullFlit (port : PortId) (flit : List Byte) (errs : Nat)
  /-- `NAK` (R306): A NAK makes the sender replay from the expected SEQ. -/
  | nak (port : PortId) (f : NakFlit)
  /-- `LINK_RESET` (R307): A good LINK_RESET flit takes the port DOWN with its cause. -/
  | linkReset (port : PortId) (f : ResetFlit)
  /-- `REPLAY_TIMEOUT` (R306): 2 µs pass without ACK progress and the sender replays the oldest unacknowledged flit. -/
  | replayTimeout (port : PortId)
  /-- `REKEY` (R319): A packet counter reaches 2^48 and the port sends LINK_RESET with cause REKEY. -/
  | rekey (port : PortId)
  /-- `AUTH_FAIL` (R321): A packet's GCM tag fails and the packet is discarded. -/
  | authFail (port : PortId) (vc : Fin 8) (p : Packet)
  /-- `PACKET_FORWARD` (R322): A packet for another node is forwarded by FB_ROUTE, or a broadcast is copied. -/
  | packetForward (port : PortId) (vc : Fin 8) (p : Packet)
  /-- `READ` (R312): A target reads up to 256 bytes and answers READ_RSP. -/
  | read (port : PortId) (vc : Fin 8) (p : Packet)
  /-- `WRITE` (R312): A target writes up to 256 bytes and answers ACK. -/
  | write (port : PortId) (vc : Fin 8) (p : Packet)
  /-- `ATOMIC_ADD` (R314): A target adds to 8 bytes indivisibly and answers the old value. -/
  | atomicAdd (port : PortId) (vc : Fin 8) (p : Packet)
  /-- `ATOMIC_CAS` (R314): A target compares and swaps 8 bytes and answers the old value. -/
  | atomicCas (port : PortId) (vc : Fin 8) (p : Packet)
  /-- `SEM_SIGNAL` (R313): The semaphore unit adds a count and grants queued waits in order. -/
  | semSignal (port : PortId) (vc : Fin 8) (p : Packet)
  /-- `SEM_WAIT` (R313): The semaphore unit grants a wait, queues it, or answers BUSY. -/
  | semWait (port : PortId) (vc : Fin 8) (p : Packet)
  /-- `SEM_CANCEL` (R313): The semaphore unit removes a queued wait or reports it already granted. -/
  | semCancel (port : PortId) (vc : Fin 8) (p : Packet)
  /-- `QPUSH` (R343): The queue manager writes a pushed entry into a queue, drops or refuses. -/
  | qpush (port : PortId) (vc : Fin 8) (p : Packet)
  /-- `READ_RSP` (R330): A read response arrives and is delivered or dropped by generation. -/
  | readRsp (port : PortId) (vc : Fin 8) (p : Packet)
  /-- `ACK` (R330): A write acknowledgement arrives and completes its transaction. -/
  | ack (port : PortId) (vc : Fin 8) (p : Packet)
  /-- `ATOMIC_RSP` (R312): An atomic response delivers the old value. -/
  | atomicRsp (port : PortId) (vc : Fin 8) (p : Packet)
  /-- `SEM_RSP` (R313): A semaphore grant or cancel answer arrives at the requester. -/
  | semRsp (port : PortId) (vc : Fin 8) (p : Packet)
  /-- `SYNC` (R327): A device accepts a SYNC, updates its servo and forwards it with corrected time. -/
  | sync (port : PortId) (vc : Fin 8) (p : Packet)
  /-- `SYNC_SEND` (R327): Node 0 broadcasts SYNC with its origin time. -/
  | syncSend
  /-- `PDELAY_PERIOD` (R326): Every TS_PDELAY_PERIOD the port sends PDELAY_REQ. -/
  | pdelayPeriod (port : PortId)
  /-- `PDELAY_REQ` (R326): The peer stamps a PDELAY_REQ and answers PDELAY_RSP. -/
  | pdelayReq (port : PortId) (vc : Fin 8) (p : Packet)
  /-- `PDELAY_RSP` (R326): The port computes the link delay from the four stamps. -/
  | pdelayRsp (port : PortId) (vc : Fin 8) (p : Packet)
  /-- `MIRROR` (R360): The importer stages a MIRROR piece and copies a complete image into its slot. -/
  | mirror (port : PortId) (vc : Fin 8) (p : Packet)
  /-- `TOLL` (R367): A TOLL packet from the partner counts for its window or declares failure. -/
  | toll (port : PortId) (vc : Fin 8) (p : Packet)
  /-- `MGMT_READ` (R312): A target reads a register page or dump buffer for node 0. -/
  | mgmtRead (port : PortId) (vc : Fin 8) (p : Packet)
  /-- `MGMT_WRITE` (R312): A target writes a register page for node 0. -/
  | mgmtWrite (port : PortId) (vc : Fin 8) (p : Packet)
  /-- `MGMT_RSP` (R312): A management response arrives. -/
  | mgmtRsp (port : PortId) (vc : Fin 8) (p : Packet)
  /-- `PEER_LOST` (R332): A receiver marks the lost node DOWN when the cause is CHIP; the bridge may broadcast NODE_DOWN. -/
  | peerLost (port : PortId) (vc : Fin 8) (p : Packet)
  /-- `NODE_DOWN` (R333): Every receiver marks the node DOWN and completes requests to it with NODE_RESET. -/
  | nodeDown (port : PortId) (vc : Fin 8) (p : Packet)
  /-- `NODE_UP` (R333): Every receiver sets the node UP with its new BGEN. -/
  | nodeUp (port : PortId) (vc : Fin 8) (p : Packet)
  /-- `HOST_SWITCH` (R325): A bridge makes its standby host port active, and others copy ALT into their route. -/
  | hostSwitch (port : PortId) (vc : Fin 8) (p : Packet)
  /-- `ENUM` (R323): An unenumerated device takes an ID, walks its ports and answers ENUM_DONE. -/
  | enum (port : PortId) (vc : Fin 8) (p : Packet)
  /-- `ENUM_DONE` (R323): The walker receives the next free ID and explores its next port. -/
  | enumDone (port : PortId) (vc : Fin 8) (p : Packet)
  /-- `FB_ENUM_START` (R323): A write of FB_ENUM_CTRL.START makes the bridge start enumeration. -/
  | fbEnumStart (src : NodeId) (v : W32)
  /-- `DOORBELL` (R342): A doorbell write moves a queue's PI or CI. -/
  | doorbell (src : NodeId) (q : QueueId) (v : W64)
  /-- `COMMAND_FETCH` (R346): The queue manager fetches a command slot and starts it. -/
  | commandFetch (q : QueueId) (f g : Fetched)
  /-- `COMPLETION_WRITE` (R347): The queue manager writes a completion record into the CQ or holds it while full. -/
  | completionWrite (q : QueueId)
  /-- `VECTOR_FIRE` (R344): A queue fires its vector by count and sends a message or sets PENDING. -/
  | vectorFire (q : QueueId)
  /-- `COALESCE_TIMEOUT` (R344): COAL_US passes since the first unsignalled entry and the queue fires. -/
  | coalesceTimeout (q : QueueId)
  /-- `VEC_UNMASK` (R344): Clearing MASK on a pending vector sends one message and clears PENDING. -/
  | vecUnmask (src : NodeId) (v : Fin 128)
  /-- `CMD_NOP` (R348): The NOP command completes OK. -/
  | cmdNop (c : CmdSlot)
  /-- `REG_READ` (R348): The command reads up to 4 register words into the completion. -/
  | regRead (c : CmdSlot)
  /-- `REG_WRITE` (R348): The command writes a register under a mask by its access codes. -/
  | regWrite (c : CmdSlot)
  /-- `QUEUE_CREATE` (R348): The command allocates and describes a queue. -/
  | queueCreate (c : CmdSlot)
  /-- `QUEUE_DESTROY` (R348): The command frees a queue. -/
  | queueDestroy (c : CmdSlot)
  /-- `IMAGE_LOAD` (R351): The command verifies, checks and loads the model image. -/
  | imageLoad (c : CmdSlot) (f : Fetched)
  /-- `TABLE_LOAD` (R285): The command loads a Codec H table version into a slot. -/
  | tableLoad (c : CmdSlot) (f : Fetched)
  /-- `CTX_CREATE` (R348): The command creates a STOPPED context. -/
  | ctxCreate (c : CmdSlot)
  /-- `CTX_START` (R348): The command makes a context RUNNING and seeds its generators. -/
  | ctxStart (c : CmdSlot)
  /-- `CTX_STOP` (R348): The command stops a RUNNING context at the next boundary. -/
  | ctxStop (c : CmdSlot)
  /-- `CTX_QUENCH` (R348): The command quenches a context. -/
  | ctxQuench (c : CmdSlot)
  /-- `CTX_DESTROY` (R348): The command frees a STOPPED or QUENCHED context. -/
  | ctxDestroy (c : CmdSlot)
  /-- `STREAM_OPEN` (R154): The command opens a stream entry as OPEN_PENDING with slots. -/
  | streamOpen (c : CmdSlot)
  /-- `STREAM_CLOSE` (R155): The command closes a stream at the next boundary. -/
  | streamClose (c : CmdSlot)
  /-- `STREAM_RESET` (R156): The command records a pending reset mark. -/
  | streamReset (c : CmdSlot)
  /-- `STREAM_PARK` (R145): The command parks a stream after its queued chunks. -/
  | streamPark (c : CmdSlot)
  /-- `STREAM_UNPARK` (R146): The command unparks a stream at a boundary. -/
  | streamUnpark (c : CmdSlot)
  /-- `PATTERN_WRITE` (R348): The command writes entries into the inactive bank. -/
  | patternWrite (c : CmdSlot) (f : Fetched)
  /-- `PATTERN_SWITCH` (R348): The command requests a bank switch and completes when it takes effect or is refused. -/
  | patternSwitch (c : CmdSlot)
  /-- `DUMP` (R396): The command runs the dump engine to a destination. -/
  | dump (c : CmdSlot)
  /-- `QM_ADMIN_ENABLE` (R355): A write of QM_ADMIN_CTRL.EN allocates the admin queues 0 and 1. -/
  | qmAdminEnable (src : NodeId) (v : W32)
  /-- `MR_CTRL_ENABLE` (R356): A write of MR_CTRL.EN = 1 checks and enables pair operation. -/
  | mrCtrlEnable (src : NodeId) (v : W32)
  /-- `MR_BIND_IN_WRITE` (R361): A bind record write to MR_BIND_IN is accepted or discarded. -/
  | mrBindInWrite (src : NodeId) (words : List W32)
  /-- `MR_AUDIT_IN` (R365): A partner's audit report raises AUDIT for the stream's context. -/
  | mrAuditIn (src : NodeId) (v : W32)
  /-- `TOLL_SEND` (R366): At each toll instant the device pulses TOLL_OUT and sends a TOLL packet. -/
  | tollSend
  /-- `TOLL_IN_PULSE` (R367): A TOLL_IN pulse of at least 2 µs counts as a pin toll in its window. -/
  | tollInPulse (widthNs : Nat)
  /-- `TOLL_WINDOW_END` (R367): A toll window ends, counting misses and declaring the partner FAILED after three. -/
  | tollWindowEnd
  /-- `TAKEOVER_DRIVE` (R369): After 2 frames of sensing the device drives the quiet ports, or raises SPLIT. -/
  | takeoverDrive (edges : Bool)
  /-- `E2E_CHECK` (R374): At slot end the safety manager compares commit and play CRCs. -/
  | e2eCheck (k : Fin 16)
  /-- `CONFIG_COMPARE` (R375): Every 100 µs the safety manager compares each register with its complement. -/
  | configCompare (k : Fin 20) (goodReg goodComp : Bool)
  /-- `LFT_CYCLE` (R376): Every SF_LFT_PERIOD the safety manager runs the latent-fault tests. -/
  | lftCycle (failed : Option (Fin 256))
  /-- `MECHANISM_RAISE` (R372): The safety manager raises a mechanism and applies its class. -/
  | mechanismRaise (m : Fin 16) (ctx : Option CtxId) (clk : Option (Fin 9))
  /-- `SAFE_STATE_ENTRY` (R373): The device enters safe state: outputs off, tolling stopped, FAULT_N low, contexts quenched. -/
  | safeStateEntry
  /-- `SF_ARM` (R373): A write of SF_CTRL.ARM starts tolling and releases FAULT_N. -/
  | sfArm (src : NodeId)
  /-- `HANG_EXAMINE` (R382): Every 10 µs the detector examines wait records and raises hangs. -/
  | hangExamine
  /-- `ENGINE_RESET` (R383): The reset controller quenches suspects and resets one engine. -/
  | engineReset (c : CoreId) (e : ResetEngine)
  /-- `PARTITION_RESET` (R383): The reset controller resets every engine of a partition's cores. -/
  | partitionReset (p : Fin 8)
  /-- `CHIP_WARM_RESET` (R387): The whole device resets except the kept items, and boot runs again. -/
  | chipWarmReset (source : Fin 4)
  /-- `RESET_ESCALATION` (R384): A level that does not complete in time escalates to the next. -/
  | resetEscalation
  /-- `HG_RESET_REQ_ENGINE` (R386): A confirmed HG_RESET_REQ LEVEL 1 requests an engine reset. -/
  | hgResetReqEngine (src : NodeId) (v : W32)
  /-- `HG_RESET_REQ_PARTITION` (R386): A confirmed HG_RESET_REQ LEVEL 2 requests a partition reset. -/
  | hgResetReqPartition (src : NodeId) (v : W32)
  /-- `HG_RESET_REQ_CHIP` (R386): A confirmed HG_RESET_REQ LEVEL 3 requests a chip warm reset. -/
  | hgResetReqChip (src : NodeId) (v : W32)
  /-- `REPLAY_START` (R389): At a boundary the controller restores a suspect from its checkpoint and runs it. -/
  | replayStart
  /-- `DUMP_ACCESS_TIMEOUT` (R396): A side-path access times out and marks its unit dead. -/
  | dumpAccessTimeout (unit : Fin 2048)
  /-- `DUMP_DONE` (R396): The dump engine writes the header and completes. -/
  | dumpDone
  /-- `PORESET_RISE` (R401): PORESET_N rises, straps are captured and the ROM sequence starts. -/
  | poresetRise (bootSrc : BitVec 2) (bridgeEn : Bool) (o : RomObs)
  /-- `WRESET_FALL` (R459): WRESET_N low for 200 ns starts a chip warm reset. -/
  | wresetFall
  /-- `SUPPLY_FAULT` (R459): A supply leaves range or a PWRGD input falls, raising VOLTAGE. -/
  | supplyFault (e : SupplyEvent)
  /-- `FLASH_READ_DONE` (R404): The ROM reads and verifies a flash copy and boots or tries the next. -/
  | flashReadDone (io : Bool) (container : List Byte)
  /-- `FIRMWARE_READY` (R401): Firmware start-up completes and the device is marked ready. -/
  | firmwareReady
  /-- `SEC_BOOT_GO` (R405): The host's GO closes the boot window and verifies the container. -/
  | secBootGo (src : NodeId)
  /-- `FUSE_REVOKE` (R411): A fuse command revokes a signer slot or is refused. -/
  | fuseRevoke (src : NodeId) (v : W32)
  /-- `FUSE_PROGRAM` (R411): A fuse command programs a signer, anchor or lifecycle field. -/
  | fuseProgram (src : NodeId) (v : W32)
  /-- `KEY_DERIVE` (R418): A key slot is filled by derivation from the UDS and a label. -/
  | keyDerive (src : NodeId) (v : W32)
  /-- `KEY_RANDOM` (R418): A key slot is filled from the TRNG. -/
  | keyRandom (src : NodeId) (v : W32)
  /-- `KEY_CLEAR` (R418): A key slot is emptied. -/
  | keyClear (src : NodeId) (v : W32)
  /-- `SEC_DBG_GO` (R419): The device checks a debug token and grants levels or counts a failure. -/
  | secDbgGo (src : NodeId)
  /-- `SEC_DBG_RELOCK` (R419): A write ends the debug grant. -/
  | secDbgRelock (src : NodeId)
  /-- `SEC_ATT_GO` (R415): The device writes a signed attestation report. -/
  | secAttGo (src : NodeId)
  /-- `TRNG_HEALTH_FAIL` (R417): A TRNG health test fails and output is withheld. -/
  | trngHealthFail
  /-- `DOMAIN_UP` (R427): A write of UP = 1 starts a power domain. -/
  | domainUp (src : NodeId) (d : Fin 80)
  /-- `DOMAIN_DOWN` (R429): A write of UP = 0 stops a domain or is refused. -/
  | domainDown (src : NodeId) (d : Fin 80)
  /-- `DOMAIN_TRANSITION_DONE` (R427): A domain reaches ON or OFF. -/
  | domainTransitionDone (d : Fin 80)
  /-- `POWER_ESTIMATE` (R433): Every 100 µs the manager estimates power and updates the average. -/
  | powerEstimate (mw : Nat)
  /-- `SENSOR_UPDATE` (R434): Every 100 µs the sensors update and thermal levels are set or cleared. -/
  | sensorUpdate (readings : List SensorReading)
  /-- `THROTTLE_STEP` (R434): In THROTTLE the manager steps down one point each 1 ms. -/
  | throttleStep
  /-- `BLOCK_ENABLE` (R428): A write of PG_CTRL.ENABLE starts or stops a block by the enable rule. -/
  | blockEnable (src : NodeId) (page : PageId) (en : Bool)
  /-- `LINK_BLOCK_RESET` (R444): BLOCK_RESET on a LINK page sends LINK_RESET and takes the port DOWN. -/
  | linkBlockReset (src : NodeId) (port : PortId)
  /-- `PG_LOCK` (R445): A write of 1 locks every RWL field of the page. -/
  | pgLock (src : NodeId) (page : PageId)
  /-- `LOCK_REQ` (R445): A lock request sets PG_LOCK when the page reads ON. -/
  | lockReq (src : NodeId) (page : PageId)
  /-- `PG_IRQ_FORCE` (R440): A write sets interrupt status bits without the event. -/
  | pgIrqForce (src : NodeId) (page : PageId) (v : W32)
  /-- `STAT_CTRL_LAYER_CLEAR` (R55): A write clears the layer record. -/
  | statCtrlLayerClear (c : CoreId)
  /-- `STAT_CTRL_TILE_CLEAR` (R55): A write clears every tile record. -/
  | statCtrlTileClear (c : CoreId)
  /-- `REGION_SHAPE_VALID` (R126): A write of ST_REGION_SHAPE.VALID checks and validates a state region. -/
  | regionShapeValid (src : NodeId) (c : CoreId) (n : Fin 16) (v : W32)
  /-- `RC_READ` (R8): A read of an RC field returns it and clears it. -/
  | rcRead (src : NodeId) (page : PageId) (reg : Fin 1024)
  /-- `REGISTER_WRITE` (R8): A write to a register without a row of its own stores by its access code or is recorded as refused. -/
  | registerWrite (src : NodeId) (page : PageId) (reg : Fin 1024) (v : W32)
  /-- `LINK_STATE_FAIL` (R301): A port that does not complete DETECT, TRAIN, ALIGN or EXCHANGE within its bound goes DOWN with its cause, such as TRAIN_FAIL. -/
  | linkStateFail (port : PortId)
  /-- `SEM_WAIT_REISSUE` (R313): A mover whose SEM_WAIT was answered BUSY re-issues the wait 1 µs later. -/
  | semWaitReissue (tag : TagId)
  /-- `PORESET_FALL` (R459): PORESET_N falls and the device enters power-on reset, abandoning any chip warm reset or ROM sequence. -/
  | poresetFall
  /-- `PWRGD_RISE` (R459): The last PWRGD input rises while PORESET_N is already high, and the device leaves power-on reset and starts R401. -/
  | pwrgdRise
  /-- `WRESET_RISE` (R459): WRESET_N rises and step 1 of the ROM sequence of the chip warm reset starts. -/
  | wresetRise
  /-- `TRNG_HEALTH_RECOVERY` (R417): After 1,024 further raw samples pass the health tests, the TRNG clears FAIL and resumes output. -/
  | trngHealthRecovery
  /-- `MCLK_IN_RETURN` (R231): MCLK_IN returns within ±2 % and CK_STATUS.MCLK_OK and MCLK_RATE are set from the measurement. -/
  | mclkInReturn (rate : Bool)
  /-- `LINK_CONTROLLER_RELEASE` (R401): The reset controller releases the link controller, and the ports start DETECT with full training or a fast relink. -/
  | linkControllerRelease
  /-- `CHECKPOINT_RESTORE_DONE` (R389): The state port finishes restoring a replayed context's slots, and the context enters RUNNING. -/
  | checkpointRestoreDone
  /-- `DBGACC` (R468): A TAP DBGACC data register update performs one debug access, handled as a VC7 request from node 0, and captures its completion code. -/
  | dbgacc (addr : W64) (data : W32) (write : Bool)
deriving DecidableEq, Repr

end Sys2Proof
end

