-- ==== Sys2Proof/Machine/State.lean ====
section
/-!
DEFINITION. The state of the block as plain data, its reset, and the named reasons a step can stop.
Registers of the 4 KiB pages (R440–R471) live in `State.regs`, one sparse map keyed by page × 4096 + offset whose
unlisted value is the register's reset value (Machine/Regs.lean); registers that show other state are computed when read.
Everything the rules keep beside the registers has a field of its own here.
-/
namespace Sys2Proof.Machine

/-- The control-core and statistics words (R71, R83), as data: a stalled word is remembered by its operation. -/
inductive CtrlOp where
  | add | sub | and | or | xor | shl | shr | sra | mul | slt | addi | li | ld | st
  | beq | bne | blt | bge | bltu | bgeu | jal | jalr | sumrd | wlread | beatwait | tokwait | ppoint
  | endStage | nop | brk | mvfail | stlb | strp | strd
deriving DecidableEq, Repr

/-- The tile words (R82, R84, R102, R139), as data. -/
inductive TileOp where
  | mma | mout
  | vadd | vsub | vmul | vfma | vmax | vmin | vcmp | vmov | vcvt | vfun | vperm | vshuf | vpack | vunpack
  | vred | vsum | vsmax | vmskSet | vmskAnd | vmskOr | vmskXor | vmskAndn | vmskNot | vmskFirst
  | scan | sshift | shsave | spzero | spload | spstore
  | tload | tstore | mcopy | semsig | semwait | matom | mfence
deriving DecidableEq, Repr

/-- A tile word in an engine queue: the word, the x registers it read at issue (R60), the context that issued it, a
sequence number that its transactions carry, and whether it has started. -/
structure QEntry where
  op : TileOp
  w : TileWord
  ecc : List Ecc
  ctx : CtxId
  seq : Nat
  xa : W64
  xb : W64
  xc : W64
  xd : W64
  /-- word index it was issued from -/
  pc : Nat
  started : Bool
  /-- transactions issued so far (R86) -/
  txn : Nat
  /-- it continues under its saved context after a switch (R213) -/
  detached : Bool
  /-- it ran beside a word of another engine that it meets in a tile or a byte, with no token between them (R61) -/
  raced : Bool
deriving DecidableEq, Repr

/-- Why a control core does not issue. -/
inductive Blocked where
  /-- a control word waits on its WAIT mask (R62) -/
  | tokens (op : CtrlOp) (w : CtrlWord)
  /-- issue stalls on a full queue (R59) -/
  | queueFull (op : TileOp) (w : TileWord) (ecc : List Ecc)
  /-- BEATWAIT (R71, R199) -/
  | beatWait (rd : BitVec 5)
  /-- a reheat point waits for its decision (R83) -/
  | reheat (entry : Nat) (rd : BitVec 5)
  /-- END waits for the issued words (R71) -/
  | endWait
  /-- a PPOINT with a pending request waits for the queues (R210): live tiles of the point, and the word index to
  resume at when a SEMWAIT before the point is withdrawn (R213) -/
  | point (live : Nat) (resume : Option Nat)
  /-- BRK (R71) -/
  | brk
deriving DecidableEq, Repr

/-- An accumulator bank (R72, R75–R77). Output (i, j) has key 32·i + j. -/
structure Bank where
  isOpen : Bool := false
  /-- the context that opened it (R72) -/
  owner : Nat := 0
  wfmt : Bool := false
  afmt : BitVec 2 := 0
  mode : Bool := false
  gsize : BitVec 2 := 0
  zp : Byte := 0
  /-- contraction steps counted from START -/
  count : Nat := 0
  acc : SMap (BitVec 40) := []
  /-- the FP32 group accumulator -/
  facc : SMap W32 := []
  /-- the open group's integer sum, two's complement -/
  part : SMap (BitVec 40) := []
  /-- the open group's FP32 sum (FP16 activations, R46) -/
  fpart : SMap W32 := []
  /-- the SC8 row of group 0 (mode A) -/
  sc0 : SMap Byte := []
  /-- the SC8 row of the open group -/
  scg : SMap Byte := []
  /-- outputs whose mode A sum saturated (R47) -/
  sat : List Nat := []
deriving DecidableEq, Repr

/-- A core's current work list (R167). -/
structure CurList where
  ctx : CtxId
  slot : Nat
  bar : Nat
deriving DecidableEq, Repr

/-- A stage-start latch (R199), or the ready list of a best-effort context: its instant and its bar. -/
structure Latch where
  t : W64
  bar : Nat
deriving DecidableEq, Repr

/-- A context saved on a core (R210): the live tiles of its point and what it waits for. -/
structure SavedCtx where
  live : Nat
  wait : Option (BitVec 5)
  cur : Option CurList
deriving DecidableEq, Repr

/-- One core (R56). -/
structure Core where
  x : SMap W64 := []
  pc : Nat := 0
  tokens : SMap Nat := []
  ctx : Option CtxId := none
  blocked : Option Blocked := none
  /-- contexts saved on this core, by context number -/
  saved : SMap SavedCtx := []
  /-- contexts started on this core, in the order in which best-effort contexts take turns (R207) -/
  ready : List Nat := []
  preempt : Bool := false
  /-- the instant of the oldest pre-emption request not met (R207, R212) -/
  preemptAt : W64 := 0
  atomWaited : Bool := false
  /-- the instant at which the core stopped at its point (R213) -/
  pointAt : W64 := 0
  matrixQ : List QEntry := []
  vectorQ : List QEntry := []
  scanQ : List QEntry := []
  moverQ : List QEntry := []
  nextSeq : Nat := 0
  imem : SMap (BitVec 128) := []
  scratch : SMap Byte := []
  /-- the state store, byte 32·line + i -/
  store : SMap Byte := []
  /-- the tile register file, byte 1024·t + i -/
  tiles : SMap Byte := []
  /-- the free content that an unwritten tile byte holds after a quench (R216); none: zero -/
  tilesFree : Option Nat := none
  banks : SMap Bank := []
  masks : SMap W32 := []
  sums : SMap W64 := []
  /-- rounding generator state (R40, R41) -/
  rng : BitVec 256 := 0
  startCount : W64 := 0
  /-- latched statistics beats, by reheat entry (R50) -/
  beatLatch : List Nat := []
  /-- stage-start latches and ready best-effort lists, key 4·context + stage slot (R199) -/
  stageLatch : SMap (Option Latch) := []
  cur : Option CurList := none
  /-- mover failure status per context (R89) -/
  mvfail : SMap Byte := []
  /-- reads held by R143: region, slot, the held word -/
  held : List (Nat × Nat × QEntry) := []
  /-- contexts that issued a word to each engine since the last boundary (R385): engine, context -/
  issuedBar : List (Nat × Nat) := []
deriving DecidableEq, Repr

/-- Context states (R204). -/
inductive CtxState where
  | free | stopped | running | quenching | quenched
deriving DecidableEq, Repr

/-- A context (R204). -/
structure Ctx where
  st : CtxState := .free
  section_ : Nat := 0
  cls : Nat := 0
  part : Nat := 0
  prio : Nat := 0
  seed : BitVec 256 := 0
  saveOff : Nat := 0
  gen : BitVec 4 := 0
  /-- a cut-off of the context has acted since the last boundary; its timebase value (R167) -/
  cutoff : Option W64 := none
  /-- the lists of the current bar are ready; the instant (R167) -/
  listReady : Option W64 := none
  /-- cores of stages that reported END: bar of the list, stage slot, core, instant -/
  ends : List (Nat × Nat × Nat × W64) := []
  /-- CTX_STOPs that wait for the boundary, or for the quench: queue, command ID, arrival -/
  stopReq : List (QueueId × W32 × W64) := []
  /-- CTX_QUENCHs that wait: queue, command ID and the status with which they complete (R217) -/
  quenchReq : List (QueueId × W32 × Nat) := []
  /-- the cause of the quench requested (R395): 1 FAULT … 6 SUSPECT -/
  cause : Nat := 0
deriving DecidableEq, Repr

/-- A chunk admitted or retained (R159–R162). -/
structure Chunk where
  tFirst : W64
  bufAddr : W64
  length : W32
  status : Byte
  bar : Nat
  mark : Option Nat
  /-- the input bytes as copied -/
  data : List Byte
deriving DecidableEq, Repr

/-- A commit to a queue output that is not yet pushed (R171). -/
structure OutCommit where
  ok : Bool
  cause : Nat
  tBar : W64
  tFirst : W64
  payload : List Byte
deriving DecidableEq, Repr

/-- A command on a stream that has not completed: opcode 0x41 close, 0x43 park or 0x44 unpark, its queue and command ID, the
record address, and the input queue's PI and the bar when it arrived (R145, R178). -/
structure StreamCmd where
  op : Nat
  queue : QueueId
  cmdId : W32
  record : W64
  mark : W32
  bar : Nat
deriving DecidableEq, Repr

/-- A stream table entry (R152) and what the stream manager keeps with it. -/
structure Stream where
  st : Nat := 0
  role : Bool := false
  ctx : Nat := 0
  section_ : Nat := 0
  conceal : Nat := 0
  backlogMax : Nat := 0
  resetOnGap : Bool := false
  resetPending : Bool := false
  concealMax : Nat := 0
  inW : W32 := 0
  outW : W32 := 0
  inQueue : Nat := 0
  outQueue : Nat := 0
  chunkFrames : Nat := 0
  hopFrames : Nat := 0
  resetAt : Nat := 0
  concealRun : Nat := 0
  lastStatus : Byte := 0
  nextT : W64 := 0
  tReset : W64 := 0
  outBufBase : W64 := 0
  outBufSize : Nat := 0
  outBufCountM1 : Nat := 0
  outBufNext : Nat := 0
  muffleGain : Nat := 0
  muffleShift : Nat := 0
  outNode : Nat := 0
  lastBar : W32 := 0
  /-- T_START of the open (R154) -/
  tStart : W64 := 0
  /-- slots held: (core, region) key 16·core + region to slot -/
  slots : SMap Nat := []
  causes : List Nat := []
  gap : Bool := false
  admitted : Option Chunk := none
  /-- the chunk's entry number in its work lists -/
  entry : Nat := 0
  /-- commits whose copy and push are still to come, oldest first (R171) -/
  outCommits : List OutCommit := []
  /-- chunks retained by R362 or R389, oldest first -/
  retained : List Chunk := []
  /-- chunks returned to the head of the input queue (R370, R389), oldest first -/
  returned : List Chunk := []
  /-- last samples committed OK: channel × chunkFrames + frame (R176) -/
  prev : SMap W32 := []
  /-- last sample played per channel -/
  lastPlayed : SMap W32 := []
  /-- streams activated at the boundary that began the ending bar commit at T -/
  activeInBar : Bool := false
  /-- commands on the stream in their start order: the first is the one under way -/
  waiting : List StreamCmd := []
  /-- a boundary has passed after which a park or unpark may run (R145, R146), and its T -/
  due : Bool := false
  dueT : W64 := 0
  /-- the instant of the command that the next boundary carries out (R178) -/
  since : W64 := 0
  /-- the bar in which the pending reset was requested (R178) -/
  resetBar : Nat := 0
  /-- the ring frame that follows the last chunk formed; none before the first (R159) -/
  nextF : Option Nat := none
  /-- the next chunk is the first of the open and carries a mark at frame 0 (R154) -/
  firstChunk : Bool := false
  /-- bars of the audits that failed (R365) -/
  auditBars : List Nat := []
  /-- the slot index of a mirror-role or adopted entry, which every SLOT of its list entries shows (R363) -/
  mslot : Option Nat := none
deriving DecidableEq, Repr

/-- A queue (R339, R340, R355). -/
structure Queue where
  valid : Bool := false
  qtype : Nat := 0
  irqEn : Bool := false
  hostOnly : Bool := false
  log2 : Nat := 0
  esize16 : Nat := 0
  vec : Nat := 0
  cq : Nat := 0
  coalCount : Nat := 0
  coalUs : Nat := 0
  ringAddr : W64 := 0
  pi : W32 := 0
  ci : W32 := 0
  fullCount : Nat := 0
  /-- entries arrived since the queue last fired, and the first one's instant (R344) -/
  unsig : Nat := 0
  firstUnsig : Option W64 := none
deriving DecidableEq, Repr

/-- A command in flight (R346). -/
structure InFlight where
  queue : QueueId
  cmdId : W32
  opcode : Byte
  /-- the completion queue that its queue had at the start -/
  cq : Nat
deriving DecidableEq, Repr

/-- A completion record not yet written into its CQ (R347). -/
structure Completion where
  cq : Nat
  queue : QueueId
  cmdId : W32
  opcode : Byte
  status : Byte
  result0 : W64
  result1 : W64
  tDone : W64
deriving DecidableEq, Repr

/-- A stage of the resident image (R350). -/
structure Stage where
  section_ : Nat
  slot : Nat
  stage : Nat
  cores : W32
  batchMax : Nat
  final : Bool
  streamed : Bool
  maxStreams : Nat
  regions : List Nat
  inBase : Nat
  inStride : Nat
  outBase : Nat
  outStride : Nat
deriving DecidableEq, Repr

/-- A section of the resident image (R350). -/
structure Section where
  section_ : Nat
  cores : W32
  /-- entry word per core; 0xFFFF none -/
  entry : List Nat
deriving DecidableEq, Repr

/-- The resident image's layout (R349, R350). -/
structure Image where
  sections : List Section := []
  stages : List Stage := []
  /-- scratchpad ranges of SCRATCH segments: core, first, bytes -/
  scratchSegs : List (Nat × Nat × Nat) := []
  imemCores : List Nat := []
  signer : Byte := 0xFF
  hash : List Byte := []
deriving DecidableEq, Repr

/-- A slot whose writes to a ring on another node are not all acknowledged (R343, R344): its queue, the writes outstanding, whether it is
a push, and the QPUSH that waits for its answer. -/
structure SlotWrite where
  serial : Nat
  queue : Nat
  left : Nat
  pushed : Bool
  answer : Option Packet
deriving DecidableEq, Repr

/-- Queue manager (R339–R353). -/
structure QueueMgr where
  queues : SMap Queue := []
  inFlight : List InFlight := []
  done : List Completion := []
  image : Option Image := none
  /-- QM_IMAGE_STATE and FAIL_STATUS -/
  imageState : Nat := 0
  failStatus : Byte := 0
  /-- a PATTERN_SWITCH waits for the boundary -/
  switchCmd : Option (QueueId × W32) := none
  /-- slots on their way to rings on other nodes, oldest first, and the next one's number -/
  writes : List SlotWrite := []
  nextWrite : Nat := 0
  /-- the COMMAND queue served last (R346) -/
  lastFetch : Nat := 32767
deriving DecidableEq, Repr

/-- One angle timebase (R187–R191). -/
structure Angle where
  /-- 0 OFF, 1 SEARCH, 2 TRACKING, 3 STOPPED -/
  st : Nat := 0
  /-- θ_j and t_j of the last tooth -/
  theta : W32 := 0
  tTooth : W64 := 0
  /-- the last tooth period and the one before, in timebase units; 0 none -/
  period : Nat := 0
  /-- positions that the last period spanned -/
  span : Nat := 1
  /-- tooth position of the last tooth and positions counted since position 0 -/
  pos : Nat := 0
  counted : Nat := 0
  seenZero : Bool := false
  indexSeen : Bool := false
  teeth : Nat := 0
  held : W32 := 0
  /-- first edge after STOPPED seen -/
  resuming : Bool := false
  waiting : Option (W64 × W32 × W32) := none
  applied : Option (W64 × W32 × W32) := none
deriving DecidableEq, Repr

/-- Timebase servo (R182–R186). -/
structure TimeSt where
  tb : W64 := 0
  /-- the fraction carried between reference cycles (R182) -/
  frac : BitVec 24 := 0
  setHi : W32 := 0
  nowHi : W32 := 0
  /-- consecutive updates within ±20 ns -/
  good : Nat := 0
  /-- the port whose frame clock drives the rate, the timebase at which its count of frames began, and the count (R183) -/
  portT : Option (Nat × W64 × Nat) := none
  /-- sequence numbers of SYNCs already accepted (R327) -/
  syncSeen : List Nat := []
deriving DecidableEq, Repr

/-- Pattern engine (R194–R202). -/
structure Pattern where
  /-- bank entries: key 2048·bank + 4·entry + word -/
  table : SMap W32 := []
  held : SMap W32 := []
  run : Bool := false
  running : Bool := false
  /-- bar number fixed at the write of RUN -/
  startBar : Nat := 0
  /-- bar now -/
  bar : Nat := 0
  bank : Bool := false
  pendingSwitch : Bool := false
  /-- the instants of the last switch request and of the last write of RUN = 0 (R193, R194) -/
  switchT : W64 := 0
  stopT : W64 := 0
  /-- the entry after the last beat that acted in the bar (R198) -/
  acted : Nat := 0
  /-- a chip warm reset has left no context: every beat drops until one is created (R202) -/
  dropAll : Bool := false
  barHiLatch : W32 := 0
  /-- the MIRROR beat of the current bar acted; its Z bit (R197) -/
  mirror : Option Bool := none
  /-- the ending bar's MIRROR beat, kept for step 2 of R19 -/
  exportZ : Option Bool := none
  /-- STEP 2 of R19 outstanding: bar to export -/
  exportBar : Option Nat := none
deriving DecidableEq, Repr

/-- A ring frame taken for play-out (R228, R239): its ring frame number, the edge of its output frame, and its samples by ring
channel. -/
structure TxFrame where
  frame : Nat
  t : W64
  v : List W32
deriving DecidableEq, Repr

/-- What the decimators of a PDM input group hold (R229): the bits of the last frames by channel, newest first; the draw that
stands for what came before; and each channel's last high-pass input and output. -/
structure PdmIn where
  past : List (List (BitVec 128)) := []
  free : Nat := 0
  dc : SMap (Option (W32 × W32)) := []
deriving DecidableEq, Repr

/-- An audio port (R244–R246, R237–R240). -/
structure Port where
  /-- 0 OFF, 1 STARTING, 2 ON, 3 STOPPING -/
  st : Nat := 0
  pend : Bool := false
  clocks : Bool := false
  /-- frames landed since the port's start -/
  frames : Nat := 0
  /-- frames taken since the port's start -/
  taken : Nat := 0
  blockSeq : W32 := 0
  /-- the next input and output block is the first after a start or a clock return (R223) -/
  discont : Bool := false
  discontTx : Bool := false
  filling : Bool := false
  /-- edges returned: the fill block in progress is the last (R238) -/
  returning : Bool := false
  /-- STOPPING with the current input block still to land (R245) -/
  lastBlock : Bool := false
  driving : Bool := false
  standby : Bool := true
  /-- applied AP_MAP per slot (R228) -/
  map : SMap W32 := []
  /-- slots open for gating, and the previous sample per slot (R243) -/
  openSlots : List Nat := []
  prevSample : SMap W32 := []
  /-- last non-zero AP_RATE_MEAS and whether the previous window was in tolerance (R236, R237) -/
  rate : Nat := 0
  rateOk : Bool := false
  clkPresent : Bool := false
  lineStuck : Bool := false
  /-- the instant of ring frame 0, and that of the last slot's take (R239, R244) -/
  startT : Option W64 := none
  takeT : W64 := 0
  /-- since when the clocks run, frames arrive without a break, and the stop has been under way (R235, R244, R245) -/
  clockT : W64 := 0
  contT : W64 := 0
  stopT : W64 := 0
  /-- the last real frame of a receive port and its stamp (R238) -/
  lastReal : Option (Nat × W64) := none
  /-- the grid number of ring frame 0 of a ring with a converter bank (R235) -/
  gridK : Option Nat := none
  /-- the end of the last rate window that was out of tolerance (R237) -/
  errTo : W64 := 0
  /-- what the decimators of a PDM input have seen (R229) -/
  pdm : PdmIn := {}
  /-- the density modulators of a PDM output by channel: their integrators and interpolators, uninterpreted (R230) -/
  mods : SMap (BitVec 512) := []
  /-- frames taken that wait for their frame edge (R228, R239) -/
  queue : List TxFrame := []
  /-- what the balls carry, by transmit slot or channel: a word, or the bits of one frame, bit 0 first; none: high-impedance -/
  out : SMap (Option (BitVec 128)) := []
  /-- CRCs of the last slot taken, by ring channel (R374), and whether it was played without its mark -/
  playCrc : SMap (Option W32) := []
  unmarked : Bool := false
deriving DecidableEq, Repr

/-- One ring's dynamic state (R221, R239). -/
structure Ring where
  ready : List Nat := []
  /-- channels of slots that a boundary targeted while a bound stream was ACTIVE: key 16·slot + channel (R239, R374) -/
  expect : List Nat := []
  /-- CRCs of the committed slots: key 16·slot + channel (R374) -/
  commitCrc : SMap (Option W32) := []
deriving DecidableEq, Repr

/-- An APLL (R232–R234). -/
structure Apll where
  locked : Bool := false
  holdover : Bool := false
  clamped : Bool := false
  phaseLocked : Bool := false
  /-- accumulated error of the bellows loop, frames, two's complement -/
  acc : BitVec 64 := 0
  /-- the bellows steer in ppb, the steer when it was set and that instant (R232, R234) -/
  target : W32 := 0
  steer0 : W32 := 0
  steerT : W64 := 0
  /-- consecutive frame edges of PHASE_PORT within ±50 ns of the grid (R233) -/
  edges : Nat := 0
deriving DecidableEq, Repr

/-- The audio blocks. -/
structure Audio where
  ports : SMap Port := []
  rings : SMap Ring := []
  buf : SMap Byte := []
  /-- the free content of unwritten buffer bytes after a chip warm reset (R246); none: zero -/
  bufFree : Option Nat := none
  aplls : SMap Apll := []
  /-- converter banks: (locked, out of range) -/
  asrc : SMap (Bool × Bool) := []
  mclkOk : Bool := false
  mclkRate : Bool := false
deriving DecidableEq, Repr

/-- A load list that waits or runs (R259): what DP_LOAD_DESC named, and for a list on another node what has arrived. -/
structure LoadList where
  serial : Nat
  addr : W64
  bytes : Nat
  mask : BitVec 24
  /-- its reads on another node are issued; the bytes so far in place, how many are outstanding, and where the first failed read
  begins -/
  asked : Bool
  data : List Byte
  left : Nat
  bad : Option Nat
deriving DecidableEq, Repr

/-- The direct filter path (R251–R264). Words are keyed per bank: coefficients by pool word, models by
64·(16·o + e) + j, μ by pair and λ by output. -/
structure DirectPath where
  st : Nat := 0
  pend : Bool := false
  coef0 : SMap W32 := []
  coef1 : SMap W32 := []
  sec0 : SMap W32 := []
  sec1 : SMap W32 := []
  mu0 : SMap W32 := []
  mu1 : SMap W32 := []
  lam0 : SMap W32 := []
  lam1 : SMap W32 := []
  /-- the free content of unwritten bank words after a chip warm reset (R263); none: zero -/
  bankFree : Option Nat := none
  /-- reference histories: 1024·r + frame mod 1024; filtered-reference histories: 1024·(384·r + 16·o + e) + frame mod 1024 -/
  hist : SMap W32 := []
  fhist : SMap W32 := []
  frame : Nat := 0
  active : BitVec 24 := 0
  ready : BitVec 24 := 0
  armed : BitVec 24 := 0
  resync : BitVec 24 := 0
  /-- armed outputs whose boundary has passed: they swap or skip at the next path frame (R261) -/
  swapDue : BitVec 24 := 0
  firstFrame : Bool := false
  /-- when each output was marked ready, and the boundary that the due swaps wait on (R261, R264) -/
  readyT : SMap W64 := []
  swapT : W64 := 0
  /-- the stamp of the last path frame's edge (R252), and the frames its ports have received, newest first (R253) -/
  edge : Option W64 := none
  recent : List PortFrame := []
  /-- pending load lists -/
  loads : List LoadList := []
  nextList : Nat := 0
  /-- output samples and the edge of the output frame they are placed in, newest first (R253) -/
  pipe : List (W64 × SMap W32) := []
  refLost : W32 := 0
  errLost : BitVec 16 := 0
  mapMismatch : Bool := false
  /-- frames left before a stopping path goes OFF -/
  stopIn : Nat := 0
deriving DecidableEq, Repr

/-- A system-cache line (R274): the 256-byte unit it holds, dirty flag, data, and its age (0 most recent). -/
structure Line where
  unit : Nat
  dirty : Bool
  data : List Byte
  used : Nat
deriving DecidableEq, Repr

/-- DRAM, system cache and protected regions. -/
structure Memory where
  /-- stored DRAM bytes; ciphertext in an enabled protected region (R278) -/
  dram : SMap Byte := []
  /-- 64-bit DRAM words with an uncorrectable error -/
  damaged : List Nat := []
  /-- when the patrol scrubber of each channel read its last unit (R271) -/
  scrubAt : SMap W64 := []
  /-- cache lines by 16·set + way -/
  cache : SMap (Option Line) := []
  clock : Nat := 0
  /-- what the last request made as a command answered: status and bytes -/
  answer : Option (Byte × List Byte) := none
  /-- maintenance pass under way: ways, write-back, invalidate, the next set to visit (R276) -/
  pass : Option (BitVec 16 × Bool × Bool × Nat) := none
  trained : List Nat := []
  /-- channels in training, and each channel's last retraining: its start and end (R273) -/
  training : List Nat := []
  retrain : SMap (Option (W64 × W64)) := []
  failed : List Nat := []
deriving DecidableEq, Repr

/-- One live version of a table slot (R286). -/
structure TableVer where
  tag : Byte
  bc4 : Bool
  maxLen : Nat
  lengths : List Nat
  refs : Nat
deriving DecidableEq, Repr

/-- A compression job (R294). -/
structure CeJob where
  op : Byte
  kind : Byte
  ctx : Nat
  gen : BitVec 4
  count : Nat
  src : W64
  dst : W64
  statusAddr : W64
  semAddr : W64
  /-- which of the engine's jobs it is, whether it has started, and the bytes that its source and destination span (R296) -/
  serial : Nat
  started : Bool
  srcLen : Nat
  dstLen : Nat
  /-- blocks that have entered the input queue, blocks done, source bytes queued, bytes written -/
  queued : Nat
  block : Nat
  inPos : Nat
  outPos : Nat
  nbad : Nat
  firstBad : W32
  status : Byte
  finished : Bool
  /-- a damaged weight block stops the job, and its context is to be quenched (R291) -/
  quench : Bool
deriving DecidableEq, Repr

/-- A block in the compression engine, from its fetch to its write (R286, R293). -/
structure CeBlock where
  job : Nat
  index : Nat
  /-- where it begins in the source -/
  pos : Nat
  /-- the bytes fetched so far, in place, and how many of them are outstanding -/
  data : List Byte
  left : Nat
  /-- the first status other than OK of its reads -/
  st : Nat
  /-- whether its header is known, and the version that it counts: slot and tag (R286) -/
  known : Bool
  held : Option (Nat × Byte)
  /-- the lane that codes it -/
  lane : Option Nat
  /-- once coded: the bytes for its destination, and its status -/
  out : Option (List Byte × Nat)
deriving DecidableEq, Repr

/-- The compression engine. -/
structure Compression where
  cur : SMap (Option TableVer) := []
  old : SMap (Option TableVer) := []
  jobs : List CeJob := []
  /-- blocks in the input queue, on a lane and in the output queue, in job order (R293) -/
  blocks : List CeBlock := []
  next : Nat := 0
deriving DecidableEq, Repr

/-- A link port (R300–R309, R319–R321, R326). -/
structure Link where
  /-- KL_STATUS.STATE -/
  st : Nat := 0
  cause : DownCause := .none
  enabled : Bool := false
  /-- KL_CTRL as taken at the start of this bring-up (R338) -/
  ctrl : W32 := 0
  coeffs : Bool := false
  laneSwap : Bool := false
  laneInv : BitVec 2 := 0
  peer : Option ExchangeInfo := none
  peerHeard : Bool := false
  /-- next SEQ to send, last SEQ acknowledged, replay buffer oldest first -/
  txSeq : BitVec 12 := 0
  replay : List (BitVec 12 × List Byte) := []
  /-- the flit payloads still to send of the packet under way, per VC (R310) -/
  sending : SMap (List (List Byte)) := []
  /-- the VC that has the turn among VC2–VC7 and the flits left of it (R308) -/
  turn : Nat := 2
  turnLeft : Nat := 0
  /-- expected SEQ, whether a NAK for the gap was sent, last SEQ received in order -/
  rxSeq : BitVec 12 := 0
  rxAny : Bool := false
  nakSent : Bool := false
  /-- consecutive replays from one SEQ -/
  replays : Nat := 0
  replaySeq : BitVec 12 := 0
  /-- when the present state began, when ACK last made progress or a first flit waited for it, when the last EXCHANGE flit and the last
  PDELAY_REQ of a period were sent (R301, R302, R306, R326) -/
  since : W64 := 0
  ackAt : W64 := 0
  exchAt : W64 := 0
  pdelayAt : Option W64 := none
  /-- the receive buffer, per VC: bytes of packets not complete, and the bytes that each flit still has there (R309, R310) -/
  rxBuf : SMap (List Byte) := []
  rxLens : SMap (List Nat) := []
  /-- the place of the next flit in a pair of codewords, and whether the codeword under way was uncorrectable (R303) -/
  rxPos : Nat := 0
  rxBad : Bool := false
  /-- the flit on the lanes, the flit bytes that no codeword holds yet, the next codeword's number and the last codeword (R303) -/
  txFlit : List Byte := []
  txBytes : List Byte := []
  txNum : Nat := 0
  txWord : List (BitVec 10) := []
  /-- credits held, per VC -/
  credits : SMap Nat := []
  /-- flits of credit to return, per VC: their bytes have left the receive buffer (R309) -/
  owed : SMap Nat := []
  encOn : Bool := false
  keys : Option (BitVec 256 × BitVec 256 × W32 × W32) := none
  txCount : W64 := 0
  rxCount : W64 := 0
  offer : Option (List Byte) := none
  /-- the ephemeral private key of this KEYING (R320) -/
  eph : BitVec 256 := 0
  myOffer : List Byte := []
  peerKey : List Byte := []
  peerId : W64 := 0
  authFails : List W64 := []
  /-- departure stamp of the PDELAY_REQ that waits for its answer (R326) -/
  pdelayT1 : Option W64 := none
  delays : List W32 := []
  delay : W32 := 0
  trainUs : Nat := 0
  /-- when the DETECT of this bring-up began -/
  upSince : W64 := 0
deriving DecidableEq, Repr

/-- What an outstanding tag waits for, and where its reply goes. -/
inductive TagKind where
  /-- a tile load: first byte in the tile register file -/
  | loadTile (byte : Nat)
  /-- the read half of a copy: where the bytes go -/
  | copyRead (dst : W64)
  /-- a write or a signal: its acknowledgement -/
  | ack
  /-- an atomic: the scratchpad offset of the old value -/
  | atomic (off : Nat)
  /-- a semaphore wait -/
  | semWait
  /-- a withdrawal of a semaphore wait -/
  | semCancel
  /-- a stream manager read: stream and byte offset -/
  | streamRead (s : Nat) (off : Nat)
  /-- a read of the compression engine: job, block and byte of the block; a write of a job -/
  | ceRead (job block off : Nat)
  | ceWrite (job : Nat)
  /-- a read of a load list: list and byte -/
  | loadRead (list off : Nat)
  /-- a write of a queue slot to a ring on another node -/
  | slotWrite (serial : Nat)
  /-- a write of a dump to another node -/
  | dumpWrite (serial : Nat)
  /-- an access on this device that is done and whose completion is still to return (R86) -/
  | here
deriving DecidableEq, Repr

/-- An outstanding transaction (R86–R92, R331). -/
structure Tag where
  epoch : BitVec 3
  core : Option CoreId
  seq : Nat
  ctx : Option CtxId
  gen : BitVec 4
  dst : Nat
  addr : W64
  count : Nat
  len : Nat
  sig : BitVec 3
  sigv : Bool
  kind : TagKind
  busy : Bool
  detached : Bool
  /-- the port of its first hop; 7 for a request that stays in the device -/
  port : Nat
  /-- when it was issued (R92) -/
  since : W64
  /-- whose limit counts it (R142, R294): 1 + c the state port of core c, 33 the compression engine, 0 no limit of its own -/
  agent : Nat
deriving DecidableEq, Repr

/-- A queued semaphore wait (R313): semaphore, count and the request that the grant answers. -/
structure SemWaiter where
  sem : Nat
  count : Nat
  req : Packet
deriving DecidableEq, Repr

/-- A holder entry of the semaphore unit (R381). -/
structure Holder where
  sem : Nat
  node : Nat
  ctx : Nat
  count : Nat
deriving DecidableEq, Repr

/-- A packet handed to the links, with the virtual channel it travels on. -/
structure OutPacket where
  port : Nat
  vc : Nat
  p : Packet
deriving DecidableEq, Repr

/-- A flit handed to a port's lanes beside new DATA: a CONTROL flit of KIND 1 NAK (the expected SEQ), 2 LINK_RESET (the cause)
or 3 EXCHANGE (its payload as a number), or with KIND 4 the DATA flit of a SEQ from the replay buffer. -/
structure OutFlit where
  port : Nat
  kind : Nat
  arg : Nat
deriving DecidableEq, Repr

/-- An enumeration walk in progress (R323). -/
structure Walk where
  next : Nat
  port : Nat
  upstream : Option Nat
  tag : BitVec 13
  startId : Nat
  overflow : Bool
  keep : Bool
deriving DecidableEq, Repr

/-- Link ports, fabric, semaphores and tags. -/
structure Fabric where
  links : SMap Link := []
  nodeId : Nat := 31
  enumerated : Bool := false
  bgen : Byte := 0
  hostPort : Nat := 0
  hostActive : Bool := false
  upstream : Nat := 0
  walk : Option Walk := none
  enumDone : Bool := false
  enumOver : Bool := false
  enumCount : Nat := 0
  /-- link reports of the bridge: (node, neighbour) pairs lost (R333) -/
  lost : List (Nat × Nat) := []
  tags : SMap (Option Tag) := []
  epochs : SMap (BitVec 3) := []
  /-- requests of the agents that share 4,096 tags, waiting for one (R87): virtual channel, packet and record, oldest first -/
  backlog : List (Nat × Packet × Tag) := []
  /-- nodes whose boot generation has been learned since power-on (R329) -/
  known : List Nat := []
  sems : SMap W32 := []
  waits : List SemWaiter := []
  holders : List Holder := []
  out : List OutPacket := []
  flits : List OutFlit := []
  /-- packets discarded before reaching a handler are only counted -/
  syncPort : Nat := 0
  lastOrigin : W64 := 0
  syncAny : Bool := false
  /-- when the last SYNC was accepted -/
  syncAt : W64 := 0
deriving DecidableEq, Repr

/-- A staged piece of a mirror import (R360). -/
structure Piece where
  core : Nat
  region : Nat
  slot : Nat
  bar : Nat
  off : Nat
  last : Bool
  data : List Byte
deriving DecidableEq, Repr

/-- Paired operation (R356–R371). -/
structure Pair where
  /-- 0 UNKNOWN, 1 ALIVE, 2 FAILED -/
  st : Nat := 0
  takenOver : Bool := false
  missRun : Nat := 0
  pinRun : Nat := 0
  linkRun : Nat := 0
  pinToll : Bool := false
  linkToll : Bool := false
  /-- one more than the number of the window after the current one in which a pin or link toll came (R368); 0: none -/
  pinNext : Nat := 0
  linkNext : Nat := 0
  pinOk : Bool := false
  linkOk : Bool := false
  /-- toll expected in the current window, own toll number -/
  rxK : Nat := 0
  txK : Nat := 0
  partnerBgen : Byte := 0
  sensing : Bool := false
  driven : Bool := false
  declaredAt : W64 := 0
  takeoverNs : W32 := 0
  exporting : Bool := false
  exportDone : Bool := true
  pieces : List Piece := []
  /-- images damaged or refused in this bar: core, region, slot, bar -/
  refused : List (Nat × Nat × Nat × Nat) := []
  bind : SMap W32 := []
  /-- accepted bind records waiting for the boundary -/
  binds : List (List W32) := []
  lastCommitBar : Nat := 0
  /-- mirrored slots whose export read is outstanding: core, region, slot -/
  unread : List (Nat × Nat × Nat) := []
  /-- images of such slots as the ending bar left them, kept aside before a later write (R19) -/
  kept : List ((Nat × Nat × Nat) × List Byte) := []
  /-- slots whose import is in progress -/
  importing : List (Nat × Nat × Nat) := []
  /-- last import bar and last shadow write-back bar per slot: key (16·core + region)·2048 + slot -/
  lastImport : SMap Nat := []
  shadowBar : SMap Nat := []
  /-- bars in which a shadow ran from its own state (R363), by the same key -/
  skipBar : SMap Nat := []
deriving DecidableEq, Repr

/-- Safety manager (R372–R376). -/
structure Safety where
  safe : Bool := false
  /-- a SAFE-class mechanism was raised and safe state is not entered yet (R373) -/
  safeDue : Bool := false
  armed : Bool := false
  firstValid : Bool := false
  first : Nat := 0
  firstTime : W64 := 0
  lftPass : Bool := false
  lftFailed : Byte := 0
  lftCycles : Nat := 0
  /-- when the last cycle of latent-fault tests began (R376) -/
  lftAt : W64 := 0
  /-- instants of the corrected errors of the last second, by the page of the memory instance (R372) -/
  corrected : SMap (List W64) := []
  faultN : Bool := false
  tollOut : Bool := false
deriving DecidableEq, Repr

/-- A wait record (R380). -/
structure WaitRec where
  kind : Nat
  core : Nat
  engine : Nat
  ctx : Option CtxId
  start : W64
  /-- when the context last completed a word on the core while the wait lasts (R380) -/
  prog : W64
  obj : W64
deriving DecidableEq, Repr

/-- A running dump (R396): the DUMP command, if it has one, its DEST and LIMIT, the timebase and DM_SEL at its start, whether
DEST has failed, and the TRIGGER of its header. -/
structure DumpJob where
  cmd : Option (QueueId × W32)
  dest : W64
  limit : Nat
  start : W64
  sel : W32
  destFailed : Bool
  trigger : Nat
  /-- its number; and for a DEST on another node, once its writes are issued: header FLAGS, bytes, and the writes not yet
  acknowledged -/
  serial : Nat
  sent : Option (Nat × Nat × Nat)
deriving DecidableEq, Repr

/-- Hang detector, reset controller and dump engine (R380–R397). -/
structure Hang where
  waits : List WaitRec := []
  suspects : List Nat := []
  condemned : List Nat := []
  /-- contexts whose replay runs and whether it has been restored -/
  replaying : Option (CtxId × Bool) := none
  /-- last complete checkpoint per context: bar number -/
  ckpt : SMap (Option Nat) := []
  /-- retained chunks of the interrupted bar are kept with the streams -/
  cycleSince : Option (List Nat × W64) := none
  level : Nat := 0
  /-- what the running level resets: core and engine code, or the partition; for a chip reset its source -/
  due : Nat × Nat := (0, 0)
  /-- levels that wait for the running one: level, and what it resets -/
  more : List (Nat × Nat × Nat) := []
  /-- when each of these levels was detected or requested (R383) -/
  dueSince : List ((Nat × Nat × Nat) × W64) := []
  /-- from when on a replay may start: the last suspect, level completion or replay end (R389) -/
  replayFrom : W64 := 0
  /-- the last examination of the wait records (R382) -/
  examAt : W64 := 0
  lastEngineReset : SMap (Option W64) := []
  powerCycleReq : Bool := false
  evWr : W32 := 0
  dumpBuf : SMap Byte := []
  dumping : Option DumpJob := none
  nextDump : Nat := 0
  deadUnits : List Nat := []
  /-- trace records whose writes are not yet done: address and bytes (R469) -/
  traceOut : List (W64 × List Byte) := []
  dumpInBuf : Bool := false
  dumpStatus : Byte := 0
  dumpBytes : W32 := 0
deriving DecidableEq, Repr

/-- Fuses (R410). -/
structure Fuses where
  uds : BitVec 256 := 0
  serial : List Byte := List.replicate 16 0
  grade : BitVec 4 := 0
  lifecycle : Nat := 0
  signerHash : SMap (List Byte) := []
  signerPerm : SMap (BitVec 3) := []
  revoke : BitVec 4 := 0
  fwSvn : Nat := 0
  imgSvn : Nat := 0
  anchor : SMap (List Byte) := []
  idCert : List Byte := List.replicate 160 0
deriving DecidableEq, Repr

/-- Security subsystem (R400–R421). -/
structure Security where
  fuses : Fuses := {}
  bootSrc : BitVec 2 := 0
  bridgeEn : Bool := false
  /-- what the last ROM self-test, fuse check and TRNG start-up test found (R401) -/
  obs : RomObs := { romOk := true, fusesOk := true, trngOk := true }
  /-- BOOT_STATE -/
  boot : Nat := 0
  source : Nat := 0
  cause : Nat := 0
  aCause : Nat := 0
  windowOpen : Bool := false
  /-- the flash copy being read: 0 A, 1 B -/
  copy : Nat := 0
  fwSigner : Byte := 0xFF
  fwHash : List Byte := []
  fwSvn : Nat := 0
  fwAdvance : Bool := false
  /-- what the ROM does once DRAM is trained: 1 waits for the host, 2 verifies the boot window again (R402, R405); 0: nothing -/
  await : Nat := 0
  fuseBusy : Bool := false
  fuseRefused : Bool := false
  trngFail : Bool := false
  trngStartup : Bool := false
  trngLast : BitVec 256 := 0
  keySlots : SMap (Option (BitVec 512)) := []
  levels : BitVec 3 := 0
  dbgFails : Nat := 0
  dbgLocked : Bool := false
  keysCleared : Bool := false
  challenge : BitVec 256 := 0
  report : List Byte := []
  attDone : Bool := false
  /-- training: start signal given -/
  linksReleased : Bool := false
deriving DecidableEq, Repr

/-- Pins the board drives. -/
structure Pins where
  poreset : Bool := false
  wreset : Bool := true
  pwrgd : Bool := true
  /-- PORESET_N rose while a PWRGD input was low (R459) -/
  held : Bool := false
  /-- when PORESET_N rose or the last chip warm reset started (R456) -/
  resetAt : W64 := 0
deriving DecidableEq, Repr

/-- The TAP's DBGACC data register (R468): address, data, write and the captured completion code. -/
structure Tap where
  addr : W64 := 0
  data : W32 := 0
  write : Bool := false
  status : BitVec 7 := 0
deriving DecidableEq, Repr

/-- Power and thermal manager (R424–R436). -/
structure Power where
  /-- domain states by d: 0 OFF, 1 STARTING, 2 ON, 3 STOPPING -/
  dom : SMap Nat := []
  up : SMap Bool := []
  /-- domains that wait for a start (R427) -/
  waiting : List Nat := []
  op : Nat := 0
  /-- a change in progress or due: the target -/
  target : Nat := 0
  est : List Nat := []
  lowWindows : Nat := 0
  limiting : Bool := false
  limitExceeded : Bool := false
  crit : Bool := false
  throttle : Bool := false
  warn : Bool := false
  shutdown : Bool := false
  /-- the clocks that CLOCK found lost, by their bit of CK_STATUS (R372, R450); MCLK_IN stands in the audio part -/
  clkLost : List Nat := []
  /-- the last estimate, sensor update and step of THROTTLE (R433, R434) -/
  estAt : W64 := 0
  sensorAt : W64 := 0
  stepAt : W64 := 0
deriving DecidableEq, Repr

/-- The reasons the block stops with a fault: there are none, because the spec gives every command of the table an
effect; the constructor keeps the type inhabited for the interface and nothing raises it. -/
inductive Fault where
  /-- raised by nothing -/
  | none
deriving DecidableEq, Repr

/-- The reasons a command has no meaning in the model. -/
inductive Refusal where
  /-- a command whose meaning has not been written; raised by `exec`'s arms only; safe (the run stops) -/
  | notModelled (mnemonic : String)
deriving DecidableEq, Repr

/-- The whole block. -/
structure State where
  /-- registers of the pages: key page × 4096 + offset; unlisted: the register's reset value -/
  regs : SMap W32 := []
  time : TimeSt := {}
  angles : SMap Angle := []
  pattern : Pattern := {}
  cores : SMap Core := []
  ctxs : SMap Ctx := []
  streams : SMap Stream := []
  qm : QueueMgr := {}
  audio : Audio := {}
  dp : DirectPath := {}
  mem : Memory := {}
  ce : Compression := {}
  fab : Fabric := {}
  pair : Pair := {}
  safety : Safety := {}
  hang : Hang := {}
  sec : Security := {}
  pins : Pins := {}
  tap : Tap := {}
  power : Power := {}
  /-- the model's own counter: each free value the spec leaves open is `Config`'s function of it -/
  free : Nat := 0
  /-- the commands that wait, first in, first out -/
  pending : List Instr := []
deriving DecidableEq, Repr

/-- The block in power-on reset. -/
def State.reset : State := {}

end Sys2Proof.Machine
end

