-- ==== Sys2Proof/Machine/Regs.lean ====
section
/-!
DEFINITION. The register pages as storage: where a page lies and what block it belongs to (R447, R448), a register's
reset value, reading and writing a field, the effect of the access codes (R8–R10), counters that hold at their maximum,
and the recording of refused writes (R440, R474). A register that shows other state is computed in Machine/Pages.lean.
-/
namespace Sys2Proof.Machine

/-- Bits [lo+w−1:lo] of a word. -/
def bitsOf (v : Nat) (lo w : Nat) : Nat := v / 2 ^ lo % 2 ^ w

/-- `v` with bits [lo+w−1:lo] set to `x` modulo 2^w. -/
def putBits (v : Nat) (lo w x : Nat) : Nat := v - bitsOf v lo w * 2 ^ lo + x % 2 ^ w * 2 ^ lo

/-- Bit `i` of a number. -/
def bitOf (v i : Nat) : Bool := v / 2 ^ i % 2 == 1

/-- 1 for true. -/
def b2n (b : Bool) : Nat := if b then 1 else 0

namespace Page
/-- DEVICE page (R447). -/
def device : Nat := 0x000
/-- CLOCKS page (R447). -/
def clocks : Nat := 0x001
/-- TIMEBASE page (R447). -/
def timebase : Nat := 0x002
/-- ANGLE page (R447). -/
def angle : Nat := 0x003
/-- PATTERN page (R447). -/
def pattern : Nat := 0x004
/-- STREAMS page (R447). -/
def streams : Nat := 0x005
/-- QUEUE_MGR page (R447). -/
def queueMgr : Nat := 0x006
/-- SEMAPHORES page (R447). -/
def semaphores : Nat := 0x007
/-- SAFETY page (R447). -/
def safety : Nat := 0x008
/-- HANG page (R447). -/
def hang : Nat := 0x009
/-- DUMP page (R447). -/
def dump : Nat := 0x00A
/-- POWER page (R447). -/
def power : Nat := 0x00B
/-- THERMAL page (R447). -/
def thermal : Nat := 0x00C
/-- SECURITY page (R447). -/
def security : Nat := 0x00D
/-- COMPRESSION page (R447). -/
def compression : Nat := 0x00E
/-- MIRROR page (R447). -/
def mirror : Nat := 0x00F
/-- DIRECT_PATH main page (R447). -/
def dpMain : Nat := 0x010
/-- DIRECT_PATH pair page (R447). -/
def dpPair : Nat := 0x011
/-- CACHE page (R447). -/
def cache : Nat := 0x012
/-- DEBUG page (R447). -/
def debug : Nat := 0x013
/-- Page k (0 control … 6 statistics) of core Cc (R447). -/
def core (c k : Nat) : Nat := 0x100 + 16 * c + k
/-- Control page of Cc. -/
def ctrl (c : Nat) : Nat := core c 0
/-- Matrix page of Cc. -/
def matrix (c : Nat) : Nat := core c 1
/-- Vector page of Cc. -/
def vector (c : Nat) : Nat := core c 2
/-- Scan page of Cc. -/
def scan (c : Nat) : Nat := core c 3
/-- State port page of Cc. -/
def port (c : Nat) : Nat := core c 4
/-- Mover page of Cc. -/
def mover (c : Nat) : Nat := core c 5
/-- Statistics page of Cc. -/
def stat (c : Nat) : Nat := core c 6
/-- LINK page of KLp (R337). -/
def link (p : Nat) : Nat := 0x300 + 16 * p
/-- VC page of KLp. -/
def linkVc (p : Nat) : Nat := 0x301 + 16 * p
/-- SEC page of KLp. -/
def linkSec (p : Nat) : Nat := 0x302 + 16 * p
/-- FABRIC page. -/
def fabric : Nat := 0x303
/-- TSYNC page. -/
def tsync : Nat := 0x304
/-- Page of DRAM channel ch (R297). -/
def dram (ch : Nat) : Nat := 0x340 + 4 * ch
/-- Page of audio port p: 0–11 serial, 12–17 PDM input, 18–19 PDM output (R249). -/
def audio (p : Nat) : Nat := 0x380 + p
/-- APLLa page. -/
def apll (a : Nat) : Nat := 0x394 + a
/-- ASRC page. -/
def asrc : Nat := 0x396
/-- AUDIO_BUF page. -/
def audioBuf : Nat := 0x397
end Page

/-- The kind of a page; none for a reserved page (R447, R448). -/
def pageKind (p : Nat) : Option PageKind :=
  if p < 0x14 then
    [PageKind.device, .clocks, .timebase, .angle, .pattern, .streams, .queueMgr, .semaphores, .safety, .hang,
     .dump, .power, .thermal, .security, .compression, .mirror, .dpMain, .dpPair, .cache, .debug][p]?
  else if 0x100 ≤ p ∧ p < 0x300 then
    [PageKind.coreCtrl, .coreMatrix, .coreVector, .coreScan, .corePort, .coreMover, .coreStat][p % 16]?
  else if 0x300 ≤ p ∧ p < 0x340 then
    if p % 16 = 0 then some .link else if p % 16 = 1 then some .linkVc else if p % 16 = 2 then some .linkSec
    else if p = 0x303 then some .fabric else if p = 0x304 then some .tsync else none
  else if 0x340 ≤ p ∧ p < 0x380 then if p % 4 = 0 then some .dram else none
  else if 0x380 ≤ p ∧ p < 0x38C then some .serial
  else if 0x38C ≤ p ∧ p < 0x392 then some .pdmIn
  else if 0x392 ≤ p ∧ p < 0x394 then some .pdmOut
  else if 0x394 ≤ p ∧ p < 0x396 then some .apll
  else if p = 0x396 then some .asrc
  else if p = 0x397 then some .audioBuf
  else none

/-- The instance number of a page (R447). -/
def pageInstance (p : Nat) : Nat :=
  if p = Page.dpPair then 1
  else if 0x100 ≤ p ∧ p < 0x300 then (p - 0x100) / 16
  else if p = Page.fabric ∨ p = Page.tsync then 0
  else if 0x300 ≤ p ∧ p < 0x340 then (p - 0x300) / 16
  else if 0x340 ≤ p ∧ p < 0x380 then (p - 0x340) / 4
  else if 0x380 ≤ p ∧ p < 0x38C then p - 0x380
  else if 0x38C ≤ p ∧ p < 0x392 then p - 0x38C
  else if 0x392 ≤ p ∧ p < 0x394 then p - 0x392
  else if 0x394 ≤ p ∧ p < 0x396 then p - 0x394
  else 0

/-- The block type code of a page (R447). -/
def pageType : PageKind → Nat
  | .device => 0x01 | .clocks => 0x02 | .timebase => 0x03 | .angle => 0x04 | .pattern => 0x05 | .streams => 0x06
  | .queueMgr => 0x07 | .semaphores => 0x08 | .safety => 0x09 | .hang => 0x0A | .dump => 0x0B | .power => 0x0C
  | .thermal => 0x0D | .security => 0x0E | .compression => 0x0F | .mirror => 0x10 | .dpMain => 0x11 | .dpPair => 0x11
  | .cache => 0x12 | .debug => 0x13
  | .coreCtrl => 0x20 | .coreMatrix => 0x21 | .coreVector => 0x22 | .coreScan => 0x23 | .corePort => 0x24
  | .coreMover => 0x25 | .coreStat => 0x26
  | .link => 0x30 | .linkVc => 0x31 | .linkSec => 0x32 | .fabric => 0x33 | .tsync => 0x34 | .dram => 0x40
  | .serial => 0x50 | .pdmIn => 0x51 | .pdmOut => 0x52 | .apll => 0x53 | .asrc => 0x54 | .audioBuf => 0x55

/-- The power domain of a page by R447 and R425; none for the main domain. -/
def pageDomain (p : Nat) : Option Nat :=
  match pageKind p with
  | some .compression => some 77
  | some .mirror => some 78
  | some .dpMain | some .dpPair => some 76
  | some .debug => some 79
  | some .coreCtrl | some .coreMatrix | some .coreVector | some .coreScan | some .corePort | some .coreMover
  | some .coreStat => some (pageInstance p)
  | some .link | some .linkVc | some .linkSec => some (64 + pageInstance p)
  | some .dram => some (68 + pageInstance p / 4)
  | some .serial => some (if pageInstance p ≤ 5 then 72 else 73)
  | some .pdmIn | some .pdmOut => some 74
  | some .apll | some .asrc => some 75
  | _ => none

/-- Whether a block has no start or stop sequence of its own, so that ENABLE reads 1 while its domain is ON (R443). -/
def alwaysOn : PageKind → Bool
  | .device | .clocks | .timebase | .angle | .streams | .queueMgr | .semaphores | .safety | .hang | .dump
  | .power | .thermal | .security | .cache | .fabric | .tsync | .audioBuf
  | .coreCtrl | .coreMatrix | .coreVector | .coreScan | .corePort | .coreMover | .coreStat => true
  | _ => false

/-- The definition that covers an offset, and which of its copies. -/
def findReg (l : List RegDef) (off : Nat) : Option (RegDef × Nat) :=
  match l with
  | [] => none
  | r :: t =>
    if r.off ≤ off ∧ (off - r.off) % r.stride = 0 ∧ (off - r.off) / r.stride < r.count then
      some (r, (off - r.off) / r.stride)
    else findReg t off

/-- The register at an offset of a page; none where the page or the offset is reserved. -/
def regAt (page off : Nat) : Option (RegDef × Nat) :=
  match pageKind page with
  | none => none
  | some k => if off < 0x40 then findReg regsHeader off else findReg (regsOf k) off

/-- Default credits of virtual channel v (R308). -/
def vcCredits (v : Nat) : Nat := [16, 16, 192, 256, 128, 192, 192, 32].getD v 0

/-- Default weight of virtual channel v (R308); VC0 and VC1 have none. -/
def vcWeight (v : Nat) : Nat := [0, 0, 4, 8, 4, 8, 2, 1].getD v 0

/-- The reset value of a register, from its fields (R8) and, for KL_VC_CREDIT, from R308. -/
def regReset (page off : Nat) : W32 :=
  match regAt page off with
  | none => 0
  | some (r, i) =>
    if pageKind page = some .linkVc ∧ r.off = Reg.KL_VC_CREDIT then
      BitVec.ofNat 32 (vcCredits i + vcWeight i * 2 ^ 16)
    else BitVec.ofNat 32 ((r.fields.map fun f => f.reset * 2 ^ f.lo).sum)

/-- The stored content of a register. -/
def State.reg (s : State) (page off : Nat) : W32 := SMap.get s.regs (page * 4096 + off) (regReset page off)

/-- `s` with the stored content of a register replaced. -/
def State.setReg (s : State) (page off : Nat) (v : W32) : State :=
  { s with regs := SMap.set s.regs (page * 4096 + off) v (regReset page off) }

/-- Bits [lo+w−1:lo] of a stored register. -/
def State.fld (s : State) (page off lo w : Nat) : Nat := bitsOf (s.reg page off).toNat lo w

/-- A stored flag. -/
def State.flag (s : State) (page off bit : Nat) : Bool := bitOf (s.reg page off).toNat bit

/-- `s` with bits [lo+w−1:lo] of a stored register set to `x`. -/
def State.setFld (s : State) (page off lo w x : Nat) : State :=
  s.setReg page off (BitVec.ofNat 32 (putBits (s.reg page off).toNat lo w x))

/-- `s` with a flag of a stored register set. -/
def State.setFlag (s : State) (page off bit : Nat) (b : Bool) : State := s.setFld page off bit 1 (b2n b)

/-- A count field advanced by `n`, holding at its maximum value. -/
def State.countFld (s : State) (page off lo w n : Nat) : State :=
  s.setFld page off lo w (min (s.fld page off lo w + n) (2 ^ w - 1))

/-- A 32-bit count advanced by `n`, holding at its maximum value. -/
def State.count (s : State) (page off : Nat) (n : Nat := 1) : State := s.countFld page off 0 32 n

/-- A 64-bit value held in a LO and HI register pair. -/
def State.reg64 (s : State) (page lo hi : Nat) : W64 := s.reg page hi ++ s.reg page lo

/-- `s` with a LO and HI register pair set. -/
def State.setReg64 (s : State) (page lo hi : Nat) (v : W64) : State :=
  (s.setReg page lo (v.setWidth 32)).setReg page hi ((v >>> 32).setWidth 32)

/-- The domain state field of domain d: 2 ON out of reset (R425–R427). -/
def State.domState (s : State) (d : Nat) : Nat := SMap.get s.power.dom d 2

/-- Whether a page answers: its domain is ON (R426). -/
def State.pageOn (s : State) (page : Nat) : Bool :=
  match pageDomain page with
  | none => true
  | some d => s.domState d == 2

/-- Whether PG_LOCK of a page is set (R445). -/
def State.locked (s : State) (page : Nat) : Bool := s.flag page Reg.PG_LOCK 0

/-- One access code applied: the field's new content when `new` is written over `old` (R8, R10). -/
def fieldWrite (locked : Bool) (f : Field) (old new : Nat) : Nat :=
  match f.acc with
  | .ro | .rc | .wo => old
  | .rw => putBits old f.lo f.w (bitsOf new f.lo f.w)
  | .rwl => if locked then old else putBits old f.lo f.w (bitsOf new f.lo f.w)
  | .w1c => putBits old f.lo f.w (bitsOf old f.lo f.w &&& (2 ^ f.w - 1 - bitsOf new f.lo f.w))
  | .w1s => putBits old f.lo f.w (bitsOf old f.lo f.w ||| bitsOf new f.lo f.w)

/-- A register's content after `new` is written to it, by its fields' access codes; reserved bits are ignored (R9). -/
def regWritten (locked : Bool) (fields : List Field) (old new : W32) : W32 :=
  BitVec.ofNat 32 (fields.foldl (fun v f => fieldWrite locked f v new.toNat) old.toNat)

/-- Whether a register has a field of an access code. -/
def hasAcc (fields : List Field) (a : Acc) : Bool := fields.any fun f => f.acc == a

/-- What a read returns of the stored content: a WO field and a reserved bit read zero (R8, R9). -/
def regMasked (fields : List Field) (v : W32) : W32 :=
  BitVec.ofNat 32 ((fields.map fun f => if f.acc = .wo then 0 else bitsOf v.toNat f.lo f.w * 2 ^ f.lo).sum)

/-- The stored content after an RC read: RC fields cleared to their reset values (R8, notes/assumptions/77.md). -/
def regRead1 (fields : List Field) (v : W32) : W32 :=
  BitVec.ofNat 32 (fields.foldl (fun n f => if f.acc = .rc then putBits n f.lo f.w f.reset else n) v.toNat)

/-- Pages whose PG_ERR_ADDR is an error address of their own: the DRAM channels and the CACHE page (R297). -/
def ownErrAddr (page : Nat) : Bool := pageKind page == some .dram || pageKind page == some .cache

/-- A PG_ERR_STATUS bit set by the write of register `off` from node `src`, counted once and addressed (R440, R474). -/
def State.pgErrAt (s : State) (page off src : Nat) (bits : List Nat) : State :=
  let s := bits.foldl (fun s b => s.setFlag page Reg.PG_ERR_STATUS b true) s
  let s := s.countFld page Reg.PG_ERR_COUNT 0 16 1
  if ownErrAddr page then s
  else (s.setReg page Reg.PG_ERR_ADDR_LO (BitVec.ofNat 32 off)).setReg page Reg.PG_ERR_ADDR_HI (BitVec.ofNat 32 src)

/-- An ignored or refused write: WRITE_REFUSED (R474). -/
def State.writeRefused (s : State) (page off src : Nat) : State := s.pgErrAt page off src [28]

/-- A refused ENABLE = 1: ENABLE_REFUSED (R474). -/
def State.enableRefused (s : State) (page src : Nat) : State := s.pgErrAt page Reg.PG_CTRL src [27]

/-- An error of the block with no register write behind it: the bit and the count (R440). -/
def State.pgErr (s : State) (page bit : Nat) : State :=
  (s.setFlag page Reg.PG_ERR_STATUS bit true).countFld page Reg.PG_ERR_COUNT 0 16 1

/-- PG_STATE.STATE as stored by blocks with a start and stop sequence. -/
def State.pgState (s : State) (page : Nat) : Nat := s.fld page Reg.PG_STATE 0 2

end Sys2Proof.Machine
end

