-- ==== Sys2Proof/Machine/Ops.lean ====
section
/-!
DEFINITION. The named operations that every family uses: little-endian byte strings (R7), the parts of the state by
number, free values, the interrupt summary and vectors (R344, R446), the event log (R394), tags and outgoing packets
(R86, R87, R311, R331), and the raising of a safety mechanism (R372).
-/
namespace Sys2Proof.Machine

/-! ### Bytes -/

/-- The `n` little-endian bytes of a number (R7). -/
def leBytes (n v : Nat) : List Byte :=
  match n with
  | 0 => []
  | n + 1 => BitVec.ofNat 8 v :: leBytes n (v / 256)

/-- The number of a little-endian byte string (R7). -/
def leNat (l : List Byte) : Nat :=
  match l with
  | [] => 0
  | b :: r => b.toNat + 256 * leNat r

/-- The number of a big-endian byte string (R7, cryptographic values). -/
def beNat (l : List Byte) : Nat := l.foldl (fun n b => n * 256 + b.toNat) 0

/-- The `n` big-endian bytes of a number. -/
def beBytes (n v : Nat) : List Byte := (leBytes n v).reverse

/-- `n` bytes of a byte string from offset `o`; bytes beyond the end read as zero. -/
def bytesAt (l : List Byte) (o n : Nat) : List Byte := (List.range n).map fun i => l.getD (o + i) 0

/-- The completion code in a STATUS operand or field (R11). No device produces GEN_MISMATCH or 0x14–0xFF there; a value of
these reads as BAD_COMMAND, the code of a malformed packet (DESIGN CHOICE, notes/assumptions/119.md). -/
def completionCode (b : Byte) : Nat := if b.toNat ≤ 0x13 ∧ b ≠ 0x0A then b.toNat else 0x0E

/-- A little-endian number of `n` bytes at offset `o` of a byte string. -/
def natAt (l : List Byte) (o n : Nat) : Nat := leNat (bytesAt l o n)

/-- `n` bytes of a sparse byte memory from address `a`. -/
def memGet (m : SMap Byte) (a n : Nat) : List Byte := (List.range n).map fun i => SMap.get m (a + i) 0

/-- A sparse byte memory with bytes written from address `a` on. -/
def memPut (m : SMap Byte) (a : Nat) (l : List Byte) : SMap Byte :=
  match l with
  | [] => m
  | b :: r => memPut (SMap.set m a b 0) (a + 1) r

/-- A sparse byte memory with `n` bytes from address `a` set to zero. -/
def memZero (m : SMap Byte) (a n : Nat) : SMap Byte := m.filter fun e => !(decide (a ≤ e.1) && decide (e.1 < a + n))

/-- `w` as an Int, two's complement. -/
def toInt {n : Nat} (w : BitVec n) : Int := w.toInt

/-- The lowest number from `n` on that a rising list does not hold. -/
def lowestFree (l : List Nat) (n : Nat) : Nat :=
  match l with
  | [] => n
  | k :: r => if k = n then lowestFree r (n + 1) else if n < k then n else lowestFree r n

/-! ### Parts of the state -/

/-- Core Cc. -/
def State.core (s : State) (c : Nat) : Core := SMap.get s.cores c {}
/-- `s` with core Cc replaced. -/
def State.setCore (s : State) (c : Nat) (k : Core) : State := { s with cores := SMap.set s.cores c k {} }
/-- `s` with core Cc changed. -/
def State.modCore (s : State) (c : Nat) (f : Core → Core) : State := s.setCore c (f (s.core c))
/-- Context CTXn. -/
def State.ctx (s : State) (n : Nat) : Ctx := SMap.get s.ctxs n {}
/-- `s` with context CTXn replaced. -/
def State.setCtx (s : State) (n : Nat) (x : Ctx) : State := { s with ctxs := SMap.set s.ctxs n x {} }
/-- `s` with context CTXn changed. -/
def State.modCtx (s : State) (n : Nat) (f : Ctx → Ctx) : State := s.setCtx n (f (s.ctx n))
/-- Stream Sn. -/
def State.stream (s : State) (n : Nat) : Stream := SMap.get s.streams n {}
/-- `s` with stream Sn replaced. -/
def State.setStream (s : State) (n : Nat) (x : Stream) : State := { s with streams := SMap.set s.streams n x {} }
/-- `s` with stream Sn changed. -/
def State.modStream (s : State) (n : Nat) (f : Stream → Stream) : State := s.setStream n (f (s.stream n))
/-- Queue q. -/
def State.queue (s : State) (q : Nat) : Queue := SMap.get s.qm.queues q {}
/-- `s` with queue q replaced. -/
def State.setQueue (s : State) (q : Nat) (x : Queue) : State :=
  { s with qm := { s.qm with queues := SMap.set s.qm.queues q x {} } }
/-- `s` with queue q changed. -/
def State.modQueue (s : State) (q : Nat) (f : Queue → Queue) : State := s.setQueue q (f (s.queue q))
/-- Audio port p. -/
def State.port (s : State) (p : Nat) : Port := SMap.get s.audio.ports p {}
/-- `s` with audio port p replaced. -/
def State.setPort (s : State) (p : Nat) (x : Port) : State :=
  { s with audio := { s.audio with ports := SMap.set s.audio.ports p x {} } }
/-- `s` with audio port p changed. -/
def State.modPort (s : State) (p : Nat) (f : Port → Port) : State := s.setPort p (f (s.port p))
/-- Ring r. -/
def State.ring (s : State) (r : Nat) : Ring := SMap.get s.audio.rings r {}
/-- `s` with ring r replaced. -/
def State.setRing (s : State) (r : Nat) (x : Ring) : State :=
  { s with audio := { s.audio with rings := SMap.set s.audio.rings r x {} } }
/-- `s` with ring r changed. -/
def State.modRing (s : State) (r : Nat) (f : Ring → Ring) : State := s.setRing r (f (s.ring r))
/-- APLLa. -/
def State.apll (s : State) (a : Nat) : Apll := SMap.get s.audio.aplls a {}
/-- `s` with APLLa replaced. -/
def State.setApll (s : State) (a : Nat) (x : Apll) : State :=
  { s with audio := { s.audio with aplls := SMap.set s.audio.aplls a x {} } }
/-- Angle timebase ANGa. -/
def State.angle (s : State) (a : Nat) : Angle := SMap.get s.angles a {}
/-- `s` with ANGa replaced. -/
def State.setAngle (s : State) (a : Nat) (x : Angle) : State := { s with angles := SMap.set s.angles a x {} }
/-- Port KLp. -/
def State.link (s : State) (p : Nat) : Link := SMap.get s.fab.links p {}
/-- `s` with port KLp replaced. -/
def State.setLink (s : State) (p : Nat) (x : Link) : State :=
  { s with fab := { s.fab with links := SMap.set s.fab.links p x {} } }
/-- `s` with port KLp changed. -/
def State.modLink (s : State) (p : Nat) (f : Link → Link) : State := s.setLink p (f (s.link p))
/-- Outstanding transaction under tag t. -/
def State.tag (s : State) (t : Nat) : Option Tag := SMap.get s.fab.tags t none
/-- `s` with the transaction under tag t replaced. -/
def State.setTag (s : State) (t : Nat) (x : Option Tag) : State :=
  { s with fab := { s.fab with tags := SMap.set s.fab.tags t x none } }
/-- The count of semaphore n. -/
def State.sem (s : State) (n : Nat) : W32 := SMap.get s.fab.sems n 0
/-- `s` with the count of semaphore n replaced. -/
def State.setSem (s : State) (n : Nat) (v : W32) : State :=
  { s with fab := { s.fab with sems := SMap.set s.fab.sems n v 0 } }

/-- The timebase now (R181). -/
def State.now (s : State) : W64 := s.time.tb

/-- The timebase has reached at least `t`: a scheduled event acts no earlier than its instant (notes/assumptions/4.md). -/
def State.reach (s : State) (t : W64) : State :=
  if s.now.toNat < t.toNat then { s with time := { s.time with tb := t } } else s

/-- A free value of `w` bits, and the state with the next one due (notes/assumptions/2.md). -/
def State.draw (s : State) (w : Nat) : BitVec w × State :=
  ((Config.freeValue s.free).setWidth w, { s with free := s.free + 1 })

/-- Microseconds as timebase units of 1/256 ns (R181). -/
def usTb (us : Nat) : Nat := us * 256000

/-- Nanoseconds as timebase units. -/
def nsTb (ns : Nat) : Nat := ns * 256

/-- How long ago a timebase value was, in units; 0 for a value ahead. -/
def State.age (s : State) (t : W64) : Nat := (s.now - t).toNat

/-! ### Tags and packets -/

/-- The generation of context n (R206). -/
def State.gen (s : State) (n : Nat) : BitVec 4 := (s.ctx n).gen

/-- The device's node ID (FB_NODE, R338). -/
def State.node (s : State) : Nat := s.fab.nodeId

/-- Whether node n is reachable: FB_PEER[n].UP (R329). -/
def State.peerUp (s : State) (n : Nat) : Bool := s.flag Page.fabric (Reg.FB_PEER + 4 * n) 8

/-- The last known boot generation of node n. -/
def State.peerBgen (s : State) (n : Nat) : Nat := s.fld Page.fabric (Reg.FB_PEER + 4 * n) 0 8

/-- The route to node n: FB_ROUTE[n].PORT (R322). -/
def State.route (s : State) (n : Nat) : Nat := s.fld Page.fabric (Reg.FB_ROUTE + 4 * n) 0 3

/-- A packet of this device with every field that R311 leaves to the type zero. -/
def State.newPacket (s : State) (ttype dst : Nat) : Packet :=
  { ttype := BitVec.ofNat 8 ttype, dst := BitVec.ofNat 5 dst, src := BitVec.ofNat 5 s.node, hops := 0, tag := 0,
    epoch := 0, bgen := s.fab.bgen, rbgen := 0, ctx := 0, cgv := false, cgen := 0, status := 0, z := false,
    enc := false, last := false, len := 0, wlen := 0, addr := 0, operand := 0, data := [] }

/-- A packet put on port `port`, virtual channel `vc` (R308). Whether it is encrypted follows the port (R319). -/
def State.emit (s : State) (port vc : Nat) (p : Packet) : State :=
  let p := { p with enc := (s.link port).encOn }
  { s with fab := { s.fab with out := s.fab.out ++ [⟨port, vc, p⟩] } }

/-- Whether port p carries packets: UP (R300). -/
def State.linkUp (s : State) (p : Nat) : Bool := (s.link p).st == 6

/-- A unicast packet sent toward its destination; a packet with no usable route is dropped and counted (R317, R322). -/
def State.send (s : State) (vc : Nat) (p : Packet) : State :=
  let r := s.route p.dst.toNat
  if r < 4 && s.linkUp r then s.emit r vc p
  else s.count Page.fabric Reg.FB_ROUTE_DROP

/-- A broadcast sent on every UP port (R322). -/
def State.broadcast (s : State) (vc : Nat) (p : Packet) : State :=
  [0, 1, 2, 3].foldl (fun s k => if s.linkUp k then s.emit k vc p else s) s

/-- The status with which a request to node n completes at once without being sent: NODE_RESET where the node is DOWN
(R332, R335), ACCESS_DENIED for node ID 31 (R316) and where there is no valid route (R317). -/
def State.refuseRequest (s : State) (n : Nat) : Option Nat :=
  if n = 31 then some 0x0D
  else if s.peerUp n = false then some 0x09
  else if s.route n < 4 && s.linkUp (s.route n) then none
  else some 0x0D

/-- The epoch of tag t (R331). -/
def State.epoch (s : State) (t : Nat) : BitVec 3 := SMap.get s.fab.epochs t 0

/-- A request issued under the lowest free tag; the record says what the reply completes. -/
def State.issueRequest (s : State) (vc : Nat) (p : Packet) (t : Tag) : State :=
  let i := lowestFree (s.fab.tags.map (·.1)) 0
  let t := { t with epoch := s.epoch i, dst := p.dst.toNat, port := s.route p.dst.toNat, since := s.now }
  let p := { p with tag := BitVec.ofNat 13 i, epoch := s.epoch i,
                    ctx := match t.ctx with | some n => BitVec.ofNat 6 n.val | none => 0,
                    cgv := t.ctx.isSome, cgen := t.gen }
  (s.setTag i (some t)).send vc p

/-- The number of outstanding tags that meet `f`. -/
def State.tagCount (s : State) (f : Tag → Bool) : Nat :=
  (s.fab.tags.filter fun e => match e.2 with | some t => f t | none => false).length

/-- The tags that an agent with a limit of its own may hold: ST_TAG_LIMIT or CE_TAG_LIMIT (R142, R298). -/
def State.agentLimit (s : State) (agent : Nat) : Nat :=
  if agent = 0 then 4096 else if agent = 33 then s.fld Page.compression Reg.CE_TAG_LIMIT 0 12
  else s.fld (Page.port (agent - 1)) Reg.ST_TAG_LIMIT 0 7

/-- Whether a request finds a tag: its first hop's port admits KL_TAG_LIMIT (R331); a mover has its own 128, and stalls at its limit
before it asks (R86); the other agents share 4,096, which is also all that one of them may hold to one port (R87). -/
def State.tagFree (s : State) (t : Tag) : Bool :=
  (decide (3 < t.port) || decide (s.tagCount (fun u => u.port == t.port) < s.fld (Page.link t.port) Reg.KL_TAG_LIMIT 0 13)) &&
  (t.core.isSome ||
  decide (s.tagCount (fun u => u.core.isNone) < 4096) && decide (s.tagCount (fun u => u.core.isNone && u.agent == t.agent) < s.agentLimit t.agent))

/-- A request sent, or waiting for a tag (R87, R142, R331). -/
def State.request (s : State) (vc : Nat) (p : Packet) (t : Tag) : State :=
  let t := { t with dst := p.dst.toNat, port := s.route p.dst.toNat }
  if s.tagFree t then s.issueRequest vc p t
  else { s with fab := { s.fab with backlog := s.fab.backlog ++ [(vc, p, t)] } }

/-- Whether a request that meets `f` waits for a tag. -/
def State.waitsTag (s : State) (f : Tag → Bool) : Bool := s.fab.backlog.any fun r => f r.2.2

/-- The requests that meet `f` and wait for a tag withdrawn. -/
def State.dropWaiting (s : State) (f : Tag → Bool) : State :=
  { s with fab := { s.fab with backlog := s.fab.backlog.filter fun r => !f r.2.2 } }

/-- The oldest waiting request that now finds a tag is issued (R87). -/
def State.nextRequest (s : State) : State :=
  match s.fab.backlog.findIdx? fun r => s.tagFree r.2.2 with
  | some i =>
    match s.fab.backlog[i]? with
    | some (vc, p, t) => { s with fab := { s.fab with backlog := s.fab.backlog.eraseIdx i } }.issueRequest vc p t
    | none => s
  | none => s

/-- Tag i freed by its reply. -/
def State.freeTag (s : State) (i : Nat) : State := (s.setTag i none).nextRequest

/-- Tag i freed without its reply: its EPOCH increments, so that the late reply fails R330 (R331). -/
def State.abandonTag (s : State) (i : Nat) : State :=
  let s := s.setTag i none
  { s with fab := { s.fab with epochs := SMap.set s.fab.epochs i (s.epoch i + 1) 0 } }.nextRequest

/-- The record of a request with no core behind it: an acknowledgement is all it waits for. -/
def plainTag : Tag :=
  { epoch := 0, core := none, seq := 0, ctx := none, gen := 0, dst := 0, addr := 0, count := 0, len := 0, sig := 0,
    sigv := false, kind := .ack, busy := false, detached := false, port := 7, since := 0, agent := 0 }

/-- A WRITE of this device to node `dst` on behalf of no context (R312). -/
def State.writeRemote (s : State) (vc dst addr : Nat) (data : List Byte) : State :=
  let p := s.newPacket 0x11 dst
  let p := { p with addr := BitVec.ofNat 64 addr, len := BitVec.ofNat 16 data.length,
                    wlen := BitVec.ofNat 16 data.length, data := data }
  match s.refuseRequest dst with
  | some _ => s
  | none => s.request vc p plainTag

/-- The node of a global address (R316). -/
def nodeOf (a : W64) : Nat := a.toNat / 2 ^ 59
/-- The local part of a global address (R316). -/
def localOf (a : W64) : Nat := a.toNat % 2 ^ 59

/-! ### Vectors and the interrupt summary -/

/-- A vector fires (R344): PENDING with PIN or MASK set, otherwise one 4-byte WRITE to node 0 on VC4. -/
def State.fireVector (s : State) (v : Nat) : State :=
  let o := 16 * v
  let s := s.count Page.queueMgr Reg.QM_IRQ_COUNT
  if s.flag Page.queueMgr (Reg.QM_VEC_CTRL + o) 1 || s.flag Page.queueMgr (Reg.QM_VEC_CTRL + o) 0 then
    s.setFlag Page.queueMgr (Reg.QM_VEC_CTRL + o) 2 true
  else
    let a := s.reg64 Page.queueMgr (Reg.QM_VEC_ADDR_LO + o) (Reg.QM_VEC_ADDR_HI + o)
    if nodeOf a = 0 then
      s.writeRemote 4 0 (localOf a) (leBytes 4 (s.reg Page.queueMgr (Reg.QM_VEC_DATA + o)).toNat)
    else s.count Page.queueMgr Reg.QM_DB_ERR_COUNT

/-- INT_N is low while a vector with PIN is PENDING and not MASKed (R344). -/
def State.intN (s : State) : Bool :=
  (List.range 128).all fun v =>
    let r := (s.reg Page.queueMgr (Reg.QM_VEC_CTRL + 16 * v)).toNat
    !(bitOf r 1 && bitOf r 2 && !bitOf r 0)

/-- Whether a page asserts (R446): never while its domain is not ON. -/
def State.asserts (s : State) (page : Nat) : Bool :=
  s.pageOn page && (s.fld page Reg.PG_IRQ_STATUS 0 16 &&& s.fld page Reg.PG_IRQ_ENABLE 0 16) != 0

/-- The pages that share a page's summary bit (R446, R450). -/
def summaryGroup (page : Nat) : List Nat :=
  if 0x100 ≤ page ∧ page < 0x300 then (List.range 7).map fun k => page / 16 * 16 + k
  else if 0x300 ≤ page ∧ page < 0x340 ∧ page ≠ Page.fabric ∧ page ≠ Page.tsync then
    (List.range 3).map fun k => page / 16 * 16 + k
  else [page]

/-- Whether a page's summary bit is 1 (R446). -/
def State.summary (s : State) (page : Nat) : Bool := (summaryGroup page).any s.asserts

/-- A change of `page` is complete: a summary bit that went from 0 to 1 fires DV_IRQ_CTRL.VEC when EN = 1 (R446). -/
def State.summaryEdge (before after : State) (page : Nat) : State :=
  if after.flag Page.device Reg.DV_IRQ_CTRL 7 && !before.summary page && after.summary page then
    after.fireVector (after.fld Page.device Reg.DV_IRQ_CTRL 0 7)
  else after

/-- Event bit `b` of a page's PG_IRQ_STATUS is set (R440, R446). -/
def State.irq (s : State) (page b : Nat) : State :=
  s.summaryEdge (s.setFlag page Reg.PG_IRQ_STATUS b true) page

/-! ### The event log (R394, R395) -/

/-- The 32 bytes of an event record. -/
def eventBytes (t : W64) (code unit : Nat) (ctx : Option Nat) (gen status rep arg0 arg1 : Nat) : List Byte :=
  leBytes 8 t.toNat ++ leBytes 2 code ++ leBytes 2 unit ++
  [match ctx with | some n => BitVec.ofNat 8 (n % 64 + 64) | none => 0, BitVec.ofNat 8 gen, BitVec.ofNat 8 status,
   BitVec.ofNat 8 rep] ++ leBytes 8 arg0 ++ leBytes 8 arg1

/-- The offset of log record i in the dump buffer. -/
def logOff (i : Nat) : Nat := 0x78000 + 32 * (i % 1024)

/-- A trace record of source `src` (0 EVENTS, 1 BEATS, 2 COMMITS, 3 EXPORTS, 4 TOLLS) takes the next place of the trace
ring (R469, R471). A ring that is full with WRAP = 0, or a place whose earlier write is not yet done, drops it and counts. -/
def State.trace (s : State) (src : Nat) (bytes : List Byte) : State :=
  let p := Page.debug
  if !s.pageOn p || !s.flag p Reg.TR_CTRL 0 || !s.flag p Reg.TR_CTRL (2 + src) then s else
  let n := (s.reg p Reg.TR_WR).toNat
  let places := s.fld p Reg.TR_BYTES 0 28 / 32
  let a := s.reg64 p Reg.TR_BASE_LO Reg.TR_BASE_HI + BitVec.ofNat 64 (32 * (n % max places 1))
  if places = 0 || (!s.flag p Reg.TR_CTRL 1 && decide (places ≤ n)) || s.hang.traceOut.any fun e => e.1 == a then
    s.count p Reg.TR_DROP_COUNT
  else
    { s.setReg p Reg.TR_WR (BitVec.ofNat 32 (n + 1)) with
      hang := { s.hang with traceOut := s.hang.traceOut ++ [(a, bytes)] } }

/-- An event record is written, or repeats the newest record when CODE, SRC_UNIT and CTX are equal and it falls within
1 ms of that record (R394). A new record sets PG_IRQ_STATUS.EVENT of the HANG page. -/
def State.logEvent (s : State) (code unit : Nat) (ctx : Option Nat) (gen status arg0 arg1 : Nat) : State :=
  let n := s.hang.evWr.toNat
  let o := logOff (n - 1)
  let old := memGet s.hang.dumpBuf o 32
  let new := eventBytes s.now code unit ctx gen status 0 arg0 arg1
  if n ≠ 0 ∧ bytesAt old 8 5 = bytesAt new 8 5 ∧ (s.now.toNat - natAt old 0 8) < 256000000 then
    let rep := min (natAt old 15 1 + 1) 255
    { s with hang := { s.hang with dumpBuf := memPut s.hang.dumpBuf (o + 15) [BitVec.ofNat 8 rep] } }
  else
    let s := { s with hang := { s.hang with dumpBuf := memPut s.hang.dumpBuf (logOff n) new,
                                            evWr := s.hang.evWr + 1 } }
    (s.trace 0 new).irq Page.hang 0

/-! ### Safety mechanisms (R372) -/

/-- The class that applies to mechanism m: SF_CLASS, with LOCKSTEP fixed at SAFE (R372, R379). -/
def State.mechClass (s : State) (m : Nat) : Nat := if m = 0 then 3 else s.fld Page.safety Reg.SF_CLASS (2 * m) 2

/-- A quench of a context is requested: step 1 of R216. A second request changes nothing (R217). -/
def State.requestQuench (s : State) (n : Nat) (cause : Nat) : State :=
  match (s.ctx n).st with
  | .running | .stopped => s.modCtx n fun x => { x with st := .quenching, cause := cause }
  | _ => s

/-- The safety manager raises mechanism m, for context `ctx` where one is affected, and applies its class (R372): COUNT
records only, IRQ interrupts, QUENCH requests a quench, SAFE makes the entry into safe state due (R373). -/
def State.raiseMech (s : State) (m : Nat) (ctx : Option Nat) : State :=
  let s := s.setFlag Page.safety Reg.SF_FAULT m true
  let s := s.logEvent 0x28 0x008 ctx (match ctx with | some n => (s.gen n).toNat | none => 0) 0 m 0
  let s := if s.safety.armed && !s.safety.firstValid then
      { s with safety := { s.safety with firstValid := true, first := m, firstTime := s.now } }
    else s
  match s.mechClass m, ctx with
  | 0, _ => s
  | 3, _ => { s with safety := { s.safety with safeDue := true } }
  | 2, some n => s.requestQuench n 4
  | _, _ => s.irq Page.safety m

/-- A corrected error of the memory instance whose page is p, counted in the register at `off`; more than 64 within 1 s raise
ECC_CE_RATE, and the count begins anew (R372; notes/assumptions/136.md). -/
def State.correctedError (s : State) (p off : Nat) : State :=
  let s := s.countFld p off 0 16 1
  let l := ((SMap.get s.safety.corrected p []).filter fun t => decide (s.now.toNat < t.toNat + usTb 1000000)) ++ [s.now]
  if l.length ≤ 64 then { s with safety := { s.safety with corrected := SMap.set s.safety.corrected p l [] } }
  else ({ s with safety := { s.safety with corrected := SMap.set s.safety.corrected p [] [] } } : State).raiseMech 5 none

end Sys2Proof.Machine
end

