-- ==== Sys2Proof/Machine/Fp.lean ====
section
/-!
DEFINITION. FP32 and FP16 arithmetic by exact integers and one rounding (R32, R33), the narrow codes BC8, BC4, U8Z and
SC8 (R22–R25, R28), their conversions with a draw (R34–R37), and fresh scales (R38).
-/
namespace Sys2Proof.Machine

/-- The NaN of R32. -/
def fpNaN : W32 := 0x7FC00000
/-- +∞. -/
def fpInf : W32 := 0x7F800000
/-- 1.0. -/
def fpOne : W32 := 0x3F800000

/-- Sign bit. -/
def fpSign (x : W32) : Bool := x.getLsbD 31
/-- Biased exponent. -/
def fpExp (x : W32) : Nat := x.toNat / 2 ^ 23 % 256
/-- Fraction bits. -/
def fpFrac (x : W32) : Nat := x.toNat % 2 ^ 23
/-- NaN test. -/
def fpIsNaN (x : W32) : Bool := fpExp x == 255 && fpFrac x != 0
/-- Infinity test. -/
def fpIsInf (x : W32) : Bool := fpExp x == 255 && fpFrac x == 0
/-- Zero, with subnormals read as zero (R32). -/
def fpIsZero (x : W32) : Bool := fpExp x == 0
/-- Absolute value of the bits. -/
def fpAbs (x : W32) : W32 := x &&& 0x7FFFFFFF
/-- Negation of the bits. -/
def fpNeg (x : W32) : W32 := x ^^^ 0x80000000
/-- Zero of a sign. -/
def fpZero (neg : Bool) : W32 := if neg then 0x80000000 else 0
/-- Infinity of a sign. -/
def fpInfOf (neg : Bool) : W32 := if neg then 0xFF800000 else fpInf
/-- A subnormal operand read as zero of its sign (R32). -/
def fpFlush (x : W32) : W32 := if fpIsZero x then fpZero (fpSign x) else x

/-- The significand of a finite value, signed; its value is `fpSig x · 2^(fpPow x)`. -/
def fpSig (x : W32) : Int :=
  let m : Int := if fpIsZero x then 0 else (2 ^ 23 + fpFrac x : Nat)
  if fpSign x then -m else m
/-- The power of two of a finite value's significand. -/
def fpPow (x : W32) : Int := (fpExp x : Int) - 150

/-- `m / 2^k` rounded to nearest even. -/
def rneShift (m k : Nat) : Nat :=
  let q := m / 2 ^ k
  let r := m % 2 ^ k
  let half := 2 ^ k / 2
  if k = 0 then m
  else if r > half ∨ (r = half ∧ q % 2 = 1) then q + 1 else q

/-- (−1)^neg · m · 2^e rounded to FP32: nearest even, overflow to ±∞, a subnormal result to zero of the sign (R32). -/
def fpRound (neg : Bool) (m : Nat) (e : Int) : W32 :=
  if m = 0 then fpZero neg else
  let len := Nat.log2 m + 1
  let (q, e) := if len ≤ 24 then (m * 2 ^ (24 - len), e - ((24 - len : Nat) : Int))
                else (rneShift m (len - 24), e + ((len - 24 : Nat) : Int))
  let (q, e) := if q = 2 ^ 24 then (2 ^ 23, e + 1) else (q, e)
  let b := e + 150
  if b ≥ 255 then fpInfOf neg
  else if b ≤ 0 then fpZero neg
  else BitVec.ofNat 32 ((if neg then 2 ^ 31 else 0) + b.toNat * 2 ^ 23 + (q - 2 ^ 23))

/-- An exact value m · 2^e rounded to FP32; a zero takes the sign `zneg`. -/
def fpOfDyadic (zneg : Bool) (m e : Int) : W32 :=
  if m = 0 then fpZero zneg else fpRound (decide (m < 0)) m.natAbs e

/-- An integer rounded to FP32 (fl). -/
def fpOfInt (i : Int) : W32 := fpOfDyadic false i 0

/-- The exact sum of two dyadic numbers, as significand and power. -/
def dyAdd (m₁ e₁ m₂ e₂ : Int) : Int × Int :=
  if e₁ ≤ e₂ then (m₁ + m₂ * 2 ^ (e₂ - e₁).toNat, e₁) else (m₁ * 2 ^ (e₁ - e₂).toNat + m₂, e₂)

/-- fl(a + b) (R32). -/
def fpAdd (a b : W32) : W32 :=
  if fpIsNaN a || fpIsNaN b then fpNaN
  else if fpIsInf a then (if fpIsInf b && (fpSign a != fpSign b) then fpNaN else a)
  else if fpIsInf b then b
  else
    let (m, e) := dyAdd (fpSig a) (fpPow a) (fpSig b) (fpPow b)
    fpOfDyadic (fpSign a && fpSign b) m e

/-- fl(a − b). -/
def fpSub (a b : W32) : W32 := if fpIsNaN b then fpNaN else fpAdd a (fpNeg b)

/-- fl(a · b) (R32). -/
def fpMul (a b : W32) : W32 :=
  let neg := fpSign a != fpSign b
  if fpIsNaN a || fpIsNaN b then fpNaN
  else if fpIsInf a || fpIsInf b then (if fpIsZero a || fpIsZero b then fpNaN else fpInfOf neg)
  else fpOfDyadic neg (fpSig a * fpSig b) (fpPow a + fpPow b)

/-- fl(a · b + c), rounded once. -/
def fpFma (a b c : W32) : W32 :=
  let neg := fpSign a != fpSign b
  if fpIsNaN a || fpIsNaN b || fpIsNaN c then fpNaN
  else if fpIsInf a || fpIsInf b then
    if fpIsZero a || fpIsZero b then fpNaN
    else if fpIsInf c && (fpSign c != neg) then fpNaN else fpInfOf neg
  else if fpIsInf c then c
  else
    let (m, e) := dyAdd (fpSig a * fpSig b) (fpPow a + fpPow b) (fpSig c) (fpPow c)
    fpOfDyadic (neg && fpSign c) m e

/-- fl(a / b): the quotient to 64 more bits with a sticky bit, rounded once. -/
def fpDiv (a b : W32) : W32 :=
  let neg := fpSign a != fpSign b
  if fpIsNaN a || fpIsNaN b then fpNaN
  else if fpIsInf a then (if fpIsInf b then fpNaN else fpInfOf neg)
  else if fpIsInf b then fpZero neg
  else if fpIsZero b then (if fpIsZero a then fpNaN else fpInfOf neg)
  else
    let n := (fpSig a).natAbs * 2 ^ 64
    let d := (fpSig b).natAbs
    let q := n / d * 2 + b2n (n % d != 0)
    fpOfDyadic neg (if neg then -(q : Int) else q) (fpPow a - fpPow b - 65)

/-- The order of two values that are not NaN: exact comparison a < b. -/
def fpLt (a b : W32) : Bool :=
  if fpIsNaN a || fpIsNaN b then false
  else
    let key (x : W32) : Int :=
      let v : Int := ((fpAbs (fpFlush x)).toNat : Nat)
      if fpSign x then -v else v
    decide (key a < key b)

/-- Exact equality of two values that are not NaN; +0 equals −0. -/
def fpEq (a b : W32) : Bool := !fpIsNaN a && !fpIsNaN b && !fpLt a b && !fpLt b a

/-- The larger of the absolute values, with NaN ignored (R48). -/
def fpAbsMax (a x : W32) : W32 :=
  if fpIsNaN x then a else if fpLt a (fpAbs (fpFlush x)) then fpAbs (fpFlush x) else a

/-! ### FP16 (R33) -/

/-- Conversion to FP16: the code, a saturation and a NaN (R33). -/
def toFp16 (x : W32) : BitVec 16 × Bool × Bool :=
  let sgn : Nat := if fpSign x then 0x8000 else 0
  if fpIsNaN x then (0x7E00, false, true)
  else if fpIsInf x then (BitVec.ofNat 16 (sgn + 0x7C00), true, false)
  else if fpIsZero x then (BitVec.ofNat 16 sgn, false, false)
  else
    let m := (fpSig x).natAbs
    let q := rneShift m 13
    let b := (fpExp x : Int) - 112
    let (q, b) := if q = 2 ^ 11 then (2 ^ 10, b + 1) else (q, b)
    if b ≥ 31 then (BitVec.ofNat 16 (sgn + 0x7BFF), true, false)
    else if b ≤ 0 then (BitVec.ofNat 16 sgn, false, false)
    else (BitVec.ofNat 16 (sgn + b.toNat * 1024 + (q - 1024)), false, false)

/-- The FP32 value of an FP16 code, subnormals read as zero of the same sign (R33). -/
def ofFp16 (h : BitVec 16) : W32 :=
  let n := h.toNat
  let sgn := n / 2 ^ 15 * 2 ^ 31
  let e := n / 1024 % 32
  let f := n % 1024
  if e = 31 then (if f = 0 then BitVec.ofNat 32 (sgn + 0x7F800000) else fpNaN)
  else if e = 0 then BitVec.ofNat 32 sgn
  else BitVec.ofNat 32 (sgn + (e + 112) * 2 ^ 23 + f * 2 ^ 13)

/-! ### Narrow codes -/

/-- The magnitude of a BC8 code (R22). -/
def bc8Mag (c : Nat) : Nat :=
  let k := c / 16 % 8
  let u := c % 16
  if k = 0 then u else (16 + u) * 2 ^ (k - 1)

/-- A code's integer decoded with its combined scale (R22, R25, R29): with a zero scale the value is +0 (R39). -/
def scaled (v : W32) (sc : W32) : W32 := if fpIsZero sc then 0 else fpMul v sc

/-- The signed integer form of a BC8 code; 0x80 gives zero (R22, R23). -/
def bc8Int (c : Byte) : Int := if c.getLsbD 7 then -(bc8Mag c.toNat : Int) else bc8Mag c.toNat

/-- The magnitude n of a BC4 code (R24). -/
def bc4Mag (c : Nat) : Nat := [0, 1, 2, 3, 5, 7, 10, 16].getD (c % 8) 0

/-- The signed integer form of a BC4 code (R24). -/
def bc4Int (c : Nat) : Int := if c / 8 % 2 = 1 then -(bc4Mag c : Int) else bc4Mag c

/-- The FP32 value of an SC8 code (R28). -/
def sc8Val (c : Byte) : W32 :=
  let e := c.toNat / 8
  if e = 0 then 0 else fpRound false (8 + c.toNat % 8) ((e : Int) - 18)

/-- The combined scale fl(sc8 × S2) (R29). -/
def combined (c : Byte) (s2 : W32) : W32 := fpMul (sc8Val c) s2

/-- Whether a combined scale counts as zero in a conversion: not positive, or NaN (R30). -/
def zeroScale (s : W32) : Bool := fpIsNaN s || !fpLt 0 s

/-- The value of a BC8 code with its combined scale (R22); 0x80, and every code with a zero scale, gives +0 (R39). -/
def bc8Val (c : Byte) (sc : W32) : W32 :=
  if c = 0x80 then 0 else scaled (fpMul (fpOfInt (bc8Int c)) (fpRound false 1 (-10))) sc

/-- The segment magnitude at or below n, its step and its code (R22), for n < 1,984. -/
def bc8Below (n : Nat) : Nat × Nat × Nat :=
  if n < 32 then (n, 1, n)
  else
    let k := Nat.log2 n - 3
    let step := 2 ^ (k - 1)
    (n / step * step, step, 16 * k + (n / step - 16))

/-- The BC8 code of a magnitude of the grid (R22). -/
def bc8Code (m : Nat) : Nat := if m = 1984 then 0x7F else (bc8Below m).2.2

/-- Outcome of one conversion: the code and what it counts (R39). -/
structure Conv where
  code : Nat
  sat : Bool := false
  nan : Bool := false
  zscale : Bool := false
deriving DecidableEq, Repr

/-- floor(t) of a non-negative finite FP32 value. -/
def fpFloor (t : W32) : Nat :=
  let m := (fpSig t).natAbs
  let e := fpPow t
  if e ≥ 0 then m * 2 ^ e.toNat else m / 2 ^ (-e).toNat

/-- floor(256 · (t − lo) / step) of a non-negative finite FP32 value, exactly (R34–R36). -/
def fpFrac8 (t : W32) (lo step : Nat) : Nat :=
  let m := (fpSig t).natAbs
  let e := fpPow t
  if e ≥ 0 then 256 * (m * 2 ^ e.toNat - lo) / step
  else 256 * (m - lo * 2 ^ (-e).toNat) / (step * 2 ^ (-e).toNat)

/-- FP32 of a small natural number. -/
def fpNat (n : Nat) : W32 := fpOfInt n

/-- The magnitude that a draw chooses between lo and lo + step: up when r < f8 (R34, R37). -/
def roundUp (lo step f8 r : Nat) : Nat := if f8 = 0 then lo else if r < f8 then lo + step else lo

/-- Conversion into BC8 with combined scale s and draw r (R34). A zero times an infinite fl(1024 / s) is a NaN, and counts as one
by the steps of R34, although R39's row for x = ±0 reports nothing (DESIGN CHOICE, notes/assumptions/106.md). -/
def toBc8 (x s : W32) (r : Nat) : Conv :=
  let sgn := if fpSign x then 0x80 else 0
  if fpIsNaN x then { code := 0, nan := true }
  else if zeroScale s then { code := 0, zscale := true }
  else
    let t := fpMul (fpAbs x) (fpDiv (fpNat 1024) s)
    if fpIsNaN t then { code := 0, nan := true }
    else if !fpLt t (fpNat 1984) then { code := sgn + 0x7F, sat := true }
    else
      let (lo, step, _) := bc8Below (fpFloor t)
      let m := roundUp lo step (fpFrac8 t lo step) r
      if m = 0 then { code := 0 } else { code := sgn + bc8Code m }

/-- The BC4 grid: index, magnitude and gap to the next (R24). -/
def bc4Below (n : Nat) : Nat × Nat × Nat :=
  if n < 3 then (n, n, 1) else if n < 5 then (3, 3, 2) else if n < 7 then (4, 5, 2)
  else if n < 10 then (5, 7, 3) else (6, 10, 6)

/-- Conversion into BC4 (R35). -/
def toBc4 (x s : W32) (r : Nat) : Conv :=
  let sgn := if fpSign x then 8 else 0
  if fpIsNaN x then { code := 0, nan := true }
  else if zeroScale s then { code := 0, zscale := true }
  else
    let t := fpMul (fpAbs x) (fpDiv (fpNat 16) s)
    if fpIsNaN t then { code := 0, nan := true }
    else if !fpLt t (fpNat 16) then { code := sgn + 7, sat := true }
    else
      let (i, lo, step) := bc4Below (fpFloor t)
      let i := roundUp i 1 (fpFrac8 t lo step) r
      if i = 0 then { code := 0 } else { code := sgn + i }

/-- Conversion into U8Z with zero point z (R36). -/
def toU8z (x s : W32) (z r : Nat) : Conv :=
  if fpIsNaN x then { code := z, nan := true }
  else if zeroScale s then { code := z, zscale := true }
  else
    let t := fpAdd (fpMul x (fpDiv fpOne s)) (fpNat z)
    if fpIsNaN t then { code := z, nan := true }
    else if !fpLt t (fpNat 255) then { code := 255, sat := true }
    else if fpLt t 0 then { code := 0, sat := true }
    else
      let lo := fpFloor t
      { code := roundUp lo 1 (fpFrac8 t lo 1) r }

/-- Exact comparison a · d < l · b of non-negative values, b possibly +∞ (R38). -/
def scaledLt (a : W32) (d : Nat) (b : W32) (l : Nat) : Bool :=
  if fpIsNaN a || fpIsNaN b || fpIsInf a || fpSign b && !fpIsZero b then false
  else if fpIsInf b then true
  else
    let (m, _) := dyAdd (fpSig b * l) (fpPow b) (-(fpSig a * d)) (fpPow a)
    decide (0 < m)

/-- The fresh scale for absolute maximum a: 0x00 for a = 0, otherwise the smallest code with e ≥ 1 that passes the test,
0xFF if none does (R38). -/
def freshScale (a s2 : W32) (d l : Nat) : Byte :=
  if fpIsZero a then 0
  else
    match (List.range 248).find? fun i => scaledLt a d (combined (BitVec.ofNat 8 (i + 8)) s2) l with
    | some i => BitVec.ofNat 8 (i + 8)
    | none => 0xFF

/-- The absolute maximum of a group of FP32 inputs, NaN ignored (R38). -/
def groupAbsMax (l : List W32) : W32 := l.foldl fpAbsMax 0

/-- A list in an order that `place` chooses: each element goes among those after it. Every order is the order of some `place`. -/
def inOrder {α : Type} (place : Nat → Nat) : List α → List α
  | [] => []
  | x :: r => (inOrder place r).insertIdx (place r.length % (r.length + 1)) x

/-- An FP32 sum whose terms are added one at a time in an order that the spec does not give: sum i of draw n (R46, R256). -/
def sumAny (n i : Nat) (l : List W32) : W32 :=
  match inOrder (Config.sumOrder n i) l with
  | [] => 0
  | x :: r => r.foldl fpAdd x

/-- The k-th draw from counter n, 0 to 255 (R40). -/
def drawAt (n k : Nat) : Nat := (Config.freeValue (n + k)).toNat % 256

end Sys2Proof.Machine
end

