-- ==== Sys2Proof/Machine/Exact.lean ====
section
/-!
DEFINITION. Values of the non-linear functions to far more places than their bounds need (R112, R114, R255): binary fixed point
with 320 fraction bits, and the tests whether an FP32 value lies within a bound of such a value. A result that the spec only
bounds is `Config`'s free value where that keeps the bound, and otherwise the exact value rounded (notes/assumptions/105.md).
-/
namespace Sys2Proof.Machine

/-- Fraction bits of the fixed point. -/
def fixBits : Nat := 320
/-- 1 in fixed point. -/
def fixOne : Nat := 2 ^ fixBits

/-- A finite FP32 value in fixed point; its magnitude is exact, since no FP32 value has a bit below 2^−149. -/
def fixOf (x : W32) : Int := fpSig x * 2 ^ (fpPow x + fixBits).toNat

/-- Terms of a series from term `t` on, each obtained from the last: the sum of `n` of them. -/
def series (next : Nat → Nat → Nat) (k t : Nat) : Nat → Nat
  | 0 => 0
  | n + 1 => t + series next (k + 1) (next k t) n

/-- e^t for 0 ≤ t < 128: the series at t / 256, squared eight times. -/
def fixExpPos (t : Nat) : Nat :=
  let u := t / 256
  let y := series (fun k x => x * u / fixOne / (k + 1)) 0 fixOne 64
  (List.range 8).foldl (fun y _ => y * y / fixOne) y

/-- e^t; below −127 it counts as zero. -/
def fixExp (t : Int) : Nat :=
  if 0 ≤ t then fixExpPos t.toNat
  else if t < -(127 * fixOne : Nat) then 0
  else fixOne * fixOne / fixExpPos (-t).toNat

/-- 2 · artanh(r) for 0 ≤ r ≤ 1/3. -/
def fixArtanh2 (r : Nat) : Nat :=
  let q := r * r / fixOne
  2 * ((List.range 110).foldl (fun (acc : Nat × Nat) k => (acc.1 + acc.2 / (2 * k + 1), acc.2 * q / fixOne)) (0, r)).1

/-- ln 2 = 2 · artanh(1/3). -/
def fixLn2 : Nat := fixArtanh2 (fixOne / 3)

/-- ln v for a positive v. -/
def fixLn (v : Nat) : Int :=
  let e : Int := (Nat.log2 v : Int) - fixBits
  let m := if 0 ≤ e then v / 2 ^ e.toNat else v * 2 ^ (-e).toNat
  (fixArtanh2 ((m - fixOne) * fixOne / (m + fixOne)) : Int) + e * fixLn2

/-- artan(1/n). -/
def fixArtanInv (n : Nat) : Int :=
  ((List.range 150).foldl (fun (acc : Int × Nat) k =>
    (acc.1 + (if k % 2 = 0 then (1 : Int) else -1) * ((acc.2 / (2 * k + 1) : Nat) : Int), acc.2 / (n * n)))
    (0, fixOne / n)).1

/-- π = 16 · artan(1/5) − 4 · artan(1/239). -/
def fixPi : Int := 16 * fixArtanInv 5 - 4 * fixArtanInv 239

/-- The sine of an angle of at most a quarter turn either way. -/
def fixSinSmall (t : Int) : Int :=
  ((List.range 40).foldl (fun (acc : Int × Int) k =>
    (acc.1 + acc.2, -(acc.2 * t / fixOne * t / fixOne) / ((2 * k + 2) * (2 * k + 3) : Nat))) (0, t)).1

/-- The sine of a phase in units of 2^−32 revolution. -/
def fixSin (phase : W32) : Int :=
  let p : Int := phase.toNat
  let h : Int := 2 ^ 31
  let q : Int := 2 ^ 30
  let r := if p ≤ q then p else if p ≤ 3 * q then h - p else p - 2 * h
  fixSinSmall (2 * fixPi * r / 2 ^ 32)

/-- The exact value of function FN of R114 at a finite operand that no edge of its table names. -/
def fixFun (fn : Nat) (x : W32) : Int :=
  let t := fixOf x
  let one : Int := fixOne
  let lim : Int := 100 * one
  match fn with
  | 0 => fixExp t
  | 1 => fixLn t.toNat
  | 2 =>
    let a := min t.natAbs (60 * fixOne)
    let e : Int := fixExpPos (2 * a)
    let v := (e - one) * one / (e + one)
    if t < 0 then -v else v
  | 3 => if t < -lim then 0 else one * one / (one + fixExp (-t))
  | 4 => if lim < t then t else if t < -lim then 0 else (if 0 ≤ t then t else 0) + fixLn (fixOne + fixExp (-(t.natAbs : Int)))
  | 5 => one * one / t
  | _ => ((fixOne * fixOne * fixOne / t.toNat).sqrt : Nat)

/-- A fixed-point value rounded to FP32. -/
def fixRound (v : Int) : W32 := fpOfDyadic false v (-(fixBits : Int))

/-- An ulp of v in FP32 (R114): that of the binade that holds |v|. -/
def fixUlp (v : Int) : Nat := if v = 0 then 0 else 2 ^ (Nat.log2 v.natAbs) / 2 ^ 23

/-- Whether the FP32 value y lies within `bound` of v, but for the 2^−100th part of v that the fixed point may err. -/
def fixNear (y : W32) (v : Int) (bound : Nat) : Bool :=
  !fpIsNaN y && !fpIsInf y && decide ((fixOf y - v).natAbs ≤ bound + v.natAbs / 2 ^ 100)

/-- The free value `y` where it lies within the bound of v, otherwise v rounded. -/
def fixPick (y : W32) (v : Int) (bound : Nat) : W32 := if fixNear y v bound then y else fixRound v

/-- 2^−n in fixed point. -/
def fixNeg2 (n : Nat) : Nat := 2 ^ (fixBits - n)

/-- The error bound of function FN at exact value v (R114). -/
def funBound (fn : Nat) (v : Int) : Nat :=
  match fn with
  | 0 | 1 => 2 * fixUlp v
  | 2 | 3 | 4 => max (2 * fixUlp v) (fixNeg2 24)
  | _ => fixUlp v

/-- The value of function FN at an operand for which R114 gives a bound only: any FP32 value within the bound, the same for the
same operand; EXP and RECIP results below 2^−126 are zero. -/
def boundedFun (fn : Nat) (x : W32) : W32 :=
  let v := fixFun fn x
  if (fn = 0 || fn = 5) && decide (v.natAbs < fixNeg2 126) then fpZero (decide (v < 0))
  else fixPick (fpFlush (Config.vectorFunction fn x)) v (funBound fn v)

/-- The sine of a phase, within 2^−20 of the exact value (R255). -/
def sineOf (phase : W32) : W32 := fixPick (fpFlush (Config.sine phase)) (fixSin phase) (fixNeg2 20)

/-- The exact soft-maximum outputs of a row on its z values (R112): e^(z_j − mx) over their sum. -/
def fixSoftmax (z : List W32) (mx : W32) : List Nat :=
  let e := z.map fun x => fixExp (fixOf x - fixOf mx)
  let s := e.foldl (· + ·) 0
  e.map fun v => v * fixOne / s

/-- An output of VSMAX held to the bound of R112: within 2^−21 · y + 2^−24 of the exact value. -/
def smaxHeld (y : W32) (v : Nat) : W32 := fixPick y v (v / 2 ^ 21 + fixNeg2 24)

end Sys2Proof.Machine
end

