-- ==== Sys2Proof/Machine/Aes.lean ====
section
/-!
DEFINITION. AES-256 (FIPS 197) and the two modes that the spec names by their standards: XTS for protected regions (R278,
IEEE 1619) and GCM for the links (R319, SP 800-38D).
-/
namespace Sys2Proof.Machine

/-! ### Bytes as polynomials over GF(2) modulo x^8 + x^4 + x^3 + x + 1 -/

/-- A byte times x. -/
def timesX (a : Byte) : Byte := (a <<< 1) ^^^ (if a.getLsbD 7 then 0x1B else 0)

/-- A byte times a small polynomial `k` of degree below 4. -/
def gfScale (k : Nat) (a : Byte) : Byte :=
  let powers := [a, timesX a, timesX (timesX a), timesX (timesX (timesX a))]
  (powers.zipIdx.filter fun e => bitOf k e.2).foldl (fun s e => s ^^^ e.1) 0

/-- The product of two bytes, from the highest power of `b` down. -/
def gfMul (a b : Byte) : Byte := (List.range 8).foldl (fun s i => timesX s ^^^ (if b.getLsbD (7 - i) then a else 0)) 0

/-- The inverse of a byte, a^254; of zero, zero. -/
def gfInv (a : Byte) : Byte := (List.range 6).foldl (fun s _ => gfMul (gfMul s s) a) a |> fun s => gfMul s s

/-- The substitution of one byte: its inverse through the affine map. -/
def subByte (a : Byte) : Byte :=
  let b := gfInv a
  [1, 2, 3, 4].foldl (fun s k => s ^^^ b.rotateLeft k) b ^^^ 0x63

/-- The inverse substitution. -/
def unsubByte (a : Byte) : Byte :=
  gfInv (a.rotateLeft 1 ^^^ a.rotateLeft 3 ^^^ a.rotateLeft 6 ^^^ 0x05)

/-! ### AES-256 -/

/-- Two byte strings added bit by bit. -/
def xorBytes (a b : List Byte) : List Byte := List.zipWith (· ^^^ ·) a b

/-- The next eight words of the key schedule from the last eight (FIPS 197, section 5.2): `r` is the round constant. -/
def keyBlock (prev : List (List Byte)) (r : Byte) : List (List Byte) :=
  let last := (prev.getD 7 []).map subByte
  let first := xorBytes (xorBytes (last.drop 1 ++ last.take 1) [r, 0, 0, 0]) (prev.getD 0 [])
  ((List.range 7).foldl (fun (acc : List (List Byte)) i =>
    let t := acc.getD i []
    acc ++ [xorBytes (if i = 3 then t.map subByte else t) (prev.getD (i + 1) [])]) [first])

/-- The 15 round keys of a 256-bit key, first byte most significant. -/
def roundKeys (key : BitVec 256) : List (List Byte) :=
  let k0 := (List.range 8).map fun i => bytesAt (beBytes 32 key.toNat) (4 * i) 4
  let words := ((List.range 7).foldl (fun (acc : List (List Byte) × List (List Byte) × Byte) _ =>
    let b := keyBlock acc.2.1 acc.2.2
    (acc.1 ++ b, b, timesX acc.2.2)) (k0, k0, 1)).1
  (List.range 15).map fun i => (List.range 4).map (fun j => words.getD (4 * i + j) []) |>.flatten

/-- Row r of the state moved by r columns, forwards or backwards. -/
def shiftRows (step : Nat) (b : List Byte) : List Byte :=
  (List.range 16).map fun i => b.getD ((i + step * (i % 4)) % 16) 0

/-- Each column times a circulant matrix given by its first row. -/
def mixColumns (row : List Nat) (b : List Byte) : List Byte :=
  (List.range 16).map fun i =>
    (List.range 4).foldl (fun s k => s ^^^ gfScale (row.getD k 0) (b.getD (i / 4 * 4 + (i + k) % 4) 0)) 0

/-- One block of 16 bytes encrypted. -/
def aesEncrypt (key : BitVec 256) (b : List Byte) : List Byte :=
  let ks := roundKeys key
  let b := (List.range 13).foldl (fun b i =>
    xorBytes (mixColumns [2, 3, 1, 1] (shiftRows 4 (b.map subByte))) (ks.getD (i + 1) [])) (xorBytes b (ks.getD 0 []))
  xorBytes (shiftRows 4 (b.map subByte)) (ks.getD 14 [])

/-- One block of 16 bytes decrypted. -/
def aesDecrypt (key : BitVec 256) (b : List Byte) : List Byte :=
  let ks := roundKeys key
  let back (b : List Byte) : List Byte := (shiftRows 12 b).map unsubByte
  let b := (List.range 13).foldl (fun b i =>
    mixColumns [14, 11, 13, 9] (xorBytes (back b) (ks.getD (13 - i) []))) (xorBytes b (ks.getD 14 []))
  xorBytes (back b) (ks.getD 0 [])

/-! ### XTS on one 256-byte unit (R278) -/

/-- A tweak times α: the 16 bytes as a little-endian polynomial modulo x^128 + x^7 + x^2 + x + 1. -/
def timesAlpha (t : BitVec 128) : BitVec 128 := (t <<< 1) ^^^ (if t.getLsbD 127 then 0x87 else 0)

/-- The tweak of block j of unit u under the second key of a slot. -/
def xtsTweak (k : BitVec 512) (u j : Nat) : List Byte :=
  let t0 := BitVec.ofNat 128 (leNat (aesEncrypt (k.setWidth 256) (leBytes 16 u)))
  leBytes 16 ((List.range j).foldl (fun t _ => timesAlpha t) t0).toNat

/-- A unit of 16 blocks through a block function, each block under its tweak; the first key of a slot is its upper half. -/
def xtsUnit (f : BitVec 256 → List Byte → List Byte) (k : BitVec 512) (u : Nat) (l : List Byte) : List Byte :=
  ((List.range 16).map fun j =>
    let t := xtsTweak k u j
    xorBytes (f ((k >>> 256).setWidth 256) (xorBytes (bytesAt l (16 * j) 16) t)) t).flatten

/-- A unit encrypted. -/
def xtsEncrypt (k : BitVec 512) (u : Nat) (l : List Byte) : List Byte := xtsUnit aesEncrypt k u l
/-- A unit decrypted. -/
def xtsDecrypt (k : BitVec 512) (u : Nat) (l : List Byte) : List Byte := xtsUnit aesDecrypt k u l

/-! ### GCM (R319) -/

/-- A product in the field of GHASH: bit 127 of a number is the coefficient of x^0. -/
def ghashMul (a b : BitVec 128) : BitVec 128 :=
  ((List.range 128).foldl (fun (acc : BitVec 128 × BitVec 128) i =>
    (if a.getLsbD (127 - i) then acc.1 ^^^ acc.2 else acc.1,
     (acc.2 >>> 1) ^^^ (if acc.2.getLsbD 0 then (0xE1 : BitVec 128) <<< 120 else 0))) (0, b)).1

/-- A byte string filled with zeros to whole blocks. -/
def wholeBlocks (l : List Byte) : List Byte := l ++ List.replicate ((16 - l.length % 16) % 16) 0

/-- GHASH of whole blocks. -/
def ghash (h : BitVec 128) (l : List Byte) : BitVec 128 :=
  (List.range (l.length / 16)).foldl (fun y i => ghashMul (y ^^^ BitVec.ofNat 128 (beNat (bytesAt l (16 * i) 16))) h) 0

/-- A packet sealed: key, salt, packet counter, additional data and data; answers the ciphertext and the 16-byte tag (R319). -/
def gcmSeal (key : BitVec 256) (salt : W32) (count : W64) (aad data : List Byte) : List Byte :=
  let iv := beBytes 4 salt.toNat ++ leBytes 8 count.toNat
  let pad (i : Nat) : List Byte := aesEncrypt key (iv ++ beBytes 4 i)
  let c := ((List.range ((data.length + 15) / 16)).map fun i =>
    xorBytes ((data.drop (16 * i)).take 16) (pad (i + 2))).flatten
  let h := BitVec.ofNat 128 (beNat (aesEncrypt key (List.replicate 16 0)))
  let y := ghash h (wholeBlocks aad ++ wholeBlocks c ++ beBytes 8 (8 * aad.length) ++ beBytes 8 (8 * c.length))
  c ++ xorBytes (beBytes 16 y.toNat) (pad 1)

end Sys2Proof.Machine
end

