-- ==== Sys2Proof/Machine/Memory.lean ====
section
/-!
DEFINITION. Memory: the stacked DRAM with its channels and error code (R267–R273), the system cache (R274–R277), the
protected regions (R278–R281), the scratchpads and the dump buffer, and the local map of R316 for these regions.
-/
namespace Sys2Proof.Machine

/-! ### Protected regions and access checks -/

/-- Whether protected region n is enabled (R278). -/
def State.prOn (s : State) (n : Nat) : Bool := s.flag Page.cache (Reg.PR_CTRL + 16 * n) 0
/-- First byte of protected region n (R278). -/
def State.prLo (s : State) (n : Nat) : Nat := s.fld Page.cache (Reg.PR_BASE + 16 * n) 0 21 * 4096
/-- End of protected region n, excluded (R278). -/
def State.prHi (s : State) (n : Nat) : Nat := s.fld Page.cache (Reg.PR_END + 16 * n) 0 22 * 4096

/-- Whether [a, a + len) meets enabled protected region n. -/
def State.prMeets (s : State) (n a len : Nat) : Bool :=
  s.prOn n && decide (a < s.prHi n) && decide (s.prLo n < a + len)

/-- The enabled protected region that holds a local DRAM address. -/
def State.prOf (s : State) (a : Nat) : Option Nat := (List.range 16).find? fun n => s.prMeets n a 1

/-- Whether protected region n allows a requester: its key slot holds a key (R418), and PR_CTRL names the requester (R279). -/
def State.prAllows (s : State) (n : Nat) (who : Requester) : Bool :=
  let c := Reg.PR_CTRL + 16 * n
  (SMap.get s.sec.keySlots (s.fld Page.cache c 1 4) none).isSome &&
  match who with
  | .ctx k => s.flag Page.cache c (5 + (s.ctx k).part)
  | .host => s.flag Page.cache c 13
  | .peer _ => s.flag Page.cache c 14
  | .sys => s.flag Page.cache c 15

/-- The DRAM channel of a local address (R267). -/
def channelOf (a : Nat) : Nat := 4 * (a / 2 ^ 31 % 4) + a / 256 % 4

/-- Why a DRAM request is refused: a channel group whose domain is not ON (R426), a FAILED channel (R273), a channel group that is not its partition's (R203) or not
open to the node (R317), or a protected region that does not allow it (R279). -/
def State.dramRefuses (s : State) (who : Requester) (a len : Nat) : Bool :=
  let cg := a / 2 ^ 31 % 4
  s.domState (68 + cg) != 2 || s.mem.failed.contains (channelOf a) ||
  (match who with
   | .ctx k => !bitOf (s.fld Page.pattern (Reg.PART_MEM + 16 * (s.ctx k).part) 0 4) cg
   | .host => !s.flag Page.fabric Reg.FB_ACCESS (4 + cg)
   | .peer _ => !s.flag Page.fabric Reg.FB_ACCESS cg
   | .sys => false) ||
  (List.range 16).any fun n => s.prMeets n a len && !s.prAllows n who

/-- The allocation mask of a request (R275): WAYS of the context's partition, otherwise SYS_WAYS; a WEIGHT read none. -/
def State.allocMask (s : State) (who : Requester) (weight : Bool) : Nat :=
  if weight then 0 else
  match who with
  | .ctx k => s.fld Page.pattern (Reg.PART_MEM + 16 * (s.ctx k).part) 16 16
  | _ => s.fld Page.cache Reg.CA_CTRL 0 16

/-! ### DRAM units -/

/-- The 256 stored bytes of DRAM unit u. -/
def State.unitStored (s : State) (u : Nat) : List Byte := memGet s.mem.dram (256 * u) 256

/-- The two AES keys of the region that covers unit u: its key slot (R278). -/
def State.unitKey (s : State) (u : Nat) : Option (BitVec 512) :=
  match s.prOf (256 * u) with
  | none => none
  | some n => SMap.get s.sec.keySlots (s.fld Page.cache (Reg.PR_CTRL + 16 * n) 1 4) none

/-- The plaintext of DRAM unit u (R278). -/
def State.unitPlain (s : State) (u : Nat) : List Byte :=
  match s.unitKey u with
  | none => s.unitStored u
  | some k => xtsDecrypt k u (s.unitStored u)

/-- DRAM unit u written with plaintext bytes: encrypted inside an enabled protected region, counted, its code valid. -/
def State.unitWrite (s : State) (u : Nat) (l : List Byte) : State :=
  let d := match s.unitKey u with
    | none => bytesAt l 0 256
    | some k => xtsEncrypt k u (bytesAt l 0 256)
  let s := { s with mem := { s.mem with dram := memPut s.mem.dram (256 * u) d,
                                        damaged := s.mem.damaged.filter fun w => w / 32 != u } }
  s.count (Page.dram (channelOf (256 * u))) Reg.DC_WR_UNITS

/-- Whether a 64-bit word of DRAM unit u has an uncorrectable error. -/
def State.unitDamaged (s : State) (u : Nat) : Bool := s.mem.damaged.any fun w => w / 32 == u

/-- An uncorrectable DRAM error at address a, met on behalf of `ctx` (R269). -/
def State.dramError (s : State) (a : Nat) (ctx : Option Nat) : State :=
  let p := Page.dram (channelOf a)
  let s := s.countFld p Reg.DC_ECC 16 16 1
  let s := s.setReg64 p Reg.PG_ERR_ADDR_LO Reg.PG_ERR_ADDR_HI (BitVec.ofNat 64 a)
  s.raiseMech 4 ctx

/-- The context on whose behalf a request is made. -/
def ctxOf : Requester → Option Nat
  | .ctx k => some k.val
  | _ => none

/-- DRAM unit u read for a requester: its plaintext, or none after an uncorrectable error (R269). -/
def State.unitRead (s : State) (u : Nat) (who : Requester) : Option (List Byte) × State :=
  let s := s.count (Page.dram (channelOf (256 * u))) Reg.DC_RD_UNITS
  if s.unitDamaged u then (none, s.dramError (256 * u) (ctxOf who)) else (some (s.unitPlain u), s)

/-! ### The system cache -/

/-- The set of a unit (R274). -/
def cacheSet (u : Nat) : Nat := (u % 2 ^ 13) ^^^ (u / 2 ^ 13 % 2 ^ 12)

/-- The line in way w of a set. -/
def State.line (s : State) (set w : Nat) : Option Line := SMap.get s.mem.cache (16 * set + w) none

/-- `s` with the line in way w of a set replaced. -/
def State.setLine (s : State) (set w : Nat) (l : Option Line) : State :=
  { s with mem := { s.mem with cache := SMap.set s.mem.cache (16 * set + w) l none } }

/-- The way of a set that holds unit u: all 16 ways are searched (R275). -/
def State.hitWay (s : State) (u : Nat) : Option Nat :=
  (List.range 16).find? fun w =>
    match s.line (cacheSet u) w with
    | some l => l.unit == u
    | none => false

/-- The victim within a mask: an empty way first, otherwise the least recently used (R275). -/
def State.victim (s : State) (set mask : Nat) : Option Nat :=
  let ws := (List.range 16).filter fun w => bitOf mask w
  match ws.find? fun w => (s.line set w).isNone with
  | some w => some w
  | none =>
    ws.foldl (fun best w =>
      match best with
      | none => some w
      | some b =>
        match s.line set b, s.line set w with
        | some lb, some lw => if lw.used < lb.used then some w else some b
        | _, _ => some b) none

/-- A dirty line written back (R274). -/
def State.writeBack (s : State) (l : Line) : State := (s.count Page.cache Reg.CA_WRITEBACKS).unitWrite l.unit l.data

/-- Way w of a set emptied, its line written back first when dirty. -/
def State.evict (s : State) (set w : Nat) : State :=
  match s.line set w with
  | none => s
  | some l => (if l.dirty then s.writeBack l else s).setLine set w none

/-- A line put into a way as most recently used. -/
def State.fillLine (s : State) (set w u : Nat) (dirty : Bool) (data : List Byte) : State :=
  let s := { s with mem := { s.mem with clock := s.mem.clock + 1 } }
  s.setLine set w (some { unit := u, dirty := dirty, data := data, used := s.mem.clock })

/-- Bytes put into a 256-byte unit at an offset. -/
def mergeUnit (old : List Byte) (o : Nat) (l : List Byte) : List Byte :=
  bytesAt old 0 o ++ l ++ bytesAt old (o + l.length) (256 - o - l.length)

/-- One request that does not cross a 256-byte boundary, served through the cache (R274–R277, R269): its status, the
bytes read and the state. `mask` is the allocation mask. -/
def State.cacheServe (s : State) (who : Requester) (write : Bool) (a len : Nat) (data : List Byte) (mask : Nat) :
    Nat × List Byte × State :=
  if s.dramRefuses who a len then (0x0D, [], s) else
  let u := a / 256
  let o := a % 256
  let set := cacheSet u
  match s.hitWay u with
  | some w =>
    let s := s.count Page.cache Reg.CA_HITS
    match s.line set w with
    | none => (0, [], s)
    | some l =>
      if write then (0, [], s.fillLine set w u true (mergeUnit l.data o data))
      else (0, bytesAt l.data o len, s.fillLine set w u l.dirty l.data)
  | none =>
    let s := s.count Page.cache Reg.CA_MISSES
    let whole := write && decide (data.length = 256)
    let (got, s) := if whole then (some data, s) else s.unitRead u who
    match got with
    | none => (0x02, [], s)
    | some old =>
      let new := if write then mergeUnit old o data else old
      match s.victim set mask with
      | none => (0, if write then [] else bytesAt old o len, if write then s.unitWrite u new else s)
      | some w => (0, if write then [] else bytesAt old o len, (s.evict set w).fillLine set w u write new)

/-! ### Local addresses of R316 without side effects -/

/-- The regions of the local map (R316). -/
inductive Region where
  | dram | scratch (c off : Nat) | stateWin (off : Nat) | regs (page off : Nat) | doorbell (q : Nat) (aligned : Bool)
  | sem (n : Nat) (off : Nat) | dump (off : Nat) | none
deriving DecidableEq, Repr

/-- The region of a local address (R316). -/
def regionOf (a : Nat) : Region :=
  if a < 0x200000000 then .dram
  else if 0x10000000000 ≤ a ∧ a < 0x10000000000 + 32 * 0x400000 then
    .scratch ((a - 0x10000000000) / 0x400000) (a % 0x400000)
  else if 0x20000000000 ≤ a ∧ a < 0x20000000000 + 0x8000000 then .stateWin (a - 0x20000000000)
  else if 0x40000000000 ≤ a ∧ a < 0x40000000000 + 0x3C0 * 0x1000 then
    .regs ((a - 0x40000000000) / 0x1000) (a % 0x1000)
  else if 0x41000000000 ≤ a ∧ a < 0x41000000000 + 32768 * 8 then
    .doorbell ((a - 0x41000000000) / 8) (a % 8 == 0)
  else if 0x42000000000 ≤ a ∧ a < 0x42000000000 + 1024 * 8 then .sem ((a - 0x42000000000) / 8) (a % 8)
  else if 0x43000000000 ≤ a ∧ a < 0x43000000000 + 0x80000 then .dump (a - 0x43000000000)
  else .none

/-- Bytes of the scratchpad of core c. -/
def State.scratchGet (s : State) (c off len : Nat) : List Byte := memGet (s.core c).scratch off len
/-- Bytes written into the scratchpad of core c. -/
def State.scratchPut (s : State) (c off : Nat) (l : List Byte) : State :=
  s.modCore c fun k => { k with scratch := memPut k.scratch off l }

/-- A read of at most 256 bytes of DRAM, a scratchpad or the dump buffer by an agent of the device: status, bytes, state.
Any other region is denied (R316). A scratchpad whose domain is not ON denies (R426). -/
def State.readPiece (s : State) (who : Requester) (weight : Bool) (a len : Nat) : Nat × List Byte × State :=
  match regionOf a with
  | .dram => s.cacheServe who false a len [] (s.allocMask who weight)
  | .scratch c off => if s.domState (32 + c) = 2 then (0, s.scratchGet c off len, s) else (0x0D, [], s)
  | .dump off => (0, memGet s.hang.dumpBuf off len, s)
  | _ => (0x0D, [], s)

/-- A write of at most 256 bytes of DRAM or a scratchpad by an agent of the device: status and state. -/
def State.writePiece (s : State) (who : Requester) (a : Nat) (l : List Byte) : Nat × State :=
  match regionOf a with
  | .dram => let r := s.cacheServe who true a l.length l (s.allocMask who false); (r.1, r.2.2)
  | .scratch c off => if s.domState (32 + c) = 2 then (0, s.scratchPut c off l) else (0x0D, s)
  | _ => (0x0D, s)

/-- The transactions of at most 256 bytes, none crossing a 256-byte boundary, that cover `len` bytes from `a` (R86);
`fuel` bounds their number. -/
def piecesAux (fuel a len : Nat) : List (Nat × Nat) :=
  match fuel with
  | 0 => []
  | fuel + 1 =>
    if len = 0 then [] else
    let n := min len (256 - a % 256)
    (a, n) :: piecesAux fuel (a + n) (len - n)

/-- The transactions that cover `len` bytes from `a` (R86). -/
def pieces (a len : Nat) : List (Nat × Nat) := piecesAux (len / 256 + 2) a len

/-- A read of any length: the first status other than OK, or 0, and the bytes. -/
def State.readSpan (s : State) (who : Requester) (a len : Nat) : Nat × List Byte × State :=
  (pieces a len).foldl (fun acc p =>
    let (st, l, s) := acc
    let (st', l', s) := s.readPiece who false p.1 p.2
    (if st = 0 then st' else st, l ++ (if st' = 0 then l' else List.replicate p.2 0), s)) (0, [], s)

/-- A read of any length that ends at the first piece that fails: its status, or 0, and the bytes before it. -/
def State.readUntil (s : State) (who : Requester) (a len : Nat) : Nat × List Byte × State :=
  (pieces a len).foldl (fun acc p =>
    let (st, l, s) := acc
    if st ≠ 0 then acc else
    let (st', l', s) := s.readPiece who false p.1 p.2
    (st', if st' = 0 then l ++ l' else l, s)) (0, [], s)

/-- A write of any length: the first status other than OK, or 0. -/
def State.writeSpan (s : State) (who : Requester) (a : Nat) (l : List Byte) : Nat × State :=
  (pieces a l.length).foldl (fun acc p =>
    let (st, s) := acc
    let (st', s) := s.writePiece who p.1 (bytesAt l (p.1 - a) p.2)
    (if st = 0 then st' else st, s)) (0, s)

/-- A write of an agent to a global address: local by pieces, remote by WRITE packets whose acknowledgement nothing
waits for. Answers the local status; 0 for a remote write that is sent. -/
def State.writeGlobal (s : State) (who : Requester) (vc : Nat) (a : W64) (l : List Byte) : Nat × State :=
  if nodeOf a = s.node then s.writeSpan who (localOf a) l
  else
    match s.refuseRequest (nodeOf a) with
    | some st => (st, s)
    | none => (0, (pieces (localOf a) l.length).foldl (fun s p =>
        s.writeRemote vc (nodeOf a) p.1 (bytesAt l (p.1 - localOf a) p.2)) s)

/-- A read by an agent of `n` bytes on another node whose reply `f` the command brings: READ packets leave on `vc` under the lowest free
tag, and the transaction ends with the command; a node that cannot be reached fails it at once (R308, R332). -/
def State.readRemote (s : State) (vc : Nat) (a : W64) (n : Nat) (f : Fetched) : Nat × List Byte × State :=
  match s.refuseRequest (nodeOf a) with
  | some st => (st, [], s)
  | none =>
    let i := lowestFree (s.fab.tags.map (·.1)) 0
    (completionCode f.status, bytesAt f.bytes 0 n, (pieces (localOf a) n).foldl (fun s p =>
      s.send vc { s.newPacket 0x10 (nodeOf a) with
        tag := BitVec.ofNat 13 i, epoch := s.epoch i, addr := BitVec.ofNat 64 p.1, operand := BitVec.ofNat 64 p.2 }) s)

/-! ### DRAM_ACCESS, CACHE_ACCESS and the maintenance of both -/

/-- What the last memory request made as a command answered. -/
def State.answer (s : State) (st : Nat) (l : List Byte) : State :=
  { s with mem := { s.mem with answer := some (BitVec.ofNat 8 st, l) } }

/-- A request is served with the error that its channel finds (R269): a correctable error is corrected and counted; an
uncorrectable one completes with DAMAGED_BLOCK. The error concerns the channel, so a cache hit meets none. -/
def execDramAccess (q : MemReq) (ecc : Ecc) (s : State) : Host.Outcome State Fault Refusal :=
  let a := q.addr.toNat
  let len := if q.write then q.data.length else q.len.val
  let u := a / 256
  let s := if s.dramRefuses q.who a len || (s.hitWay u).isSome then s else
    match ecc with
    | .clean => s
    | .corrected => s.correctedError (Page.dram (channelOf a)) Reg.DC_ECC
    | .uncorrectable =>
      if s.unitDamaged u then s else { s with mem := { s.mem with damaged := s.mem.damaged ++ [a / 8] } }
  let r := s.cacheServe q.who q.write a len q.data (s.allocMask q.who q.weight)
  .next (r.2.2.answer r.1 r.2.1)

/-- A request looks up the cache with the error that its line shows (R277): an uncorrectable error in a clean line is
re-read from DRAM; in a dirty line the data is lost, the line invalidated and the error reported. -/
def execCacheAccess (q : MemReq) (ecc : Ecc) (s : State) : Host.Outcome State Fault Refusal :=
  let a := q.addr.toNat
  let len := if q.write then q.data.length else q.len.val
  let u := a / 256
  let serve (s : State) : Host.Outcome State Fault Refusal :=
    let r := s.cacheServe q.who q.write a len q.data (s.allocMask q.who q.weight)
    .next (r.2.2.answer r.1 r.2.1)
  if s.dramRefuses q.who a len then serve s else
  match s.hitWay u, ecc with
  | some _, .corrected => serve (s.correctedError Page.cache Reg.CA_ECC)
  | some w, .uncorrectable =>
    let s := s.countFld Page.cache Reg.CA_ECC 16 16 1
    match s.line (cacheSet u) w with
    | some l =>
      let s := s.setLine (cacheSet u) w none
      if l.dirty then
        let s := s.setReg64 Page.cache Reg.PG_ERR_ADDR_LO Reg.PG_ERR_ADDR_HI (BitVec.ofNat 64 a)
        .next ((s.raiseMech 4 (ctxOf q.who)).answer 0x02 [])
      else serve s
    | none => serve s
  | _, _ => serve s

/-- The scrubber of a channel has come to its next unit: PERIOD hours spread over the 2^21 units (R271). -/
def State.scrubTurn (s : State) (ch : Nat) : State :=
  let h := max 1 (s.fld (Page.dram ch) Reg.DC_SCRUB_CTRL 0 16)
  let s := s.reach (SMap.get s.mem.scrubAt ch 0 + BitVec.ofNat 64 (h * 3600 * usTb 1000000 / 2 ^ 21))
  { s with mem := { s.mem with scrubAt := SMap.set s.mem.scrubAt ch s.now 0 } }

/-- The patrol scrubber of a channel reads its next 256-byte unit and corrects it (R271). The channel's units are
numbered in ascending address order. -/
def execPatrolScrub (ch : Fin 16) (ecc : Ecc) (s : State) : Host.Outcome State Fault Refusal :=
  let p := Page.dram ch.val
  if s.flag p Reg.DC_SCRUB_CTRL 16 = false then .next s else
  let s := s.scrubTurn ch.val
  let i := s.fld p Reg.DC_SCRUB_POS 0 21
  let u := (ch.val / 4) * 2 ^ 23 + 4 * i + ch.val % 4
  let s := s.setFld p Reg.DC_SCRUB_POS 0 21 (i + 1)
  match ecc with
  | .clean => if s.unitDamaged u then .next (s.dramError (256 * u) none) else .next s
  | .corrected => .next (s.correctedError p Reg.DC_ECC)
  | .uncorrectable =>
    let s := if s.unitDamaged u then s else { s with mem := { s.mem with damaged := s.mem.damaged ++ [32 * u] } }
    .next (s.dramError (256 * u) none)

/-- The refresh rate for a stack temperature and the rate now: 3 °C of hysteresis on the way down (R272). -/
def refreshRate (old : Nat) (t : Int) : Nat :=
  let up := if t > 105 then 2 else if t > 85 then 1 else 0
  if old ≤ up then up
  else
    let down := if t > 102 then 2 else if t > 82 then 1 else 0
    min old down

/-- The stack temperature above a channel crosses a threshold (R272); while its sensor is in FAULT the refresh stays at 4× (R435). -/
def execRefreshRateChange (ch : Fin 16) (celsius : Byte) (s : State) : Host.Outcome State Fault Refusal :=
  let p := Page.dram ch.val
  let s := s.setFld p Reg.DC_TEMP 0 8 celsius.toNat
  if s.flag Page.thermal (Reg.TH_TEMP + 4 * (12 + ch.val / 4)) 9 then .next (s.setFld p Reg.DC_STATUS 2 2 2) else
  .next (s.setFld p Reg.DC_STATUS 2 2 (refreshRate (s.fld p Reg.DC_STATUS 2 2) celsius.toInt))

/-- The start of the last retraining of a channel, if it has retrained. -/
def State.lastRetrain (s : State) (c : Nat) : Option W64 := (SMap.get s.mem.retrain c none).map (·.1)

/-- A trained channel retrains its timing (R273): 256 ms after it last did, and 64 ms after another channel of its group. TRAINING
reads 1 for at most 1.5 µs, a free time (notes/assumptions/130.md). -/
def execDramRetrain (ch : Fin 16) (s : State) : Host.Outcome State Fault Refusal :=
  let c := ch.val
  if !s.mem.trained.contains c then .next s else
  let after (s : State) (d : Nat) (ms : Nat) : State :=
    match s.lastRetrain d with
    | some t => s.reach (t + BitVec.ofNat 64 (usTb (1000 * ms)))
    | none => s
  let s := (List.range 4).foldl (fun s k => after s (c / 4 * 4 + k) 64) (after s c 256)
  let (v, s) := s.draw 16
  let s := { s with mem := { s.mem with
    retrain := SMap.set s.mem.retrain c (some (s.now, s.now + BitVec.ofNat 64 (1 + v.toNat % 384))) none } }
  .next (s.count (Page.dram c) Reg.DC_RETRAIN_COUNT)

/-- Whether a channel trains or retrains now (R273). -/
def State.dramTraining (s : State) (c : Nat) : Bool :=
  s.mem.training.contains c ||
  match SMap.get s.mem.retrain c none with
  | some e => decide (e.1.toNat ≤ s.now.toNat) && decide (s.now.toNat < e.2.toNat)
  | none => false

/-- Dirty lines found with an uncorrectable error as they are written back are lost and reported (R274, R277): `units` holds the
units of the lines. -/
def State.loseLines (s : State) (units : List Nat) : State :=
  units.foldl (fun s u =>
    match s.hitWay u with
    | none => s
    | some w =>
      match s.line (cacheSet u) w with
      | some l =>
        if !l.dirty then s else
        let s := (s.countFld Page.cache Reg.CA_ECC 16 16 1).setLine (cacheSet u) w none
        (s.setReg64 Page.cache Reg.PG_ERR_ADDR_LO Reg.PG_ERR_ADDR_HI (BitVec.ofNat 64 (256 * u))).raiseMech 4 none
      | none => s) s

/-- The units of the dirty lines in the given ways of sets `lo` to `hi` − 1 that are found with an uncorrectable error as they are
read for their write-back: whether a line is, is free (notes/assumptions/130.md). -/
def State.flawedLines (s : State) (ways lo hi : Nat) : List Nat × State :=
  (s.mem.cache.filter fun e => decide (16 * lo ≤ e.1) && decide (e.1 < 16 * hi)).foldl (fun acc e =>
    match e.2 with
    | some l =>
      if l.dirty && bitOf ways (e.1 % 16) then
        let (bad, s) := acc.2.draw 1
        (if bad = 1 then acc.1 ++ [l.unit] else acc.1, s)
      else acc
    | none => acc) ([], s)

/-- A pass over the ways of sets `lo` to `hi` − 1: every dirty line written back with WB, every line invalidated with INV (R276). -/
def State.cachePass (s : State) (ways lo hi : Nat) (wb inv : Bool) : State :=
  (s.mem.cache.filter fun e => decide (16 * lo ≤ e.1) && decide (e.1 < 16 * hi)).foldl (fun s e =>
    match e.2 with
    | none => s
    | some l =>
      if bitOf ways (e.1 % 16) then
        let s := if wb && l.dirty then s.writeBack l else s
        if inv then s.setLine (e.1 / 16) (e.1 % 16) none
        else if wb then s.setLine (e.1 / 16) (e.1 % 16) (some { l with dirty := false })
        else s
      else s) s

/-- Sets `lo` to `hi` − 1 visited: dirty lines found in error are lost before the others are written back (R274, R276, R277). -/
def State.visitSets (s : State) (ways lo hi : Nat) (wb inv : Bool) : State :=
  let s := if wb then let (l, s) := s.flawedLines ways lo hi; s.loseLines l else s
  s.cachePass ways lo hi wb inv

/-- A write of CA_MAINT starts a pass; during a pass it is ignored and recorded (R276). -/
def State.caMaint (s : State) (src : Nat) (v : W32) : State :=
  if s.mem.pass.isSome then s.writeRefused Page.cache Reg.CA_MAINT src
  else { s with mem := { s.mem with pass := some (v.setWidth 16, bitOf v.toNat 16, bitOf v.toNat 17, 0) } }

/-- CA_MAINT (R276). -/
def execCaMaint (src : NodeId) (v : W32) (s : State) : Host.Outcome State Fault Refusal :=
  .next (s.caMaint src.val v)

/-- A pass visits its next set (R276): one in each idle cycle, in ascending order (DESIGN CHOICE, notes/assumptions/130.md). -/
def State.passStep (s : State) : State :=
  match s.mem.pass with
  | none => s
  | some (ways, wb, inv, at_) =>
    if 8192 ≤ at_ then s else
    let s := s.visitSets ways.toNat at_ (at_ + 1) wb inv
    { s with mem := { s.mem with pass := some (ways, wb, inv, at_ + 1) } }

/-- A maintenance pass completes: the sets that it has not visited yet are, and BUSY clears; a line that a request allocated in a
visited set stays (R276). -/
def execCachePassDone (s : State) : Host.Outcome State Fault Refusal :=
  match s.mem.pass with
  | none => .next s
  | some (ways, wb, inv, at_) =>
    let s := s.visitSets ways.toNat at_ 8192 wb inv
    .next { s with mem := { s.mem with pass := none } }

/-- The checks of an enable of protected region n with the fields of `v` (R281). -/
def State.prEnableOk (s : State) (n : Nat) (v : W32) : Bool :=
  decide (s.prLo n < s.prHi n) && decide (s.prHi n ≤ 0x200000000) &&
  (List.range 16).all (fun m => m == n || !s.prMeets m (s.prLo n) (s.prHi n - s.prLo n)) &&
  (SMap.get s.sec.keySlots (bitsOf v.toNat 1 4) none).isSome

/-- Every cached line of a protected region's range written back and invalidated (R281). -/
def State.prFlush (s : State) (n : Nat) : State :=
  s.mem.cache.foldl (fun s e =>
    match e.2 with
    | none => s
    | some l => if s.prMeets n (256 * l.unit) 256 then s.evict (e.1 / 16) (e.1 % 16) else s) s

/-- A write of PR_CTRL[n] (R278–R281, RWL): refused enables leave EN at 0; with EN = 1 the other fields ignore writes,
and a write of EN = 0 disables the region after its lines are written back. -/
def State.prCtrlWrite (s : State) (src n : Nat) (v : W32) : State :=
  let off := Reg.PR_CTRL + 16 * n
  let w16 := BitVec.ofNat 32 (bitsOf v.toNat 0 16)
  if s.locked Page.cache then s.pgErrAt Page.cache off src [31]
  else if s.prOn n then
    if bitOf v.toNat 0 then s else (s.prFlush n).setFlag Page.cache off 0 false
  else if bitOf v.toNat 0 then
    if s.prEnableOk n v then s.setReg Page.cache off w16
    else s.writeRefused Page.cache off src
  else s.setReg Page.cache off w16

/-- PR_ENABLE: a write of PR_CTRL[n] with EN = 1 (R281). -/
def execPrEnable (src : NodeId) (n : Fin 16) (v : W32) (s : State) : Host.Outcome State Fault Refusal :=
  .next (s.prCtrlWrite src.val n.val (v ||| 1))

/-- PR_DISABLE: a write of PR_CTRL[n] with EN = 0 (R281). -/
def execPrDisable (src : NodeId) (n : Fin 16) (v : W32) (s : State) : Host.Outcome State Fault Refusal :=
  .next (s.prCtrlWrite src.val n.val (v &&& ~~~1))

/-! ### The canonical form of the memories -/

/-- What a byte of the audio buffer that nothing has written reads as: zero, after a chip warm reset unpredictable (R246). -/
def State.audioDefault (s : State) (o : Nat) : Byte :=
  match s.audio.bufFree with
  | none => 0
  | some n => Config.freeByte n o

/-- DRAM and the cache are in canonical form: addresses strictly rising, nothing listed that an unlisted address reads as. -/
def Memory.wf (m : Memory) : Bool := SMap.wf (fun _ => 0) m.dram && SMap.wf (fun _ => none) m.cache

/-- A core's scratchpad and state store are in canonical form. -/
def Core.memWf (k : Core) : Bool := SMap.wf (fun _ => 0) k.scratch && SMap.wf (fun _ => 0) k.store

/-- Every byte memory of the device is in canonical form. -/
def State.memWf (s : State) : Bool :=
  (s.mem.wf && SMap.wf (fun _ => 0) s.hang.dumpBuf && SMap.wf s.audioDefault s.audio.buf) && s.cores.all fun e => e.2.memWf

end Sys2Proof.Machine
end

