-- ==== Sys2Proof/Machine/Sched.lean ====
section
/-!
DEFINITION. Contexts on cores: which cores a context runs on (R58, R350), the control-core registers and tokens (R58,
R62, R71), the save area (R211), ranking and pre-emption (R207, R210), and BEATWAIT (R167, R199).
-/
namespace Sys2Proof.Machine

/-! ### Registers, tokens, tiles -/

/-- Control-core register i; x0 reads as zero (R58). -/
def Core.xGet (k : Core) (i : Nat) : W64 := if i = 0 then 0 else SMap.get k.x i 0
/-- Control-core register i written; x0 ignores writes (R58). -/
def Core.xSet (k : Core) (i : Nat) (v : W64) : Core := if i = 0 then k else { k with x := SMap.set k.x i v 0 }
/-- The count of token t (R62). -/
def Core.tok (k : Core) (t : Nat) : Nat := SMap.get k.tokens t 0
/-- The count of token t set. -/
def Core.setTok (k : Core) (t n : Nat) : Core := { k with tokens := SMap.set k.tokens t n 0 }
/-- Whether every token of a WAIT mask counts at least 1 (R62). -/
def Core.waitMet (k : Core) (wait : BitVec 8) : Bool :=
  (List.range 8).all fun t => !wait.getLsbD t || decide (1 ≤ k.tok t)
/-- Every count of a WAIT mask decremented, all in one step (R62). -/
def Core.takeTokens (k : Core) (wait : BitVec 8) : Core :=
  (List.range 8).foldl (fun k t => if wait.getLsbD t then k.setTok t (k.tok t - 1) else k) k
/-- Every count of a WAIT mask returned (R213). -/
def Core.returnTokens (k : Core) (wait : BitVec 8) : Core :=
  (List.range 8).foldl (fun k t => if wait.getLsbD t then k.setTok t (k.tok t + 1) else k) k
/-- Mask register n; all lanes set at reset (R96). -/
def Core.mask (k : Core) (n : Nat) : W32 := SMap.get k.masks n 0xFFFFFFFF
/-- Mask register n written. -/
def Core.setMask (k : Core) (n : Nat) (v : W32) : Core := { k with masks := SMap.set k.masks n v 0xFFFFFFFF }
/-- Summary slot n (R116). -/
def Core.sum (k : Core) (n : Nat) : W64 := SMap.get k.sums n 0
/-- Summary slot n written. -/
def Core.setSum (k : Core) (n : Nat) (v : W64) : Core := { k with sums := SMap.set k.sums n v 0 }
/-- What an unwritten tile byte reads as: zero, or a free value after a quench (R216). -/
def Core.tileDefault (k : Core) (o : Nat) : Byte :=
  match k.tilesFree with
  | none => 0
  | some n => Config.freeByte n o
/-- Byte o of the tile register file, byte 1024·t + i (R64). -/
def Core.tileByte (k : Core) (o : Nat) : Byte := SMap.get k.tiles o (k.tileDefault o)
/-- `n` bytes of the tile register file. -/
def Core.tileBytes (k : Core) (o n : Nat) : List Byte := (List.range n).map fun i => k.tileByte (o + i)
/-- Bytes written into the tile register file. -/
def Core.tilePut (k : Core) (o : Nat) (l : List Byte) : Core :=
  match l with
  | [] => k
  | b :: r => { k with tiles := SMap.set k.tiles o b (k.tileDefault o) }.tilePut (o + 1) r
/-- Accumulator bank b. -/
def Core.bank (k : Core) (b : Nat) : Bank := SMap.get k.banks b {}
/-- Accumulator bank b replaced. -/
def Core.setBank (k : Core) (b : Nat) (x : Bank) : Core := { k with banks := SMap.set k.banks b x {} }
/-- A queue of the core (R56). -/
def Core.queue (k : Core) : EngineId → List QEntry
  | .matrix => k.matrixQ
  | .vector => k.vectorQ
  | .scan => k.scanQ
  | .mover => k.moverQ
/-- A queue of the core replaced. -/
def Core.setQueue (k : Core) (e : EngineId) (q : List QEntry) : Core :=
  match e with
  | .matrix => { k with matrixQ := q }
  | .vector => { k with vectorQ := q }
  | .scan => { k with scanQ := q }
  | .mover => { k with moverQ := q }
/-- Entries a queue holds (R56). -/
def queueSize : EngineId → Nat
  | .mover => 32
  | _ => 16

/-- A cause recorded for a stream in this bar (R169, R173). -/
def State.addCause (s : State) (i cause : Nat) : State :=
  s.modStream i fun x => { x with causes := if x.causes.contains cause then x.causes else x.causes ++ [cause] }

/-! ### The image (R349, R350) -/

/-- The section of the resident image with number n. -/
def State.section_ (s : State) (n : Nat) : Option Section :=
  match s.qm.image with
  | none => none
  | some im => im.sections.find? fun x => x.section_ == n

/-- The stages of section n. -/
def State.stagesOf (s : State) (n : Nat) : List Stage :=
  match s.qm.image with
  | none => []
  | some im => im.stages.filter fun x => x.section_ == n

/-- The cores that run context n: those of its section with an entry word (R350). -/
def State.ctxCores (s : State) (n : Nat) : List Nat :=
  match s.section_ (s.ctx n).section_ with
  | none => []
  | some x => (List.range 32).filter fun c => bitOf x.cores.toNat c && x.entry.getD c 0xFFFF != 0xFFFF

/-- The entry word of context n on core c (R58, R350). -/
def State.entryWord (s : State) (n c : Nat) : Nat :=
  match s.section_ (s.ctx n).section_ with
  | none => 0
  | some x => x.entry.getD c 0

/-- The stages of context n's section that run on core c. -/
def State.stagesOn (s : State) (n c : Nat) : List Stage :=
  (s.stagesOf (s.ctx n).section_).filter fun x => bitOf x.cores.toNat c

/-- Whether context n is best-effort (R205). -/
def State.isBE (s : State) (n : Nat) : Bool := (s.ctx n).cls == 1

/-! ### The save area (R211) -/

/-- The 8 token counts in the layout of CTRL_TOKENS (R92). -/
def Core.tokenWord (k : Core) : Nat := ((List.range 8).map fun t => k.tok t * 16 ^ t).sum

/-- The 1,024 first bytes of a save area: x1–x31, the program counter, tokens, masks, summaries and L (R211). -/
def Core.saveBytes (k : Core) (pc live : Nat) : List Byte :=
  ((List.range 31).map fun i => leBytes 8 (k.xGet (i + 1)).toNat).flatten ++
  leBytes 4 pc ++ leBytes 4 k.tokenWord ++
  ((List.range 8).map fun n => leBytes 4 (k.mask n).toNat).flatten ++
  ((List.range 16).map fun n => leBytes 8 (k.sum n).toNat).flatten ++
  leBytes 2 live ++ List.replicate 606 0

/-- The control-core state of a save area's bytes restored (R210, R211); `l` holds the area's first 1,024 bytes. -/
def Core.restoreBytes (k : Core) (l : List Byte) : Core :=
  let k := { k with x := [], tokens := [], masks := [], sums := [], pc := min (natAt l 0xF8 4) 16384 }
  let k := (List.range 31).foldl (fun k i => k.xSet (i + 1) (BitVec.ofNat 64 (natAt l (8 * i) 8))) k
  let t := natAt l 0xFC 4
  let k := (List.range 8).foldl (fun k i => k.setTok i (t / 16 ^ i % 16)) k
  let k := (List.range 8).foldl (fun k i => k.setMask i (BitVec.ofNat 32 (natAt l (0x100 + 4 * i) 4))) k
  (List.range 16).foldl (fun k i => k.setSum i (BitVec.ofNat 64 (natAt l (0x120 + 8 * i) 8))) k

/-- No context saved: an L that no pre-emption point has (R210). -/
def noSaved : SavedCtx := { live := 65, wait := none, cur := none }

/-- Whether context n has nothing left on a core that a switch waits for (R210, R213): no word in the matrix, vector and scan
queues, and in the mover queue only started copies and words that are detached already. -/
def Core.drained (k : Core) (n : Nat) : Bool :=
  let none_ (q : List QEntry) : Bool := q.all fun e => e.ctx.val != n
  none_ k.matrixQ && none_ k.vectorQ && none_ k.scanQ &&
  k.moverQ.all fun e => e.ctx.val != n || e.detached || (e.op == .mcopy && e.started)

/-- The running context of core c saved with `live` tiles, resuming at word `pc`; `wait` names the register of a BEATWAIT
it sits in (R210 step 1). -/
def State.switchOut (s : State) (c live pc : Nat) (wait : Option (BitVec 5)) : State :=
  let k := s.core c
  match k.ctx with
  | none => s
  | some n =>
    let o := (s.ctx n.val).saveOff
    let bytes := k.saveBytes pc live ++ k.tileBytes 0 (1024 * live)
    let s := s.scratchPut c o bytes
    s.modCore c fun k => { k with
      ctx := none, blocked := none, preempt := false, cur := none, atomWaited := false,
      moverQ := k.moverQ.map fun e => if e.ctx = n then { e with detached := true } else e,
      saved := SMap.set k.saved n.val { live := live, wait := wait, cur := k.cur } noSaved }

/-- Whether context n has been saved on core c. -/
def Core.isSaved (k : Core) (n : Nat) : Bool := k.saved.any fun e => e.1 == n

/-- Context n restored on core c, or started at its entry word (R58, R96, R210 step 2). -/
def State.switchIn (s : State) (c n : Nat) : State :=
  let k := s.core c
  let id : CtxId := Fin.ofNat 64 n
  if k.isSaved n then
    let sv := SMap.get k.saved n noSaved
    let o := (s.ctx n).saveOff
    let area := s.scratchGet c o 1024
    let k := k.restoreBytes area
    let k := k.tilePut 0 (s.scratchGet c (o + 1024) (1024 * sv.live))
    s.setCore c { k with ctx := some id, blocked := sv.wait.map .beatWait, preempt := false, cur := sv.cur,
                         saved := SMap.erase k.saved n }
  else
    s.setCore c { k with x := [], tokens := [], masks := [], sums := [], pc := s.entryWord n c, ctx := some id,
                         blocked := none, preempt := false, cur := none }

/-! ### BEATWAIT (R167, R199) -/

/-- The latches of context n on a core, as stage slot and latch. -/
def Core.latches (k : Core) (n : Nat) : List (Nat × Latch) :=
  k.stageLatch.filterMap fun e =>
    match e.2 with
    | some l => if e.1 / 4 = n then some (e.1 % 4, l) else none
    | none => none

/-- The latch with the earliest instant (R199). -/
def earliest (l : List (Nat × Latch)) : Option (Nat × Latch) :=
  l.foldl (fun b e =>
    match b with
    | none => some e
    | some m => if e.2.t.toNat < m.2.t.toNat then some e else some m) none

/-- The latch that BEATWAIT of context n on core c may consume now: a real-time or safety stage whose list was cut off in
this bar waits for the list (R167). -/
def State.beatReady (s : State) (c n : Nat) : Option (Nat × Latch) :=
  if !s.isBE n && (s.ctx n).cutoff.isSome && (s.ctx n).listReady.isNone then none
  else earliest ((s.core c).latches n)

/-- Whether the lists of context n's current bar exist; without a cut-off in the bar there is none (R167). -/
def State.hasList (s : State) (n : Nat) : Bool := s.isBE n || (s.ctx n).cutoff.isSome

/-- A core in BEATWAIT whose beat and list are ready resumes: rd takes the beat's timebase value and the slot's list
becomes current (R71, R167, R199). -/
def State.resolveBeat (s : State) (c : Nat) : State :=
  let k := s.core c
  match k.ctx, k.blocked with
  | some n, some (.beatWait rd) =>
    match s.beatReady c n.val with
    | none => s
    | some (slot, l) =>
      let cur : Option CurList := if s.hasList n.val then some { ctx := n, slot := slot, bar := l.bar } else none
      let late := !s.isBE n.val && (match (s.ctx n.val).listReady with | some t => decide (l.t.toNat < t.toNat) | none => false)
      let s := s.setCore c { k.xSet rd.toNat l.t with
        blocked := none, cur := cur, stageLatch := SMap.set k.stageLatch (4 * n.val + slot) none none }
      if late then (s.count Page.streams Reg.SM_WL_LATE_COUNT).setFlag Page.streams Reg.SM_FLAGS 3 true else s
  | _, _ => s

/-! ### Ranking (R207) -/

/-- Whether context n sits in BEATWAIT on core c. -/
def Core.inBeatWait (k : Core) (n : Nat) : Bool :=
  match k.ctx with
  | some m =>
    if m.val = n then (match k.blocked with | some (.beatWait _) => true | _ => false)
    else (SMap.get k.saved n noSaved).wait.isSome
  | none => (SMap.get k.saved n noSaved).wait.isSome

/-- Whether context n is ready on core c: a real-time or safety stage from its latch until its next BEATWAIT finds none;
a best-effort context unless it waits in BEATWAIT for its next list (R207). -/
def State.wantsCore (s : State) (c n : Nat) : Bool :=
  let k := s.core c
  let latched := !(k.latches n).isEmpty
  (s.ctx n).st == .running &&
  (if k.inBeatWait n then latched
   else if s.isBE n || k.ctx == some (Fin.ofNat 64 n) || k.isSaved n then true
   else latched)

/-- The rank of a context: real-time and safety first, then best-effort by PRIO (R207). -/
def State.rank (s : State) (n : Nat) : Nat := if s.isBE n then (s.ctx n).prio else 4

/-- The highest-ranked ready context of core c; among equal ranks the first in turn order (R207). -/
def State.bestReady (s : State) (c : Nat) : Option Nat :=
  (s.core c).ready.foldl (fun b n =>
    if s.wantsCore c n then
      match b with
      | none => some n
      | some m => if s.rank m < s.rank n then some n else some m
    else b) none

/-- PT_PREEMPT_MAX: the largest delay of a request, in ns (R212). -/
def State.notePreempt (s : State) (since : W64) : State :=
  let ns := min (s.age since / 256) 0xFFFFFFFF
  s.setReg Page.pattern Reg.PT_PREEMPT_MAX (BitVec.ofNat 32 (max (s.reg Page.pattern Reg.PT_PREEMPT_MAX).toNat ns))

/-- A pre-emption request noted on core c, with the instant of the oldest one not met (R207, R212). -/
def State.askPreempt (s : State) (c : Nat) : State :=
  s.modCore c fun k => { k with preempt := true, preemptAt := if k.preempt then k.preemptAt else s.now }

/-- The highest-ranked ready context of core c has changed: an idle core, or one in BEATWAIT whose queues have drained,
switches at once; a running best-effort context gets a pre-emption request (R207, R210). -/
def State.resched (s : State) (c : Nat) : State :=
  let k := s.core c
  match k.ctx, s.bestReady c with
  | none, none => s
  | none, some n => (s.switchIn c n).resolveBeat c
  | some _, none => s
  | some m, some n =>
    match k.blocked with
    | some (.beatWait rd) =>
      if m.val = n then (s.setCore c { k with preempt := false }).resolveBeat c
      else if !k.drained m.val then s.askPreempt c
      else (((s.switchOut c 0 k.pc (some rd)).switchIn c n).notePreempt (if k.preempt then k.preemptAt else s.now)).resolveBeat c
    | _ =>
      if m.val ≠ n && s.isBE m.val && decide (s.rank m.val < s.rank n) then
        s.askPreempt c
      else s

end Sys2Proof.Machine
end

