-- ==== Sys2Proof/Machine/Flags.lean ====
section
/-!
DEFINITION. What a word records beside its results: the tile and layer records of the statistics unit (R48, R49) and the
counts of conversions (R39, R47). The block has no condition flags.
-/
namespace Sys2Proof.Machine

/-- What the conversions of one word count: the absolute maximum of the FP32 inputs, saturations, NaNs, and whether any
combined scale counted as zero. -/
structure Tally where
  absMax : W32 := 0
  sat : Nat := 0
  nan : Nat := 0
  zscale : Bool := false
deriving DecidableEq, Repr

/-- One converted element added to a tally (R39). -/
def Tally.add (t : Tally) (x : W32) (r : Conv) : Tally :=
  { absMax := fpAbsMax t.absMax x, sat := t.sat + b2n r.sat, nan := t.nan + b2n r.nan, zscale := t.zscale || r.zscale }

/-- One element converted to FP16 added to a tally (R33). -/
def Tally.add16 (t : Tally) (x : W32) (sat nan : Bool) : Tally :=
  { t with absMax := fpAbsMax t.absMax x, sat := t.sat + b2n sat, nan := t.nan + b2n nan }

/-- Two tallies together. -/
def Tally.join (a b : Tally) : Tally :=
  { absMax := fpAbsMax a.absMax b.absMax, sat := a.sat + b.sat, nan := a.nan + b.nan, zscale := a.zscale || b.zscale }

/-- Totals of a word counted in the statistics page: SAT_TOTAL, NAN_TOTAL and, once per word, ZERO_SCALE_COUNT (R39, R54). -/
def State.countTally (s : State) (c : Nat) (t : Tally) : State :=
  let p := Page.stat c
  let s := (s.count p Reg.SAT_TOTAL t.sat).count p Reg.NAN_TOTAL t.nan
  if t.zscale then s.count p Reg.ZERO_SCALE_COUNT else s

/-- A tally added to the layer record: the maximum, and sums that hold at their maximum value (R49). -/
def State.layerAdd (s : State) (c : Nat) (t : Tally) : State :=
  let p := Page.stat c
  let s := s.setReg p Reg.LAYER_ABSMAX (fpAbsMax (s.reg p Reg.LAYER_ABSMAX) t.absMax)
  (s.count p Reg.LAYER_SAT_COUNT (min t.sat 0xFFFF)).count p Reg.LAYER_NAN_COUNT (min t.nan 0xFFFF)

/-- The record of tile `tile` replaced, and the layer record and the totals advanced (R48, R49). -/
def State.tileRecord (s : State) (c tile : Nat) (t : Tally) : State :=
  let p := Page.stat c
  let s := s.setReg p (Reg.TILE_ABSMAX + 8 * tile) t.absMax
  let s := s.setReg p (Reg.TILE_COUNT + 8 * tile) (BitVec.ofNat 32 (min t.sat 0xFFFF + min t.nan 0xFFFF * 2 ^ 16))
  (s.layerAdd c t).countTally c t

/-- The layer record cleared (R49, R55). -/
def State.layerClear (s : State) (c : Nat) : State :=
  let p := Page.stat c
  ((s.setReg p Reg.LAYER_ABSMAX 0).setReg p Reg.LAYER_SAT_COUNT 0).setReg p Reg.LAYER_NAN_COUNT 0

/-- Every tile record cleared (R55). -/
def State.tileClear (s : State) (c : Nat) : State :=
  let p := Page.stat c
  (List.range 64).foldl (fun s t => (s.setReg p (Reg.TILE_ABSMAX + 8 * t) 0).setReg p (Reg.TILE_COUNT + 8 * t) 0) s

/-- STAT_CTRL.LAYER_CLEAR written 1 (R55). -/
def execStatCtrlLayerClear (c : CoreId) (s : State) : Host.Outcome State Fault Refusal := .next (s.layerClear c.val)

/-- STAT_CTRL.TILE_CLEAR written 1 (R55). -/
def execStatCtrlTileClear (c : CoreId) (s : State) : Host.Outcome State Fault Refusal := .next (s.tileClear c.val)

end Sys2Proof.Machine
end

