-- ==== Sys2Proof/Machine/Operands.lean ====
section
/-!
DEFINITION. The operand forms of engine words: the control fields of a tile word (R67), the engine that runs each word
(R69), the regions and slots of the state store (R123–R125), and the checks of a word at issue (R65, R70, R82, R84, R98,
R101–R110, R119, R138, R140, R209). Where a word breaks several rules the recorded cause is the first in the order engine,
reserved field, field value, tile operand (DESIGN CHOICE, notes/assumptions/10.md).
-/
namespace Sys2Proof

/-- Bits [lo+n−1:lo] of a tile word's control fields, numbered as in R67. -/
def TileWord.f (w : TileWord) (lo n : Nat) : Nat := Machine.bitsOf w.ctl.toNat (lo - 32) n
/-- A one-bit control field. -/
def TileWord.b (w : TileWord) (i : Nat) : Bool := Machine.bitOf w.ctl.toNat (i - 32)

end Sys2Proof

namespace Sys2Proof.Machine

/-! ### Fault causes (CTRL_FAULT, R92) -/

/-- ILLEGAL_OPCODE. -/
def causeOpcode : Nat := 0x01
/-- ENGINE_MISMATCH. -/
def causeEngine : Nat := 0x02
/-- TILE_OPERAND. -/
def causeTile : Nat := 0x03
/-- RESERVED_FIELD. -/
def causeReserved : Nat := 0x04
/-- TOKEN_OVERFLOW. -/
def causeToken : Nat := 0x05
/-- IMEM_UNCORRECTABLE. -/
def causeImem : Nat := 0x06
/-- PC_RANGE. -/
def causePc : Nat := 0x07
/-- SCALAR_ACCESS. -/
def causeScalar : Nat := 0x08
/-- MOVER_ALIGN. -/
def causeMover : Nat := 0x09
/-- ILLEGAL_FIELD_VALUE. -/
def causeField : Nat := 0x0A

/-- The first cause of a list of checks that fails. -/
def firstCause : List (Bool × Nat) → Option Nat
  | [] => none
  | (bad, cause) :: r => if bad then some cause else firstCause r

/-! ### Which engine runs a word (R69) -/

/-- The engine that a tile word's opcode names. -/
def TileOp.engine : TileOp → EngineId
  | .mma | .mout => .matrix
  | .scan | .sshift | .shsave | .spzero | .spload | .spstore => .scan
  | .tload | .tstore | .mcopy | .semsig | .semwait | .matom | .mfence => .mover
  | _ => .vector

/-- The ENGINE field of an engine. -/
def engineCode : EngineId → Nat
  | .matrix => 0
  | .vector => 1
  | .scan => 2
  | .mover => 3

/-! ### Control and statistics words (R66, R68, R71, R83) -/

/-- The fields a control word uses: rd, rs1, rs2, imm. -/
def CtrlOp.uses : CtrlOp → Bool × Bool × Bool × Bool
  | .add | .sub | .and | .or | .xor | .shl | .shr | .sra | .mul | .slt => (true, true, true, false)
  | .addi | .ld | .jalr => (true, true, false, true)
  | .li | .jal | .sumrd | .wlread | .strp | .strd => (true, false, false, true)
  | .st | .beq | .bne | .blt | .bge | .bltu | .bgeu => (false, true, true, true)
  | .beatwait | .mvfail => (true, false, false, false)
  | .ppoint | .stlb => (false, false, false, true)
  | .tokwait | .endStage | .nop | .brk => (false, false, false, false)

/-- The cause for which a control or statistics word is illegal, if any (R70). -/
def ctrlCause (op : CtrlOp) (w : CtrlWord) : Option Nat :=
  let (d, s, t, i) := op.uses
  let imm := w.imm.toNat
  firstCause [
    (w.engine != 0, causeEngine),
    (w.sig != 0 || w.sigv || w.rsvd != 0 || (!d && w.rd != 0) || (!s && w.rs1 != 0) || (!t && w.rs2 != 0) ||
      (!i && w.imm != 0), causeReserved),
    ((op == .sumrd && decide (0x18 ≤ imm % 256)) || (op == .strd && decide (4 < imm % 16)) ||
      (op == .ppoint && decide (64 < imm % 65536)), causeField)]

/-! ### Matrix words (R73, R82) -/

/-- Tiles of the activation operand of a format pair (R64, R73). -/
def activationTiles (wfmt : Bool) (afmt : BitVec 2) : Nat :=
  if afmt = 2 then (if wfmt then 4 else 2) else if wfmt then 2 else 1

/-- Whether an operand of n tiles at a base lies within T0–T63 on its boundary (R65). -/
def tilesOk (base n : Nat) : Bool := decide (base % n = 0) && decide (base + n ≤ 64)

/-- The cause for which a matrix word is illegal, if any (R65, R70, R73, R77, R82). A ZP without U8Z activations is an unused field
that is not zero: RESERVED_FIELD (DESIGN CHOICE, notes/assumptions/110.md). -/
def matrixCause (op : TileOp) (w : TileWord) : Option Nat :=
  let afmt := BitVec.ofNat 2 (w.f 36 2)
  let reserved := w.td != 0 || w.imm != 0
  match op with
  | .mout => firstCause [
      (w.engine != 0, causeEngine),
      (reserved || w.f 35 47 != 0, causeReserved),
      (!tilesOk w.ta.toNat (if w.b 34 then 2 else 4), causeTile)]
  | _ => firstCause [
      (w.engine != 0, causeEngine),
      (reserved || w.f 52 30 != 0 || (w.f 44 8 != 0 && afmt != 1), causeReserved),
      (afmt == 3 || w.f 39 2 == 3 || (w.b 35 && afmt == 1) || (w.b 35 && w.f 39 2 == 0 && w.f 41 3 == 7), causeField),
      (!tilesOk w.ta.toNat (activationTiles (w.b 35) afmt), causeTile)]

/-! ### Vector words (R93–R119) -/

/-- Element formats of DFMT and SFMT (R101). -/
inductive Fmt where
  | fp32 | fp16 | bc8 | u8z | bc4
deriving DecidableEq, Repr

/-- The format of a DFMT or SFMT field; 101–111 are illegal and read as FP32 here. -/
def fmtOf : Nat → Fmt
  | 1 => .fp16
  | 2 => .bc8
  | 3 => .u8z
  | 4 => .bc4
  | _ => .fp32

/-- Tiles of an operand in a format (R64, R103). -/
def Fmt.tiles : Fmt → Nat
  | .fp32 => 4
  | .fp16 => 2
  | _ => 1

/-- Whether a format is a code format (R98). -/
def Fmt.isCode : Fmt → Bool
  | .fp32 | .fp16 => false
  | _ => true

/-- DFMT of a vector word. -/
def vdf (w : TileWord) : Fmt := fmtOf (w.f 43 3)
/-- SFMT of a vector word. -/
def vsf (w : TileWord) : Fmt := fmtOf (w.f 46 3)
/-- BSRC of a vector word (R99). -/
def vbsrc (w : TileWord) : Nat := w.f 49 2
/-- FN of a vector word. -/
def vfn (w : TileWord) : Nat := w.f 61 6
/-- SCL of a vector word (R98). -/
def vscl (w : TileWord) : Nat := w.f 75 2

/-- Whether a word runs as 64 FP16 lanes: VADD to VCMP and VMOV with FP16 source and destination (R93, R117). -/
def pairMode (op : TileOp) (w : TileWord) : Bool :=
  (op == .vmov || op == .vadd || op == .vsub || op == .vmul || op == .vfma || op == .vmax || op == .vmin || op == .vcmp) &&
  vdf w == .fp16 && vsf w == .fp16

/-- Whether an operation is one of the two-operand words (opcodes 0x40–0x46). -/
def TileOp.twoOperand : TileOp → Bool
  | .vadd | .vsub | .vmul | .vfma | .vmax | .vmin | .vcmp => true
  | _ => false

/-- Whether an operation is a VMSK word (R105). -/
def TileOp.isMask : TileOp → Bool
  | .vmskSet | .vmskAnd | .vmskOr | .vmskXor | .vmskAndn | .vmskNot | .vmskFirst => true
  | _ => false

/-- Whether a word is a moving word (R106). -/
def moving (op : TileOp) (w : TileWord) : Bool :=
  match op with
  | .vperm | .vshuf | .vpack | .vunpack => true
  | .vmov => vbsrc w != 1
  | _ => false

/-- Whether a word has a code format by R98: not a moving word, and SFMT or DFMT a code format. -/
def hasCode (op : TileOp) (w : TileWord) : Bool := !moving op w && ((vdf w).isCode || (vsf w).isCode)

/-- Whether a word asks for fresh scales: SCL = 00 with DFMT BC8 from FP32 or FP16 (R98). -/
def freshWord (op : TileOp) (w : TileWord) : Bool :=
  !moving op w && vdf w == .bc8 && !(vsf w).isCode && vscl w == 0

/-- The tile operands a vector word uses: TA, TB, TC, TD (R67, R98, R99, R102, R106). -/
def vectorUses (op : TileOp) (w : TileWord) : Bool × Bool × Bool × Bool :=
  if op.isMask then (false, false, false, false) else
  (op != .vsum,
   !(op == .vmov && vbsrc w == 1),
   (op.twoOperand && vbsrc w != 1) || (op == .vshuf && decide (2 ≤ vfn w) && decide (vfn w ≤ 5)),
   op == .vperm || (hasCode op w && vscl w != 2))

/-- The bits of IMM that a vector word uses (R102, R105). -/
def vectorImm (op : TileOp) (w : TileWord) : W32 :=
  match op with
  | .vmskSet => 0xFFFFFFFF
  | .vmskAnd | .vmskOr | .vmskXor | .vmskAndn => 7
  | .vmskNot => 0
  | .vmskFirst => 0x3F
  | .vsmax => 0xFFFFFFFF
  | _ =>
    if vscl w = 2 then 0xFFFFFFFF
    else if (op.twoOperand || op == .vmov) && vbsrc w == 1 then 0xFFFFFFFF
    else if op == .vshuf && vfn w == 1 then 0x1F else 0

/-- The largest legal FN of a vector word (R102, R103). -/
def fnMax (op : TileOp) (w : TileWord) : Nat :=
  match op with
  | .vcmp => 6
  | .vcvt => if vdf w = .bc4 then 1 else 0
  | .vfun => 9
  | .vperm => 1
  | .vshuf => 7
  | .vred => 3
  | .vsum => 6
  | _ => 0

/-- Whether SCL is legal for a word's formats (R98, R103). -/
def sclOk (op : TileOp) (w : TileWord) : Bool :=
  let d := vdf w
  let s := vsf w
  let code := if d.isCode then d else s
  if moving op w then vscl w == 0
  else if !hasCode op w then vscl w == 0
  else match vscl w with
    | 0 => d == .bc8 && !s.isCode
    | 1 => code == .bc8 || code == .u8z
    | 2 => code == .bc8 || code == .bc4
    | _ => true

/-- Whether an operation reports in a mask register (MDST is used). -/
def TileOp.usesMdst (op : TileOp) : Bool := op == .vcmp || op == .vsmax || op.isMask
/-- Whether a word uses mask register MREG: under MASKEN, and in the VMSK words that combine masks (R94, R105). -/
def usesMreg (op : TileOp) (w : TileWord) : Bool :=
  w.b 41 || (op.isMask && op != .vmskSet && op != .vmskFirst)
/-- Whether an operation writes a summary slot (SUMDST is used). -/
def TileOp.usesSum (op : TileOp) : Bool := op == .vcmp || op == .vsum || op == .vpack || op == .vsmax

/-- Whether two spans, of n units from a and of m units from b, share a unit. -/
def spansMeet (a n b m : Nat) : Bool := decide (a < b + m) && decide (b < a + n)

/-- The cause for which a vector word is illegal, if any (R65, R70, R98–R110, R119). The FN field of a VMSK word is its
row of the table and is not checked again. -/
def vectorCause (op : TileOp) (w : TileWord) : Option Nat :=
  let (ta, tb, tc, td) := vectorUses op w
  let d := vdf w
  let s := vsf w
  let unusedTile := (!ta && w.ta != 0) || (!tb && w.tb != 0) || (!tc && w.tc != 0) || (!td && w.td != 0)
  let badImm := (w.imm &&& ~~~(vectorImm op w)) != 0
  if op.isMask then firstCause [
    (w.engine != 1, causeEngine),
    (w.f 77 5 != 0 || w.f 32 6 != 0 || w.f 41 20 != 0 || w.b 67 || w.f 71 6 != 0 || unusedTile || badImm ||
      (w.f 38 3 != 0 && !usesMreg op w), causeReserved),
    (op == .vmskFirst && decide (32 < w.imm.toNat % 64), causeField)]
  else firstCause [
    (w.engine != 1, causeEngine),
    (w.f 77 5 != 0 || unusedTile || badImm || (w.b 67 && op != .vred) || (w.f 68 3 != 0 && !op.usesMdst) ||
      (w.f 71 4 != 0 && !op.usesSum) || (vbsrc w != 0 && !op.twoOperand && op != .vmov) ||
      (op == .vsum && (w.f 43 3 != 0 || w.b 42)) || (w.f 38 3 != 0 && !usesMreg op w) || (op == .vmov && vbsrc w == 1 && w.f 46 3 != 0), causeReserved),
    (decide (fnMax op w < vfn w) || decide (32 < w.f 32 6) || decide (31 < w.f 51 5 + w.f 56 5), causeField),
    (decide (4 < w.f 43 3) || decide (3 < w.f 46 3) || (d == .bc4 && op != .vcvt) || (op == .vmov && decide (1 < vbsrc w)),
      causeField),
    ((moving op w && s != d) || (!moving op w && s.isCode && d.isCode) || !sclOk op w, causeField),
    ((op == .vfma || op == .vcmp || op == .vred || op == .vsmax || (op == .vmov && vbsrc w == 1)) && d.isCode, causeField),
    (op == .vsmax && (s.isCode || w.imm.toNat / 2 ^ 23 % 256 == 255), causeField),
    (op == .vshuf && vfn w == 7 && (w.f 32 6 != 0 || w.b 41 || w.f 51 5 != 0 || w.f 56 5 != 31), causeField),
    ((ta && !tilesOk w.ta.toNat d.tiles) || (tb && !tilesOk w.tb.toNat s.tiles) || (tc && !tilesOk w.tc.toNat s.tiles),
      causeTile),
    (op == .vshuf && vfn w == 7 && spansMeet w.ta.toNat d.tiles w.tb.toNat s.tiles, causeTile),
    ((op == .vperm || (op == .vcvt && freshWord op w)) && spansMeet w.ta.toNat d.tiles w.td.toNat 1, causeTile)]

/-! ### The state store's regions (R123–R126) -/

/-- A region descriptor. -/
structure StRegion where
  base : Nat
  groups : Nat
  kind : Nat
  depth : Nat
  mirrored : Bool
  valid : Bool
  nslots : Nat
  s2 : W32
deriving DecidableEq, Repr

/-- Region n of core c from its registers (R123, R151). -/
def State.region (s : State) (c n : Nat) : StRegion :=
  let p := Page.port c
  let sh := (s.reg p (Reg.ST_REGION_SHAPE + 16 * n)).toNat
  { base := s.fld p (Reg.ST_REGION_BASE + 16 * n) 0 17, groups := bitsOf sh 0 13, kind := bitsOf sh 13 2,
    depth := bitsOf sh 15 5, mirrored := bitOf sh 20, valid := bitOf sh 21,
    nslots := s.fld p (Reg.ST_REGION_SLOTS + 16 * n) 0 12, s2 := s.reg p (Reg.ST_REGION_S2 + 16 * n) }

/-- Groups of a slot, N_g (R125). -/
def StRegion.ng (r : StRegion) : Nat := if r.kind = 1 then r.depth * r.groups else r.groups
/-- Lines of a slot, L (R125). -/
def StRegion.lines (r : StRegion) : Nat := r.ng + (r.ng + 31) / 32
/-- Byte address in the store of the 32 codes of group g of slot x (R125). -/
def StRegion.codesAt (r : StRegion) (x g : Nat) : Nat := 32 * (r.base + x * r.lines + g)
/-- Byte address in the store of the SC8 code of group g of slot x (R125). -/
def StRegion.sc8At (r : StRegion) (x g : Nat) : Nat := 32 * (r.base + x * r.lines + r.ng + g / 32) + g % 32

/-! ### Scan queue words (R138–R140) -/

/-- Tiles of INFMT and of OUTFMT (R138). -/
def inTiles (w : TileWord) : Nat := if w.f 53 2 = 1 then 2 else 4

/-- Whether a region kind is listed for a word (R139). -/
def kindOk (op : TileOp) (kind : Nat) : Bool :=
  match op with
  | .scan => kind == 0 || kind == 2
  | .sshift | .shsave => kind == 1
  | _ => decide (kind ≤ 2)

/-- The cause for which the fields of a scan queue word are illegal, if any (R65, R70, R138). -/
def scanFieldCause (op : TileOp) (w : TileWord) : Option Nat :=
  let carry := op == .scan && w.f 57 2 == 2
  let port := op == .spzero || op == .spload || op == .spstore
  let shift := op == .sshift || op == .shsave
  let out := op == .sshift || op == .spload || op == .spstore || (op == .scan && w.f 55 2 != 0)
  firstCause [
    (w.engine != 2, causeEngine),
    (w.imm.toNat / 65536 != 0 || w.b 66 || w.f 73 9 != 0 ||
      (port && (w.f 37 5 != 0 || w.f 46 13 != 0)) ||
      (shift && (w.f 51 2 != 0 || w.f 55 4 != 0)) ||
      (op != .scan && (w.b 64 || w.b 65)) ||
      (!port && !carry && w.f 59 5 != 0) || (op == .scan && !carry && w.b 65) ||
      (op != .sshift && w.f 67 6 != 0) ||
      (!out && w.ta != 0) || (port && w.tb != 0) || (op != .scan && w.tc != 0) ||
      (!(carry || op == .spload || op == .spstore) && w.td != 0), causeReserved),
    (decide (1 < w.f 53 2) || w.f 55 2 == 3 || w.f 57 2 == 3 || (op == .sshift && w.f 67 5 == 0), causeField),
    (!port && !tilesOk w.tb.toNat (inTiles w), causeTile),
    (op == .scan && (!tilesOk w.tc.toNat (inTiles w) ||
      (w.f 55 2 != 0 && !tilesOk w.ta.toNat (if w.f 55 2 = 1 then 4 else 2)) ||
      (carry && !tilesOk w.td.toNat (if w.b 65 then 2 else 4))), causeTile),
    (op == .sshift && !tilesOk w.ta.toNat (inTiles w), causeTile)]

/-- Whether a scan queue word breaks R140 for the slot index `slot`. -/
def State.scanRegionBad (s : State) (c : Nat) (op : TileOp) (w : TileWord) (slot : Nat) : Bool :=
  let r := s.region c (w.f 42 4)
  let g := w.imm.toNat % 65536
  let port := op == .spzero || op == .spload || op == .spstore
  !r.valid || !kindOk op r.kind || decide (r.nslots ≤ slot) ||
  decide (r.ng ≤ g + (if port then w.f 59 5 else 0)) ||
  ((op == .sshift || op == .shsave) && decide (r.groups ≤ g))

/-! ### Mover words (R84) -/

/-- Whether the NTM1 + 1 tiles of a transfer start where R65 lets an operand of that many start. -/
def transferOk (w : TileWord) : Bool :=
  let n := w.f 47 3 + 1
  decide (w.ta.toNat + n ≤ 64) && (!(n == 2 || n == 4) || decide (w.ta.toNat % n = 0))

/-- The cause for which a mover word is illegal at issue, if any (R65, R70, R84). -/
def moverCause (op : TileOp) (w : TileWord) : Option Nat :=
  let tiles := op == .tload || op == .tstore
  let sem := op == .semsig || op == .semwait
  let xb := op == .mcopy || op == .matom
  let xc := op == .mcopy || (op == .matom && w.b 66)
  firstCause [
    (w.engine != 3, causeEngine),
    (w.tb != 0 || w.tc != 0 || w.td != 0 || w.f 72 10 != 0 || (!tiles && w.ta != 0) ||
      (op == .mfence && w.f 32 5 != 0) || (!xb && w.f 37 5 != 0) || (!xc && w.f 42 5 != 0) ||
      (!tiles && w.f 47 19 != 0) || (op != .matom && w.f 66 6 != 0) ||
      (sem && w.imm.toNat / 65536 != 0) || ((op == .mcopy || op == .mfence) && w.imm != 0), causeReserved),
    (tiles && !transferOk w, causeTile)]

/-- The cause for which a tile word is illegal by its fields alone, if any (R70). -/
def tileCause (op : TileOp) (w : TileWord) : Option Nat :=
  match op.engine with
  | .matrix => matrixCause op w
  | .vector => vectorCause op w
  | .scan => scanFieldCause op w
  | .mover => moverCause op w

end Sys2Proof.Machine
end

