-- ==== Sys2Proof/Machine/Vector.lean ====
section
/-!
DEFINITION. The vector engine (R93–R121): lanes and rows, decoding and encoding with scales, arithmetic, compares and masks,
moving words, reductions, the soft maximum, functions and scalar summaries. A word reads all of its sources before it writes
(DEDUCED, notes/assumptions/12.md). A function that R114 only bounds is `boundedFun`.
-/
namespace Sys2Proof.Machine

/-- A 32-bit count advanced by an amount that depends on the timing the model leaves out: a free value. -/
def State.countFree (s : State) (page off : Nat) : State :=
  let (n, s) := s.draw 16
  s.count page off n.toNat

/-! ### Lanes, rows, elements -/

/-- The present vector length (R94). -/
def vlen (w : TileWord) : Nat := if w.f 32 6 = 0 then 32 else w.f 32 6
/-- Whether lane j is active (R94). -/
def laneOn (k : Core) (w : TileWord) (j : Nat) : Bool :=
  decide (j < vlen w) && (!w.b 41 || bitOf (k.mask (w.f 38 3)).toNat j)
/-- The active lanes in ascending order. -/
def lanesOn (k : Core) (w : TileWord) : List Nat := (List.range 32).filter (laneOn k w)
/-- The processed rows (R94). -/
def vrows (w : TileWord) : List Nat := (List.range (w.f 56 5 + 1)).map fun i => w.f 51 5 + i

/-- Element size in bytes (R106). -/
def Fmt.bytes : Fmt → Nat
  | .fp32 => 4
  | .fp16 => 2
  | _ => 1

/-- The stored bits of element (i, j) of an operand (R64). -/
def elemAt (k : Core) (f : Fmt) (base i j : Nat) : Nat :=
  leNat (k.tileBytes (1024 * base + f.bytes * (32 * i + j)) f.bytes)

/-- FP32 value at byte o of the tile register file. -/
def tileFp (k : Core) (o : Nat) : W32 := BitVec.ofNat 32 (leNat (k.tileBytes o 4))

/-- S2 of the scale tile (R98). -/
def scaleS2 (k : Core) (w : TileWord) : W32 := tileFp k (1024 * w.td.toNat + 32)
/-- The zero point of the scale tile; a moving word carries none (R95, R98). -/
def zeroPoint (k : Core) (op : TileOp) (w : TileWord) : Nat :=
  if hasCode op w && vscl w != 2 then (k.tileByte (1024 * w.td.toNat + 36)).toNat else 0
/-- The combined scale of element (i, j) by SCL (R98). -/
def scaleAt (k : Core) (w : TileWord) (i j : Nat) : W32 :=
  match vscl w with
  | 2 => w.imm
  | 3 => combined (k.tileByte (1024 * w.td.toNat + j)) (scaleS2 k w)
  | _ => combined (k.tileByte (1024 * w.td.toNat + i)) (scaleS2 k w)

/-- An FP32 operand as R32 reads it. -/
def fpRead (x : W32) : W32 := if fpIsNaN x then fpNaN else fpFlush x

/-- Element (i, j) of an operand decoded into FP32 (R97, R22, R25, R33, R39). -/
def decodeAt (k : Core) (op : TileOp) (w : TileWord) (f : Fmt) (base i j : Nat) : W32 :=
  let n := elemAt k f base i j
  match f with
  | .fp32 => fpRead (BitVec.ofNat 32 n)
  | .fp16 => ofFp16 (BitVec.ofNat 16 n)
  | .u8z => scaled (fpOfInt ((n : Int) - zeroPoint k op w)) (scaleAt k w i j)
  | _ => bc8Val (BitVec.ofNat 8 n) (scaleAt k w i j)

/-- Operand a of element (i, j) (R102). -/
def operandA (k : Core) (op : TileOp) (w : TileWord) (i j : Nat) : W32 := decodeAt k op w (vsf w) w.tb.toNat i j
/-- Operand b of element (i, j) by BSRC (R99). -/
def operandB (k : Core) (op : TileOp) (w : TileWord) (i j : Nat) : W32 :=
  match vbsrc w with
  | 1 => fpRead w.imm
  | 2 => decodeAt k op w (vsf w) w.tc.toNat 0 j
  | 3 => decodeAt k op w (vsf w) w.tc.toNat i 0
  | _ => decodeAt k op w (vsf w) w.tc.toNat i j

/-! ### Writing rows -/

/-- What a word does to one destination lane. -/
inductive LaneOut where
  | keep
  /-- the zero of the format (R95) -/
  | zero
  /-- an FP32 result -/
  | val (x : W32)
  /-- the stored bits of a moved element -/
  | raw (n : Nat)
deriving DecidableEq, Repr

/-- An inactive destination lane (R95). -/
def idleLane (w : TileWord) : LaneOut := if w.b 42 then .zero else .keep

/-- Element (i, j) of TA written in DFMT; BC4 writes its nibble of the weight layout (R103). -/
def Core.putElem (k : Core) (w : TileWord) (i j n : Nat) : Core :=
  match vdf w with
  | .bc4 =>
    let step := i + 32 * (vfn w % 2)
    let o := 1024 * w.ta.toNat + 32 * (step / 2) + j
    let old := (k.tileByte o).toNat
    k.tilePut o [BitVec.ofNat 8 (if step % 2 = 0 then old / 16 * 16 + n % 16 else old % 16 + n % 16 * 16)]
  | f => k.tilePut (1024 * w.ta.toNat + f.bytes * (32 * i + j)) (leBytes f.bytes n)

/-- An FP32 result encoded in DFMT with scale, zero point and draw, and what it counts (R97). -/
def encodeElem (f : Fmt) (x sc : W32) (z r : Nat) : Conv :=
  match f with
  | .fp32 => { code := x.toNat }
  | .fp16 => let (h, sat, nan) := toFp16 x; { code := h.toNat, sat := sat, nan := nan }
  | .bc8 => toBc8 x sc r
  | .u8z => toU8z x sc z r
  | .bc4 => toBc4 x sc r

/-- A row's outcome written into TA: the core, and what the conversions counted. `src` is the core before the word, `n` the
first draw of the word, `sc` the scale of a lane. -/
def writeRow (op : TileOp) (w : TileWord) (src : Core) (n i : Nat) (sc : Nat → W32) (outs : List LaneOut)
    (acc : Core × Tally) : Core × Tally :=
  outs.zipIdx.foldl (fun acc e =>
    let j := e.2
    match e.1 with
    | .keep => acc
    | .zero => (acc.1.putElem w i j (if vdf w = .u8z then zeroPoint src op w else 0), acc.2)
    | .raw b => (acc.1.putElem w i j b, acc.2)
    | .val x =>
      let r := encodeElem (vdf w) x (sc j) (zeroPoint src op w) (drawAt n (32 * i + j))
      (acc.1.putElem w i j r.code, acc.2.add x r)) acc

/-- The FP32 results of the active lanes of a row, for a fresh scale (R100). -/
def activeVals (k : Core) (w : TileWord) (outs : List LaneOut) : List W32 :=
  outs.zipIdx.filterMap fun e =>
    match e.1 with
    | .val x => if laneOn k w e.2 then some x else none
    | _ => none

/-- The rows `rows` of TA rewritten by `outs`, with fresh scales where the word asks for them (R100), the generator's
draws taken (R40), and the record of TA replaced where the word is a conversion (R48, R97). -/
def State.vecWrite (s : State) (c : Nat) (op : TileOp) (w : TileWord) (rows : List Nat) (outs : Nat → List LaneOut) : State :=
  let k := s.core c
  let (k', t) := rows.foldl (fun acc i =>
    let o := outs i
    if freshWord op w then
      let code := freshScale (groupAbsMax (activeVals k w o)) (scaleS2 k w) 1024 1984
      let acc := (acc.1.tilePut (1024 * w.td.toNat + i) [code], acc.2)
      writeRow op w k s.free i (fun _ => combined code (scaleS2 k w)) o acc
    else writeRow op w k s.free i (scaleAt k w i) o acc) (k, {})
  let converts := !moving op w && vdf w != .fp32
  let s := { s with free := if converts then s.free + 1024 else s.free }.setCore c k'
  if converts then s.tileRecord c w.ta.toNat t else s

/-! ### Element operations (R102, R104, R114) -/

/-- The sign of a zero that the spec does not state, where two zeros of opposite sign are equally large. -/
def openZero (a b : W32) : W32 := if a = b then a else fpZero ((Config.vectorFunction 0x44 (a ^^^ b)).getLsbD 0)

/-- The larger value; a NaN yields the other (R102). -/
def fpMax2 (a b : W32) : W32 :=
  if fpIsNaN a then b else if fpIsNaN b then a else if fpLt a b then b else if fpLt b a then a else openZero a b
/-- The smaller value; a NaN yields the other (R102). -/
def fpMin2 (a b : W32) : W32 :=
  if fpIsNaN a then b else if fpIsNaN b then a else if fpLt a b then a else if fpLt b a then b else openZero a b

/-- The result of a two-operand arithmetic word with old element d (R102). -/
def arith (op : TileOp) (a b d : W32) : W32 :=
  match op with
  | .vadd => fpAdd a b
  | .vsub => fpSub a b
  | .vmul => fpMul a b
  | .vfma => fpFma a b d
  | .vmax => fpMax2 a b
  | _ => fpMin2 a b

/-- A compare of VCMP (R104). -/
def compareFp (fn : Nat) (a b : W32) : Bool :=
  let un := fpIsNaN a || fpIsNaN b
  match fn with
  | 0 => fpEq a b
  | 1 => !fpEq a b
  | 2 => fpLt a b
  | 3 => !un && !fpLt b a
  | 4 => fpLt b a
  | 5 => !un && !fpLt a b
  | _ => un

/-- A non-linear function and whether it met a domain error (R114). -/
def vfun (fn : Nat) (x : W32) : W32 × Bool :=
  let x := fpRead x
  let neg := fpSign x
  let open_ : W32 := boundedFun fn x
  let ninf : W32 := 0xFF800000
  let one := fpOne
  let mone : W32 := 0xBF800000
  if fpIsNaN x then (fpNaN, false)
  else match fn with
  | 0 => if fpIsZero x then (one, false) else if fpIsInf x then (if neg then 0 else fpInf, false)
         else if !fpLt x 0x42B17218 then (fpInf, false) else (open_, false)
  | 1 => if fpIsZero x then (ninf, false) else if neg then (fpNaN, true) else if fpIsInf x then (fpInf, false) else (open_, false)
  | 2 => if fpIsZero x then (x, false) else if fpIsInf x then (if neg then mone else one, false) else (open_, false)
  | 3 => if fpIsZero x then (0x3F000000, false) else if fpIsInf x then (if neg then 0 else one, false) else (open_, false)
  | 4 => if fpIsZero x then (0x3F317218, false) else if fpIsInf x then (if neg then 0 else fpInf, false) else (open_, false)
  | 5 => if fpIsZero x then (fpInfOf neg, false) else if fpIsInf x then (fpZero neg, false) else (open_, false)
  | 6 => if fpIsZero x then (fpInf, false) else if neg then (fpNaN, true) else if fpIsInf x then (0, false) else (open_, false)
  | 7 => (fpAbs x, false)
  | 8 => (fpNeg x, false)
  | _ => (if neg then 0 else x, false)

/-! ### Reductions (R111, R115) -/

/-- Adjacent pairs of a list added. -/
def addPairs : List W32 → List W32
  | a :: b :: r => fpAdd a b :: addPairs r
  | l => l

/-- The pairwise tree of five levels over 32 lanes (R111). -/
def treeSum (l : List W32) : W32 := (addPairs (addPairs (addPairs (addPairs (addPairs l))))).headD 0

/-- MAX, MIN or ABSMAX of a list, NaN ignored; the empty results of R111. -/
def extremum (fn : Nat) (l : List W32) : W32 :=
  let l := l.filter fun x => !fpIsNaN x
  match fn with
  | 1 => l.foldl fpMax2 0xFF800000
  | 2 => l.foldl fpMin2 fpInf
  | _ => l.foldl (fun m x => fpMax2 m (fpAbs x)) 0

/-- A row of TB with inactive lanes +0 (R111). -/
def rowVals (k : Core) (op : TileOp) (w : TileWord) (i : Nat) : List W32 :=
  (List.range 32).map fun j => if laneOn k w j then operandA k op w i j else 0

/-- The active elements of a row of TB. -/
def rowActive (k : Core) (op : TileOp) (w : TileWord) (i : Nat) : List W32 :=
  (lanesOn k w).map fun j => operandA k op w i j

/-- VRED along row i (R111). -/
def redRow (k : Core) (w : TileWord) (i : Nat) : W32 :=
  if vfn w = 0 then treeSum (rowVals k .vred w i) else extremum (vfn w) (rowActive k .vred w i)
/-- VRED down column j (R111). -/
def redCol (k : Core) (w : TileWord) (j : Nat) : W32 :=
  let col := (vrows w).map fun i => operandA k .vred w i j
  if vfn w = 0 then col.foldl fpAdd 0 else extremum (vfn w) col

/-- COUNT_NZ (R115). -/
def countNz (l : List W32) : Nat := (l.filter fun x => !fpIsZero x).length

/-- The scalar of VSUM (R115). -/
def vsumValue (k : Core) (w : TileWord) : Nat :=
  let all := ((vrows w).map fun i => rowActive k .vsum w i).flatten
  match vfn w with
  | 0 => (extremum 1 all).toNat
  | 1 => (extremum 2 all).toNat
  | 2 => (((vrows w).map fun i => treeSum (rowVals k .vsum w i)).foldl fpAdd 0).toNat
  | 3 => (extremum 3 all).toNat
  | 4 => countNz all
  | 5 => b2n (countNz all != 0)
  | _ => b2n (countNz all == all.length)

/-! ### The soft maximum (R112, R113) -/

/-- One row of VSMAX: the 32 results, whether the row is empty, and the NaN entries among the active lanes. -/
def smaxRow (k : Core) (w : TileWord) (i : Nat) : List W32 × Bool × Nat :=
  let beta := if fpIsZero w.imm then fpOne else w.imm
  let e := lanesOn k w
  let a := e.filter fun j => !fpIsNaN (operandA k .vsmax w i j)
  let z (j : Nat) : W32 := fpMul (operandA k .vsmax w i j) beta
  let p := a.filter fun j => z j == fpInf
  let f := a.filter fun j => z j != 0xFF800000
  let nan := e.length - a.length
  if p.length ≠ 0 then
    ((List.range 32).map fun j => if p.contains j then fpDiv fpOne (fpNat p.length) else 0, false, nan)
  else if f.isEmpty then (List.replicate 32 0, true, nan)
  else
    let mx := extremum 1 (f.map z)
    let ex := (List.range 32).map fun j => if f.contains j then (vfun 0 (fpSub (z j) mx)).1 else 0
    let r := (vfun 5 (treeSum ex)).1
    let exact := f.zip (fixSoftmax (f.map z) mx)
    ((List.range 32).map fun j =>
      match exact.find? fun v => v.1 == j with
      | some v => smaxHeld (fpMul (ex.getD j 0) r) v.2
      | none => 0, false, nan)

/-! ### Moving words (R106–R109) -/

/-- The source of destination lane j of row i in VSHUF: from TC?, source row, source index (R108). -/
def shufSource (w : TileWord) (i j : Nat) : Bool × Nat × Nat :=
  let v := vlen w
  match vfn w with
  | 0 => (false, i, if j < v then v - 1 - j else 63)
  | 1 => (false, i, if j < v then (j + w.imm.toNat % 32) % v else 63)
  | 2 => (decide (j % 2 = 1), i, j / 2)
  | 3 => (decide (j % 2 = 1), i, 16 + j / 2)
  | 4 => (decide (16 ≤ j), i, 2 * (j % 16))
  | 5 => (decide (16 ≤ j), i, 2 * (j % 16) + 1)
  | 6 => (false, i, if j % 2 = 0 then j + 1 else j - 1)
  | _ => (false, j, i)

/-- Row i of a permuting word: for each lane its outcome and whether its index was out of range (R107, R108). -/
def permRow (k : Core) (op : TileOp) (w : TileWord) (i : Nat) : List (LaneOut × Bool) :=
  (List.range 32).map fun j =>
    if !laneOn k w j then (idleLane w, false) else
    let (fromTc, row, x) :=
      if op = .vperm then
        (false, i, (k.tileByte (1024 * w.td.toNat + (if vfn w % 2 = 1 then 0 else 32 * i) + j)).toNat % 64)
      else shufSource w i j
    if x < vlen w then (.raw (elemAt k (vsf w) (if fromTc then w.tc.toNat else w.tb.toNat) row x), false)
    else (.raw 0, true)

/-- Row i of VPACK (R109). -/
def packRow (k : Core) (w : TileWord) (i : Nat) : List LaneOut :=
  let on := lanesOn k w
  (List.range 32).map fun j =>
    match on[j]? with
    | some x => .raw (elemAt k (vsf w) w.tb.toNat i x)
    | none => idleLane w

/-- Row i of VUNPACK (R109). -/
def unpackRow (k : Core) (w : TileWord) (i : Nat) : List LaneOut :=
  let on := lanesOn k w
  (List.range 32).map fun j =>
    match on.findIdx? fun x => x == j with
    | some r => .raw (elemAt k (vsf w) w.tb.toNat i r)
    | none => idleLane w

/-! ### The words -/

/-- A summary slot of core c written (R116). -/
def State.putSum (s : State) (c : Nat) (w : TileWord) (v : Nat) : State :=
  s.modCore c fun k => k.setSum (w.f 71 4) (BitVec.ofNat 64 v)
/-- Mask register MDST of core c written. -/
def State.putMask (s : State) (c : Nat) (w : TileWord) (v : W32) : State :=
  s.modCore c fun k => k.setMask (w.f 68 3) v

/-- The low n lanes set (R105). -/
def firstLanes (n : Nat) : W32 := BitVec.ofNat 32 (2 ^ n - 1)

/-- The mask that a VMSK word writes (R105). -/
def maskResult (k : Core) (op : TileOp) (w : TileWord) : W32 :=
  let a := k.mask (w.f 38 3)
  let b := k.mask (w.imm.toNat % 8)
  match op with
  | .vmskSet => w.imm
  | .vmskAnd => a &&& b
  | .vmskOr => a ||| b
  | .vmskXor => a ^^^ b
  | .vmskAndn => a &&& ~~~b
  | .vmskNot => ~~~a
  | _ => firstLanes (w.imm.toNat % 64)

/-- An elementwise word: f gives the FP32 result of an active lane. -/
def State.vecMap (s : State) (c : Nat) (op : TileOp) (w : TileWord) (f : Nat → Nat → W32) : State :=
  let k := s.core c
  s.vecWrite c op w (vrows w) fun i =>
    (List.range 32).map fun j => if laneOn k w j then .val (f i j) else idleLane w

/-- The number of processed elements, in rows and active lanes, that meet `p`. -/
def countElems (k : Core) (w : TileWord) (p : Nat → Nat → Bool) : Nat :=
  ((vrows w).map fun i => ((lanesOn k w).filter (p i)).length).sum

/-- VPERM and VSHUF with their out-of-range counts (R107, R108, R110). -/
def State.runPerm (s : State) (c : Nat) (op : TileOp) (w : TileWord) : State :=
  let k := s.core c
  let oor := ((vrows w).map fun i => ((permRow k op w i).filter (·.2)).length).sum
  let s := s.vecWrite c op w (vrows w) fun i => (permRow k op w i).map (·.1)
  if oor = 0 then s else
    let p := Page.vector c
    ((s.countFld p (Reg.VX_OOR_COUNT + 4 * w.ta.toNat) 0 16 oor).count p Reg.VX_OOR_TOTAL oor).setFlag p Reg.VX_FLAGS 1 true

/-- VFUN with its domain errors (R114). -/
def State.runFun (s : State) (c : Nat) (w : TileWord) : State :=
  let k := s.core c
  let bad := countElems k w fun i j => (vfun (vfn w) (operandA k .vfun w i j)).2
  let s := s.vecMap c .vfun w fun i j => (vfun (vfn w) (operandA k .vfun w i j)).1
  if bad = 0 then s else (s.count (Page.vector c) Reg.VX_DOMAIN_COUNT bad).setFlag (Page.vector c) Reg.VX_FLAGS 3 true

/-- VCMP (R104). -/
def State.runCmp (s : State) (c : Nat) (w : TileWord) : State :=
  let k := s.core c
  let t (i j : Nat) : Bool := compareFp (vfn w) (operandA k .vcmp w i j) (operandB k .vcmp w i j)
  let m := ((List.range 32).map fun j => if laneOn k w j && t (w.f 51 5) j then 2 ^ j else 0).sum
  let s := s.vecMap c .vcmp w fun i j => if t i j then fpOne else 0
  (s.putMask c w (BitVec.ofNat 32 m)).putSum c w (countElems k w t)

/-- VSMAX (R112, R113). -/
def State.runSmax (s : State) (c : Nat) (w : TileWord) : State :=
  let k := s.core c
  let res := (vrows w).map fun i => (i, smaxRow k w i)
  let empty := res.filter fun e => e.2.2.1
  let nan := (res.map fun e => e.2.2.2).sum
  let s := s.vecWrite c .vsmax w (vrows w) fun i =>
    let y := (smaxRow k w i).1
    (List.range 32).map fun j => if laneOn k w j then .val (y.getD j 0) else .zero
  let s := (s.putMask c w (BitVec.ofNat 32 ((empty.map fun e => 2 ^ e.1).sum))).putSum c w empty.length
  let p := Page.vector c
  let s := if empty.isEmpty then s else (s.count p Reg.VX_EMPTY_COUNT empty.length).setFlag p Reg.VX_FLAGS 0 true
  if nan = 0 then s else (s.count p Reg.VX_SMAX_NAN_COUNT nan).setFlag p Reg.VX_FLAGS 2 true

/-- VRED (R111). -/
def State.runRed (s : State) (c : Nat) (w : TileWord) : State :=
  let k := s.core c
  if w.b 67 then
    s.vecWrite c .vred w [0] fun _ =>
      (List.range 32).map fun j => if laneOn k w j then .val (redCol k w j) else idleLane w
  else
    s.vecWrite c .vred w (vrows w) fun i =>
      (List.range 32).map fun j => if j = 0 then .val (redRow k w i) else .keep

/-- What a vector word does on core c (R102). -/
def State.runVector (s : State) (c : Nat) (op : TileOp) (w : TileWord) : State :=
  let k := s.core c
  match op with
  | .vcmp => s.runCmp c w
  | .vmov =>
    if vbsrc w = 1 then s.vecMap c op w fun _ _ => w.imm
    else s.vecWrite c op w (vrows w) fun i =>
      (List.range 32).map fun j => if laneOn k w j then .raw (elemAt k (vsf w) w.tb.toNat i j) else idleLane w
  | .vcvt => s.vecMap c op w fun i j => operandA k op w i j
  | .vfun => s.runFun c w
  | .vperm => s.runPerm c op w
  | .vshuf => s.runPerm c op w
  | .vpack =>
    (s.vecWrite c op w (vrows w) fun i => packRow k w i).putSum c w ((vrows w).length * (lanesOn k w).length)
  | .vunpack => s.vecWrite c op w (vrows w) fun i => unpackRow k w i
  | .vred => s.runRed c w
  | .vsum => s.putSum c w (vsumValue k w)
  | .vsmax => s.runSmax c w
  | .vadd | .vsub | .vmul | .vmax | .vmin =>
    s.vecMap c op w fun i j => arith op (operandA k op w i j) (operandB k op w i j) 0
  | .vfma =>
    s.vecMap c op w fun i j =>
      arith op (operandA k op w i j) (operandB k op w i j) (decodeAt k op w (vdf w) w.ta.toNat i j)
  | _ => s.putMask c w (maskResult k op w)

end Sys2Proof.Machine
end

