-- ==== Sys2Proof/Machine/Scan.lean ====
section
/-!
DEFINITION. The scan unit and the state port's program words (R122–R140, R143, R149): decoding and writing groups of the
state store, the segmented recurrence with its five combine stages, delayed copies, history, and the moves of SPZERO, SPLOAD
and SPSTORE.
-/
namespace Sys2Proof.Machine

/-! ### Groups of a slot (R125) -/

/-- The 32 codes and the SC8 code of group g of slot x. -/
def Core.group (k : Core) (r : StRegion) (x g : Nat) : List Byte × Byte :=
  (memGet k.store (r.codesAt x g) 32, SMap.get k.store (r.sc8At x g) 0)

/-- Group g of slot x written in one step (R134). -/
def Core.putGroup (k : Core) (r : StRegion) (x g : Nat) (codes : List Byte) (sc8 : Byte) : Core :=
  { k with store := memPut (memPut k.store (r.codesAt x g) (bytesAt codes 0 32)) (r.sc8At x g) [sc8] }

/-- The image of slot x: its lines in line order (R142). -/
def Core.slotBytes (k : Core) (r : StRegion) (x : Nat) : List Byte := memGet k.store (32 * (r.base + x * r.lines)) (32 * r.lines)

/-- The image of a slot whose bar-end export is still to come is kept aside before the slot is written (R19). -/
def State.keepImage (s : State) (c region x : Nat) : State :=
  let key := (c, region, x)
  if s.pair.unread.contains key && !(s.pair.kept.any fun e => e.1 == key) then
    { s with pair := { s.pair with kept := s.pair.kept ++ [(key, (s.core c).slotBytes (s.region c region) x)] } }
  else s

/-- Group g of slot x of a region of core c written (R19, R134). -/
def State.writeGroup (s : State) (c region x g : Nat) (codes : List Byte) (sc8 : Byte) : State :=
  (s.keepImage c region x).modCore c fun k => k.putGroup (s.region c region) x g codes sc8

/-- The 32 values of a group (R22, R29, R39, R125). -/
def groupValues (r : StRegion) (codes : List Byte) (sc8 : Byte) : List W32 := codes.map fun c => bc8Val c (combined sc8 r.s2)

/-- 32 values converted into a group with a fresh scale, from draw n on (R134): codes, SC8 code, counts. The scale of a group
with a = 0 (code 0x00, R38) is a zero scale of R39 and counts as one (DESIGN CHOICE, notes/assumptions/111.md). -/
def encodeGroup (r : StRegion) (n : Nat) (vals : List W32) : List Byte × Byte × Tally :=
  let code := freshScale (groupAbsMax vals) r.s2 1024 1984
  let res := vals.zipIdx.map fun e => (e.1, toBc8 e.1 (combined code r.s2) (drawAt n e.2))
  (res.map fun e => BitVec.ofNat 8 e.2.code, code, res.foldl (fun t e => t.add e.1 e.2) {})

/-! ### Tile rows (R64, R129) -/

/-- Row i of a tile operand in FP32 or FP16, as FP32. -/
def scanRow (k : Core) (half : Bool) (base i : Nat) : List W32 :=
  (List.range 32).map fun j =>
    if half then ofFp16 (BitVec.ofNat 16 (elemAt k .fp16 base i j)) else fpRead (BitVec.ofNat 32 (elemAt k .fp32 base i j))

/-- The bytes of one row in FP32 or FP16. -/
def rowBytes (half : Bool) (l : List W32) : List Byte :=
  (l.map fun x => if half then leBytes 2 (toFp16 x).1.toNat else leBytes 4 x.toNat).flatten

/-- Row i of a tile operand written in FP32 or FP16. -/
def Core.putRow (k : Core) (half : Bool) (base i : Nat) (l : List W32) : Core :=
  k.tilePut (1024 * base + (if half then 64 else 128) * i) (rowBytes half l)

/-! ### The recurrence (R128–R131) -/

/-- The exact sum of products and addends, rounded once (R129). -/
def fpFused (prods : List (W32 × W32)) (c : W32) : W32 :=
  let neg (p : W32 × W32) : Bool := fpSign p.1 != fpSign p.2
  let inf (p : W32 × W32) : Bool := fpIsInf p.1 || fpIsInf p.2
  let bad := fpIsNaN c || prods.any fun p =>
    fpIsNaN p.1 || fpIsNaN p.2 || (fpIsInf p.1 && fpIsZero p.2) || (fpIsInf p.2 && fpIsZero p.1)
  let pinf := (fpIsInf c && !fpSign c) || prods.any fun p => inf p && !neg p
  let ninf := (fpIsInf c && fpSign c) || prods.any fun p => inf p && neg p
  if bad || (pinf && ninf) then fpNaN
  else if pinf then fpInf
  else if ninf then fpInfOf true
  else
    let (m, e) := prods.foldl (fun acc p => dyAdd acc.1 acc.2 (fpSig p.1 * fpSig p.2) (fpPow p.1 + fpPow p.2))
      (fpSig c, fpPow c)
    fpOfDyadic (fpSign c && prods.all neg) m e

/-- A lane's value: real part and imaginary part (zero in real mode). -/
abbrev LaneVal := W32 × W32

/-- fused(a · h + b), per component in complex mode (R129). -/
def laneFma (cplx : Bool) (a h b : LaneVal) : LaneVal :=
  if cplx then (fpFused [(a.1, h.1), (fpNeg a.2, h.2)] b.1, fpFused [(a.1, h.2), (a.2, h.1)] b.2)
  else (fpFma a.1 h.1 b.1, 0)

/-- A product of two values rounded once, without an addend (its zero keeps the products' sign). -/
def fpDot (p q : W32 × W32) : W32 :=
  let neg (p : W32 × W32) : Bool := fpSign p.1 != fpSign p.2
  fpFused [p, q] (fpZero (neg p && neg q))

/-- fl(a · h) (R129, R131). -/
def laneMul (cplx : Bool) (a h : LaneVal) : LaneVal :=
  if cplx then (fpDot (a.1, h.1) (fpNeg a.2, h.2), fpDot (a.1, h.2) (a.2, h.1)) else (fpMul a.1 h.1, 0)

/-- One frame of a lane while the stages run: A, B, F. -/
abbrev LaneStep := LaneVal × LaneVal × Bool

/-- One combine stage at distance d over frames in order (R131). -/
def combineStage (cplx : Bool) (d : Nat) (l : List LaneStep) : List LaneStep :=
  l.zipIdx.map fun e =>
    let t := e.2
    let (a, b, f) := e.1
    if t < d || f then e.1 else
    match l[t - d]? with
    | none => e.1
    | some (a', b', f') => (laneMul cplx a a', laneFma cplx a b' b, f')

/-- The recurrence of one lane over a block (R131). -/
def scanLane (cplx : Bool) (a b : List LaneVal) (marks : Nat) (hin : LaneVal) : List LaneVal :=
  let l : List LaneStep := (a.zip b).zipIdx.map fun e => (e.1.1, e.1.2, bitOf marks e.2)
  let l := [1, 2, 4, 8, 16].foldl (fun l d => combineStage cplx d l) l
  l.map fun x => if x.2.2 then x.2.1 else laneFma cplx x.1 hin x.2.1

/-- Lane values of a row: 32 real lanes, or 16 complex ones (R128). -/
def laneVals (cplx : Bool) (row : List W32) : List LaneVal :=
  if cplx then (List.range 16).map fun p => (row.getD (2 * p) 0, row.getD (2 * p + 1) 0) else row.map fun x => (x, 0)

/-- The row of 32 elements of lane values. -/
def laneRow (cplx : Bool) (l : List LaneVal) : List W32 :=
  if cplx then (l.map fun v => [v.1, v.2]).flatten else l.map (·.1)

/-- The output rows of a block of n frames: rows of a and b, marks, carry row (R128, R131). -/
def scanBlock (cplx : Bool) (n : Nat) (aRow bRow : Nat → List W32) (marks : Nat) (hin : List W32) : List (List W32) :=
  let lanes := (laneVals cplx hin).zipIdx.map fun e =>
    scanLane cplx ((List.range n).map fun t => (laneVals cplx (aRow t)).getD e.2 (0, 0))
      ((List.range n).map fun t => (laneVals cplx (bRow t)).getD e.2 (0, 0)) marks e.1
  (List.range n).map fun t => laneRow cplx (lanes.map fun l => l.getD t (0, 0))

/-! ### Errors and records -/

/-- The stream that holds slot x of a region of core c (R127). -/
def State.streamOfSlot (s : State) (c region x : Nat) : Option Nat :=
  (s.streams.find? fun e => e.2.slots.any fun v => v.1 == 16 * c + region && v.2 == x).map (·.1)

/-- An uncorrectable error in a group read (R149): counts, location, the stream's cause STATE_ECC (R168) and the safety
event; SC_FLAGS.ECC_UE for a carry-in or history read. -/
def State.stateUe (s : State) (c region x g : Nat) (scanRead : Bool) (ctx : Nat) : State :=
  let p := Page.port c
  let s := s.countFld p Reg.ST_ECC 16 16 1
  let s := s.setReg p Reg.ST_ECC_SLOT (BitVec.ofNat 32 (x % 65536 + region * 65536 + g % 4096 * 2 ^ 20))
  let s := if scanRead then s.setFlag (Page.scan c) Reg.SC_FLAGS 0 true else s
  let s := match s.streamOfSlot c region x with | some i => s.addCause i 5 | none => s
  s.raiseMech 4 (some ctx)

/-- What a group read of a word finds: whether its bytes count (R149). -/
def State.groupRead (s : State) (c region x g : Nat) (ecc : Ecc) (scanRead : Bool) (ctx : Nat) : Bool × State :=
  match ecc with
  | .clean => (true, s)
  | .corrected => (true, s.correctedError (Page.port c) Reg.ST_ECC)
  | .uncorrectable => (false, s.stateUe c region x g scanRead ctx)

/-- The group reads of a word in their order, each with what `ecc` lists for it (no entry: no error): the groups whose bytes do
not count, and the state after (R149). -/
def State.groupReads (s : State) (c region x : Nat) (scanRead : Bool) (ctx : Nat) : List Nat → List Ecc → List Nat × State
  | [], _ => ([], s)
  | g :: r, ecc =>
    let (ok, s) := s.groupRead c region x g (ecc.headD .clean) scanRead ctx
    let (bad, s) := s.groupReads c region x scanRead ctx r ecc.tail
    (if ok then bad else g :: bad, s)

/-- Write-back counts (R134): the layer record, the totals and SC_FLAGS.WB_SAT. -/
def State.wbRecord (s : State) (c : Nat) (t : Tally) : State :=
  let s := (s.layerAdd c t).countTally c t
  if t.sat + t.nan = 0 then s else s.setFlag (Page.scan c) Reg.SC_FLAGS 1 true

/-- A write into a MIRROR slot is remembered with its bar, for the audit of R364. -/
def State.noteShadow (s : State) (c region x : Nat) : State :=
  if (s.region c region).kind = 2 then
    { s with pair := { s.pair with
        shadowBar := SMap.set s.pair.shadowBar ((16 * c + region) * 2048 + x) (s.pattern.bar + 1) 0 } }
  else s

/-- A shadow's read of a MIRROR slot (R363): without the import of the previous bar the shadow runs from its own state, and the
audit of this bar is skipped and counted once for the stream. -/
def State.shadowRead (s : State) (c region x : Nat) : State :=
  if (s.region c region).kind ≠ 2 then s else
  match s.streamOfSlot c region x with
  | none => s
  | some i =>
    let n := s.pattern.bar
    let key := (16 * c + region) * 2048 + x
    let st := s.stream i
    if !st.role || decide (n ≤ SMap.get s.pair.lastImport key 0) || SMap.get s.pair.skipBar key 0 == n + 1 then s else
    let again := st.slots.any fun e => SMap.get s.pair.skipBar (e.1 * 2048 + e.2) 0 == n + 1
    let s := if again then s else s.count Page.mirror Reg.MR_AUDIT_SKIP
    { s with pair := { s.pair with skipBar := SMap.set s.pair.skipBar key (n + 1) 0 } }

/-! ### The words -/

/-- Slot, region number and group of a scan queue word. -/
def scanSlot (e : QEntry) : Nat := e.xa.toNat % 65536
/-- The region a scan queue word names. -/
def scanRegion (e : QEntry) : Nat := e.w.f 42 4
/-- The group a scan queue word names. -/
def scanGroup (e : QEntry) : Nat := e.w.imm.toNat % 65536
/-- Frames n of a block (R128). -/
def scanFrames (w : TileWord) : Nat := w.f 46 5 + 1
/-- The reset mask cut to frames below n (R130). -/
def scanMarks (e : QEntry) : Nat := e.xb.toNat % 2 ^ 32 % 2 ^ scanFrames e.w

/-- Number of bits set below 32. -/
def popCount (v : Nat) : Nat := ((List.range 32).filter (bitOf v)).length

/-- The carry-in row of a SCAN and the state after its read (R132, R149). -/
def State.scanCarry (s : State) (c : Nat) (e : QEntry) : List W32 × State :=
  let k := s.core c
  let w := e.w
  let zero : List W32 := List.replicate 32 0
  match w.f 57 2 with
  | 0 =>
    if bitOf (scanMarks e) 0 then (zero, s) else
    let r := s.region c (scanRegion e)
    let (codes, sc8) := k.group r (scanSlot e) (scanGroup e)
    let (ok, s) := s.groupRead c (scanRegion e) (scanSlot e) (scanGroup e) (e.ecc.headD .clean) true e.ctx.val
    (if ok then groupValues r codes sc8 else zero, s)
  | 2 => (scanRow k (w.b 65) w.td.toNat (w.f 59 5), s)
  | _ => (zero, s)

/-- SCAN (R128–R134). -/
def State.runScanWord (s : State) (c : Nat) (e : QEntry) : State :=
  let k := s.core c
  let w := e.w
  let n := scanFrames w
  let half := w.f 53 2 == 1
  let (hin, s) := s.scanCarry c e
  let rows := scanBlock (w.b 51) n (fun t => scanRow k half w.tb.toNat (if w.b 52 then 0 else t))
    (fun t => scanRow k half w.tc.toNat t) (scanMarks e) hin
  let s :=
    match w.f 55 2 with
    | 0 => s
    | o =>
      let h := o == 2
      let s := s.modCore c fun k => rows.zipIdx.foldl (fun (k : Core) (r : List W32 × Nat) => k.putRow h w.ta.toNat r.2 r.1) k
      if h then
        let t : Tally := rows.flatten.foldl (fun (t : Tally) x => t.add16 x (toFp16 x).2.1 (toFp16 x).2.2) {}
        s.tileRecord c w.ta.toNat t
      else s
  let s := s.count (Page.scan c) Reg.SC_MARK_COUNT (popCount (scanMarks e))
  if w.b 64 then
    let r := s.region c (scanRegion e)
    let (codes, sc8, t) := encodeGroup r s.free (rows.getLastD [])
    let s := { s with free := s.free + 32 }
    let s := s.writeGroup c (scanRegion e) (scanSlot e) (scanGroup e) codes sc8
    (s.noteShadow c (scanRegion e) (scanSlot e)).wbRecord c t
  else s

/-- Stored frame f of group g of a history slot (R125); +0 where its group is among the bad ones (R149). -/
def historyRow (k : Core) (r : StRegion) (x g : Nat) (bad : List Nat) (f : Nat) : List W32 :=
  let n := f * r.groups + g
  let (codes, sc8) := k.group r x n
  if bad.contains n then List.replicate 32 0 else groupValues r codes sc8

/-- Whether a reset mark cuts frame u off from frame t: it lies at r with u < r ≤ t (R136). -/
def cutOff (marks : Nat) (u : Int) (t : Nat) : Bool := (List.range (t + 1)).any fun m => bitOf marks m && decide (u < (m : Int))

/-- SSHIFT (R136). A row taken from TB is read and written as R97 and R133 do, so that a NaN becomes canonical and a subnormal zero
(DESIGN CHOICE, notes/assumptions/112.md); an FP16 row counts no saturation and replaces no tile record, since the rule names no
conversion (DESIGN CHOICE, notes/assumptions/113.md). -/
def State.runShift (s : State) (c : Nat) (e : QEntry) : State :=
  let k := s.core c
  let w := e.w
  let n := scanFrames w
  let d := w.f 67 5
  let half := w.f 53 2 == 1
  let r := s.region c (scanRegion e)
  let x := scanSlot e
  let g := scanGroup e
  let zero : List W32 := List.replicate 32 0
  let stored (u : Int) : Bool := w.b 72 && decide (u < 0) && decide (-(r.depth : Int) ≤ u)
  let frame (u : Int) : Nat := ((r.depth : Int) + u).toNat
  let reads := (List.range n).filterMap fun (t : Nat) =>
    let u : Int := (t : Int) - d
    if stored u && !cutOff (scanMarks e) u t then some (frame u * r.groups + g) else none
  let (bad, s) := s.groupReads c (scanRegion e) x true e.ctx.val reads e.ecc
  let rows := (List.range n).map fun (t : Nat) =>
    let u : Int := (t : Int) - d
    if cutOff (scanMarks e) u t then zero
    else if 0 ≤ u then scanRow k half w.tb.toNat u.toNat
    else if stored u then historyRow k r x g bad (frame u)
    else zero
  s.modCore c fun k => rows.zipIdx.foldl (fun (k : Core) (e : List W32 × Nat) => k.putRow half w.ta.toNat e.2 e.1) k

/-- SHSAVE (R137): every stored frame is converted as one group, and the counts are those of one instruction (R39). -/
def State.runSave (s : State) (c : Nat) (e : QEntry) : State :=
  let k := s.core c
  let w := e.w
  let n := scanFrames w
  let half := w.f 53 2 == 1
  let r := s.region c (scanRegion e)
  let x := scanSlot e
  let g := scanGroup e
  let marks := scanMarks e
  let last : Int := match ((List.range n).filter (bitOf marks)).getLast? with | some m => m | none => -(r.depth : Int)
  let source (f : Nat) : Int := (n : Int) - r.depth + f
  let frame (u : Int) : Nat := ((r.depth : Int) + u).toNat
  let reads := (List.range r.depth).filterMap fun f =>
    let u := source f
    if last ≤ u ∧ u < 0 then some (frame u * r.groups + g) else none
  let (bad, s) := s.groupReads c (scanRegion e) x true e.ctx.val reads e.ecc
  let (s, t) := (List.range r.depth).foldl (fun (acc : State × Tally) (f : Nat) =>
    let (s, t) := acc
    let u := source f
    if u < last then (s.writeGroup c (scanRegion e) x (f * r.groups + g) (List.replicate 32 0) 0, t)
    else
      let row := if 0 ≤ u then scanRow k half w.tb.toNat u.toNat else historyRow k r x g bad (frame u)
      let (codes, sc8, t') := encodeGroup r s.free row
      ({ s with free := s.free + 32 }.writeGroup c (scanRegion e) x (f * r.groups + g) codes sc8, t.join t')) (s, {})
  s.wbRecord c t

/-- SPZERO, SPLOAD and SPSTORE (R139). -/
def State.runPort (s : State) (c : Nat) (e : QEntry) : State :=
  let w := e.w
  let r := s.region c (scanRegion e)
  let x := scanSlot e
  let g := scanGroup e
  let k := s.core c
  let rows := List.range (w.f 59 5 + 1)
  match e.op with
  | .spload =>
    let (bad, s) := s.groupReads c (scanRegion e) x false e.ctx.val (rows.map fun i => g + i) e.ecc
    s.modCore c fun k' =>
      (rows.foldl (fun k' i =>
        let (codes, sc8) := if bad.contains (g + i) then (List.replicate 32 0, 0) else k.group r x (g + i)
        (k'.tilePut (1024 * w.ta.toNat + 32 * i) codes).tilePut (1024 * w.td.toNat + i) [sc8]) k').tilePut
          (1024 * w.td.toNat + 32) (leBytes 4 r.s2.toNat)
  | .spstore =>
    let s := rows.foldl (fun s i =>
      s.writeGroup c (scanRegion e) x (g + i) (k.tileBytes (1024 * w.ta.toNat + 32 * i) 32) (k.tileByte (1024 * w.td.toNat + i))) s
    s.noteShadow c (scanRegion e) x
  | _ =>
    let s := rows.foldl (fun s i => s.writeGroup c (scanRegion e) x (g + i) (List.replicate 32 0) 0) s
    s.noteShadow c (scanRegion e) x

/-- Whether a scan queue word reads a slot in the sense of R143: a SCAN carry-in, an SSHIFT history read, an SPLOAD. -/
def holdable (e : QEntry) : Bool :=
  match e.op with
  | .scan => e.w.f 57 2 == 0 && !bitOf (scanMarks e) 0
  | .sshift => e.w.b 72
  | .spload => true
  | _ => false

/-- Whether the read of a scan queue word must wait: its slot is not yet exported, or its import is in progress (R143). -/
def State.mustHold (s : State) (c : Nat) (e : QEntry) : Bool :=
  let key := (c, scanRegion e, scanSlot e)
  holdable e && (s.pair.unread.contains key || s.pair.importing.contains key)

/-- What a scan queue word does on core c (R139). -/
def State.runScan (s : State) (c : Nat) (e : QEntry) : State :=
  let s := if holdable e then s.shadowRead c (scanRegion e) (scanSlot e) else s
  match e.op with
  | .scan => s.runScanWord c e
  | .sshift => s.runShift c e
  | .shsave => s.runSave c e
  | _ => s.runPort c e

/-! ### Words cut short (R135, R149) -/

/-- The groups that a scan queue word writes, in their order. -/
def State.groupWrites (s : State) (c : Nat) (e : QEntry) : List Nat :=
  let r := s.region c (scanRegion e)
  match e.op with
  | .scan => if e.w.b 64 then [scanGroup e] else []
  | .shsave => (List.range r.depth).map fun f => f * r.groups + scanGroup e
  | .spzero | .spstore => (List.range (e.w.f 59 5 + 1)).map fun i => scanGroup e + i
  | _ => []

/-- A running scan queue word ended by a quench or an engine reset: some number of its group writes, none to all, have been done;
the others leave the old groups (R135, R149). Which, is a matter of cycles: a free value. -/
def State.cutWord (s : State) (c : Nat) (e : QEntry) : State :=
  match s.groupWrites c e with
  | [] => s
  | gs =>
    let (v, s) := s.draw 16
    let full := s.runScan c e
    let region := scanRegion e
    let x := scanSlot e
    (gs.take (v.toNat % (gs.length + 1))).foldl (fun s g =>
      let (codes, sc8) := (full.core c).group (s.region c region) x g
      s.writeGroup c region x g codes sc8) { s with free := full.free }

/-- The running scan queue words of core c that meet `p` end where they stand. -/
def State.cutScan (s : State) (c : Nat) (p : QEntry → Bool) : State :=
  let k := s.core c
  (k.scanQ.filter fun e => e.started && p e && !(k.held.any fun h => h.2.2.seq == e.seq)).foldl (fun s e => s.cutWord c e) s

end Sys2Proof.Machine
end

