-- ==== Sys2Proof/Machine/Quench.lean ====
section
/-!
DEFINITION. Completions of commands (R346, R347), the quench of a context (R216) and what follows from it for streams
(R178), replay (R389), compression jobs (R287, R296) and the cores that the context leaves.
-/
namespace Sys2Proof.Machine

/-- A command completes: it leaves flight, is counted, and its completion record waits to be written (R346, R347). -/
def State.complete (s : State) (q : QueueId) (id : W32) (opcode status r0 r1 : Nat) : State :=
  let s := s.count Page.queueMgr Reg.QM_CMD_COUNT
  let mine (f : InFlight) : Bool := f.queue == q && f.cmdId == id && f.opcode == BitVec.ofNat 8 opcode
  let cq := match s.qm.inFlight.find? mine with | some f => f.cq | none => (s.queue q.val).cq
  let rec_ : Completion := { cq := cq, queue := q, cmdId := id, opcode := BitVec.ofNat 8 opcode, status := BitVec.ofNat 8 status,
                             result0 := BitVec.ofNat 64 r0, result1 := BitVec.ofNat 64 r1, tDone := s.now }
  { s with qm := { s.qm with done := s.qm.done ++ [rec_], inFlight := s.qm.inFlight.eraseP mine } }

/-- The streams that name context n (R152). -/
def State.streamsOf (s : State) (n : Nat) : List Nat :=
  s.streams.filterMap fun e => if e.2.st ≠ 0 && e.2.ctx = n then some e.1 else none

/-- The copy of a stream's payload failed at byte o (R163): the bytes received end there, and REMOTE_FAIL is recorded, but for a
mirror-role entry (R362). -/
def State.copyFailed (s : State) (i o : Nat) : State :=
  let s := s.modStream i fun x => { x with admitted := x.admitted.map fun a => { a with data := a.data.take o } }
  if (s.stream i).role then s else s.addCause i 4

/-- One count of a table version released (R286): the version that carries `tag`; an old version whose count reaches
zero retires. -/
def Compression.release (e : Compression) (slot : Nat) (tag : Byte) : Compression :=
  match SMap.get e.cur slot none, SMap.get e.old slot none with
  | cur, old =>
    match cur with
    | some v =>
      if v.tag = tag then { e with cur := SMap.set e.cur slot (some { v with refs := v.refs - 1 }) none }
      else
        match old with
        | some o =>
          if o.tag = tag then
            { e with old := SMap.set e.old slot (if o.refs ≤ 1 then none else some { o with refs := o.refs - 1 }) none }
          else e
        | none => e
    | none => e

/-- The blocks of the engine that meet `f` discarded, their counts released (R287). -/
def Compression.dropBlocks (e : Compression) (f : CeBlock → Bool) : Compression :=
  let e' := (e.blocks.filter f).foldl (fun e b => match b.held with | some (slot, tag) => e.release slot tag | none => e) e
  { e' with blocks := e.blocks.filter fun b => !f b }

/-- The compression jobs of a context abandoned, with their blocks (R287, R296). -/
def Compression.abandon (e : Compression) (n : Nat) : Compression :=
  let e := e.dropBlocks fun b => e.jobs.any fun j => j.serial == b.job && j.ctx == n
  { e with jobs := e.jobs.filter fun j => j.ctx != n }

/-- A read of the compression engine ends (R290, R296): its bytes take their place, or its status is kept. -/
def Compression.landed (e : Compression) (job block off len st : Nat) (l : List Byte) : Compression :=
  { e with blocks := e.blocks.map fun b =>
      if b.job = job ∧ b.index = block then
        { b with data := if st = 0 then b.data.take off ++ bytesAt l 0 len ++ b.data.drop (off + len) else b.data,
                 left := b.left - len, st := if b.st = 0 then st else b.st }
      else b }

/-- A write of a job ends with a status other than OK (R295, R296; notes/assumptions/131.md): the job carries it, and stops where
access is denied. -/
def Compression.writeFailed (e : Compression) (job st : Nat) : Compression :=
  let e := if st = 0x0D then e.dropBlocks fun b => b.job == job else e
  { e with jobs := e.jobs.map fun j =>
      if j.serial = job then
        { j with status := if j.status = 0 then BitVec.ofNat 8 st else j.status, finished := j.finished || st == 0x0D }
      else j }

/-- A dump whose DEST fails restarts in the dump buffer from the beginning (R396). -/
def DumpJob.restart (j : DumpJob) : DumpJob := { j with dest := 0, destFailed := true, sent := none }

/-- A write of a dump to another node ends (R396). -/
def State.dumpLanded (s : State) (serial st : Nat) : State :=
  match s.hang.dumping with
  | some j =>
    match j.sent with
    | some (f, n, k) =>
      if j.serial ≠ serial then s
      else { s with hang := { s.hang with dumping := some (if st = 0 then { j with sent := some (f, n, k - 1) } else j.restart) } }
    | none => s
  | none => s

/-- A read of a load list ends (R260): its bytes take their place, or the list ends before them. -/
def State.listLanded (s : State) (list off len st : Nat) (l : List Byte) : State :=
  { s with dp := { s.dp with loads := s.dp.loads.map fun x =>
      if x.serial = list then
        { x with data := if st = 0 then x.data.take off ++ bytesAt l 0 len ++ x.data.drop (off + len) else x.data,
                 left := x.left - len,
                 bad := if st = 0 then x.bad else match x.bad with | some b => some (min b off) | none => some off }
      else x } }

/-- Context n removed from core c: its queued and running words, bank contents, latches and save area (R72, R216). A running scan
queue word leaves the group writes that it has done (R135, R149). The tiles of a core that runs the context hold unpredictable
contents from now on. -/
def State.purgeCore (s : State) (c n : Nat) : State :=
  let s := s.cutScan c fun e => e.ctx.val == n
  let k := s.core c
  let keep (q : List QEntry) : List QEntry := q.filter fun e => e.ctx.val != n
  let running := k.ctx == some (Fin.ofNat 64 n)
  let k := { k with
    matrixQ := keep k.matrixQ, vectorQ := keep k.vectorQ, scanQ := keep k.scanQ, moverQ := keep k.moverQ,
    held := k.held.filter fun h => h.2.2.ctx.val != n,
    banks := k.banks.filter fun b => b.2.owner != n,
    saved := SMap.erase k.saved n,
    ready := k.ready.filter fun m => m != n,
    stageLatch := k.stageLatch.filter fun e => e.1 / 4 != n,
    mvfail := SMap.erase k.mvfail n }
  if running then
    { s with free := s.free + 1 }.setCore c { k with
      ctx := none, blocked := none, preempt := false, atomWaited := false, cur := none,
      tiles := [], tilesFree := some s.free }
  else s.setCore c k

/-- Every transaction of context n abandoned, its tag's EPOCH incremented (R216 step 3, R331). -/
def State.abandonCtx (s : State) (n : Nat) : State :=
  let s := s.dropWaiting fun t => t.ctx == some (Fin.ofNat 64 n)
  s.fab.tags.foldl (fun s e =>
    match e.2 with
    | some t => if t.ctx = some (Fin.ofNat 64 n) then s.abandonTag e.1 else s
    | none => s) s

/-- The CTRL_FAULT value that names context n, 0 if none (R395). -/
def State.faultOf (s : State) (n : Nat) : Nat :=
  match (List.range 32).find? fun c =>
      s.fld (Page.ctrl c) Reg.CTRL_FAULT 0 8 != 0 && s.fld (Page.ctrl c) Reg.CTRL_FAULT 22 6 == n with
  | some c => (s.reg (Page.ctrl c) Reg.CTRL_FAULT).toNat
  | none => 0

/-- The bar of context n's last complete checkpoint copy; 0 if none (R388, R395). -/
def State.ckptBar (s : State) (n : Nat) : Nat := (SMap.get s.hang.ckpt n none).getD 0

/-- A replay in progress of context n fails: the context is condemned (R389, R391). -/
def State.failReplay (s : State) (n : Nat) : State :=
  match s.hang.replaying with
  | some (m, _) =>
    if m.val = n then
      let s := s.count Page.hang Reg.HG_REPLAY_FAIL_COUNT
      let s := { s with hang := { s.hang with
        replaying := none, replayFrom := s.now, condemned := s.hang.condemned ++ [n], suspects := s.hang.suspects.filter fun x => x != n } }
      s.logEvent 0x1A 0x009 (some n) (s.gen n).toNat 0 s.pattern.bar (s.ckptBar n)
    else s
  | none => s

/-- The commands that wait for context n to be QUENCHED complete: CTX_QUENCH with the new GEN, a CTX_STOP with the state
left QUENCHED (R348). -/
def State.quenchDone (s : State) (n : Nat) : State :=
  let x := s.ctx n
  let s := x.quenchReq.foldl (fun s r => s.complete r.1 r.2.1 0x33 r.2.2 (x.gen.toNat * 256) 0) s
  let s := x.stopReq.foldl (fun s r => s.complete r.1 r.2.1 0x32 0 0 0) s
  s.modCtx n fun x => { x with quenchReq := [], stopReq := [] }

/-- A quench of context n carried through (R216): the event record with the generation that is quenched, issue stopped and
words ended on every core, GEN incremented, transactions abandoned, save areas and latches discarded, state QUENCHED; the
streams of the context that are active in the bar record QUENCHED (R169, R178). A context that is not RUNNING, STOPPED or QUENCHING is left alone (R217). -/
def State.quenchNow (s : State) (n cause : Nat) : State :=
  match (s.ctx n).st with
  | .free | .quenched => s
  | _ =>
    let s := s.logEvent 0x10 0x009 (some n) (s.gen n).toNat 0x0C cause (if cause = 1 then s.faultOf n else 0)
    let on := (List.range 32).filter fun c => (s.core c).ctx == some (Fin.ofNat 64 n)
    let s := (List.range 32).foldl (fun s c => if s.cores.any fun e => e.1 == c then s.purgeCore c n else s) s
    let s := s.abandonCtx n
    let s := { s with ce := s.ce.abandon n }
    let s := s.modCtx n fun x => { x with
      st := .quenched, gen := x.gen + 1, cutoff := none, listReady := none, ends := [], cause := 0 }
    let s := (s.streamsOf n).foldl (fun s i => if (s.stream i).activeInBar then s.addCause i 6 else s) s
    let s := { s with hang := { s.hang with waits := s.hang.waits.filter fun w => w.ctx != some (Fin.ofNat 64 n) } }
    let s := s.failReplay n
    let s := s.quenchDone n
    on.foldl (fun s c => s.resched c) s

/-- The code of a quench cause in event QUENCH (R395). -/
def causeCode : QuenchCause → Nat
  | .fault => 1
  | .damagedWeight => 2
  | .hang => 3
  | .safety => 4
  | .command => 5
  | .suspect => 6

/-- QUENCH (R216): a quench that was requested is carried through under its recorded cause; otherwise `cause` names why. A
context already QUENCHED, or FREE, is left alone (R217). -/
def execQuench (ctx : CtxId) (cause : QuenchCause) (s : State) : Host.Outcome State Fault Refusal :=
  let x := s.ctx ctx.val
  .next (s.quenchNow ctx.val (if x.st = .quenching && x.cause != 0 then x.cause else causeCode cause))

end Sys2Proof.Machine
end

