-- ==== Sys2Proof/Machine/Semaphores.lean ====
section
/-!
DEFINITION. Responses to requests (R311), wait records of the hang detector (R380), and the semaphore unit: signals,
waits, grants, withdrawals and the holder table (R313, R381).
-/
namespace Sys2Proof.Machine

/-- The response to request `p`: it copies TAG, CTXF and CGEN, sets RBGEN and swaps SRC and DST (R311). -/
def State.response (s : State) (p : Packet) (ttype status : Nat) (operand : W64) (data : List Byte) : Packet :=
  { s.newPacket ttype p.src.toNat with
    tag := p.tag, epoch := p.epoch, ctx := p.ctx, cgv := p.cgv, cgen := p.cgen, rbgen := p.bgen,
    status := BitVec.ofNat 8 status, operand := operand, len := BitVec.ofNat 16 data.length,
    wlen := BitVec.ofNat 16 data.length, data := data }

/-- A response sent on VC3 (R308). -/
def State.respond (s : State) (p : Packet) (ttype status : Nat) (operand : W64) (data : List Byte) : State :=
  s.send 3 (s.response p ttype status operand data)

/-- A wait record made; with 1,024 records held the wait is not watched and counts HG_RECORD_OVF (R380). -/
def State.addWait (s : State) (w : WaitRec) : State :=
  if s.hang.waits.length < 1024 then { s with hang := { s.hang with waits := s.hang.waits ++ [w] } }
  else s.count Page.hang Reg.HG_RECORD_OVF

/-- The wait records that meet `f` removed: their waits end (R380). -/
def State.endWaits (s : State) (f : WaitRec → Bool) : State :=
  { s with hang := { s.hang with waits := s.hang.waits.filter fun w => !f w } }

/-- Work `obj` accepted by the agent of page `unit`, on behalf of `ctx` where it is a context's (R380, AGENT). -/
def State.agentWait (s : State) (unit : Nat) (obj : W64) (ctx : Option CtxId) : State :=
  if s.hang.waits.any fun w => w.kind == 5 && w.core == unit && w.obj == obj then s
  else s.addWait { kind := 5, core := unit, engine := 7, ctx := ctx, start := s.now, prog := s.now, obj := obj }

/-- Work `obj` finished by an agent: its record ends, and the agent's other work sees progress (R380). -/
def State.agentDone (s : State) (unit : Nat) (obj : W64) : State :=
  { s with hang := { s.hang with waits := s.hang.waits.filterMap fun w =>
      if w.kind = 5 ∧ w.core = unit then (if w.obj = obj then none else some { w with prog := s.now }) else some w } }

/-- A grant recorded in the holder table; a full table of 2,048 entries does not record it (R381). -/
def State.addHolder (s : State) (sem node ctx count : Nat) : State :=
  if s.fab.holders.any fun h => h.sem == sem && h.node == node && h.ctx == ctx then
    { s with fab := { s.fab with
        holders := s.fab.holders.map fun h =>
          if h.sem == sem && h.node == node && h.ctx == ctx then { h with count := h.count + count } else h } }
  else if s.fab.holders.length < 2048 then
    { s with fab := { s.fab with holders := s.fab.holders ++ [⟨sem, node, ctx, count⟩] } }
  else s.count Page.hang Reg.HG_HOLDER_OVF

/-- A count returned by a holder (R381). -/
def State.dropHolder (s : State) (sem node ctx count : Nat) : State :=
  { s with fab := { s.fab with
      holders := s.fab.holders.filterMap fun h =>
        if h.sem == sem && h.node == node && h.ctx == ctx then
          if h.count ≤ count then none else some { h with count := h.count - count }
        else some h } }

/-- A grant reaches a requester of this device: its tag is freed, so the SEMWAIT completes; a grant whose tag is no longer
outstanding is dropped (R313, R330). -/
def State.localGrant (s : State) (p : Packet) : State :=
  match s.tag p.tag.toNat with
  | some t =>
    if s.epoch p.tag.toNat = p.epoch then
      let s := s.endWaits fun w => w.kind == 2 && w.ctx == t.ctx && w.obj == t.addr
      s.freeTag p.tag.toNat
    else s.count Page.fabric Reg.FB_GEN_DROP
  | none => s.count Page.fabric Reg.FB_GEN_DROP

/-- A granted wait: the count subtracted, the holder recorded, the request answered (R313, R381). -/
def State.grant (s : State) (w : SemWaiter) : State :=
  let s := s.setSem w.sem (s.sem w.sem - BitVec.ofNat 32 w.count)
  let s := if w.req.cgv then s.addHolder w.sem w.req.src.toNat w.req.ctx.toNat w.count else s
  if w.req.src.toNat = s.node then s.localGrant w.req else s.respond w.req 0x23 0 0 []

/-- Queued waits granted in arrival order: a wait is granted when the count allows it and no older wait on the same
semaphore stays queued (R313). -/
def State.grantFrom (s : State) (ws : List SemWaiter) (blocked : List Nat) : State :=
  match ws with
  | [] => s
  | w :: r =>
    if blocked.contains w.sem then s.grantFrom r blocked
    else if w.count ≤ (s.sem w.sem).toNat then
      let s := { s with fab := { s.fab with waits := s.fab.waits.erase w } }
      (s.grant w).grantFrom r blocked
    else s.grantFrom r (w.sem :: blocked)

/-- Every queued wait that the counts allow is granted. -/
def State.grantAll (s : State) : State := s.grantFrom s.fab.waits []

/-- A signal adds `count`, holding at 0xFFFF_FFFF, which is recorded (R313); `who` names the holder that returns it. -/
def State.semSignal (s : State) (n count : Nat) (who : Option (Nat × Nat)) : State :=
  let v := (s.sem n).toNat + count
  let s := s.setSem n (BitVec.ofNat 32 (min v 0xFFFFFFFF))
  let s := if v > 0xFFFFFFFF then
      (s.count Page.semaphores Reg.SE_SAT_COUNT).pgErr Page.semaphores 0
    else s
  let s := match who with | some (node, ctx) => s.dropHolder n node ctx count | none => s
  s.grantAll

/-- A wait: granted at once when its count is available and no older wait is queued; otherwise queued, or answered BUSY
with 4,096 waits queued (R313). The answer of a local request is its status; a remote one is sent. -/
def State.semWait (s : State) (n count : Nat) (req : Packet) : Nat × State :=
  if count ≤ (s.sem n).toNat && !(s.fab.waits.any fun w => w.sem == n) then (0, s.grant ⟨n, count, req⟩)
  else if s.fab.waits.length < 4096 then
    (0, { s with fab := { s.fab with waits := s.fab.waits ++ [⟨n, count, req⟩] } })
  else
    let s := (s.count Page.semaphores Reg.SE_BUSY_COUNT).irq Page.semaphores 0
    (0x10, if req.src.toNat = s.node then s else s.respond req 0x23 0x10 0 [])

/-- A withdrawal of the wait that `node` queued under `tag`: 0 when it was removed, 1 when it had already been granted
(R313). -/
def State.semCancel (s : State) (n node tag : Nat) : Nat × State :=
  let isIt (w : SemWaiter) : Bool := w.sem == n && w.req.src.toNat == node && w.req.tag.toNat == tag
  if s.fab.waits.any isIt then
    (0, { s with fab := { s.fab with waits := s.fab.waits.filter fun w => !isIt w } }.grantAll)
  else (1, s)

/-- A signal to the semaphore at a global address: local at once, remote by SEM_SIGNAL (R312). -/
def State.signalGlobal (s : State) (a : W64) (count : Nat) (who : Option CtxId) : State :=
  if nodeOf a = s.node then
    match regionOf (localOf a) with
    | .sem n 0 => s.semSignal n count (who.map fun c => (s.node, c.val))
    | _ => s
  else
    match s.refuseRequest (nodeOf a) with
    | some _ => s
    | none =>
      let p := { s.newPacket 0x14 (nodeOf a) with
                 addr := BitVec.ofNat 64 (localOf a), operand := BitVec.ofNat 64 count }
      s.request 2 p { plainTag with ctx := who, gen := (match who with | some c => s.gen c.val | none => 0) }

end Sys2Proof.Machine
end

