-- ==== Sys2Proof/Machine/Queues.lean ====
section
/-!
DEFINITION. The queue manager: queues and their rings (R339–R341), doorbells (R342), pushes (R343), vectors (R344),
completion records (R346, R347), and the queue registers (R354, R355).
-/
namespace Sys2Proof.Machine

/-- Entries of a queue's ring (R340). -/
def Queue.entries (q : Queue) : Nat := 2 ^ q.log2
/-- Entries a queue holds: PI − CI modulo 2^32 (R340). -/
def Queue.fill (q : Queue) : Nat := (q.pi - q.ci).toNat
/-- ESIZE in bytes (R348, R355). -/
def Queue.esize (q : Queue) : Nat := 16 * (q.esize16 + 1)
/-- The slot stride: ESIZE, and 16 bytes of header for types 2–4 (R340). -/
def Queue.stride (q : Queue) : Nat := if q.qtype ≤ 1 then q.esize else q.esize + 16
/-- The global address of slot index i (R340). -/
def Queue.slotAddr (q : Queue) (i : Nat) : W64 := q.ringAddr + BitVec.ofNat 64 (i % q.entries * q.stride)
/-- PHASE of slot index i: ((i div ENTRIES) mod 2) XOR 1 (R340). -/
def Queue.phase (q : Queue) (i : Nat) : Nat := 1 - i / q.entries % 2
/-- Whether a queue is full (R340). -/
def Queue.full (q : Queue) : Bool := q.fill == q.entries

/-- The number of allocated queues (R355). -/
def State.queuesUsed (s : State) : Nat := (s.qm.queues.filter fun e => e.2.valid).length

/-- Entries arrived at a queue that may fire its vector: the count of entries not yet signalled, and the first one's
instant; COAL_COUNT entries fire it (R344). -/
def State.noteEntry (s : State) (q : Nat) : State :=
  let x := s.queue q
  if x.irqEn && (x.qtype == 1 || x.qtype == 3 || x.qtype == 4) then
    s.setQueue q { x with unsig := x.unsig + 1, firstUnsig := some (x.firstUnsig.getD s.now) }
  else s

/-- Whether a queue's count condition for firing holds (R344). -/
def Queue.fires (q : Queue) : Bool := q.valid && q.irqEn && decide (max q.coalCount 1 ≤ q.unsig)

/-- When a queue's timer fires it: COAL_US after the first entry not yet signalled (R344). -/
def Queue.firesAt (q : Queue) : Option W64 :=
  if q.valid && q.irqEn && decide (q.coalUs ≠ 0) then q.firstUnsig.map fun t => t + BitVec.ofNat 64 (usTb q.coalUs) else none

/-- A queue fires its vector; nothing stays unsignalled (R344). -/
def State.fireQueue (s : State) (q : Nat) : State :=
  (s.modQueue q fun x => { x with unsig := 0, firstUnsig := none }).fireVector (s.queue q).vec

/-- The stream that takes its input from queue q (R152). -/
def State.streamOfQueue (s : State) (q : Nat) : Option Nat :=
  (s.streams.find? fun e => e.2.st != 0 && e.2.inQueue == q).map (·.1)

/-- A dropped chunk of a stream: OVERRUN counted, and the gap set (R162, R178). -/
def State.overrun (s : State) (i : Nat) : State :=
  let s := (s.count Page.streams Reg.SM_OVERRUN_COUNT).setFlag Page.streams Reg.SM_FLAGS 1 true
  s.modStream i fun x => { x with gap := true }

/-- A push refused with a status: counted, and in the descriptor of an allocated queue (R343, R353). -/
def State.pushRefused (s : State) (q : Nat) : State :=
  let s := (s.count Page.queueMgr Reg.QM_PUSH_REFUSED_COUNT).setFlag Page.queueMgr Reg.QM_FLAGS 1 true
  if (s.queue q).valid then s.modQueue q fun x => { x with fullCount := min (x.fullCount + 1) 0xFFFF } else s

/-- The bytes of a slot header (R341). -/
def slotHeader (len src phase : Nat) (own : Bool) (t : W64) : List Byte :=
  leBytes 2 len ++ [BitVec.ofNat 8 (src % 32 + 128 * phase), BitVec.ofNat 8 (b2n own), 0, 0, 0, 0] ++ leBytes 8 t.toNat

/-- Slots of queue q that are written and not acknowledged. -/
def State.slotsOut (s : State) (q : Nat) : Nat := (s.qm.writes.filter fun w => w.queue == q).length

/-- Whether queue q has no room for a slot (R340): its entries and the slots on their way fill it. -/
def State.noRoom (s : State) (q : Nat) : Bool := decide ((s.queue q).entries ≤ (s.queue q).fill + s.slotsOut q)

/-- The writes of a slot of queue q are acknowledged (R343, R344): PI advances, and the entry has arrived. -/
def State.slotDone (s : State) (q : Nat) (pushed : Bool) : State :=
  if !(s.queue q).valid then s else
  let s := s.modQueue q fun x => { x with pi := x.pi + 1 }
  (if pushed then s.count Page.queueMgr Reg.QM_PUSH_COUNT else s).noteEntry q

/-- Slots whose writes are acknowledged take effect in order; a QPUSH is then answered OK (R343). -/
def State.slotsDone (s : State) : Nat → State
  | 0 => s
  | fuel + 1 =>
    match s.qm.writes.find? fun w => w.left == 0 && !(s.qm.writes.any fun v => v.queue == w.queue && decide (v.serial < w.serial)) with
    | none => s
    | some w =>
      let s := State.slotDone { s with qm := { s.qm with writes := s.qm.writes.filter fun v => v.serial != w.serial } } w.queue w.pushed
      let s := s.agentDone Page.queueMgr (BitVec.ofNat 64 w.serial)
      (match w.answer with | some p => s.respond p 0x21 0 0 [] | none => s).slotsDone fuel

/-- A write of a slot is acknowledged; one that ends otherwise counts alike (DESIGN CHOICE, notes/assumptions/135.md). -/
def State.slotAcked (s : State) (serial : Nat) : State :=
  State.slotsDone { s with qm := { s.qm with
    writes := s.qm.writes.map fun w => if w.serial = serial then { w with left := w.left - 1 } else w } } (s.qm.writes.length)

/-- The next slot of queue q written (R340, R343): on this device at once; on another node its entry arrives when the writes are
acknowledged, and `answer` is answered then. Whether the entry has arrived, and the state. -/
def State.writeSlotOf (s : State) (q : Nat) (pushed : Bool) (answer : Option Packet) (bytes : Nat → List Byte) : Bool × State :=
  let x := s.queue q
  let i := x.pi.toNat + s.slotsOut q
  let a := x.slotAddr i
  let l := bytes i
  if nodeOf a = s.node then (true, (s.writeSpan .sys (localOf a) l).2.slotDone q pushed)
  else
    match s.refuseRequest (nodeOf a) with
    | some _ => (true, s.slotDone q pushed)
    | none =>
      let n := s.qm.nextWrite
      let ps := pieces (localOf a) l.length
      let s : State := { s with qm := { s.qm with
        nextWrite := n + 1, writes := s.qm.writes ++ [{ serial := n, queue := q, left := ps.length, pushed := pushed, answer := answer }] } }
      let s := s.agentWait Page.queueMgr (BitVec.ofNat 64 n) none
      (false, ps.foldl (fun (s : State) (p : Nat × Nat) =>
        let k := BitVec.ofNat 16 p.2
        s.request 4 { s.newPacket 0x11 (nodeOf a) with
          addr := BitVec.ofNat 64 p.1, len := k, wlen := k, data := bytesAt l (p.1 - localOf a) p.2 }
          { plainTag with addr := BitVec.ofNat 64 p.1, len := p.2, kind := .slotWrite n }) s)

/-- A push of a payload to queue q of this device by node `src`, by the steps of R343: its status, or none while the writes of its slot
are outstanding (`answer` is then answered with them). -/
def State.pushFor (s : State) (q src : Nat) (own : Bool) (payload : List Byte) (answer : Option Packet) : Option Nat × State :=
  let x := s.queue q
  if !x.valid || decide (x.qtype ≤ 1) || (x.hostOnly && decide (src ≠ 0)) then (some 0x0D, s.pushRefused q)
  else if x.esize < payload.length then (some 0x0E, s.pushRefused q)
  else if s.noRoom q && decide (x.qtype ≠ 2) then (some 0x10, s.pushRefused q)
  else
    let s := if x.full then
        let s := s.setQueue q { x with ci := x.ci + 1, fullCount := min (x.fullCount + 1) 0xFFFF }
        match s.streamOfQueue q with
        | some i => s.overrun i
        | none => (s.count Page.streams Reg.SM_OVERRUN_COUNT).setFlag Page.streams Reg.SM_FLAGS 1 true
      else s
    let (done, s) := s.writeSlotOf q true answer fun i => slotHeader payload.length src (x.phase i) own s.now ++ payload
    (if done then some 0 else none, s)

/-- A push of this device's own (R343): its status. -/
def State.push (s : State) (q src : Nat) (own : Bool) (payload : List Byte) : Nat × State :=
  let (st, s) := s.pushFor q src own payload none
  (st.getD 0, s)

/-- A doorbell to queue q from node `src` (R342, R353): the status of the WRITE and the state. -/
def State.doorbell (s : State) (src q : Nat) (v : W64) : Nat × State :=
  let x := s.queue q
  let bad (s : State) : State :=
    (s.count Page.queueMgr Reg.QM_DB_ERR_COUNT).setFlag Page.queueMgr Reg.QM_FLAGS 2 true
  let idx : W32 := v.setWidth 32
  if !x.valid || (x.hostOnly && decide (src ≠ 0)) then (0x0D, s)
  else if x.qtype = 2 || decide (v.toNat / 2 ^ 32 ≠ 0) then (0, bad s)
  else if x.qtype = 0 then
    if (idx - x.pi).toNat ≤ x.entries ∧ (idx - x.ci).toNat ≤ x.entries then (0, s.setQueue q { x with pi := idx })
    else (0, bad s)
  else
    if (idx - x.ci).toNat ≤ x.entries ∧ (x.pi - idx).toNat ≤ x.entries then (0, s.setQueue q { x with ci := idx })
    else (0, bad s)

/-- DOORBELL (R342). -/
def execDoorbell (src : NodeId) (q : QueueId) (v : W64) (s : State) : Host.Outcome State Fault Refusal :=
  .next (s.doorbell src.val q.val v).2

/-- VECTOR_FIRE (R344): a queue whose COAL_COUNT entries have arrived fires. -/
def execVectorFire (q : QueueId) (s : State) : Host.Outcome State Fault Refusal :=
  if (s.queue q.val).fires then .next (s.fireQueue q.val) else .next s

/-- COALESCE_TIMEOUT (R344): a queue whose COAL_US have passed since its first unsignalled entry fires. -/
def execCoalesceTimeout (q : QueueId) (s : State) : Host.Outcome State Fault Refusal :=
  match (s.queue q.val).firesAt with
  | some t => .next ((s.reach t).fireQueue q.val)
  | none => .next s

/-- A write of QM_VEC_CTRL[v]: clearing MASK with PIN = 0 and PENDING set sends one WRITE and clears PENDING (R344). -/
def State.vecCtrlWrite (s : State) (v : Nat) (w : W32) : State :=
  let off := Reg.QM_VEC_CTRL + 16 * v
  let old := s.reg Page.queueMgr off
  match regAt Page.queueMgr off with
  | none => s
  | some (r, _) =>
    let s := s.setReg Page.queueMgr off (regWritten false r.fields old w)
    let new := (s.reg Page.queueMgr off).toNat
    if bitOf old.toNat 0 && !bitOf new 0 && !bitOf new 1 && bitOf new 2 then
      let s := s.setFlag Page.queueMgr off 2 false
      let a := s.reg64 Page.queueMgr (Reg.QM_VEC_ADDR_LO + 16 * v) (Reg.QM_VEC_ADDR_HI + 16 * v)
      if nodeOf a = 0 then
        s.writeRemote 4 0 (localOf a) (leBytes 4 (s.reg Page.queueMgr (Reg.QM_VEC_DATA + 16 * v)).toNat)
      else s.count Page.queueMgr Reg.QM_DB_ERR_COUNT
    else s

/-- VEC_UNMASK: MASK of vector v written 0, PIN as it is (R344). -/
def execVecUnmask (_src : NodeId) (v : Fin 128) (s : State) : Host.Outcome State Fault Refusal :=
  let pin := b2n (s.flag Page.queueMgr (Reg.QM_VEC_CTRL + 16 * v.val) 1)
  .next (s.vecCtrlWrite v.val (BitVec.ofNat 32 (2 * pin)))

/-- The 32 bytes of a completion record (R347). -/
def completionBytes (c : Completion) (phase : Nat) : List Byte :=
  leBytes 4 c.cmdId.toNat ++ [c.opcode, c.status] ++ leBytes 2 (c.queue.val + 32768 * phase) ++
  leBytes 8 c.result0.toNat ++ leBytes 8 c.result1.toNat ++ leBytes 8 c.tDone.toNat

/-- COMPLETION_WRITE (R346, R347): the oldest held record of command queue q is written into its CQ; with the CQ full it
stays held and QM_FLAGS.CQ_STALL is set. -/
def execCompletionWrite (q : QueueId) (s : State) : Host.Outcome State Fault Refusal :=
  match s.qm.done.find? fun c => c.queue == q with
  | none => .next s
  | some c =>
    let cq := c.cq
    let x := s.queue cq
    if !x.valid then .next { s with qm := { s.qm with done := s.qm.done.erase c } }
    else if s.noRoom cq then .next (s.setFlag Page.queueMgr Reg.QM_FLAGS 0 true)
    else
      .next ({ s with qm := { s.qm with done := s.qm.done.erase c } }.writeSlotOf cq false none fun i => completionBytes c (x.phase i)).2

/-- Whether a ring address is legal for a queue type: 256-byte aligned, in own DRAM or one scratchpad, or on node 0 for
types other than STREAM_IN (R339, R340). -/
def State.ringOk (s : State) (qtype : Nat) (a : W64) (bytes : Nat) : Bool :=
  let l := localOf a
  a.toNat % 256 == 0 &&
  (if nodeOf a = s.node then
     match regionOf l with
     | .dram => decide (l + bytes ≤ 0x200000000)
     | .scratch _ off => decide (off + bytes ≤ 0x400000)
     | _ => false
   else nodeOf a == 0 && decide (qtype ≠ 2))

/-- Whether ESIZE is legal for a queue type (R339). -/
def esizeOk (qtype esize : Nat) : Bool :=
  match qtype with
  | 0 => esize == 64
  | 1 => esize == 32
  | 2 | 3 => esize == 32
  | _ => decide (16 ≤ esize) && decide (esize ≤ 4096)

/-- A write of QM_ADMIN_CTRL with EN = 1 allocates queues 0 and 1 from the admin registers; a field outside its range
leaves EN at 0 and is recorded. EN = 1 already, or a write of 0, changes nothing but EN (R354, R355). -/
def State.adminEnable (s : State) (src : Nat) (v : W32) : State :=
  let shape := (s.reg Page.queueMgr Reg.QM_ADMIN_SHAPE).toNat
  let sq := s.reg64 Page.queueMgr Reg.QM_ADMIN_SQ_LO Reg.QM_ADMIN_SQ_HI
  let cq := s.reg64 Page.queueMgr Reg.QM_ADMIN_CQ_LO Reg.QM_ADMIN_CQ_HI
  let ls := bitsOf shape 0 5
  let lc := bitsOf shape 8 5
  if s.flag Page.queueMgr Reg.QM_ADMIN_CTRL 0 then s.writeRefused Page.queueMgr Reg.QM_ADMIN_CTRL src
  else if bitOf v.toNat 0 = false then s
  else if 1 ≤ ls ∧ ls ≤ 16 ∧ 1 ≤ lc ∧ lc ≤ 16 ∧ s.ringOk 0 sq (64 * 2 ^ ls) ∧ s.ringOk 1 cq (32 * 2 ^ lc) then
    let q0 : Queue := { valid := true, qtype := 0, hostOnly := true, log2 := ls, esize16 := 3, cq := 1, ringAddr := sq }
    let q1 : Queue := { valid := true, qtype := 1, hostOnly := true, log2 := lc, esize16 := 1, ringAddr := cq,
                        vec := bitsOf shape 16 7, irqEn := bitOf shape 23, coalCount := bitsOf shape 24 8 }
    ((s.setQueue 0 q0).setQueue 1 q1).setFlag Page.queueMgr Reg.QM_ADMIN_CTRL 0 true
  else s.writeRefused Page.queueMgr Reg.QM_ADMIN_CTRL src

/-- QM_ADMIN_ENABLE (R339, R355). -/
def execQmAdminEnable (src : NodeId) (v : W32) (s : State) : Host.Outcome State Fault Refusal :=
  .next (s.adminEnable src.val v)

end Sys2Proof.Machine
end

