-- ==== Sys2Proof/Machine/Rings.lean ====
section
/-!
DEFINITION. The audio rings (R220–R223): geometry, samples, block stamps, frame periods (R236), chunk slots of an output ring
(R239), and the CRC-32 of the end-to-end check (R374). The instants of the timebase and the bar grid (R181, R194) stand here
too, because stamps and slots are measured by them.
-/
namespace Sys2Proof.Machine

/-! ### Bars (R194) -/

/-- Nanoseconds from the epoch to the start of bar n. -/
def State.barLen (s : State) : Nat := s.fld Page.pattern Reg.PT_BAR_LEN 0 26
/-- The bar length B in timebase units. -/
def State.barUnits (s : State) : Nat := s.barLen * 256
/-- T_n: the start of bar n (R194). -/
def State.barStart (s : State) (n : Nat) : W64 :=
  BitVec.ofNat 64 ((s.reg64 Page.pattern Reg.PT_EPOCH_LO Reg.PT_EPOCH_HI).toNat * 256 + n * s.barUnits)

/-- The number of the bar that `now` lies in: an event stamped exactly at T belongs to the bar that T starts (R192). -/
def State.barNow (s : State) : Nat :=
  if s.pattern.running && decide ((s.barStart (s.pattern.bar + 1)).toNat ≤ s.now.toNat) then s.pattern.bar + 1 else s.pattern.bar

/-! ### CRC-32 (R374) -/

/-- One bit of the reflected CRC-32 of IEEE 802.3. -/
def crcBit (c : W32) : W32 := if c.getLsbD 0 then (c >>> 1) ^^^ 0xEDB88320 else c >>> 1
/-- One byte of the CRC. -/
def crcByte (c : W32) (b : Byte) : W32 :=
  let c := c ^^^ b.setWidth 32
  crcBit (crcBit (crcBit (crcBit (crcBit (crcBit (crcBit (crcBit c)))))))
/-- CRC-32 of a byte string. -/
def crc32 (l : List Byte) : W32 := ~~~(l.foldl crcByte 0xFFFFFFFF)

/-! ### Geometry (R220–R223) -/

/-- Whether a ring is an output ring (R220). -/
def ringIsOut (r : Nat) : Bool := (decide (12 ≤ r) && decide (r ≤ 23)) || decide (30 ≤ r)
/-- The audio port of a ring (R220). -/
def ringPort (r : Nat) : Nat :=
  if r ≤ 11 then r else if r ≤ 23 then r - 12 else if r ≤ 29 then r - 24 + 12 else r - 30 + 18
/-- The channels R220 gives a ring. -/
def ringMaxCh (r : Nat) : Nat := if r ≤ 23 then 16 else 8
/-- The input ring of a port, if it has one. -/
def inRing (p : Nat) : Option Nat := if p ≤ 11 then some p else if p ≤ 17 then some (p + 12) else none
/-- The output ring of a port, if it has one. -/
def outRing (p : Nat) : Option Nat := if p ≤ 11 then some (p + 12) else if 18 ≤ p then some (p + 12) else none

/-- A ring's descriptor. -/
structure RingShape where
  base : Nat
  frames : Nat
  nch : Nat
  block : Nat
  slot : Nat
  valid : Bool
deriving DecidableEq, Repr

/-- Ring r's descriptor from the AUDIO_BUF page (R221). -/
def State.ringShape (s : State) (r : Nat) : RingShape :=
  let p := Page.audioBuf
  let sh := (s.reg p (Reg.RING_SHAPE + 16 * r)).toNat
  { base := s.fld p (Reg.RING_BASE + 16 * r) 0 21, frames := s.fld p (Reg.RING_FRAMES + 16 * r) 0 17,
    nch := bitsOf sh 0 4 + 1, block := bitsOf sh 4 9, slot := s.fld p (Reg.RING_SLOT + 16 * r) 0 14, valid := bitOf sh 13 }

/-- Bytes of the sample data, rounded up to 256 (R221). -/
def RingShape.dataBytes (d : RingShape) : Nat := (4 * d.nch * d.frames + 255) / 256 * 256
/-- First byte of the block stamp table (R221). -/
def RingShape.stampBase (d : RingShape) : Nat := d.base + d.dataBytes
/-- Bytes of the stamp table, rounded up to 256 (R221, R222). -/
def RingShape.stampBytes (d : RingShape) : Nat := if d.block = 0 then 0 else (16 * (d.frames / d.block) + 255) / 256 * 256
/-- End of the ring in the buffer. -/
def RingShape.stop (d : RingShape) : Nat := d.base + d.dataBytes + d.stampBytes
/-- Byte of channel c of ring frame f (R221). -/
def RingShape.sampleAt (d : RingShape) (f c : Nat) : Nat := d.base + 4 * (d.nch * (f % max d.frames 1) + c)
/-- Byte of the stamp entry of block b (R221). -/
def RingShape.stampAt (d : RingShape) (b : Nat) : Nat := d.stampBase + 16 * (b % max (d.frames / max d.block 1) 1)

/-- Byte o of the audio buffer; unwritten after a chip warm reset: unpredictable (R246). -/
def State.audioByte (s : State) (o : Nat) : Byte :=
  SMap.get s.audio.buf o (s.audioDefault o)
/-- `n` bytes of the audio buffer. -/
def State.audioGet (s : State) (o n : Nat) : List Byte := (List.range n).map fun i => s.audioByte (o + i)
/-- Bytes written into the audio buffer. -/
def State.audioPut (s : State) (o : Nat) (l : List Byte) : State :=
  l.zipIdx.foldl (fun s e =>
    { s with audio := { s.audio with buf := SMap.set s.audio.buf (o + e.2) e.1 (s.audioDefault (o + e.2)) } }) s

/-- A sample of a ring. -/
def State.sample (s : State) (d : RingShape) (f c : Nat) : W32 := BitVec.ofNat 32 (leNat (s.audioGet (d.sampleAt f c) 4))
/-- A sample of a ring written. -/
def State.putSample (s : State) (d : RingShape) (f c : Nat) (v : W32) : State :=
  s.audioPut (d.sampleAt f c) (leBytes 4 v.toNat)

/-- Flags set in the entry of the block that holds ring frame f (R223). -/
def State.blockFlag (s : State) (d : RingShape) (f m : Nat) : State :=
  let o := d.stampAt (f / max d.block 1) + 12
  s.audioPut o [(s.audioByte o) ||| BitVec.ofNat 8 m]

/-- An access to the audio buffer that found an error (R222, R372). -/
def State.audioEcc (s : State) (e : Ecc) : State :=
  match e with
  | .clean => s
  | .corrected => s.correctedError Page.audioBuf Reg.AB_ECC
  | .uncorrectable => (s.countFld Page.audioBuf Reg.AB_ECC 16 16 1).raiseMech 4 none

/-! ### Frame periods, stamps and slots (R236, R239) -/

/-- The frame rate of port p in 1/4,096 Hz: the last non-zero measurement, otherwise nominal (R236). -/
def State.portRate (s : State) (p : Nat) : Nat :=
  if (s.port p).rate ≠ 0 then (s.port p).rate else s.fld (Page.audio p) Reg.AP_RATE_NOM 0 18 * 4096

/-- floor(j · P) in timebase units for frames of port p (R236). -/
def State.framesTime (s : State) (p j : Nat) : Nat :=
  let r := s.portRate p
  if r = 0 then 0 else j * 4096 * 1000000000 * 256 / r

/-- The converter bank on a ring, when enabled (R235). -/
def State.bankOf (s : State) (r : Nat) : Option Nat :=
  (List.range 3).find? fun b =>
    let v := (s.reg Page.asrc (Reg.ASRC_BANK + 16 * b)).toNat
    bitOf v 5 && bitsOf v 0 5 == r

/-- floor(j · P) for frames of ring r: on the grid of its converter bank where one is attached (R235, R236). -/
def State.ringTime (s : State) (r j : Nat) : Nat :=
  match s.bankOf r with
  | some b =>
    let hz := s.fld Page.asrc (Reg.ASRC_BANK + 16 * b) 6 18
    if hz = 0 then 0 else j * 1000000000 * 256 / hz
  | none => s.framesTime (ringPort r) j

/-- The stamp of ring frame f of an input ring, from its block's entry (R223, R236). -/
def State.frameStamp (s : State) (r f : Nat) : W64 :=
  let d := s.ringShape r
  let b := f / max d.block 1
  BitVec.ofNat 64 (leNat (s.audioGet (d.stampAt b) 8) + s.ringTime r (f - b * d.block))

/-- The stamp expected for ring frame f, which has not landed yet, from the block of the frame before it (R152, R236). -/
def State.nextStamp (s : State) (r f : Nat) : W64 :=
  let d := s.ringShape r
  let b := (f - 1) / max d.block 1
  BitVec.ofNat 64 (leNat (s.audioGet (d.stampAt b) 8) + s.ringTime r (f - b * d.block))

/-- The flags of the block entry that covers ring frame f (R223). -/
def State.frameFlags (s : State) (r f : Nat) : Nat :=
  let d := s.ringShape r
  leNat (s.audioGet (d.stampAt (f / max d.block 1) + 12) 2)

/-- The next slot that the port of output ring r takes and its take instant: a slot after the last one taken; in STARTING, slot 0
at AP_START_T or now, whichever is later; none where the port never started (R239, R244; DEDUCED, notes/assumptions/19.md). -/
def State.nextTake (s : State) (r : Nat) : Option (Nat × Nat) :=
  let p := ringPort r
  let x := s.port p
  let d := s.ringShape r
  if d.slot = 0 then none
  else match x.startT with
    | some t0 => if x.taken = 0 then some (0, t0.toNat) else some (x.taken / d.slot, x.takeT.toNat + s.ringTime r d.slot)
    | none =>
      if x.st ≠ 1 then none
      else some (0, max ((s.reg64 (Page.audio p) Reg.AP_START_T_LO Reg.AP_START_T_HI).toNat * 256) s.now.toNat)

/-- The first chunk slot of output ring r that begins at or after t, counted from the next slot the port takes; none where the port
never started (R170). -/
def State.slotAfter (s : State) (r : Nat) (t : W64) : Option Nat :=
  match s.nextTake r with
  | none => none
  | some (j, t0) =>
    let per := s.ringTime r (1000 * (s.ringShape r).slot)
    if t.toNat ≤ t0 ∨ per = 0 then some j else some (j + ((t.toNat - t0) * 1000 + per - 1) / per)

/-- Whether the take instant of slot j of an output ring has passed. -/
def State.slotPassed (s : State) (r j : Nat) : Bool :=
  decide (j * (s.ringShape r).slot < (s.port (ringPort r)).taken)

end Sys2Proof.Machine
end

