-- ==== Sys2Proof/Machine/Streams.lean ====
section
/-!
DEFINITION. The stream manager: the stream table (R152), slots (R127, R154), admission (R159–R163), work lists (R164–R168),
commit and concealment (R169–R176), and the opening, closing, resetting, parking and unparking of streams (R145, R146,
R154–R156).
-/
namespace Sys2Proof.Machine

/-! ### The table (R152) -/

/-- IN_KIND or OUT_KIND: 1 queue. -/
def kindQueue (w : W32) : Bool := bitOf w.toNat 16
/-- IN_RING or OUT_RING. -/
def ringNo (w : W32) : Nat := bitsOf w.toNat 0 5
/-- First channel. -/
def chFirst (w : W32) : Nat := bitsOf w.toNat 5 6
/-- Number of channels. -/
def chCount (w : W32) : Nat := bitsOf w.toNat 11 5 + 1

/-- The 16 words of an entry (R152). -/
def Stream.words (x : Stream) : List W32 :=
  let w (n : Nat) : W32 := BitVec.ofNat 32 n
  [w (x.st + 8 * b2n x.role + 16 * x.ctx + 2 ^ 10 * x.section_ + 2 ^ 13 * x.conceal + 2 ^ 15 * x.backlogMax +
      2 ^ 17 * b2n x.resetOnGap + 2 ^ 18 * b2n x.resetPending + 2 ^ 19 * x.concealMax),
   x.inW, x.outW, w (x.inQueue + 2 ^ 15 * x.outQueue), w (x.chunkFrames + 2 ^ 16 * x.hopFrames),
   w (x.resetAt + 2 ^ 16 * x.concealRun + 2 ^ 22 * x.lastStatus.toNat),
   w (x.nextT.toNat % 2 ^ 32), w (x.nextT.toNat / 2 ^ 32), w (x.tReset.toNat % 2 ^ 32), w (x.tReset.toNat / 2 ^ 32),
   w (x.outBufBase.toNat % 2 ^ 32), w (x.outBufBase.toNat / 2 ^ 32),
   w (x.outBufSize + 2 ^ 24 * x.outBufCountM1 + 2 ^ 28 * x.outBufNext),
   w (x.muffleGain + 2 ^ 8 * x.muffleShift + 2 ^ 11 * x.outNode), x.lastBar, 0]

/-- Recurrence frames F of a chunk (R158). -/
def Stream.recFrames (x : Stream) : Nat := x.chunkFrames / max x.hopFrames 1

/-- Whether a stream's context is best-effort. -/
def State.streamBE (s : State) (x : Stream) : Bool := s.isBE x.ctx

/-! ### Slots (R127, R154, R358) -/

/-- The (core, region) pairs that a section's streams occupy. -/
def State.sectionRegions (s : State) (sec : Nat) : List (Nat × Nat) :=
  (((s.stagesOf sec).map fun st =>
    (((List.range 32).filter fun c => bitOf st.cores.toNat c).map fun c => (st.regions.filter (· < 16)).map fun r => (c, r)).flatten).flatten).eraseDups

/-- The slots of a region that streams hold. -/
def State.slotsUsed (s : State) (c r : Nat) : List Nat :=
  (s.streams.map fun e => (e.2.slots.filter fun v => v.1 == 16 * c + r).map (·.2)).flatten

/-- Whether slot x of a region is free. -/
def State.slotFree (s : State) (c r x : Nat) : Bool :=
  decide (x < (s.region c r).nslots) && !(s.slotsUsed c r).contains x

/-- Whether a section is mirrored (R358). -/
def State.mirroredSection (s : State) (sec : Nat) : Bool :=
  (s.sectionRegions sec).any fun p => (s.region p.1 p.2).mirrored

/-- One slot in each (core, region) of a list: the lowest free slot of each, or with `same` the lowest index free in all of them
(R127, R146, R358); none if any region has none. -/
def State.allocIn (s : State) (same : Bool) (rs : List (Nat × Nat)) : Option (SMap Nat) :=
  if same then
    match (List.range 2048).find? fun x => rs.all fun p => s.slotFree p.1 p.2 x with
    | some x => some (rs.foldl (fun m p => SMap.set m (16 * p.1 + p.2) x 4096) [])
    | none => none
  else
    rs.foldl (fun m p =>
      match m, (List.range (s.region p.1 p.2).nslots).find? fun x => s.slotFree p.1 p.2 x with
      | some m, some x => some (SMap.set m (16 * p.1 + p.2) x 4096)
      | _, _ => none) (some [])

/-- The slots a new stream of a section takes (R154, R358). -/
def State.allocSlots (s : State) (sec : Nat) : Option (SMap Nat) := s.allocIn (s.mirroredSection sec) (s.sectionRegions sec)

/-- Whether one more stream keeps every stage of a section within MAXSTREAMS (R154). -/
def State.stageRoom (s : State) (sec : Nat) : Bool :=
  let n := (s.streams.filter fun e => e.2.st != 0 && e.2.st != 2 && e.2.section_ == sec).length
  (s.stagesOf sec).all fun st => decide (n < st.maxStreams)

/-! ### Chunk records (R159, R160, R171) -/

/-- A commit or chunk record. -/
structure ChunkRec where
  stream : Nat
  status : Nat
  cause : Nat
  length : Nat
  tBar : W64
  tFirst : W64
  buf : W64
deriving DecidableEq, Repr

/-- The 32 bytes of a record (R171). -/
def ChunkRec.toBytes (r : ChunkRec) : List Byte :=
  leBytes 2 r.stream ++ leBytes 1 r.status ++ leBytes 1 r.cause ++ leBytes 4 r.length ++ leBytes 8 r.tBar.toNat ++
  leBytes 8 r.tFirst.toNat ++ leBytes 8 r.buf.toNat

/-- A record read from its 32 bytes. -/
def chunkRecOf (l : List Byte) : ChunkRec :=
  { stream := natAt l 0 2, status := natAt l 2 1, cause := natAt l 3 1, length := natAt l 4 4,
    tBar := BitVec.ofNat 64 (natAt l 8 8), tFirst := BitVec.ofNat 64 (natAt l 16 8), buf := BitVec.ofNat 64 (natAt l 24 8) }

/-- The record in slot i of an input queue and its arrival stamp (R341). A slot that cannot be read holds a record that is
not OK. -/
def State.inRecord (s : State) (q i : Nat) : ChunkRec × W64 × State :=
  let x := s.queue q
  let (st, l, s) := s.readSpan .sys (localOf (x.slotAddr i)) 48
  let r := chunkRecOf (bytesAt l 16 32)
  (if st = 0 then r else { r with status := st }, BitVec.ofNat 64 (natAt l 8 8), s)

/-- The ring frame of a chunk's first frame: BUF_ADDR of a ring chunk's record (notes/assumptions/20.md). -/
def ChunkRec.ringFrame (r : ChunkRec) : Nat := r.buf.toNat

/-- Whether a held chunk is complete before k (R159, R160). -/
def State.chunkComplete (s : State) (x : Stream) (r : ChunkRec) (arrived k : W64) : Bool :=
  decide (arrived.toNat < k.toNat) &&
  (kindQueue x.inW || decide ((s.frameStamp (ringNo x.inW) (r.ringFrame + x.chunkFrames - 1)).toNat < k.toNat))

/-- The complete chunks of stream i before k, oldest first, at most `n` of them (R159, R160). -/
def State.completeAux (s : State) (i : Nat) (k : W64) : Nat → Nat → List ChunkRec × State
  | 0, _ => ([], s)
  | n + 1, idx =>
    let x := s.stream i
    let q := s.queue x.inQueue
    if q.pi.toNat = idx then ([], s) else
    let (r, t, s) := s.inRecord x.inQueue idx
    if s.chunkComplete x r t k then
      let (l, s) := s.completeAux i k n ((idx + 1) % 2 ^ 32)
      (r :: l, s)
    else ([], s)

/-- The oldest record of a stream's input queue removed. -/
def State.dropRecord (s : State) (i : Nat) : State := s.modQueue (s.stream i).inQueue fun q => { q with ci := q.ci + 1 }

/-- The oldest held chunk removed from the head of a stream's input: a returned chunk comes before the queue's records. -/
def State.dropHead (s : State) (i : Nat) : State :=
  let x := s.stream i
  match x.returned with
  | _ :: t => s.setStream i { x with returned := t }
  | [] => s.dropRecord i

/-- Before the first chunk of an open, a queue record whose chunk begins before the later of the activation boundary and T_START
is no chunk of the stream: it leaves the queue without report (R154 step 5; DESIGN CHOICE, notes/assumptions/120.md). `fuel`
bounds their number. -/
def State.dropEarly (s : State) (i : Nat) (k : W64) : Nat → State
  | 0 => s
  | fuel + 1 =>
    let x := s.stream i
    let q := s.queue x.inQueue
    if !x.firstChunk || !kindQueue x.inW || q.fill = 0 then s else
    let (r, t, s) := s.inRecord x.inQueue q.ci.toNat
    if r.status = 0 ∧ t.toNat < k.toNat ∧ r.tFirst.toNat < x.nextT.toNat then (s.dropRecord i).dropEarly i k fuel else s

/-- The held records of the input queue that arrived before the park under way; the stream still admits them (R145). -/
def State.parkLeft (s : State) (i : Nat) : Nat :=
  let x := s.stream i
  match x.waiting with
  | w :: _ =>
    let n := (w.mark - (s.queue x.inQueue).ci).toNat
    if w.op = 0x43 ∧ n < 2 ^ 31 then n else 0
  | [] => 0

/-! ### Admission (R162) -/

/-- v · 2^−31 as FP32 (R163). -/
def sampleFp (v : W32) : W32 := fpOfDyadic false v.toInt (-31)

/-- A ring chunk's input, channel-major FP32 (R163); the frames `bad` are zero (R222). -/
def State.ringInput (s : State) (x : Stream) (f0 : Nat) (bad : List Nat) : List Byte :=
  let d := s.ringShape (ringNo x.inW)
  ((List.range (chCount x.inW)).map fun c =>
    ((List.range x.chunkFrames).map fun f =>
      leBytes 4 (if bad.contains f then 0 else sampleFp (s.sample d (f0 + f) (chFirst x.inW + c))).toNat).flatten).flatten

/-- The read of a ring chunk that starts at frame f0, with the errors met in it: each is counted, and an uncorrectable one sets ECC
in its block's entry (R163, R222, R372). -/
def State.ringRead (s : State) (i f0 : Nat) (ecc : List RingFault) : List Byte × State :=
  let x := s.stream i
  let d := s.ringShape (ringNo x.inW)
  let met := ecc.filter fun e => e.stream.val == i && decide (e.frame < x.chunkFrames)
  let bad := (met.filter fun e => e.ecc == .uncorrectable).map (·.frame)
  let s := met.foldl (fun s e =>
    let s := s.audioEcc e.ecc
    if e.ecc = .uncorrectable then s.blockFlag d (f0 + e.frame) 16 else s) s
  (s.ringInput x f0 bad, s)

/-- The first stage of a section (R163). -/
def State.firstStage (s : State) (sec : Nat) : Option Stage := (s.stagesOf sec).find? fun st => st.stage == 0
/-- The final stage of a section (R164). -/
def State.finalStage (s : State) (sec : Nat) : Option Stage := (s.stagesOf sec).find? fun st => st.final

/-- The stamp of recurrence frame j of a chunk (R156). -/
def State.recFrameStamp (s : State) (x : Stream) (r : ChunkRec) (j : Nat) : Nat :=
  if kindQueue x.inW then r.tFirst.toNat + j * x.hopFrames * s.barUnits / max x.chunkFrames 1
  else (s.frameStamp (ringNo x.inW) (r.ringFrame + j * x.hopFrames)).toNat

/-- Whether the pending mark waits for the unpark: the reset and the park under way were commanded in one bar (R178). -/
def Stream.markHeld (x : Stream) : Bool :=
  x.st == 3 && (match x.waiting with | w :: _ => w.op == 0x43 && w.bar == x.resetBar | [] => false)

/-- The pending mark of a stream that falls in a chunk (R156). -/
def State.markIn (s : State) (x : Stream) (r : ChunkRec) : Option Nat :=
  if !x.resetPending || x.markHeld then none
  else if x.resetAt ≠ 0xFFFF then some x.resetAt
  else (List.range x.recFrames).find? fun j => decide (x.tReset.toNat ≤ s.recFrameStamp x r j)

/-- A read of a queue payload from another node, one READ per transaction; the replies fill the chunk (R163). -/
def State.fetchPayload (s : State) (i : Nat) (a : W64) (len : Nat) : State :=
  (pieces (localOf a) len).foldl (fun s p =>
      let pk := { s.newPacket 0x10 (nodeOf a) with addr := BitVec.ofNat 64 p.1, operand := BitVec.ofNat 64 p.2 }
      s.request 4 pk { plainTag with addr := BitVec.ofNat 64 p.1, len := p.2, kind := .streamRead i (p.1 - localOf a) }) s

/-- The input of an admitted chunk copied (R163): the bytes received, up to the first transaction that failed, and the state with
REMOTE_FAIL recorded where one did. A copy from another node is filled in by its replies. -/
def State.copyInput (s : State) (i : Nat) (r : ChunkRec) (primary : Bool) (ecc : List RingFault) : List Byte × State :=
  let x := s.stream i
  if !kindQueue x.inW then s.ringRead i r.ringFrame ecc else
  let stride := match s.firstStage x.section_ with | some st => st.inStride | none => 0
  let n := min r.length stride
  if nodeOf r.buf = s.node then
    let (st, l, s) := s.readUntil .sys (localOf r.buf) n
    (l, if st = 0 || !primary then s else s.addCause i 4)
  else
    match s.refuseRequest (nodeOf r.buf) with
    | some _ => ([], if primary then s.addCause i 4 else s)
    | none => (List.replicate n 0, s.fetchPayload i r.buf n)

/-- The oldest complete chunk admitted (R162): its mark, its copy, its retention. A chunk that a takeover or a replay returned
keeps its mark, and its input is the bytes that were retained (R161, R370, R389; DEDUCED, notes/assumptions/121.md). -/
def State.admitChunk (s : State) (i : Nat) (r : ChunkRec) (primary : Bool) (ecc : List RingFault) : State :=
  let x := s.stream i
  let old := x.returned.head?
  let pend := s.markIn x r
  let mark := if x.firstChunk || (x.gap && x.resetOnGap) then some 0 else pend.or (old.bind (·.mark))
  let s := s.dropHead i
  let s := s.modStream i fun x => { x with
    gap := false, firstChunk := false,
    resetPending := x.resetPending && pend.isNone,
    admitted := some { tFirst := r.tFirst, bufAddr := r.buf, length := BitVec.ofNat 32 r.length, status := 0,
                       bar := s.pattern.bar, mark := mark, data := [] } }
  let (l, s) := match old with | some c => (c.data, s) | none => s.copyInput i r primary ecc
  s.modStream i fun x => { x with admitted := x.admitted.map fun c => { c with data := l } }

/-- The oldest chunk of stream i dropped by the trim: OVERRUN, or for a chunk that a takeover or a replay returned one concealment
with its cause; either sets the gap (R162, R370, R389). -/
def State.trimOne (s : State) (i : Nat) : State :=
  let back := !(s.stream i).returned.isEmpty
  let s := s.dropHead i
  if back then (s.count Page.streams Reg.SM_CONCEAL_COUNT).modStream i fun x => { x with gap := true }
  else s.overrun i

/-- The trim: while more than 1 + BACKLOG_MAX chunks are complete the oldest is dropped (R162). -/
def State.trim (s : State) (i keep : Nat) : List ChunkRec → List ChunkRec × State
  | [] => ([], s)
  | c :: t => if t.length + 1 ≤ keep then (c :: t, s) else (s.trimOne i).trim i keep t

/-- A retained chunk as a record, to be admitted again (R370, R389). -/
def Chunk.toRec (c : Chunk) (i : Nat) : ChunkRec :=
  { stream := i, status := 0, cause := 0, length := c.length.toNat, tBar := 0, tFirst := c.tFirst, buf := c.bufAddr }

/-- Admission of stream i at cut-off k (R162): at most one chunk per bar (R158), and for a best-effort stream none before its last
has committed. A mirror-role entry records no cause (R362). -/
def State.admitAll (s : State) (i : Nat) (k : W64) (ecc : List RingFault) : State :=
  let s := s.dropEarly i k (s.queue (s.stream i).inQueue).fill
  let x := s.stream i
  let be := s.streamBE x
  let left := x.returned.length + s.parkLeft i
  let open_ := x.st == 1 || (x.st == 3 && decide (0 < left))
  if !open_ || x.admitted.isSome then s else
  let back := x.returned.map fun c => c.toRec i
  let q := s.queue x.inQueue
  let n := if x.st = 3 then s.parkLeft i else q.fill
  let (l, s) := s.completeAux i k n q.ci.toNat
  let (c, s) := s.trim i (1 + x.backlogMax) (back ++ l)
  match c with
  | [] => if be || x.role then s else s.addCause i 1
  | r :: _ =>
    if r.status ≠ 0 then
      let s := s.dropHead i
      if x.role then s else s.addCause i 8
    else s.admitChunk i r (!x.role) ecc

/-- Whether a stream appears on its context's work lists: a primary, or a mirror-role entry of a shadow context (R362). -/
def State.onLists (s : State) (x : Stream) : Bool :=
  !x.role ||
  (if x.ctx < 32 then s.flag Page.mirror Reg.MR_SHADOW_CTX_LO x.ctx else s.flag Page.mirror Reg.MR_SHADOW_CTX_HI (x.ctx - 32))

/-- The admission cut-off of a context (R162): every stream in ascending index order. `ecc`: the errors that the copies of ring
chunks meet (R222). -/
def State.cutoffOf (s : State) (n : Nat) (k : W64) (ecc : List RingFault) : State :=
  let s := (s.streamsOf n).foldl (fun s i => s.admitAll i k ecc) s
  let s := (s.streamsOf n).foldl (fun s i =>
    let x := s.stream i
    if x.role && !s.onLists x then
      match x.admitted with
      | some c => s.setStream i { x with admitted := none, retained := x.retained ++ [c] }
      | none => s
    else s) s
  (s.modCtx n fun x => { x with cutoff := some k, listReady := none }).agentWait Page.streams (BitVec.ofNat 64 n) (some (Fin.ofNat 64 n))

/-! ### Work lists (R164–R167) -/

/-- Scratchpad offset of a stage slot's buffer on core c for a bar (R164). -/
def State.wlOffset (s : State) (c slot bar : Nat) : Nat :=
  s.fld Page.streams (Reg.WL_BASE + 8 * c) 0 22 + (2 * slot + bar % 2) * s.fld Page.streams (Reg.WL_STRIDE + 8 * c) 0 18

/-- The streams on context n's lists of bar `bar`, in ascending order (R165). -/
def State.listStreams (s : State) (n bar : Nat) : List Nat :=
  (s.streamsOf n).filter fun i =>
    match (s.stream i).admitted with
    | some c => c.bar == bar && s.onLists (s.stream i)
    | none => false

/-- The bytes of a work list on core c (R165, R166). -/
def State.listBytes (s : State) (n c : Nat) (st : Stage) (bar : Nat) (cut : W64) (ids : List Nat) : List Byte :=
  let bm := max st.batchMax 1
  let nb := (ids.length + bm - 1) / bm
  let w (v : Nat) : List Byte := leBytes 8 v
  let head := [w (ids.length + 2 ^ 16 * nb + 2 ^ 23 * n + 2 ^ 32 * st.stage + 2 ^ 41 * (bar % 2)), w (s.barStart bar).toNat,
    w bar, w cut.toNat, w 0, w 0, w 0, w 0]
  let batches := (List.range 64).map fun b => if b < nb then w (b * bm + 2 ^ 16 * min bm (ids.length - b * bm)) else w 0
  let entries := ids.map fun i =>
    let x := s.stream i
    let mark := match x.admitted with | some a => a.mark.getD 0xFFFF | none => 0xFFFF
    let slots := ((List.range 4).map fun r =>
      (match st.regions[r]? with
       | some reg => if 16 ≤ reg then 0xFFFF else (match x.mslot with | some v => v | none => SMap.get x.slots (16 * c + reg) 0xFFFF)
       | none => 0xFFFF) * 2 ^ (16 * r)).sum
    let inb := if st.stage = 0 then (match x.admitted with | some a => a.data.length | none => 0) else 0
    w (i + 2 ^ 11 * b2n x.role + 2 ^ 16 * mark + 2 ^ 32 * x.recFrames) ++ w slots ++ w inb ++ w 0
  head.flatten ++ batches.flatten ++ entries.flatten

/-- The cores of a stage. -/
def Stage.coreList (st : Stage) : List Nat := (List.range 32).filter fun c => bitOf st.cores.toNat c

/-- Bytes cut or zero-filled to n (R163). -/
def fitBytes (l : List Byte) (n : Nat) : List Byte := bytesAt l 0 n

/-- Every list of context n for bar `bar` written, and the inputs of the first stage copied (R163, R164). -/
def State.writeLists (s : State) (n bar : Nat) (cut : W64) : State :=
  let ids := s.listStreams n bar
  let s := ids.zipIdx.foldl (fun s e => s.modStream e.1 fun x => { x with entry := e.2 }) s
  (s.stagesOf (s.ctx n).section_).foldl (fun s st =>
    st.coreList.foldl (fun s c =>
      let s := s.scratchPut c (s.wlOffset c st.slot bar) (s.listBytes n c st bar cut ids)
      if st.stage = 0 then
        ids.zipIdx.foldl (fun s e =>
          match (s.stream e.1).admitted with
          | some a =>
            s.scratchPut c (st.inBase + (bar % 2 * st.maxStreams + e.2) * st.inStride) (fitBytes a.data st.inStride)
          | none => s) s
      else s) s) s

/-- Whether a payload of a stream of context n is still being read from another node. -/
def State.readsOpen (s : State) (n : Nat) : Bool :=
  s.fab.tags.any fun e =>
    match e.2 with
    | some t => (match t.kind with | .streamRead i _ => (s.stream i).ctx == n | _ => false)
    | none => false

/-- WORK_LIST_READY (R167): the lists of a context whose cut-off acted and whose inputs have all arrived are written; cores in
BEATWAIT go on, and a best-effort context becomes ready on its cores. -/
def execWorkListReady (ctx : CtxId) (s : State) : Host.Outcome State Fault Refusal :=
  let n := ctx.val
  match (s.ctx n).cutoff with
  | none => .next s
  | some cut =>
    if (s.ctx n).listReady.isSome || s.readsOpen n then .next s else
    let bar := s.pattern.bar
    let s := s.writeLists n bar cut
    let s := s.agentDone Page.streams (BitVec.ofNat 64 n)
    let s := s.modCtx n fun x => { x with listReady := some s.now }
    let ns := min ((s.now - cut).toNat / 256) 0xFFFFF
    let s := s.setFld Page.streams Reg.SM_WL_TIME_MAX 0 20 (max (s.fld Page.streams Reg.SM_WL_TIME_MAX 0 20) ns)
    let s := if s.isBE n then
        (s.stagesOf (s.ctx n).section_).foldl (fun s st => st.coreList.foldl (fun s c => s.modCore c fun k =>
          { k with stageLatch := SMap.set k.stageLatch (4 * n + st.slot) (some { t := s.now, bar := bar }) none }) s) s
      else s
    .next ((s.ctxCores n).foldl (fun s c => s.resched c) s)

/-! ### END (R71, R168) -/

/-- Whether core c has reported END for the list of a bar and stage slot, before T where one is given (R169, R193). -/
def Ctx.ended (x : Ctx) (bar slot c : Nat) (t : Option W64) : Bool :=
  x.ends.any fun e => e.1 == bar && e.2.1 == slot && e.2.2.1 == c &&
    (match t with | some t => decide (e.2.2.2.toNat < t.toNat) | none => true)

/-- Stage END reported for the current list of core c (R71, R167, R168): verdicts become causes, unless the list is of a bar
that has ended, by an END at exactly T too (R169, R174, R193). -/
def State.reportEnd (s : State) (c : Nat) : State :=
  match (s.core c).cur with
  | none => s
  | some l =>
    let n := l.ctx.val
    let off := s.wlOffset c l.slot l.bar
    let late := !s.isBE n && l.bar != s.barNow
    let s := s.modCtx n fun x => { x with ends := if x.ended l.bar l.slot c none then x.ends else x.ends ++ [(l.bar, l.slot, c, s.now)] }
    if late then s else
    let nent := natAt (s.scratchGet c off 2) 0 2
    (List.range nent).foldl (fun s e =>
      let w := s.scratchGet c (off + 8 * (72 + 4 * e)) 32
      let verdict := natAt w 24 1
      if verdict = 0 then s else s.addCause (natAt w 0 2 % 2048) verdict) s

/-! ### Commit (R169–R171, R175, R176) -/

/-- round-to-nearest-even of u · 2^31, saturated, and whether it counts in SM_OUT_SAT_COUNT (R170). -/
def fpSample (u : W32) : Int × Bool :=
  if fpIsNaN u then (0, true)
  else if fpIsInf u then (if fpSign u then -(2 ^ 31) else 2 ^ 31 - 1, true)
  else
    let m := (fpSig u).natAbs
    let e := fpPow u + 31
    let v := if e ≥ 0 then m * 2 ^ e.toNat else rneShift m (-e).toNat
    let i : Int := if fpSign u then -(v : Int) else v
    if i > 2 ^ 31 - 1 then (2 ^ 31 - 1, true) else if i < -(2 ^ 31) then (-(2 ^ 31), true) else (i, false)

/-- Whether every core of every stage of context n reported END for bar `bar` before T (R169). -/
def State.allEnded (s : State) (n bar : Nat) (t : W64) : Bool :=
  (s.stagesOf (s.ctx n).section_).all fun st => st.coreList.all fun c => (s.ctx n).ended bar st.slot c (some t)

/-- Lists of context n for bar `bar` whose END is missing on some core at T: a stage has one list in a bar (R165, R174). -/
def State.lateLists (s : State) (n bar : Nat) (t : W64) : Nat :=
  ((s.stagesOf (s.ctx n).section_).filter fun st => st.coreList.any fun c => !(s.ctx n).ended bar st.slot c (some t)).length

/-- Bytes of a stream's output staged by the final stage, read from its lowest-numbered core (R164, R170; DESIGN CHOICE,
notes/assumptions/21.md). -/
def State.stagedOutput (s : State) (x : Stream) (n : Nat) : List Byte :=
  match s.finalStage x.section_, x.admitted with
  | some st, some a =>
    match st.coreList with
    | c :: _ => s.scratchGet c (st.outBase + (a.bar % 2 * st.maxStreams + x.entry) * st.outStride) n
    | [] => List.replicate n 0
  | _, _ => List.replicate n 0

/-- The concealed samples of one channel: the last OK chunk, kc, the last sample played (R176). -/
def concealChannel (x : Stream) (kc : Nat) (prev : List Int) (last : Int) : List Int :=
  let n := x.chunkFrames
  if x.concealMax ≠ 0 ∧ kc > x.concealMax then prev.map fun _ => 0
  else match x.conceal with
  | 0 => prev
  | 1 => if kc > 1 then prev.map fun _ => 0
         else prev.zipIdx.map fun e => (e.1 * ((65536 * (n - 1 - e.2) / n : Nat) : Int)) / 65536
  | _ =>
    let g : Nat := (List.range (kc - 1)).foldl (fun g _ => g * x.muffleGain / 256) x.muffleGain
    let step (acc : Int × List Int) (y : Int) : Int × List Int :=
      let v := acc.1 + (y - acc.1) / ((2 ^ x.muffleShift : Nat) : Int)
      (v, acc.2 ++ [v * (g : Int) / 256])
    (prev.foldl step (last, [])).2

/-- The samples written into an output ring's slot for the channels of a stream, with their CRCs (R170, R239, R374); a slot
whose take instant has passed is discarded. -/
def State.writeSlot (s : State) (x : Stream) (slot : Nat) (y : List (List Int)) : State :=
  let r := ringNo x.outW
  let d := s.ringShape r
  if s.slotPassed r slot then s else
  y.zipIdx.foldl (fun s ch =>
    let c := chFirst x.outW + ch.2
    let s := ch.1.zipIdx.foldl (fun s e => s.putSample d (slot * d.slot + e.2) c (BitVec.ofInt 32 e.1)) s
    let crc := crc32 ((ch.1.map fun v => leBytes 4 (BitVec.ofInt 32 v).toNat).flatten)
    s.modRing r fun g => { g with commitCrc := SMap.set g.commitCrc (16 * slot + c) (some crc) none }) s

/-- A ring commit of stream i, OK or concealed, into the slot of the boundary at T (R170, R176). -/
def State.commitRing (s : State) (i : Nat) (t : W64) (ok : Bool) (wasRun : Nat) : State :=
  let x := s.stream i
  let n := x.chunkFrames
  let nch := chCount x.outW
  let raw := s.stagedOutput x (4 * n * nch)
  let conv := (List.range nch).map fun c => (List.range n).map fun f => fpSample (BitVec.ofNat 32 (natAt raw (4 * (c * n + f)) 4))
  let prev := (List.range nch).map fun c => (List.range n).map fun f => (SMap.get x.prev (c * n + f) 0).toInt
  let sat := if ok then ((conv.flatten).filter (·.2)).length else 0
  let s := if sat = 0 then s else (s.count Page.streams Reg.SM_OUT_SAT_COUNT sat).setFlag Page.streams Reg.SM_FLAGS 4 true
  let y : List (List Int) :=
    if ok then
      let v := conv.map fun l => l.map (·.1)
      if x.conceal = 1 ∧ wasRun ≠ 0 then
        v.map fun l => l.zipIdx.map fun e => (e.1 * ((65536 * (e.2 + 1) / n : Nat) : Int)) / 65536
      else v
    else prev.zipIdx.map fun e => concealChannel x x.concealRun e.1 (SMap.get x.lastPlayed e.2 0).toInt
  let keep (m : SMap W32) (l : List (List Int)) : SMap W32 :=
    l.zipIdx.foldl (fun m ch => ch.1.zipIdx.foldl (fun m e => SMap.set m (ch.2 * n + e.2) (BitVec.ofInt 32 e.1) 0) m) m
  let s := s.setStream i { x with
    prev := if ok then keep [] y else x.prev,
    lastPlayed := y.zipIdx.foldl (fun m ch => SMap.set m ch.2 (BitVec.ofInt 32 (ch.1.getLastD 0)) 0) x.lastPlayed }
  let dout := s.fld (Page.audio (ringPort (ringNo x.outW))) Reg.AP_OUT_OFFSET 0 26
  match s.slotAfter (ringNo x.outW) (t + BitVec.ofNat 64 (nsTb dout)) with
  | some j => s.writeSlot x j y
  | none => s

/-- A queue commit of stream i: its payload staged for the copy and push of QUEUE_OUTPUT_COMMIT (R171). -/
def State.commitQueue (s : State) (i cause : Nat) (ok : Bool) (bar : Nat) : State :=
  let x := s.stream i
  let n := match s.finalStage x.section_ with | some st => min st.outStride x.outBufSize | none => 0
  let o : OutCommit := {
    ok := ok, cause := cause, tBar := s.barStart bar, tFirst := (match x.admitted with | some a => a.tFirst | none => 0),
    payload := if ok then s.stagedOutput x n else [] }
  (s.setStream i { x with outCommits := x.outCommits ++ [o] }).agentWait Page.streams (BitVec.ofNat 64 (4096 + i)) none

/-- Whether a context is being or has been quenched. -/
def State.ctxQuenched (s : State) (n : Nat) : Bool := (s.ctx n).st == .quenching || (s.ctx n).st == .quenched

/-- The slot that the boundary at T targets for stream i's ring, noted for the channels of a stream that was ACTIVE in the
ending bar (R170, R239). -/
def State.expectSlot (s : State) (i : Nat) (t : W64) : State :=
  let x := s.stream i
  if !x.activeInBar || x.role || kindQueue x.outW then s else
  let r := ringNo x.outW
  let dout := s.fld (Page.audio (ringPort r)) Reg.AP_OUT_OFFSET 0 26
  match s.slotAfter r (t + BitVec.ofNat 64 (nsTb dout)) with
  | some j => s.modRing r fun g => { g with
      expect := g.expect ++ ((List.range (chCount x.outW)).map fun c => 16 * j + chFirst x.outW + c) }
  | none => s

/-- The commit of stream i at boundary T that ends bar `bar` (R169, R173, R175): nothing for a stream that does not commit. A
best-effort stream with no chunk in flight commits only what the bar recorded for it: a quench, a takeover, or an input record
that was not OK (R160, R178, R370). The stages of a context that is quenched are not late: its streams record QUENCHED (R174, R178, R216). -/
def State.commitStream (s : State) (i bar : Nat) (t : W64) : State :=
  let x := s.stream i
  let be := s.streamBE x
  let held := x.st == 1 || x.st == 3 || x.st == 5
  let dead := s.ctxQuenched x.ctx
  let abar := match x.admitted with | some a => a.bar | none => bar
  let commits := held && !x.role &&
    (if !be then x.activeInBar
     else if x.admitted.isSome then dead || s.allEnded x.ctx abar t
     else x.causes.any fun c => c == 6 || c == 7 || c == 8)
  if !commits then s else
  let causes := x.causes ++ (if dead then [6] else []) ++
    (if x.admitted.isSome && !be && !dead && !s.allEnded x.ctx bar t then [2] else [])
  let causes := if x.admitted.isNone && causes.isEmpty then [1] else causes
  let ok := causes.isEmpty
  let cause := causes.foldl min 0xFF
  let cause := if ok then 0 else cause
  let was := x.concealRun
  let s := s.setStream i { x with
    concealRun := if ok then 0 else min (was + 1) 63, lastStatus := if ok then 0 else 1, lastBar := BitVec.ofNat 32 abar }
  let p := Page.streams
  let s := if ok then s else s.count p Reg.SM_CONCEAL_COUNT
  let s := if cause = 1 then (s.count p Reg.SM_LATE_COUNT).setFlag p Reg.SM_FLAGS 0 true else s
  let s := s.trace 2 (eventBytes s.now 0x41 0x005 (some x.ctx) (s.gen x.ctx).toNat (if ok then 0 else 1) 0 i abar)
  let s := if kindQueue x.outW then s.commitQueue i cause ok abar else s.commitRing i t ok was
  let keep := dead && s.hang.suspects.contains x.ctx && s.flag Page.hang Reg.HG_CTRL 2
  s.modStream i fun x => { x with
    admitted := none, causes := [],
    retained := if keep then (match x.admitted with | some a => x.retained ++ [a] | none => x.retained) else x.retained }

/-- Step 1 of R19 at T, the end of bar `bar`: late lists are counted and every stream commits in ascending order (R169, R174). -/
def State.commitAll (s : State) (bar : Nat) (t : W64) : State :=
  let late := ((List.range 64).map fun n =>
    let x := s.ctx n
    if x.st == .running && !s.isBE n && x.cutoff.isSome && x.listReady.isSome then s.lateLists n bar t else 0).sum
  let s := if late = 0 then s else
    (s.count Page.streams Reg.SM_STAGE_LATE_COUNT late).setFlag Page.streams Reg.SM_FLAGS 2 true
  (s.streams.map (·.1)).foldl (fun s i => (s.expectSlot i t).commitStream i bar t) s

/-! ### Chunk formation from rings (R159, R161) -/

/-- STATUS of the chunk of ring r's frames f0 to f0 + n − 1: CONCEALED when a block of it carries FILL or ECC (R223). -/
def State.chunkStatus (s : State) (r f0 n : Nat) : Nat :=
  let d := s.ringShape r
  let b0 := f0 / max d.block 1
  let b1 := (f0 + n - 1) / max d.block 1
  if (List.range (b1 - b0 + 1)).any fun b =>
      let fl := leNat (s.audioGet (d.stampAt (b0 + b) + 12) 2)
      bitOf fl 0 || bitOf fl 4 then 1 else 0

/-- The record of one chunk of stream i starting at ring frame f0, pushed into IN_QUEUE; a full queue drops its oldest record
with OVERRUN by R343 (R159, R178, R223). -/
def State.pushChunk (s : State) (i f0 : Nat) : State :=
  let x := s.stream i
  let r := ringNo x.inW
  let rec_ : ChunkRec := {
    stream := i, status := s.chunkStatus r f0 x.chunkFrames, cause := 0,
    length := 4 * x.chunkFrames * chCount x.inW, tBar := 0, tFirst := s.frameStamp r f0, buf := BitVec.ofNat 64 f0 }
  let (_, s) := s.push x.inQueue s.node true rec_.toBytes
  s.modStream i fun y => { y with nextF := some (f0 + x.chunkFrames), nextT := s.nextStamp r (f0 + x.chunkFrames) }

/-- The first landed ring frame stamped at or after t, within the frames the ring still holds. -/
def State.frameAt (s : State) (r landed : Nat) (t : W64) : Option Nat :=
  let d := s.ringShape r
  ((List.range (min landed d.frames)).map fun k => landed - min landed d.frames + k).find? fun f =>
    decide (t.toNat ≤ (s.frameStamp r f).toNat)

/-- The ring frame at which stream i's next chunk begins, once it has landed: the frame after the last chunk, and before the
first chunk the first frame stamped at or after NEXT_T (R152, R154, R159). -/
def State.nextStart (s : State) (x : Stream) (landed : Nat) : Option Nat :=
  match x.nextF with
  | some f => if f < landed then some f else none
  | none => s.frameAt (ringNo x.inW) landed x.nextT

/-- The chunks that stream i can form from the landed frames (R159); `fuel` bounds their number. NEXT_T takes the stamp of the
next chunk's first frame as soon as that frame has landed. -/
def State.formChunks (s : State) (i landed : Nat) : Nat → State
  | 0 => s
  | fuel + 1 =>
    let x := s.stream i
    match s.nextStart x landed with
    | some f0 =>
      if x.chunkFrames ≠ 0 ∧ f0 + x.chunkFrames ≤ landed then (s.pushChunk i f0).formChunks i landed fuel
      else s.setStream i { x with nextF := some f0, nextT := s.frameStamp (ringNo x.inW) f0 }
    | none => s

/-- Held records of stream i whose ring frames the port has overwritten are dropped with OVERRUN (R161); what a takeover or a
replay returned holds its own bytes. -/
def State.dropOverwritten (s : State) (i landed : Nat) : Nat → State
  | 0 => s
  | fuel + 1 =>
    let x := s.stream i
    let q := s.queue x.inQueue
    if q.fill = 0 then s else
    let (r, _, s) := s.inRecord x.inQueue q.ci.toNat
    if r.ringFrame + (s.ringShape (ringNo x.inW)).frames < landed then
      ((s.dropRecord i).overrun i).dropOverwritten i landed fuel
    else s

/-- New frames have landed in input ring r: chunks are formed and overwritten ones dropped, for every stream bound to it. -/
def State.ringLanded (s : State) (r landed : Nat) : State :=
  (s.streams.filterMap fun e =>
    if e.2.st != 0 && e.2.st != 6 && !kindQueue e.2.inW && ringNo e.2.inW == r then some e.1 else none).foldl
    (fun s i =>
      let s := s.formChunks i landed ((s.ringShape r).frames + 1)
      s.dropOverwritten i landed (s.queue (s.stream i).inQueue).fill) s

/-! ### Opening, activating, closing (R154, R155) -/

/-- The fields a STREAM_OPEN command gives. -/
structure OpenArgs where
  ctx : Nat
  section_ : Nat
  conceal : Nat
  backlogMax : Nat
  resetOnGap : Bool
  concealMax : Nat
  inW : W32
  outW : W32
  inQueue : Nat
  outQueue : Nat
  chunkFrames : Nat
  hopFrames : Nat
  outBufBase : W64
  outBufSize : Nat
  outBufCountM1 : Nat
  muffleGain : Nat
  muffleShift : Nat
  outNode : Nat
  tStart : W64
deriving DecidableEq, Repr

/-- Whether a ring binding of an open is bad (R224). -/
def State.bindBad (s : State) (a : OpenArgs) : Bool :=
  let inBad := !kindQueue a.inW &&
    (ringIsOut (ringNo a.inW) || !(s.ringShape (ringNo a.inW)).valid ||
     decide ((s.ringShape (ringNo a.inW)).nch ≤ chFirst a.inW + chCount a.inW - 1))
  let o := s.ringShape (ringNo a.outW)
  let outBad := !kindQueue a.outW &&
    (!ringIsOut (ringNo a.outW) || !o.valid || decide (o.nch ≤ chFirst a.outW + chCount a.outW - 1) ||
     o.slot != a.chunkFrames ||
     s.streams.any fun e =>
       e.2.st != 0 && !kindQueue e.2.outW && ringNo e.2.outW == ringNo a.outW &&
       decide (chFirst e.2.outW < chFirst a.outW + chCount a.outW) &&
       decide (chFirst a.outW < chFirst e.2.outW + chCount e.2.outW))
  inBad || outBad

/-- Whether a field of an open is bad (R154, R224). -/
def State.openBad (s : State) (a : OpenArgs) : Bool :=
  let strideBad :=
    (match s.firstStage a.section_ with
     | some st => !kindQueue a.inW && decide (st.inStride < 4 * a.chunkFrames * chCount a.inW)
     | none => false) ||
    (match s.finalStage a.section_ with
     | some st => !kindQueue a.outW && decide (st.outStride < 4 * a.chunkFrames * chCount a.outW)
     | none => false)
  (s.ctx a.ctx).st == .free || (s.ctx a.ctx).section_ != a.section_ || a.conceal == 3 ||
  a.chunkFrames == 0 || decide (12288 < a.chunkFrames) || a.hopFrames == 0 || a.chunkFrames % max a.hopFrames 1 != 0 ||
  strideBad || s.bindBad a

/-- The half of the stream table a device opens in (R154, R357): first index and end. -/
def State.ownHalf (s : State) : Nat × Nat :=
  let c := (s.reg Page.mirror Reg.MR_CTRL).toNat
  if bitOf c 0 then (if bitOf c 1 then (bitsOf c 8 11, 2048) else (0, bitsOf c 8 11)) else (0, 2048)

/-- An open (R154): status and stream index, and the state. -/
def State.openStream (s : State) (a : OpenArgs) : Nat × Nat × State :=
  let (lo, hi) := s.ownHalf
  match ((List.range (hi - lo)).map fun k => lo + k).find? fun i => (s.stream i).st == 0 with
  | none => (0x05, 0, s)
  | some i =>
    if s.openBad a then (0x0E, 0, s)
    else match s.allocSlots a.section_, s.stageRoom a.section_ with
      | some m, true =>
        (0, i, s.setStream i {
          st := 6, ctx := a.ctx, section_ := a.section_, conceal := a.conceal, backlogMax := a.backlogMax,
          resetOnGap := a.resetOnGap, concealMax := a.concealMax, inW := a.inW, outW := a.outW, inQueue := a.inQueue,
          outQueue := a.outQueue, chunkFrames := a.chunkFrames, hopFrames := a.hopFrames, outBufBase := a.outBufBase,
          outBufSize := a.outBufSize, outBufCountM1 := a.outBufCountM1, muffleGain := a.muffleGain,
          muffleShift := a.muffleShift, outNode := a.outNode, tStart := a.tStart, since := s.now, slots := m, firstChunk := true })
      | _, _ => (0x06, 0, s)

/-- The bind record of stream i sent to the partner (R361): KIND 0 ACTIVE, 1 PARKED, 2 FREE. The rule gives the record no place
for the index; it stands in bits [31:21] of word 15 (DESIGN CHOICE, notes/assumptions/40.md). -/
def State.sendBind (s : State) (i kind : Nat) (words : List W32) (slot : Nat) : State :=
  let c := (s.reg Page.mirror Reg.MR_CTRL).toNat
  if !bitOf c 0 || s.pair.st == 2 then s else
  let data := ((words.take 15).map fun w => leBytes 4 w.toNat).flatten ++ leBytes 4 (slot + 2 ^ 16 * kind + 2 ^ 21 * i)
  s.writeRemote 4 (bitsOf c 2 5) (0x40000000000 + Page.mirror * 0x1000 + Reg.MR_BIND_IN) data

/-- The slot index that a stream of a mirrored section holds in all its regions (R358). -/
def Stream.mirrorSlot (x : Stream) : Nat :=
  match x.mslot with
  | some v => v
  | none => match x.slots with | e :: _ => e.2 | [] => 0

/-- The bind record of stream i as it stands, for a primary stream of a mirrored section (R361). -/
def State.bindIfMirrored (s : State) (i kind : Nat) : State :=
  let x := s.stream i
  if x.role || !s.mirroredSection x.section_ then s
  else s.sendBind i kind ({ x with st := if kind = 2 then 0 else x.st }).words x.mirrorSlot

/-- The first waiting command of stream i completes, when its opcode is `op` (R145, R146, R155). -/
def State.finishHead (s : State) (i op status : Nat) : State :=
  let x := s.stream i
  match x.waiting with
  | [] => s
  | w :: r => if w.op = op then (s.setStream i { x with waiting := r }).complete w.queue w.cmdId op status 0 0 else s

/-- The commands of stream i that can begin or that are refused now, in their start order (R148, R153, R155, R178); `fuel`
bounds their number. A close of a free stream and a park or unpark of one answer BAD_COMMAND (notes/assumptions/92.md). -/
def State.streamNext (s : State) (i : Nat) : Nat → State
  | 0 => s
  | fuel + 1 =>
    let x := s.stream i
    let become (st : Nat) : State := s.setStream i { x with st := st, due := false, since := s.now }
    match x.waiting with
    | [] => s
    | w :: _ =>
      match w.op, x.st with
      | 0x41, 1 | 0x41, 2 => become 5
      | 0x43, 1 => become 3
      | 0x43, 2 => (s.finishHead i 0x43 0x11).streamNext i fuel
      | 0x44, 2 => become 4
      | 0x44, 1 => (s.finishHead i 0x44 0x0E).streamNext i fuel
      | _, 0 => (s.finishHead i w.op 0x0E).streamNext i fuel
      | _, _ => s

/-- The first waiting command of stream i completes with `status`, and those behind it go on. -/
def State.finishWait (s : State) (i op status : Nat) : State :=
  let s := s.finishHead i op status
  s.streamNext i ((s.stream i).waiting.length + 1)

/-- A command on stream i takes its place behind those already waiting. -/
def State.streamCmd (s : State) (i op : Nat) (q : QueueId) (id : W32) (record : W64) : State :=
  let x := s.stream i
  let w : StreamCmd := { op := op, queue := q, cmdId := id, record := record, mark := (s.queue x.inQueue).pi,
                         bar := s.barNow }
  let s := s.setStream i { x with waiting := x.waiting ++ [w] }
  if x.waiting.isEmpty then s.streamNext i 2 else s

/-- Stream i freed: slots released, held chunks discarded without report; its close completes (R155). -/
def State.freeStream (s : State) (i : Nat) : State :=
  let s := s.bindIfMirrored i 2
  let s := s.modQueue (s.stream i).inQueue fun q => { q with ci := q.pi }
  let s := s.finishHead i 0x41 0
  let rest := (s.stream i).waiting
  (s.setStream i { waiting := rest }).streamNext i (rest.length + 1)

/-- A stream whose close waits for its last commit is freed once that commit is made (R155, R171). -/
def State.closeAfter (s : State) (i : Nat) : State :=
  let x := s.stream i
  if x.st = 5 && x.due && x.outCommits.isEmpty then s.freeStream i else s

/-- The causes of the ending bar are over; those of a best-effort chunk in flight stay with it (R169, R175). -/
def State.clearCauses (s : State) (i : Nat) : State :=
  let x := s.stream i
  if x.causes = [] ∨ (s.streamBE x ∧ x.admitted.isSome) then s else s.setStream i { x with causes := [] }

/-- The changes that stream i makes at boundary T, after its commit: activation, close, and the readiness of a park or unpark
(R145, R146, R154, R155). A command stamped exactly at T waits for the next boundary (R178). -/
def State.streamBoundary (s : State) (i : Nat) (t : W64) : State :=
  let s := s.clearCauses i
  let x := s.stream i
  if 3 ≤ x.st ∧ t.toNat ≤ x.since.toNat then s else
  match x.st with
  | 5 => (s.setStream i { x with due := true, activeInBar := false }).closeAfter i
  | 6 =>
    let start := if x.tStart.toNat < t.toNat then t else x.tStart
    let s := (s.setStream i { x with st := 1, nextT := start, activeInBar := true }).bindIfMirrored i 0
    let s := s.streamNext i (x.waiting.length + 1)
    if (s.stream i).st = 5 then s.freeStream i else s
  | 3 =>
    let left := x.returned.length + s.parkLeft i
    s.setStream i { x with
      due := decide (left = 0) && x.admitted.isNone, dueT := if x.due then x.dueT else t, activeInBar := decide (0 < left) }
  | 4 => s.setStream i { x with due := true, activeInBar := false }
  | 1 => s.setStream i { x with activeInBar := true }
  | _ => s.setStream i { x with activeInBar := false }

/-- QUEUE_OUTPUT_COMMIT (R171): the oldest staged commit of a stream is copied to its buffer and its record pushed. For a
buffer or queue on another node the statuses are those its replies carried; a failure counts SM_PUSH_FAIL_COUNT. -/
def execQueueOutputCommit (st : StreamId) (copyStatus pushStatus : Byte) (s : State) : Host.Outcome State Fault Refusal :=
  let i := st.val
  let x := s.stream i
  match x.outCommits with
  | [] => .next s
  | o :: rest =>
    let s := s.setStream i { x with outCommits := rest }
    let s := if rest.isEmpty then s.agentDone Page.streams (BitVec.ofNat 64 (4096 + i)) else s
    let redirect := s.pair.st == 2 && x.outNode == s.fld Page.mirror Reg.MR_CTRL 2 5 && s.flag Page.mirror Reg.MR_CTRL 0
    let node := if redirect then s.node else x.outNode
    let a0 := x.outBufBase + BitVec.ofNat 64 (x.outBufNext * x.outBufSize)
    let a := if redirect && nodeOf a0 = x.outNode then BitVec.ofNat 64 (s.node * 2 ^ 59 + localOf a0) else a0
    let (c1, s) := if o.payload.isEmpty then (0, s) else s.writeGlobal .sys 4 a o.payload
    let cst := if c1 ≠ 0 then c1 else if o.payload.isEmpty || nodeOf a = s.node then 0 else completionCode copyStatus
    let fail (s : State) : State := (s.count Page.streams Reg.SM_PUSH_FAIL_COUNT).setFlag Page.streams Reg.SM_FLAGS 5 true
    if cst ≠ 0 then .next ((fail s).closeAfter i) else
    let (buf, s) := if o.payload.isEmpty then s.draw 64 else (a, s)
    let r : ChunkRec := { stream := i, status := if o.ok then 0 else 1, cause := o.cause, length := o.payload.length,
                          tBar := o.tBar, tFirst := o.tFirst, buf := buf }
    let (p1, s) :=
      if node = s.node then s.push x.outQueue s.node true r.toBytes
      else match s.refuseRequest node with
        | some e => (e, s)
        | none =>
          let pk := { s.newPacket 0x17 node with
            addr := BitVec.ofNat 64 x.outQueue, len := 32, wlen := 32, data := r.toBytes }
          (0, s.request 4 pk plainTag)
    let pst := if p1 ≠ 0 then p1 else if node = s.node then 0 else completionCode pushStatus
    if pst ≠ 0 then .next ((fail s).closeAfter i)
    else .next ((s.modStream i fun x => { x with outBufNext := (x.outBufNext + 1) % (x.outBufCountM1 + 1) }).closeAfter i)

/-! ### Parking (R145–R148) -/

/-- Bytes of a slot image: its L lines in line order (R142). -/
def State.slotImage (s : State) (c r x : Nat) : List Byte :=
  let g := s.region c r
  memGet (s.core c).store (32 * (g.base + x * g.lines)) (32 * g.lines)

/-- A slot image copied into a slot in one step. -/
def State.putImage (s : State) (c r x : Nat) (l : List Byte) : State :=
  let g := s.region c r
  s.modCore c fun k => { k with store := memPut k.store (32 * (g.base + x * g.lines)) (bytesAt l 0 (32 * g.lines)) }

/-- A state port's system transfer counted in ST_XFER_BYTES. -/
def State.xfer (s : State) (c n : Nat) : State := s.count (Page.port c) Reg.ST_XFER_BYTES n

/-- The park record of stream i (R147). -/
def State.parkRecord (s : State) (i : Nat) (t : W64) : List Byte :=
  let x := s.stream i
  let desc := (x.slots.map fun e =>
    let c := e.1 / 16
    let r := e.1 % 16
    [BitVec.ofNat 8 c, BitVec.ofNat 8 r, 0, 0] ++
    leBytes 4 (s.reg (Page.port c) (Reg.ST_REGION_SHAPE + 16 * r)).toNat ++ leBytes 4 (s.region c r).lines ++
    leBytes 4 (s.region c r).s2.toNat).flatten
  let desc := desc ++ List.replicate ((32 - desc.length % 32) % 32) 0
  let images := (x.slots.map fun e => s.slotImage (e.1 / 16) (e.1 % 16) e.2).flatten
  leBytes 2 1 ++ leBytes 2 i ++ leBytes 2 x.slots.length ++ [0, 0] ++ leBytes 8 t.toNat ++
  leBytes 8 (32 + desc.length + images.length) ++ List.replicate 8 0 ++ desc ++ images

/-- Whether the bar-end export has read every slot that stream i holds, and its last commit is made: steps 1 and 2 of R19 have
finished for the stream (R145). -/
def State.stepsDone (s : State) (x : Stream) : Bool :=
  x.outCommits.isEmpty && x.slots.all fun e => !s.pair.unread.contains (e.1 / 16, e.1 % 16, e.2)

/-- PARK_RECORD_WRITE (R145): the record of a stream whose park is due, as of the boundary that made it due, is written to DRAM
once steps 1 and 2 of R19 have finished for it; the slots are then released and the park completes; a pending mark will fall on
frame 0 after the unpark. A write that fails leaves the stream ACTIVE with its slots and the command completes with the status
(R148). `status` is what the write of a record on another node returned. -/
def execParkRecordWrite (st : StreamId) (status : Byte) (s : State) : Host.Outcome State Fault Refusal :=
  let i := st.val
  let x := s.stream i
  match x.waiting with
  | [] => .next s
  | w :: _ =>
    if x.st ≠ 3 || !x.due || !s.stepsDone x then .next s else
    let (e, s) := s.writeGlobal (.ctx (Fin.ofNat 64 x.ctx)) 6 w.record (s.parkRecord i x.dueT)
    let e := if e ≠ 0 ∨ nodeOf w.record = s.node then e else completionCode status
    if e ≠ 0 then
      .next ((s.setStream i { x with st := 1, due := false, activeInBar := true }).finishWait i 0x43 e)
    else
      let s := x.slots.foldl (fun s v => s.xfer (v.1 / 16) (32 * (s.region (v.1 / 16) (v.1 % 16)).lines)) s
      let s := s.bindIfMirrored i 1
      let s := s.modStream i fun y => { y with
        st := 2, slots := [], due := false, activeInBar := false, resetAt := if y.resetPending then 0 else y.resetAt }
      .next (s.finishWait i 0x43 0)

/-- The descriptors of a park record: core, region, SHAPE, LINES, S2 and the offset of the slot image (R147). -/
def parkDescs (l : List Byte) : List (Nat × Nat × Nat × Nat × Nat × Nat) :=
  let n := natAt l 4 2
  let base := 32 + (16 * n + 31) / 32 * 32
  (((List.range n).foldl (fun (acc : List (Nat × Nat × Nat × Nat × Nat × Nat) × Nat) k =>
    let o := 32 + 16 * k
    (acc.1 ++ [(natAt l o 1 % 32, natAt l (o + 1) 1 % 16, natAt l (o + 4) 4, natAt l (o + 8) 4, natAt l (o + 12) 4, acc.2)],
     acc.2 + 32 * natAt l (o + 8) 4)) ([], base)).1)

/-- The bytes of a park record before its slot images (R147). -/
def parkHeadBytes (l : List Byte) : Nat := 32 + (16 * natAt l 4 2 + 31) / 32 * 32

/-- Whether a park record matches the stream and its regions (R147). -/
def State.parkMatches (s : State) (i : Nat) (l : List Byte) : Bool :=
  natAt l 0 2 == 1 && natAt l 2 2 == i &&
  (parkDescs l).all fun d =>
    let (c, r, shape, lines, s2, _) := d
    shape == (s.reg (Page.port c) (Reg.ST_REGION_SHAPE + 16 * r)).toNat && lines == (s.region c r).lines &&
    s2 == (s.region c r).s2.toNat

/-- `n` bytes of stream i's park record from offset o: read from memory, or for a record on another node by READs on
VC6 (R308). -/
def State.readRecord (s : State) (i : Nat) (a : W64) (f : Fetched) (o n : Nat) : Nat × List Byte × State :=
  if nodeOf a = s.node then s.readSpan (.ctx (Fin.ofNat 64 (s.stream i).ctx)) (localOf a + o) n
  else s.readRemote 6 (a + BitVec.ofNat 64 o) n { f with bytes := f.bytes.drop o }

/-- UNPARK_RUN (R146): one slot is allocated in every region that the record names, the record is checked against the regions,
and its images are copied in. `f` is what the read of a record on another node returned. A record that cannot be read leaves the
stream parked, with the status of the read (DEDUCED, notes/assumptions/122.md). -/
def execUnparkRun (st : StreamId) (f : Fetched) (s : State) : Host.Outcome State Fault Refusal :=
  let i := st.val
  let x := s.stream i
  match x.waiting with
  | [] => .next s
  | w :: _ =>
    if x.st ≠ 4 || !x.due then .next s else
    let back (s : State) (e : Nat) : State := (s.modStream i fun y => { y with st := 2, due := false }).finishWait i 0x44 e
    let (e, h, s) := s.readRecord i w.record f 0 32
    if e ≠ 0 then .next (back s e) else
    let (e, h, s) := s.readRecord i w.record f 0 (parkHeadBytes h)
    if e ≠ 0 then .next (back s e) else
    let ds := parkDescs h
    match s.allocIn (s.mirroredSection x.section_) (ds.map fun d => (d.1, d.2.1)).eraseDups with
    | none => .next (back s 0x06)
    | some m =>
      if !s.parkMatches i h then .next (back s 0x0E) else
      let n := ((ds.map fun d => 32 * d.2.2.2.1)).sum
      let (e, l, s) := s.readRecord i w.record f (parkHeadBytes h) n
      if e ≠ 0 then .next (back s e) else
      let s := ds.foldl (fun s d =>
        let (c, r, _, lines, _, o) := d
        (s.putImage c r (SMap.get m (16 * c + r) 0) (bytesAt l (o - parkHeadBytes h) (32 * lines))).xfer c (32 * lines)) s
      let s := s.modStream i fun y => { y with st := 1, slots := m, due := false, activeInBar := true }
      .next ((s.bindIfMirrored i 0).finishWait i 0x44 0)

end Sys2Proof.Machine
end

