-- ==== Sys2Proof/Machine/Time.lean ====
section
/-!
DEFINITION. Time: the timebase and its servo (R181–R186), the angle timebases (R187–R191), the pattern table and its beats
(R194–R202), and the two events that change which context a core runs (R207). The bar boundary itself is in
Machine/Boundary.lean.
-/
namespace Sys2Proof.Machine

/-- Whether the pattern engine is stopped (R185). -/
def State.patternStopped (s : State) : Bool := !s.pattern.run && !s.pattern.running

/-! ### The timebase (R181–R186) -/

/-- TB_INC (R182). -/
def State.tbInc (s : State) : Nat := (s.reg Page.timebase Reg.TB_INC_LO).toNat + 2 ^ 32 * s.fld Page.timebase Reg.TB_INC_HI 0 16
/-- The nominal TB_INC (R182). -/
def nominalInc : Nat := 0x1A0AAAAAAA

/-- The port whose frame clock drives the rate: with SRC PORT, and with SRC HOST_PORT in HOLDOVER (R183). -/
def State.tbPort (s : State) : Option Nat :=
  let src := s.fld Page.timebase Reg.TB_CTRL 0 2
  if src = 2 ∨ (src = 3 ∧ s.fld Page.timebase Reg.TB_STATUS 0 2 = 3) then some (s.fld Page.timebase Reg.TB_CTRL 2 5) else none

/-- The timebase after `k` frames of port p from base `b`: 10^9 / f_nom ns each (R183). -/
def State.afterFrames (s : State) (p : Nat) (b : W64) (k : Nat) : W64 :=
  b + BitVec.ofNat 64 (k * 1000000000 * 256 / max (s.fld (Page.audio p) Reg.AP_RATE_NOM 0 18) 1)

/-- Frames that one command of port p stands for: a block landed, or for a port that only sends a slot taken. -/
def State.frameStep (s : State) (p : Nat) : Nat :=
  let rx := if p ≤ 11 then s.flag (Page.audio p) Reg.AP_FMT 14 else true
  match inRing p, outRing p with
  | some r, none => (s.ringShape r).block
  | none, some r => (s.ringShape r).slot
  | some r, some q => if rx then (s.ringShape r).block else (s.ringShape q).slot
  | none, none => 0

/-- Where the driving port's frames stop the timebase until they arrive: the end of its next block or slot (R183; DESIGN CHOICE,
notes/assumptions/124.md). -/
def State.tbBound (s : State) : Option W64 :=
  match s.tbPort, s.time.portT with
  | some p, some (q, b, k) =>
    let t := s.afterFrames p b (k + s.frameStep p)
    if p = q ∧ s.now.toNat ≤ t.toNat then some t else none
  | _, _ => none

/-- One cycle of REFCLK_SYS: TB_INC added, its fraction carried (R182); not beyond the frames of a port that drives the rate. -/
def State.tbCycle (s : State) : State :=
  let t := s.time.frac.toNat + s.tbInc
  let v := s.now + BitVec.ofNat 64 (t / 2 ^ 24)
  let v := match s.tbBound with | some b => if b.toNat < v.toNat then b else v | none => v
  { s with time := { s.time with tb := v, frac := BitVec.ofNat 24 t } }

/-- A write of TB_SET_HI (R218); with the pattern engine not stopped it is ignored and recorded (R185). -/
def State.tbSetHi (s : State) (src : Nat) (v : W32) : State :=
  if s.patternStopped then { s with time := { s.time with setHi := v } }
  else s.writeRefused Page.timebase Reg.TB_SET_HI src

/-- A write of TB_SET_LO sets the timebase (R185, R218). -/
def State.tbSet (s : State) (src : Nat) (v : W32) : State :=
  if s.patternStopped then { s with time := { s.time with tb := s.time.setHi ++ v } }
  else s.writeRefused Page.timebase Reg.TB_SET_LO src

/-- TB_SET (R185). -/
def execTbSet (src : NodeId) (v : W32) (s : State) : Host.Outcome State Fault Refusal := .next (s.tbSet src.val v)

/-- The servo trims TB_INC: a free value within ±TB_SLEW_LIMIT of nominal, because no rule states the loop (R182, R185). -/
def State.trim_ (s : State) : State :=
  let d := nominalInc * s.fld Page.timebase Reg.TB_SLEW_LIMIT 0 10 / 1000000
  let (v, s) := s.draw 48
  let k := v.toNat % (2 * d + 1)
  let inc := nominalInc - d + k
  let s := s.setReg Page.timebase Reg.TB_INC_LO (BitVec.ofNat 32 inc)
  let s := s.setFld Page.timebase Reg.TB_INC_HI 0 16 (inc / 2 ^ 32)
  s.setFlag Page.timebase Reg.TB_STATUS 3 (k == 0 || k == 2 * d)

/-- `n` frames of port p have passed. Where its frame clock drives the rate, the timebase stands 10^9 / f_nom ns further for each, and
the servo trims TB_INC to that rate (R183). A timebase already beyond that is never set back (R185): the count of frames begins
anew. -/
def State.portFrames (s : State) (p n : Nat) : State :=
  if s.tbPort ≠ some p then s else
  match s.time.portT with
  | some (q, b, k) =>
    let t := s.afterFrames p b (k + n)
    if q = p ∧ s.now.toNat ≤ t.toNat then { s with time := { s.time with tb := t, portT := some (p, b, k + n) } }.trim_
    else { s with time := { s.time with portT := some (p, s.now, 0) } }
  | none => { s with time := { s.time with portT := some (p, s.now, 0) } }

/-- TB_STATUS.LOCK. -/
def State.lock (s : State) : Nat := s.fld Page.timebase Reg.TB_STATUS 0 2

/-- The lock state left for another; an exit from LOCKED is counted, and HOLDOVER starts the count of good updates anew (R184). -/
def State.setLock (s : State) (l : Nat) : State :=
  let s' := s.setFld Page.timebase Reg.TB_STATUS 0 2 l
  let s' := if l = 3 then { s' with time := { s'.time with good := 0 } } else s'
  if s.lock = 2 ∧ l ≠ 2 then s'.count Page.timebase Reg.TB_LOCK_LOSS_COUNT else s'

/-- One update of the servo with a measured offset in 1/256 ns (R184, R185). -/
def State.servoUpdate (s : State) (off : Int) : State :=
  let p := Page.timebase
  let held : Int := if off > 2 ^ 31 - 1 then 2 ^ 31 - 1 else if off < -(2 ^ 31) then -(2 ^ 31) else off
  let s := s.setReg p Reg.TB_OFFSET (BitVec.ofInt 32 held)
  let mag := off.natAbs
  let good := if mag ≤ 20 * 256 then min (s.time.good + 1) 8 else 0
  let s := { s with time := { s.time with good := good } }
  let s :=
    if s.lock = 2 then (if mag > 40 * 256 then s.setLock 1 else s)
    else s.setLock (if s.lock ≠ 3 && good == 8 then 2 else 1)
  if s.fld p Reg.TB_STEP_THRESH 0 24 * 256 ≤ mag then
    if s.patternStopped && s.flag p Reg.TB_CTRL 7 then
      { s with time := { s.time with tb := s.now + BitVec.ofInt 64 off } }
    else (s.setFlag p Reg.TB_STATUS 2 true).trim_
  else s.trim_

/-- TB_HOLD_LIMIT_EXPIRY (R184): LOCKED ends in HOLDOVER. -/
def execTbHoldLimitExpiry (s : State) : Host.Outcome State Fault Refusal :=
  if s.lock = 2 then
    let ms := max 1 (s.fld Page.timebase Reg.TB_HOLD_LIMIT 0 16)
    .next ((s.reach (s.fab.syncAt + BitVec.ofNat 64 (usTb (1000 * ms)))).setLock 3)
  else .next s

/-- The frame clock of port p is gone: with SRC PORT the timebase is in HOLDOVER at the last TB_INC, and a port that carried
HOST_PORT through a HOLDOVER leaves it at that rate (R183). -/
def State.tbPortLost (s : State) (p : Nat) : State :=
  if s.tbPort ≠ some p then s else
  let s := { s with time := { s.time with portT := none } }
  if s.fld Page.timebase Reg.TB_CTRL 0 2 = 2 then s.setLock 3 else s

/-! ### Angles (R187–R191) -/

/-- ANG_CTRL of angle a. -/
def State.angCtrl (s : State) (a : Nat) : Nat := (s.reg Page.angle (Reg.ANG_CTRL + 0x40 * a)).toNat
/-- MODE (R187). -/
def State.angMode (s : State) (a : Nat) : Nat := bitsOf (s.angCtrl a) 0 2
/-- N: positions per revolution (R188). -/
def State.angN (s : State) (a : Nat) : Nat := bitsOf (s.angCtrl a) 3 10 + 1
/-- Positions that a gap spans (R188). -/
def State.angGap (s : State) (a : Nat) : Nat := bitsOf (s.angCtrl a) 13 2 + 1
/-- The shortest pulse that counts, ns (R188). -/
def State.angFilter (s : State) (a : Nat) : Nat := bitsOf (s.angCtrl a) 15 8 * 10

/-- The fraction of a revolution at tooth position j (R188). -/
def toothAngle (n j : Nat) : Nat := 65536 * j / n

/-- ANG_NOW[a]: interpolated, extrapolated or held (R189–R191). -/
def State.angleNow (s : State) (a : Nat) : W32 :=
  let x := s.angle a
  if x.st ≠ 2 then x.held
  else if s.angMode a = 3 then
    match x.applied with
    | none => x.held
    | some (t, ang, rate) =>
      let e := ang + BitVec.ofNat 32 (rate.toNat * (s.now - t).toNat / (256 * 1000000000))
      if (e - x.held).toNat < 2 ^ 31 then e else x.held
  else
    let n := s.angN a
    let step := toothAngle n (x.pos + 1) - toothAngle n x.pos
    let d := if x.period = 0 then 0 else 65536 * (s.now - x.tTooth).toNat * x.span / (n * x.period)
    x.theta + BitVec.ofNat 32 (min d (step - 1))

/-- ANG_RATE[a] in 16.16 revolutions per second (R189–R191). -/
def State.angleRate (s : State) (a : Nat) : W32 :=
  let x := s.angle a
  if x.st = 0 ∨ x.st = 3 then 0
  else if s.angMode a = 3 then (match x.applied with | some (_, _, r) => if x.st = 2 then r else 0 | none => 0)
  else if x.period = 0 then 0
  else BitVec.ofNat 32 (min (65536 * 256000000000 * x.span / (s.angN a * x.period)) 0xFFFFFFFF)

/-- One counted tooth edge at `now` (R188, R189, R191). -/
def State.tooth (s : State) (a : Nat) : State :=
  let x := s.angle a
  let n := s.angN a
  let first := x.st == 3 && !x.resuming
  let per := if x.teeth = 0 || first then 0 else (s.now - x.tTooth).toNat
  let gap := s.angMode a == 2 && x.period != 0 && decide (3 * x.period < 2 * per)
  let span := if gap then s.angGap a else 1
  let zero := if s.angMode a = 1 then x.indexSeen else gap
  let cnt := x.counted + span
  let s := if zero && x.seenZero && cnt != n then s.count Page.angle (Reg.ANG_SYNC_ERR_COUNT + 0x40 * a) else s
  let up (v : Nat) : Nat := (v + 65535) / 65536 * 65536
  let base : W32 := x.theta - BitVec.ofNat 32 (toothAngle n x.pos)
  let theta : W32 :=
    if zero then
      if x.seenZero then base + BitVec.ofNat 32 (max 65536 (up (toothAngle n x.pos))) else BitVec.ofNat 32 (up x.held.toNat)
    else base + BitVec.ofNat 32 (toothAngle n (x.pos + span))
  let s := s.setAngle (a + 2) x
  s.setAngle a { x with
    st := if first then 3 else if zero || x.seenZero then 2 else 1,
    resuming := first,
    theta := if zero || x.seenZero then theta else x.theta, tTooth := s.now, period := per, span := span,
    pos := if zero then 0 else if x.seenZero then x.pos + span else 0, counted := if zero then 0 else cnt,
    seenZero := x.seenZero || zero, indexSeen := if s.angMode a = 1 then false else x.indexSeen, teeth := x.teeth + 1 }

/-- ANG_TOOTH (R188): an edge of the selected polarity and of a long enough pulse, in a pin mode. -/
def execAngTooth (a : Fin 2) (falling : Bool) (widthNs : Nat) (s : State) : Host.Outcome State Fault Refusal :=
  let m := s.angMode a.val
  if (m = 1 || m = 2) && (falling == bitOf (s.angCtrl a.val) 2) && decide (s.angFilter a.val ≤ widthNs) then .next (s.tooth a.val)
  else .next s

/-- An edge on ANG_INDEX: the next tooth is position 0. A tooth stamped at this very instant comes after the edge: it is taken back,
and becomes position 0 unless it was that already (R191). -/
def State.index (s : State) (a : Nat) : State :=
  let x := s.angle a
  if x.teeth = 0 ∨ x.tTooth ≠ s.now then s.setAngle a { x with indexSeen := true }
  else if x.seenZero ∧ x.pos = 0 then s
  else (s.setAngle a { s.angle (a + 2) with indexSeen := true }).tooth a

/-- ANG_INDEX (R188, R191). -/
def execAngIndex (a : Fin 2) (widthNs : Nat) (s : State) : Host.Outcome State Fault Refusal :=
  if s.angMode a.val = 1 && decide (s.angFilter a.val ≤ widthNs) then .next (s.index a.val) else .next s

/-- The instant of the last tooth edge or host sample of angle a (R191). -/
def State.angLast (s : State) (a : Nat) : W64 :=
  let x := s.angle a
  if s.angMode a = 3 then (match x.applied with | some (t, _, _) => t | none => s.now)
  else if x.teeth = 0 then s.now else x.tTooth

/-- ANG_TIMEOUT (R191): ANG_TIMEOUT after the last edge or sample, rate 0, angle held, STOPPED, and the ANG_STOP event. -/
def execAngTimeout (a : Fin 2) (s : State) : Host.Outcome State Fault Refusal :=
  let x := s.angle a.val
  if x.st = 1 ∨ x.st = 2 then
    let ms := max 1 (s.fld Page.angle (Reg.ANG_TIMEOUT + 0x40 * a.val) 0 16)
    let s := s.reach (s.angLast a.val + BitVec.ofNat 64 (usTb (1000 * ms)))
    .next ((s.setAngle a.val { x with st := 3, held := s.angleNow a.val, resuming := false, period := 0 }).irq Page.angle a.val)
  else .next s

/-- A write of 1 to ANG_HS_COMMIT[a] (R190, R191). -/
def State.angCommit (s : State) (a : Nat) : State :=
  if s.angMode a ≠ 3 then s else
  let o := 0x40 * a
  let t := s.reg64 Page.angle (Reg.ANG_HS_T_LO + o) (Reg.ANG_HS_T_HI + o)
  let x := s.angle a
  let stale := match x.applied with | some (t0, _, _) => decide (t.toNat ≤ t0.toNat) | none => false
  if stale then s.count Page.angle (Reg.ANG_STALE_COUNT + o)
  else s.setAngle a { x with
    waiting := some (t, s.reg Page.angle (Reg.ANG_HS_ANGLE + o), s.reg Page.angle (Reg.ANG_HS_RATE + o)) }

/-- ANG_HS_COMMIT (R190). -/
def execAngHsCommit (_src : NodeId) (a : Fin 2) (s : State) : Host.Outcome State Fault Refusal := .next (s.angCommit a.val)

/-- ANG_SAMPLE_APPLY (R190): the waiting sample takes effect at its time. -/
def execAngSampleApply (a : Fin 2) (s : State) : Host.Outcome State Fault Refusal :=
  let x := s.angle a.val
  match x.waiting with
  | some (t, ang, rate) =>
    if s.angMode a.val = 3 then
      let s := s.reach t
      .next (s.setAngle a.val { x with held := s.angleNow a.val, st := 2, waiting := none, applied := some (t, ang, rate) })
    else .next s
  | none => .next s

/-- A change of MODE: SEARCH with the angle held; OFF is state OFF (R191). -/
def State.angModeChanged (s : State) (a : Nat) (held : W32) : State :=
  s.setAngle a { st := if s.angMode a = 0 then 0 else 1, held := held }

/-! ### The pattern table (R196–R201) -/

/-- Word w of entry e of a bank. -/
def State.ptWord (s : State) (bank : Bool) (e w : Nat) : W32 := SMap.get s.pattern.table (2048 * b2n bank + 4 * e + w) 0
/-- The four words of an entry. -/
def State.ptEntry (s : State) (bank : Bool) (e : Nat) : List Nat := (List.range 4).map fun w => (s.ptWord bank e w).toNat
/-- A word of an entry written. -/
def State.ptPut (s : State) (bank : Bool) (e w : Nat) (v : W32) : State :=
  { s with pattern := { s.pattern with table := SMap.set s.pattern.table (2048 * b2n bank + 4 * e + w) v 0 } }

/-- PT_ENTRY_SEL: entry and bank. -/
def State.ptSel (s : State) : Nat × Bool := (s.fld Page.pattern Reg.PT_ENTRY_SEL 0 9, s.flag Page.pattern Reg.PT_ENTRY_SEL 9)

/-- A write of PT_ENTRY[w] (R200). -/
def State.ptEntryWrite (s : State) (src w : Nat) (v : W32) : State :=
  let (e, b) := s.ptSel
  if b = s.pattern.bank || s.pattern.pendingSwitch then s.writeRefused Page.pattern (Reg.PT_ENTRY + 4 * w) src
  else if w < 3 then { s with pattern := { s.pattern with held := SMap.set s.pattern.held w v 0 } }
  else
    let s := [0, 1, 2].foldl (fun s k => s.ptPut b e k (SMap.get s.pattern.held k 0)) s
    let s := s.ptPut b e 3 v
    { s with pattern := { s.pattern with held := [] } }

/-- PT_ENTRY_WRITE (R200). -/
def execPtEntryWrite (src : NodeId) (i : Fin 4) (v : W32) (s : State) : Host.Outcome State Fault Refusal :=
  .next (s.ptEntryWrite src.val i.val v)

/-- A write of PT_ENTRY_SEL clears the held words (R200). -/
def State.ptSelWrite (s : State) (v : W32) : State :=
  let s := s.setFld Page.pattern Reg.PT_ENTRY_SEL 0 10 v.toNat
  { s with pattern := { s.pattern with held := [] } }

/-- PT_ENTRY_SEL_WRITE (R200). -/
def execPtEntrySelWrite (_src : NodeId) (v : W32) (s : State) : Host.Outcome State Fault Refusal := .next (s.ptSelWrite v)

/-- The bits that a beat type uses in words 0–2, beside TYPE; none for an illegal type (R196, R197). -/
def beatMask (type : Nat) : Option (Nat × Nat × Nat) :=
  match type with
  | 0 => some (0, 0, 0)
  | 1 => some (0x3FFFFFF, 0xFF, 0xFFFFFFFF)
  | 2 => some (0x3FFFFFF, 0x3F, 0)
  | 3 => some (0x3FFFFFF, 0xFF3F, 0xFFFFFFFF)
  | 4 => some (0x3FFFFFF, 0, 0xFFFFFF)
  | 5 => some (0x3FFFFFF, 0x10000, 0)
  | _ => none

/-- Whether an entry fails check FIELD (R201). -/
def beatFieldBad (w : List Nat) : Bool :=
  match beatMask (bitsOf (w.getD 0 0) 28 4) with
  | none => true
  | some (m0, m1, m2) =>
    let spare (v m : Nat) : Bool := (v &&& (0xFFFFFFFF - m)) != 0
    spare (bitsOf (w.getD 0 0) 0 28) m0 || spare (w.getD 1 0) m1 || spare (w.getD 2 0) m2 || w.getD 3 0 != 0

/-- The first failure of a bank from entry e on: code and entry (R201). `prev` is the offset before, `mirrors` the MIRROR
beats met. -/
def State.bankCheck (s : State) (bank : Bool) (e prev mirrors : Nat) : Nat → Option (Nat × Nat)
  | 0 => none
  | fuel + 1 =>
    let w := s.ptEntry bank e
    let type := bitsOf (w.getD 0 0) 28 4
    let off := bitsOf (w.getD 0 0) 0 26
    if type = 0 then (if beatFieldBad w then some (3, e) else none)
    else if off < prev then some (1, e)
    else if s.barLen ≤ off then some (2, e)
    else if beatFieldBad w then some (3, e)
    else if type = 5 ∧ (mirrors ≠ 0 ∨ off ≠ 0) then some (4, e)
    else s.bankCheck bank (e + 1) off (if type = 5 then mirrors + 1 else mirrors) fuel

/-- A switch request (R201): 0 pending now, BUSY with one pending already, or BAD_COMMAND with the failure. -/
def State.requestSwitch (s : State) : Nat × Nat × State :=
  if s.pattern.pendingSwitch then (0x10, 0, s) else
  match s.bankCheck (!s.pattern.bank) 0 0 0 512 with
  | some (code, e) =>
    let s := (s.setFld Page.pattern Reg.PT_STATUS 3 4 code).setFld Page.pattern Reg.PT_STATUS 7 9 e
    (0x0E, code + 256 * e, s)
  | none => (0, 0, { s with pattern := { s.pattern with pendingSwitch := true, switchT := s.now } })

/-- A write of 1 to SWITCH_REQ; a second request is ignored and recorded (R201, R202). -/
def State.switchWrite (s : State) (src : Nat) : State :=
  let (st, _, s) := s.requestSwitch
  if st = 0x10 then s.writeRefused Page.pattern Reg.PT_CTRL src else s

/-- SWITCH_REQ (R201). -/
def execSwitchReq (src : NodeId) (s : State) : Host.Outcome State Fault Refusal := .next (s.switchWrite src.val)

/-- The first bar that starts at least 10 µs after now (R194). -/
def State.firstBar (s : State) : Nat :=
  let t := s.now.toNat + usTb 10
  let e := (s.reg64 Page.pattern Reg.PT_EPOCH_LO Reg.PT_EPOCH_HI).toNat * 256
  let b := max s.barUnits 1
  if t ≤ e then 0 else (t - e + b - 1) / b

/-- A write of PT_CTRL.RUN (R194): 1 fixes the start instant, 0 asks for the stop at the next boundary; before the first
boundary a stop takes effect at once. -/
def State.runWrite (s : State) (run : Bool) : State :=
  if run then
    if s.pattern.run then s
    else if s.pattern.running then { s with pattern := { s.pattern with run := true } }
    else { s with pattern := { s.pattern with run := true, startBar := s.firstBar } }
  else if s.pattern.run then { s with pattern := { s.pattern with run := false, stopT := s.now } }
  else s

/-- PT_CTRL_RUN (R194). -/
def execPtCtrlRun (_src : NodeId) (run : Bool) (s : State) : Host.Outcome State Fault Refusal := .next (s.runWrite run)

/-! ### Beats (R197–R202) -/

/-- Whether entry k of the active bank is over in this bar: its beat has acted, or its offset lies beyond the bar and it never acts
(R198, R202). -/
def State.beatOver (s : State) (k : Nat) : Bool :=
  let w := (s.ptWord s.pattern.bank k 0).toNat
  bitsOf w 28 4 != 0 && (decide (k < s.pattern.acted) || decide (s.barLen ≤ bitsOf w 0 26))

/-- Entry e of the active bank while the engine runs, when it is the beat of `type` that acts next: once in a bar, in entry order,
with no END before it and its offset below the bar length (R197, R198, R202). -/
def State.beat (s : State) (e type : Nat) : Option (List Nat) :=
  let w := s.ptEntry s.pattern.bank e
  if s.pattern.running && bitsOf (w.getD 0 0) 28 4 == type && decide (bitsOf (w.getD 0 0) 0 26 < s.barLen) &&
     decide (s.pattern.acted ≤ e) && (List.range e).all s.beatOver then some w else none

/-- The nominal instant of a beat: T_n + OFFSET (R198). -/
def State.beatTime (s : State) (w : List Nat) : W64 :=
  s.barStart s.pattern.bar + BitVec.ofNat 64 (nsTb (bitsOf (w.getD 0 0) 0 26))

/-- A beat of the active bank acts: the timebase reaches its instant and the trace records it (R198, R469). -/
def State.beatAct (s : State) (e type n : Nat) (w : List Nat) : State :=
  let s := s.reach (s.beatTime w)
  let s := { s with pattern := { s.pattern with acted := e + 1 } }
  let ctx := if type = 4 || type = 5 then none else some n
  s.trace 1 (eventBytes s.now 0x40 0x004 ctx (match ctx with | some n => (s.gen n).toNat | none => 0) 0 0
    (type + 65536 * e) s.pattern.bar)

/-- A beat dropped (R202). -/
def State.beatDrop (s : State) : State := s.count Page.pattern Reg.PT_BEAT_DROP_COUNT

/-- The cores of a mask. -/
def coresOf (m : Nat) : List Nat := (List.range 32).filter fun c => bitOf m c

/-- Whether core c is in context n's partition (R203). -/
def State.inPart (s : State) (n c : Nat) : Bool :=
  bitOf (s.reg Page.pattern (Reg.PART_CORES + 16 * (s.ctx n).part)).toNat c

/-- STAGE_START_BEAT (R197, R199, R202). -/
def execStageStartBeat (e : Fin 512) (s : State) : Host.Outcome State Fault Refusal :=
  match s.beat e.val 1 with
  | none => .next s
  | some w =>
    let t := s.beatTime w
    let n := bitsOf (w.getD 1 0) 0 6
    let s := s.beatAct e.val 1 n w
    let slot := bitsOf (w.getD 1 0) 6 2
    if (s.ctx n).st ≠ .running || s.isBE n then .next s.beatDrop else
    .next ((coresOf (w.getD 2 0)).foldl (fun s c =>
      if !s.inPart n c || !((s.stagesOn n c).any fun st => st.slot == slot) then s.beatDrop
      else
        let k := s.core c
        match SMap.get k.stageLatch (4 * n + slot) none with
        | some _ => s.count Page.pattern Reg.PT_BEAT_OVERRUN_COUNT
        | none =>
          (s.setCore c { k with
            stageLatch := SMap.set k.stageLatch (4 * n + slot) (some { t := t, bar := s.pattern.bar }) none }).resched c) s)

/-- CUTOFF_BEAT (R162, R197). -/
def execCutoffBeat (b : CutoffRead) (s : State) : Host.Outcome State Fault Refusal :=
  match s.beat b.entry.val 2 with
  | none => .next s
  | some w =>
    let t := s.beatTime w
    let n := bitsOf (w.getD 1 0) 0 6
    let s := s.beatAct b.entry.val 2 n w
    if (s.ctx n).st ≠ .running then .next s.beatDrop else .next (s.cutoffOf n t b.ecc)

/-- STAT_BEAT (R50, R197, R202). -/
def execStatBeat (e : Fin 512) (s : State) : Host.Outcome State Fault Refusal :=
  match s.beat e.val 3 with
  | none => .next s
  | some w =>
    let n := bitsOf (w.getD 1 0) 0 6
    let s := s.beatAct e.val 3 n w
    let i := bitsOf (w.getD 1 0) 8 8
    if (s.ctx n).st ≠ .running then .next s.beatDrop else
    .next ((coresOf (w.getD 2 0)).foldl (fun s c =>
      if !s.inPart n c then s.beatDrop
      else s.modCore c fun k => { k with beatLatch := if k.beatLatch.contains i then k.beatLatch else k.beatLatch ++ [i] }) s)

/-- SWAP_BEAT (R197, R261): the named outputs are armed. -/
def execSwapBeat (e : Fin 512) (s : State) : Host.Outcome State Fault Refusal :=
  match s.beat e.val 4 with
  | none => .next s
  | some w =>
    let s := s.beatAct e.val 4 0 w
    if s.pattern.dropAll then .next s.beatDrop else
    .next { s with dp := { s.dp with armed := s.dp.armed ||| BitVec.ofNat 24 (w.getD 2 0) } }

/-- MIRROR_BEAT (R197): the export of the bar's end is enabled, with its Z bit. -/
def execMirrorBeat (e : Fin 512) (s : State) : Host.Outcome State Fault Refusal :=
  match s.beat e.val 5 with
  | none => .next s
  | some w =>
    let s := s.beatAct e.val 5 0 w
    if s.pattern.dropAll then .next s.beatDrop else
    .next { s with pattern := { s.pattern with mirror := some (bitOf (w.getD 1 0) 16) } }

/-! ### Changes of the running context (R207) -/

/-- PREEMPTION_REQUEST (R207). -/
def execPreemptionRequest (c : CoreId) (s : State) : Host.Outcome State Fault Refusal := .next (s.resched c.val)

/-- BE_SLICE_EXPIRY (R207): the running best-effort context goes to the end of the turn order; a ready context of equal PRIO
takes its turn at the next point. -/
def execBeSliceExpiry (c : CoreId) (s : State) : Host.Outcome State Fault Refusal :=
  match (s.core c.val).ctx with
  | none => .next s
  | some m =>
    if !s.isBE m.val then .next s else
    let s := s.modCore c.val fun k => { k with ready := k.ready.filter (· != m.val) ++ [m.val] }
    match s.bestReady c.val with
    | some n =>
      if n ≠ m.val ∧ s.rank n = s.rank m.val then
        match (s.core c.val).blocked with
        | some (.beatWait _) => .next (s.resched c.val)
        | _ => .next (s.askPreempt c.val)
      else .next (s.resched c.val)
    | none => .next s

end Sys2Proof.Machine
end

