-- ==== Sys2Proof/Machine/Audio.lean ====
section
/-!
DEFINITION. Audio ports, sample clocks and converter banks (R220–R250): enable checks, start and stop, landing and play-out,
clock loss, rate meters, gating, the slot map, the PDM chains, and the loops that steer an APLL.
-/
namespace Sys2Proof.Machine

/-- PG_STATE of a page has become ON: a pending LOCK_REQ sets PG_LOCK (R445). -/
def State.lockPending (s : State) (page : Nat) : State :=
  if s.flag page Reg.PG_CTRL 2 then (s.setFlag page Reg.PG_LOCK 0 true).setFlag page Reg.PG_CTRL 2 false else s

/-! ### Ports and their settings -/

/-- A serial port (R220). -/
def portSerial (p : Nat) : Bool := decide (p ≤ 11)
/-- A PDM input group. -/
def portPdmIn (p : Nat) : Bool := decide (12 ≤ p) && decide (p ≤ 17)
/-- A PDM output group. -/
def portPdmOut (p : Nat) : Bool := decide (18 ≤ p)

/-- AP_FMT of port p. -/
def State.apFmt (s : State) (p : Nat) : Nat := (s.reg (Page.audio p) Reg.AP_FMT).toNat
/-- AP_CLK of port p. -/
def State.apClk (s : State) (p : Nat) : Nat := (s.reg (Page.audio p) Reg.AP_CLK).toNat
/-- Whether port p is clock master: PDM groups always are (R231, R250). -/
def State.portMaster (s : State) (p : Nat) : Bool := !portSerial p || bitOf (s.apClk p) 0
/-- RATE_NOM of port p, Hz. -/
def State.rateNom (s : State) (p : Nat) : Nat := s.fld (Page.audio p) Reg.AP_RATE_NOM 0 18
/-- Whether port p receives. -/
def State.portRx (s : State) (p : Nat) : Bool := if portSerial p then bitOf (s.apFmt p) 14 else portPdmIn p
/-- Whether port p transmits. -/
def State.portTx (s : State) (p : Nat) : Bool := if portSerial p then bitOf (s.apFmt p) 15 else portPdmOut p
/-- Slots per frame of a serial port. -/
def State.nslots (s : State) (p : Nat) : Nat := bitsOf (s.apFmt p) 1 4 + 1
/-- A width code: 16, 24 or 32 bits. -/
def widthBits (c : Nat) : Nat := [16, 24, 32].getD c 0
/-- WORD_BITS of a serial port. -/
def State.wordBits (s : State) (p : Nat) : Nat := widthBits (bitsOf (s.apFmt p) 7 2)
/-- Whether a serial port uses TDM framing (R225). -/
def State.portTdm (s : State) (p : Nat) : Bool := portSerial p && bitOf (s.apFmt p) 0
/-- The bit clock that the port's format needs, Hz (R226). -/
def State.bitClock (s : State) (p : Nat) : Nat :=
  if portSerial p then s.nslots p * widthBits (bitsOf (s.apFmt p) 5 2) * s.rateNom p
  else if portPdmIn p then [16, 32, 64, 128].getD (bitsOf (s.apFmt p) 0 2) 0 * s.rateNom p
  else (if bitOf (s.apFmt p) 0 then 128 else 64) * s.rateNom p

/-- The nominal rate of MCLK_IN as measured (R231). -/
def State.mclkHz (s : State) : Nat := if s.audio.mclkRate then 22579200 else 24576000

/-- The frequency of APLLa before steering as a fraction, Hz: f_ref / REF_DIV · MULT (R232). -/
def State.apllHz (s : State) (a : Nat) : Nat × Nat :=
  let c := (s.reg (Page.apll a) Reg.APLL_CTRL).toNat
  ((if bitsOf c 0 2 = 1 then s.mclkHz else 38400000) * (s.reg (Page.apll a) Reg.APLL_MULT).toNat, bitsOf c 2 8 * 2 ^ 22)

/-- Whether the port's divided source lies within ±100 ppm of the bit clock (R226, R231, R232). -/
def State.dividerOk (s : State) (p : Nat) : Bool :=
  let v := s.apClk p
  let src := bitsOf v 1 2
  let d := bitsOf v 4 12 * 65536 + bitsOf v 16 16
  let fb := s.bitClock p
  let (num, den) :=
    if src < 2 then ((s.apllHz src).1 * 65536, (s.apllHz src).2 * d)
    else (s.mclkHz * 65536, d)
  let want := fb * den
  decide (2 ≤ bitsOf v 4 12) && decide ((num - want + (want - num)) * 10000 ≤ want)

/-- Whether the source of a port's clock is usable at an enable: not the reserved code, and MCLK_IN only when present (R231). -/
def State.sourceOk (s : State) (p : Nat) : Bool :=
  let src := bitsOf (s.apClk p) 1 2
  src != 3 && (src != 2 || s.audio.mclkOk)

/-- Whether the source of a port's clock reports LOCKED (R244). -/
def State.sourceLocked (s : State) (p : Nat) : Bool :=
  let src := bitsOf (s.apClk p) 1 2
  if src < 2 then (s.apll src).locked else s.audio.mclkOk

/-- The checks of an enable of port p (R226, R231). -/
def State.portEnableOk (s : State) (p : Nat) : Bool :=
  let f := s.apFmt p
  let hz := s.rateNom p
  let clk := !s.portMaster p || (s.sourceOk p && s.dividerOk p)
  let pdm := decide (1024000 ≤ s.bitClock p) && decide (s.bitClock p ≤ 6144000)
  if portSerial p then
    decide (8000 ≤ hz) && decide (hz ≤ 192000) && bitsOf f 5 2 != 3 && bitsOf f 7 2 != 3 && bitsOf f 10 2 != 3 &&
    decide (s.wordBits p ≤ widthBits (bitsOf f 5 2)) && decide (s.bitClock p ≤ 24576000) && clk &&
    (bitOf f 0 || (bitsOf f 1 4 == 1 && bitOf f 9 && bitsOf f 10 2 == 2))
  else if portPdmIn p then decide (8000 ≤ hz) && decide (hz ≤ 192000) && pdm && clk
  else pdm && clk

/-- Whether a bit clock of this port comes from APLLa. -/
def State.clockedBy (s : State) (p a : Nat) : Bool := s.portMaster p && bitsOf (s.apClk p) 1 2 == a

/-- The edge of a frame grid at k: floor(k · 10^9 / hz) in timebase units. -/
def gridAt (hz k : Nat) : Nat := if hz = 0 then 0 else k * 1000000000 * 256 / hz

/-- AP_START_T of port p in timebase units (R233). -/
def State.apStart (s : State) (p : Nat) : Nat := (s.reg64 (Page.audio p) Reg.AP_START_T_LO Reg.AP_START_T_HI).toNat * 256

/-- Transmit slots of port p: serial slots, or the 8 channels of a PDM group. -/
def State.txSlots (s : State) (p : Nat) : Nat := if portSerial p then s.nslots p else 8

/-- Whether a slot is gated (R228, R243): TDM slots with GATE_EN. -/
def State.slotGated (s : State) (p k : Nat) : Bool := s.portTdm p && bitOf (SMap.get (s.port p).map k 0).toNat 8

/-- The zero-signal pattern 1, 0, 1, 0 … of a PDM output, bit 0 first (R230). -/
def zeroPattern : BitVec 128 := BitVec.ofNat 128 0x55555555555555555555555555555555

/-- The bits of one frame of a PDM output: 64 or 128 (R226). -/
def State.pdmBits (s : State) (p : Nat) (b : BitVec 128) : BitVec 128 :=
  if bitOf (s.apFmt p) 0 then b else (b.setWidth 64).setWidth 128

/-- What the ball carries in transmit slot k for a word: nothing in a serial slot with TX_DRIVE = 0 (R228). -/
def State.driven (s : State) (p k : Nat) (w : BitVec 128) : Option (BitVec 128) :=
  if portSerial p && !bitOf (SMap.get (s.port p).map k 0).toNat 0 then none else some w

/-- Port p sends zeros, or the zero-signal pattern, in every slot (R244, R245). -/
def State.sendZeros (s : State) (p : Nat) : State :=
  if !s.portTx p then s else
  let w := if portSerial p then 0 else s.pdmBits p zeroPattern
  s.modPort p fun x => { x with
    queue := [], out := (List.range (s.txSlots p)).foldl (fun m k => SMap.set m k (s.driven p k w) none) x.out }

/-- The slot map takes over what AP_MAP holds: a frame boundary has passed (R228). -/
def State.takeMap (s : State) (p : Nat) : State :=
  s.modPort p fun x => { x with
    map := (List.range 16).foldl (fun m k => SMap.set m k (s.reg (Page.audio p) (Reg.AP_MAP + 4 * k)) 0) [] }

/-- The banks on the rings of port p lose their lock: port frames are no longer continuous (R235). -/
def State.bankDrop (s : State) (p : Nat) : State :=
  (List.range 3).foldl (fun s b =>
    let v := (s.reg Page.asrc (Reg.ASRC_BANK + 16 * b)).toNat
    if bitOf v 5 && ringPort (bitsOf v 0 5) == p then
      { s with audio := { s.audio with asrc := SMap.set s.audio.asrc b (false, false) (false, false) } }
    else s) s

/-- The frame edges of port p no longer come: no APLL is locked in phase to them (R233). -/
def State.phaseDrop (s : State) (p : Nat) : State :=
  [0, 1].foldl (fun (s : State) (a : Nat) =>
    if s.fld (Page.apll a) Reg.APLL_CTRL 12 5 = p then s.setApll a { s.apll a with edges := 0, phaseLocked := false } else s) s

/-! ### Start and stop (R244–R246) -/

/-- AP_CTRL.STANDBY taken over, and the output balls driven or released with it (R240). -/
def State.applyStandby (s : State) (p : Nat) : State :=
  let sb := s.flag (Page.audio p) Reg.AP_CTRL 0
  let x := s.port p
  let running := x.st != 0 && (x.clocks || x.clkPresent)
  s.setPort p { x with standby := sb, driving := !sb && s.portTx p && running && !s.safety.safe }

/-- Step 1 of a start: STARTING; slots are counted anew, and no commit has reached one (R239, R244). -/
def State.portStart (s : State) (p : Nat) : State :=
  let s := (s.bankDrop p).modPort p fun x => ({ x with
    st := 1, pend := false, clocks := false, clkPresent := false, filling := false, returning := false, lastBlock := false,
    lineStuck := false, standby := s.flag (Page.audio p) Reg.AP_CTRL 0, driving := false, startT := none, taken := 0 })
  match outRing p with
  | some r => s.setRing r {}
  | none => s

/-- A write of ENABLE = 1 (R226, R244, R246). -/
def State.portEnable (s : State) (src p : Nat) : State :=
  let pg := Page.audio p
  if !s.pageOn pg then s.setFlag pg Reg.PG_STATE 2 true else
  match (s.port p).st with
  | 0 =>
    if s.portEnableOk p then (s.setFlag pg Reg.PG_CTRL 0 true).portStart p
    else (s.setFlag pg Reg.PG_CTRL 0 false).pgErrAt pg Reg.PG_CTRL src [27, 1]
  | 3 => (s.setFlag pg Reg.PG_CTRL 0 true).modPort p fun x => { x with pend := true }
  | _ => s

/-- PORT_ENABLE (R244). -/
def execPortEnable (src : NodeId) (p : AudioPort) (s : State) : Host.Outcome State Fault Refusal :=
  .next (s.portEnable src.val p.val)

/-- The clocks of a STARTING port run: its balls are driven with zeros, and the pre-roll begins (R244 steps 2, 5). -/
def State.clocksRun (s : State) (p : Nat) (master : Bool) : State :=
  let s := s.modPort p fun x => { x with clocks := master, clkPresent := true, clockT := s.now }
  ((s.takeMap p).sendZeros p).applyStandby p

/-- PORT_CLOCK_START (R244 step 2): the source is locked and the master clocks start; outputs send zeros. -/
def execPortClockStart (p : AudioPort) (s : State) : Host.Outcome State Fault Refusal :=
  let x := s.port p.val
  if x.st = 1 && s.portMaster p.val && !x.clocks && s.sourceLocked p.val then .next (s.clocksRun p.val true)
  else .next s

/-- The end of steps 3 to 5 of a start (R244): after PRE_ROLL from the clocks' start on an I²S or PDM port, and 16 frames more on a
PDM input. -/
def State.startReady (s : State) (p : Nat) : Nat :=
  let pre := if s.portTdm p then 0 else s.fld (Page.audio p) Reg.AP_CTRL 1 8 * 256000000
  (s.port p).clockT.toNat + pre + (if portPdmIn p then gridAt (s.rateNom p) 16 else 0)

/-- The records of stream i held in IN_QUEUE name frames that port p overwrites from ring frame 0 on: they are dropped with OVERRUN,
and its next chunk is found by stamp again (R161, R244; DESIGN CHOICE, notes/assumptions/125.md). -/
def State.ringRestart (s : State) (i : Nat) : State :=
  let s := s.modStream i fun x => { x with nextF := none }
  (List.range (s.queue (s.stream i).inQueue).fill).foldl (fun s _ => (s.dropRecord i).overrun i) s

/-- The streams whose input ring is r. -/
def State.streamsFrom (s : State) (r : Nat) : List Nat :=
  s.streams.filterMap fun e => if e.2.st != 0 && !kindQueue e.2.inW && ringNo e.2.inW == r then some e.1 else none

/-- PORT_ON (R244 step 6): with its clocks present, at the first edge after steps 3 to 5 and AP_START_T, ring frame 0 is written or
taken; PG_STATE ON; STATE_CHANGE. -/
def execPortOn (p : AudioPort) (s : State) : Host.Outcome State Fault Refusal :=
  let p := p.val
  let pg := Page.audio p
  if (s.port p).st ≠ 1 || !(s.port p).clkPresent then .next s else
  let s := s.reach (BitVec.ofNat 64 (max (s.apStart p) (s.startReady p)))
  let s := s.takeMap p
  let s := s.modPort p fun x => { x with
    st := 2, frames := 0, taken := 0, blockSeq := 0, discont := true, discontTx := true, startT := some s.now, contT := s.now,
    openSlots := [], prevSample := [], queue := [], rate := 0, rateOk := false, playCrc := [], lastReal := none, gridK := none,
    errTo := 0, pdm := { free := s.free }, mods := [] }
  let s := { s with free := s.free + 112 }
  let s := match inRing p with
    | some r => (s.streamsFrom r).foldl (fun (s : State) (i : Nat) => s.ringRestart i) s
    | none => s
  .next (((s.applyStandby p).irq pg 0).lockPending pg)

/-- A write of ENABLE = 0 (R245, R246): I²S and PDM outputs send zeros or the zero-signal pattern at once. -/
def State.portDisable (s : State) (p : Nat) : State :=
  let s := s.setFlag (Page.audio p) Reg.PG_STATE 2 false
  let s := s.setFlag (Page.audio p) Reg.PG_CTRL 0 false
  let x := s.port p
  match x.st with
  | 1 => (s.setPort p { x with st := 3, lastBlock := false, stopT := s.now }).sendZeros p
  | 2 =>
    let valid := match inRing p with | some r => (s.ringShape r).valid | none => false
    let s := s.setPort p { x with st := 3, lastBlock := s.portRx p && valid, stopT := s.now }
    if s.portTdm p then s else s.sendZeros p
  | 3 => s.setPort p { x with pend := false }
  | _ => s

/-- PORT_DISABLE (R245). -/
def execPortDisable (_src : NodeId) (p : AudioPort) (s : State) : Host.Outcome State Fault Refusal := .next (s.portDisable p.val)

/-- The stop completes: balls high-impedance, OFF, STATE_CHANGE; with ENABLE_PENDING the start runs in full (R245, R246). -/
def State.portStopped (s : State) (p : Nat) : State :=
  let pend := (s.port p).pend
  let s := s.modPort p fun x => { x with
    st := 0, pend := false, clocks := false, clkPresent := false, filling := false, returning := false, lastBlock := false,
    driving := false, openSlots := [], queue := [], out := [] }
  let s := (((s.bankDrop p).phaseDrop p).tbPortLost p).irq (Page.audio p) 0
  if pend then s.portEnable s.node p else s

/-- Gated slots that no zero crossing has muted are muted at GATE_TIMEOUT of a stop, and counted (R243). -/
def State.muteLeft (s : State) (p : Nat) : State :=
  let left := (s.port p).openSlots.filter fun k => s.slotGated p k
  if left.isEmpty then s else
  let s := s.reach ((s.port p).stopT + BitVec.ofNat 64 (gridAt (s.rateNom p) (max (s.fld (Page.audio p) Reg.AP_GATE 0 16) 1)))
  let s := s.modPort p fun x => { x with
    openSlots := x.openSlots.filter fun k => !left.contains k,
    out := left.foldl (fun m k => SMap.set m k (s.driven p k 0) none) x.out }
  (s.count (Page.audio p) Reg.AP_GATE_TO_COUNT left.length).irq (Page.audio p) 6

/-- PORT_STOP_DONE (R245): after the current block, the muting or the post-roll, and 2 frames of zeros. -/
def execPortStopDone (p : AudioPort) (s : State) : Host.Outcome State Fault Refusal :=
  let p := p.val
  let x := s.port p
  if x.st ≠ 3 || x.lastBlock then .next s else
  let s := s.muteLeft p
  let post := if s.portTx p && !s.portTdm p then s.fld (Page.audio p) Reg.AP_CTRL 9 8 * 256000000 else 0
  let s := s.reach (x.stopT + BitVec.ofNat 64 post)
  let s := s.reach (s.now + BitVec.ofNat 64 (gridAt (s.rateNom p) 2))
  .next (s.portStopped p)

/-- BLOCK_RESET of an audio port: OFF at once, ENABLE and ENABLE_PENDING cleared, balls high-impedance, counts kept (R246). -/
def State.portBlockReset (s : State) (p : Nat) : State :=
  if !s.pageOn (Page.audio p) then s else
  let s := ((((s.setFlag (Page.audio p) Reg.PG_CTRL 0 false).bankDrop p).phaseDrop p).tbPortLost p)
  s.modPort p fun x => { x with
    st := 0, pend := false, clocks := false, clkPresent := false, filling := false, returning := false, lastBlock := false,
    driving := false, openSlots := [], queue := [], out := [] }

/-- PORT_BLOCK_RESET (R246). -/
def execPortBlockReset (_src : NodeId) (p : AudioPort) (s : State) : Host.Outcome State Fault Refusal :=
  .next (s.portBlockReset p.val)

/-- STANDBY_APPLY (R240). -/
def execStandbyApply (p : AudioPort) (s : State) : Host.Outcome State Fault Refusal := .next (s.applyStandby p.val)

/-- AP_MAP_APPLY (R228): a written slot setting takes effect at a frame boundary. -/
def execApMapApply (p : AudioPort) (slot : Fin 16) (s : State) : Host.Outcome State Fault Refusal :=
  if (s.port p.val).st = 0 then .next s
  else .next (s.modPort p.val fun x => { x with
    map := SMap.set x.map slot.val (s.reg (Page.audio p.val) (Reg.AP_MAP + 4 * slot.val)) 0 })

/-! ### The decimators of a PDM input (R229) -/

/-- A list added into another from place k on, term by term. -/
def addAt (k : Nat) (a b : List Int) : List Int :=
  (List.range (max a.length (k + b.length))).map fun i => a.getD i 0 + (if i < k then 0 else b.getD (i - k) 0)

/-- The taps of the fifth-order CIC filter that decimates by r: the fifth power of a box of r ones (R229). -/
def cicTaps (r : Nat) : List Int :=
  (List.range 5).foldl (fun (l : List Int) _ => (List.range r).foldl (fun (a : List Int) k => addAt k a l) []) [1]

/-- Bit i of channel c before now, 0 the newest, for `osr` bits a frame; before ring frame 0 it is free (R229, R244). -/
def PdmIn.bit (d : PdmIn) (osr c i : Nat) : Bool :=
  let f := i / max osr 1
  let w : BitVec 128 := match d.past[f]? with
    | some l => l.getD c 0
    | none => (Config.freeValue (d.free + 12 * c + (f - d.past.length))).setWidth 128
  w.getLsbD (osr - 1 - i % max osr 1)

/-- Sample j of the CIC filter at 4 · f_s before now, 0 the newest: a one counts +1 and a zero −1 (R229). -/
def PdmIn.cic (d : PdmIn) (taps : List Int) (osr c j : Nat) : Int :=
  (taps.zipIdx.map fun e => if d.bit osr c (j * (osr / 4) + e.2) then e.1 else -e.1).sum

/-- Tap k of half-band decimator n in units of 2^−24 (R229): 15 taps, symmetric, every second one from the centre zero, with a gain
of one; three of them are free. -/
def hbTap (n k : Nat) : Int :=
  let free := fun i => Config.halfBandTap n i
  if k = 7 then 2 ^ 23
  else if k % 2 = 1 then 0
  else
    let o := (if k < 7 then 7 - k else k - 7) / 2
    if o < 3 then free o else 2 ^ 22 - free 0 - free 1 - free 2

/-- The output of the chain's filters for the newest frame of channel c, before DC_CUT (R229): rounded one way or the other, and
+2^31 becomes +2^31 − 1. -/
def PdmIn.decimated (d : PdmIn) (osr c : Nat) : W32 :=
  let taps := cicTaps (osr / 4)
  let four := (List.range 43).map fun j => d.cic taps osr c j
  let two := (List.range 15).map fun m => ((List.range 15).map fun i => hbTap 0 i * four.getD (2 * m + i) 0).sum
  let v := ((List.range 15).map fun i => hbTap 1 i * two.getD i 0).sum
  let den : Nat := (osr / 4) ^ 5 * 2 ^ 17
  let q := v / (den : Int)
  let q := if v % (den : Int) ≠ 0 ∧ Config.pdmRoundUp v den = true then q + 1 else q
  BitVec.ofInt 32 (if q > 2 ^ 31 - 1 then 2 ^ 31 - 1 else if q < -(2 ^ 31) then -(2 ^ 31) else q)

/-- The high-pass filter's last input and output of channel c; before ring frame 0 they are free (R229). -/
def PdmIn.dcState (d : PdmIn) (c : Nat) : W32 × W32 :=
  match SMap.get d.dc c none with
  | some e => e
  | none => let v := Config.freeValue (d.free + 96 + c); (v.setWidth 32, (v >>> 32).setWidth 32)

/-- Left shift of a sample by `n` with saturation at 32 bits (R229): the sample and whether it saturated. -/
def shiftSat (v : W32) (n : Nat) : W32 × Bool :=
  let w : Int := v.toInt * (2 ^ n : Nat)
  if w > 2 ^ 31 - 1 then (0x7FFFFFFF, true) else if w < -(2 ^ 31) then (0x80000000, true) else (BitVec.ofInt 32 w, false)

/-- One frame of bits of a PDM input group through its chain (R229): the samples, how many saturated, and what the group holds
after it. A channel of a line that is not enabled is zero. -/
def State.pdmFrame (s : State) (p nch : Nat) (d : PdmIn) (f : List (BitVec 128)) : List W32 × Nat × PdmIn :=
  let fmt := s.apFmt p
  let osr := [16, 32, 64, 128].getD (bitsOf fmt 0 2) 16
  let d := { d with past := (f :: d.past).take 12 }
  (List.range nch).foldl (fun acc c =>
    let (l, n, d) := acc
    if !bitOf fmt (2 + c / 2) then (l ++ [0], n, d) else
    let x := d.decimated osr c
    let y := if bitOf fmt 6 then Config.dcCut x (d.dcState c).1 (d.dcState c).2 else x
    let (v, sat) := shiftSat y (bitsOf fmt 7 3)
    (l ++ [v], n + b2n sat, { d with dc := SMap.set d.dc c (some (x, y)) none })) (([] : List W32), 0, d)

/-! ### Landing (R223, R227, R229, R235, R238) -/

/-- The ring samples of one received frame of a serial port (R227). -/
def State.serialFrame (s : State) (p nch : Nat) (f : List (BitVec 128)) : List W32 :=
  let k := 32 - s.wordBits p
  (List.range nch).map fun c => if c < s.nslots p then (((f.getD c 0).setWidth 32) >>> k) <<< k else 0

/-- The ring samples of a block of received frames, how many of each saturated, and what the decimators hold after it (R227, R229).
Samples that a converter bank made come as they are (R235; notes/assumptions/98.md). -/
def State.rxBlock (s : State) (p nch : Nat) (bank : Bool) (l : List (List (BitVec 128))) : List (List W32 × Nat) × PdmIn :=
  let d := (s.port p).pdm
  if bank then (l.map fun f => ((List.range nch).map fun c => (f.getD c 0).setWidth 32, 0), d)
  else if portSerial p then (l.map fun f => (s.serialFrame p nch f, 0), d)
  else l.foldl (fun acc f =>
    let (v, n, d) := s.pdmFrame p nch acc.2 f
    (acc.1 ++ [(v, n)], d)) ([], d)

/-- Frames of ring r that a chunk holds which is admitted and not yet committed (R242). -/
def State.ringRetained (s : State) (r f : Nat) : Bool :=
  s.streams.any fun e =>
    e.2.st != 0 && !kindQueue e.2.inW && ringNo e.2.inW == r &&
    (match e.2.admitted with
     | some a => decide (a.bufAddr.toNat ≤ f) && decide (f < a.bufAddr.toNat + e.2.chunkFrames)
     | none => false)

/-- RING_RATE of bank b (R235). -/
def State.bankRate (s : State) (b : Nat) : Nat := s.fld Page.asrc (Reg.ASRC_BANK + 16 * b) 6 18

/-- The bank on ring r has no lock, so the port fills or sends zeros (R235, R248). -/
def State.bankUnlocked (s : State) (r : Nat) : Bool :=
  match s.bankOf r with
  | some b => let a := SMap.get s.audio.asrc b (false, false); !a.1 || a.2
  | none => false

/-- The stamp of frame f of a port that fills for a lost clock: nominal periods from the last real frame, or from the start (R238). -/
def State.fillStamp (s : State) (p f : Nat) : W64 :=
  let x := s.port p
  match x.lastReal with
  | some (g, t) => t + BitVec.ofNat 64 (gridAt (s.rateNom p) (f - g))
  | none => x.startT.getD s.now + BitVec.ofNat 64 (gridAt (s.rateNom p) f)

/-- The grid number of ring frame 0 of a ring with a bank: the first grid instant at or after the first block's stamp (R235). -/
def State.gridFirst (s : State) (p hz : Nat) (stamp : W64) : Nat :=
  match (s.port p).gridK with
  | some k => k
  | none => (stamp.toNat * hz + 256000000000 - 1) / 256000000000

/-- T_BLOCK of the next input block (R235, R236, R238): on the grid of a converter bank, from the last real frame while filling, or
as stamped at the ball. -/
def State.landStamp (s : State) (p r : Nat) (stamp : W64) : W64 :=
  let x := s.port p
  match s.bankOf r with
  | some b => BitVec.ofNat 64 (gridAt (s.bankRate b) (s.gridFirst p (s.bankRate b) stamp + x.frames))
  | none => if x.filling then s.fillStamp p x.frames else stamp

/-- Edges of port p compared with its grid (R233): `n` of them from the first at `t`. Consecutive edges within ±50 ns are counted;
100 set PHASE_LOCKED, one beyond clears it (DEDUCED, notes/assumptions/73.md). -/
def State.phaseEdges (s : State) (p : Nat) (t : W64) (n : Nat) : State :=
  [0, 1].foldl (fun (s : State) (a : Nat) =>
    let c := (s.reg (Page.apll a) Reg.APLL_CTRL).toNat
    if bitsOf c 10 2 ≠ 1 ∨ bitsOf c 12 5 ≠ p ∨ !s.clockedBy p a ∨ !(s.apll a).locked ∨ (s.port p).st ≠ 2 then s else
    let hz := s.rateNom p
    let m := 256000000000
    let near := fun (k : Nat) =>
      let d := ((t.toNat + s.framesTime p k + 2 ^ 64 - s.apStart p) % 2 ^ 64) * hz % m
      decide (min d (m - d) ≤ 12800 * hz)
    let run := (List.range n).foldl (fun c k => if near k then c + 1 else 0) (s.apll a).edges
    let all := (List.range n).all near
    s.setApll a { s.apll a with edges := min run 100, phaseLocked := decide (100 ≤ run) || ((s.apll a).phaseLocked && all) }) s

/-- The frame edge of a frame of port p that is stamped t: on a serial port the stamp is the sampling edge of the first bit,
DATA_DELAY and half a bit clock later (R225, R236). -/
def State.frameEdge (s : State) (p : Nat) (t : W64) : W64 :=
  if portSerial p ∧ s.bitClock p ≠ 0 then
    t - BitVec.ofNat 64 ((2 * b2n (bitOf (s.apFmt p) 9) + 1) * 1000000000 * 128 / s.bitClock p)
  else t

/-- BLOCK_LAND (R223): a block of frames as received and its stamp entry are written into the port's input ring. A serial word
stands in the low bits of its operand; a PDM channel gives the bits of the frame, bit 0 first. -/
def execBlockLand (p : AudioPort) (stamp : W64) (frames : List (List (BitVec 128))) (s : State) :
    Host.Outcome State Fault Refusal :=
  let p := p.val
  let x := s.port p
  match inRing p with
  | none => .next s
  | some r =>
    let d := s.ringShape r
    let on := x.st = 2 || (x.st = 3 && x.lastBlock)
    if !on || !s.portRx p || !d.valid || frames.length ≠ d.block then .next s else
    let bank := s.bankOf r
    let fill := x.filling || s.bankUnlocked r
    let (got, pdm) := s.rxBlock p d.nch bank.isSome frames
    let rows := if fill then frames.map fun _ => (List.replicate d.nch (0 : W32), 0) else got
    let t := s.landStamp p r stamp
    let clips := (rows.map (·.2)).sum
    let f0 := x.frames
    let last := t + BitVec.ofNat 64 (if x.filling then gridAt (s.rateNom p) (d.block - 1) else s.ringTime r (d.block - 1))
    let s := s.reach last
    let lost := ((List.range d.block).filter fun k => decide (d.frames ≤ f0 + k) && s.ringRetained r (f0 + k - d.frames)).length
    let s := rows.zipIdx.foldl (fun s e => e.1.1.zipIdx.foldl (fun s v => s.putSample d (f0 + e.2) v.2 v.1) s) s
    let flags := b2n fill + 2 * b2n x.discont + 4 * b2n (decide (t.toNat < x.errTo.toNat)) + 8 * b2n (clips != 0)
    let s := s.audioPut (d.stampAt (f0 / max d.block 1)) (leBytes 8 t.toNat ++ leBytes 4 x.blockSeq.toNat ++ leBytes 2 flags ++ [0, 0])
    let pg := Page.audio p
    let s := if fill then s.count pg Reg.AP_FILL_COUNT d.block else s
    let s := if clips = 0 then s else (s.count pg Reg.AP_CLIP_COUNT clips).irq pg 7
    let s := if lost = 0 then s else (s.count pg Reg.AP_OVERWRITE_COUNT lost).irq pg 5
    let ret := x.filling && x.returning
    let s := s.setPort p { x with
      frames := f0 + d.block, blockSeq := x.blockSeq + 1, discont := ret, filling := x.filling && !ret,
      returning := x.returning && !x.filling, lastBlock := false, pdm := if x.filling then x.pdm else pdm,
      lastReal := if x.filling then x.lastReal else some (f0 + d.block - 1, last),
      gridK := match bank with | some b => some (s.gridFirst p (s.bankRate b) stamp) | none => none }
    let s := if x.filling then s else (s.portFrames p d.block).phaseEdges p (s.frameEdge p stamp) (if bank.isSome then 0 else d.block)
    .next (s.ringLanded r (f0 + d.block))

/-! ### Clocks (R231–R238) -/

/-- CLK_LOSS (R238): a running slave port starts filling or discarding; a stopping one completes its stop (R245); one that starts
waits for its clock again (R244). -/
def execClkLoss (p : AudioPort) (s : State) : Host.Outcome State Fault Refusal :=
  let p := p.val
  let x := s.port p
  if s.portMaster p || !x.clkPresent then .next s
  else if x.st = 3 then .next ((s.irq (Page.audio p) 2).portStopped p)
  else
    let s := (((s.bankDrop p).phaseDrop p).tbPortLost p).irq (Page.audio p) 2
    .next (s.modPort p fun x => { x with clkPresent := false, filling := x.st == 2 && s.portRx p, returning := false, queue := [] })

/-- CLK_RETURN (R238, R244): after 2 complete frames a starting slave has its clocks (step 5), and a running one expects real frames
from the next block. -/
def execClkReturn (p : AudioPort) (s : State) : Host.Outcome State Fault Refusal :=
  let p := p.val
  let x := s.port p
  if s.portMaster p || x.clkPresent then .next s
  else if x.st = 1 then .next (s.clocksRun p false)
  else if x.st = 2 then
    let s := if s.fld Page.timebase Reg.TB_CTRL 0 2 = 2 && s.fld Page.timebase Reg.TB_CTRL 2 5 = p && s.lock = 3 then s.setLock 1 else s
    .next ((s.setPort p { x with
      clkPresent := true, contT := s.now, returning := s.portRx p, discontTx := true }).irq (Page.audio p) 3)
  else .next s

/-- RATE_ERR set in the entries of ring r's blocks that the window [from, till) covers; blocks 0 to n − 1 have entries (R237). -/
def State.flagRate (s : State) (r n since till : Nat) : State :=
  let d := s.ringShape r
  if !d.valid || d.block = 0 then s else
  (List.range (min n (d.frames / d.block))).foldl (fun s k =>
    let b := n - 1 - k
    if (s.frameStamp r (b * d.block)).toNat < till ∧ since ≤ (s.frameStamp r (b * d.block + d.block - 1)).toNat then
      s.blockFlag d (b * d.block) 4
    else s) s

/-- The tracked ratio of the banks on rings of port p (R235): RING_RATE over the measured port rate, kept beyond ±2 % of nominal
(DEDUCED, notes/assumptions/73.md). -/
def State.trackRatio (s : State) (p : Nat) : State :=
  (List.range 3).foldl (fun s b =>
    let v := (s.reg Page.asrc (Reg.ASRC_BANK + 16 * b)).toNat
    let rate := s.portRate p
    let nom := s.rateNom p * 4096
    if bitOf v 5 && ringPort (bitsOf v 0 5) == p && SMap.get s.audio.asrc b (false, false) == (true, false) && rate != 0 &&
        decide ((rate - nom + (nom - rate)) * 50 ≤ nom) then
      s.setReg Page.asrc (Reg.ASRC_RATIO + 16 * b) (BitVec.ofNat 32 (s.bankRate b * 4096 * 2 ^ 28 / rate))
    else s) s

/-- RATE_WINDOW_END (R237): `edges` frame edges of the window, the first and last with their stamps; the window ends at the multiple
of RATE_WINDOW after the last edge, or after now. -/
def execRateWindowEnd (p : AudioPort) (edges : Nat) (first last : W64) (s : State) : Host.Outcome State Fault Refusal :=
  let p := p.val
  let pg := Page.audio p
  let w := max (s.fld pg Reg.AP_RATE_CTRL 0 10) 1 * 256000000
  let till := ((if edges = 0 then s.now.toNat else last.toNat) / w + 1) * w
  let s := s.reach (BitVec.ofNat 64 till)
  let x := s.port p
  let span := (last - first).toNat
  let rate := if edges < 2 then 0 else min ((edges - 1) * 4096 * 1000000000 * 256 / span) 0xFFFFFFFF
  let nom := s.rateNom p * 4096
  let ok := decide ((rate - nom + (nom - rate)) * 1000000 ≤ nom * s.fld pg Reg.AP_RATE_CTRL 10 10)
  let s := s.setReg pg Reg.AP_RATE_MEAS (BitVec.ofNat 32 rate)
  let s := s.setPort p { x with rate := rate, rateOk := ok, errTo := if ok then x.errTo else BitVec.ofNat 64 till }
  let s := if ok = x.rateOk then s else s.irq pg 1
  let s := s.trackRatio p
  if ok then .next s else
  let s := match inRing p with
    | some r => s.flagRate r (x.frames / max (s.ringShape r).block 1) (till - w) till
    | none => s
  match outRing p with
  | some r =>
    let k := max (s.ringShape r).block 1
    .next (s.flagRate r ((x.taken + k - 1) / k) (till - w) till)
  | none => .next s

/-- The applied steer of APLLa now: the target approached at 10 ppm per ms (R232). -/
def State.steerNow (s : State) (a : Nat) : Int :=
  let x := s.apll a
  let d := x.target.toInt - x.steer0.toInt
  let k : Int := ((s.age x.steerT / 25600 : Nat) : Int)
  if d.natAbs ≤ k.toNat then x.target.toInt else if d > 0 then x.steer0.toInt + k else x.steer0.toInt - k

/-- A new steer for APLLa, approached from the one applied now (R232). -/
def State.steerTo (s : State) (a : Nat) (ppb : Int) : State :=
  s.setApll a { s.apll a with target := BitVec.ofInt 32 ppb, steer0 := BitVec.ofInt 32 (s.steerNow a), steerT := s.now }

/-- What MCLK_OUT[a] carries while it is enabled, as a fraction in Hz: f_out / 4 with the steer applied now (R232). -/
def State.mclkOut (s : State) (a : Nat) : Option (Int × Nat) :=
  if s.flag (Page.apll a) Reg.APLL_CTRL 17 then
    some ((s.apllHz a).1 * (1000000000 + s.steerNow a), (s.apllHz a).2 * 4000000000)
  else none

/-- APLL_LOCK (R232): with its reference there and an output of 80 to 125 MHz the APLL locks. -/
def execApllLock (a : Fin 2) (s : State) : Host.Outcome State Fault Refusal :=
  let (n, d) := s.apllHz a.val
  if (s.fld (Page.apll a.val) Reg.APLL_CTRL 0 2 = 1 ∧ s.audio.mclkOk = false) ∨ n < 80000000 * d ∨ 125000000 * d < n then .next s
  else .next (s.setApll a.val { s.apll a.val with locked := true, holdover := false })

/-- APLL_LOCK_LOST (R232): the last frequency is held. -/
def execApllLockLost (a : Fin 2) (s : State) : Host.Outcome State Fault Refusal :=
  if (s.apll a.val).locked then
    let s := s.steerTo a.val (s.steerNow a.val)
    .next (((s.setApll a.val { s.apll a.val with
      locked := false, holdover := true, phaseLocked := false, edges := 0, steer0 := (s.apll a.val).target }).count
      (Page.apll a.val) Reg.APLL_LOCK_LOSS_COUNT).irq (Page.apll a.val) 0)
  else .next s

/-- MCLK_IN_RETURN (R231). -/
def execMclkInReturn (rate : Bool) (s : State) : Host.Outcome State Fault Refusal :=
  .next { s with audio := { s.audio with mclkOk := true, mclkRate := rate } }

/-- The port of bank b's ring. -/
def State.bankPort (s : State) (b : Nat) : Nat := ringPort (s.fld Page.asrc (Reg.ASRC_BANK + 16 * b) 0 5)

/-- Whether bank b can lock: in use, its port ON with frames arriving, and its ratio between 1/4 and 4 (R235). -/
def State.bankReady (s : State) (b : Nat) : Bool :=
  let p := s.bankPort b
  s.flag Page.asrc (Reg.ASRC_BANK + 16 * b) 5 && (s.port p).st == 2 && (s.port p).clkPresent &&
  decide (s.rateNom p ≤ 4 * s.bankRate b) && decide (s.bankRate b ≤ 4 * s.rateNom p)

/-- ASRC_LOCK (R235): after 20 ms of continuous port frames the bank tracks the port's rate. -/
def execAsrcLock (b : Fin 3) (s : State) : Host.Outcome State Fault Refusal :=
  if s.bankReady b.val then
    let s := s.reach ((s.port (s.bankPort b.val)).contT + BitVec.ofNat 64 (20 * 256000000))
    .next ({ s with audio := { s.audio with asrc := SMap.set s.audio.asrc b.val (true, false) (false, false) } }.trackRatio (s.bankPort b.val))
  else .next s

/-- ASRC_OUT_OF_RANGE (R235, R248): the last ratio is held, until the port is back in range for 20 ms. -/
def execAsrcOutOfRange (b : Fin 3) (s : State) : Host.Outcome State Fault Refusal :=
  if s.flag Page.asrc (Reg.ASRC_BANK + 16 * b.val) 5 then
    let s := s.modPort (s.bankPort b.val) fun x => { x with contT := s.now }
    .next { s with audio := { s.audio with asrc := SMap.set s.audio.asrc b.val (false, true) (false, false) } }
  else .next s

/-- FILL of a ring (R234). -/
def State.ringFill (s : State) (r : Nat) : Option Nat :=
  let out := ringIsOut r
  let bound := s.streams.filter fun e =>
    e.2.st == 1 && (if out then !kindQueue e.2.outW && ringNo e.2.outW == r else !kindQueue e.2.inW && ringNo e.2.inW == r)
  match bound with
  | [] => none
  | e :: _ =>
    let x := s.port (ringPort r)
    if out then
      let slots := (((s.ring r).commitCrc.map fun c => c.1 / 16).eraseDups).filter fun j => !s.slotPassed r j
      some (slots.length * (s.ringShape r).slot)
    else
      match s.frameAt r x.frames e.2.nextT with
      | some f => some (x.frames - f)
      | none => some 0

/-- The bellows loop of APLLa at a boundary (R234). In holdover the last frequency is held (R232). -/
def State.bellows (s : State) (a : Nat) : State :=
  let pg := Page.apll a
  let r := s.fld pg Reg.APLL_BELLOWS 0 5
  match s.ringFill r with
  | none => s
  | some fill =>
    let x := s.apll a
    let target : Int := s.fld pg Reg.APLL_BELLOWS 8 16
    let e : Int := if ringIsOut r then fill - target else target - fill
    let acc := x.acc.toInt + e
    let v := (s.fld pg Reg.APLL_GAIN 0 16 : Int) * e + (s.fld pg Reg.APLL_GAIN 16 16 : Int) * acc
    let lim : Int := s.fld pg Reg.APLL_LIMIT 0 10 * 1000
    let beyond := decide (v.natAbs > lim.toNat)
    let v := if beyond then (if v < 0 then -lim else lim) else v
    let s := s.setReg pg Reg.APLL_FILL (BitVec.ofInt 32 e)
    let s := (s.setApll a { x with acc := BitVec.ofInt 64 (if beyond then x.acc.toInt else acc), clamped := beyond }).steerTo a v
    if beyond then s.irq pg 1 else s

/-- The steer of an APLL with STEER = TIMEBASE (R233): what holds its frequency to the timebase depends on its oscillator, so it is a
free value within ±LIMIT. -/
def State.tbSteer (s : State) (a : Nat) : State :=
  let lim := s.fld (Page.apll a) Reg.APLL_LIMIT 0 10 * 1000
  let (v, s) := s.draw 32
  s.steerTo a ((v.toNat % (2 * lim + 1) : Nat) - (lim : Int))

/-- What steers APLLa at a boundary, by STEER (R233, R234). -/
def State.steer (s : State) (a : Nat) : State :=
  match s.fld (Page.apll a) Reg.APLL_CTRL 10 2 with
  | 1 => if (s.apll a).locked then s.tbSteer a else s
  | 2 => if (s.apll a).holdover then s else s.bellows a
  | _ => s

/-! ### Play-out (R227, R228, R230, R239, R243) -/

/-- A sample sum saturated at 32 bits, and whether it saturated. -/
def satAdd (a b : W32) : W32 × Bool :=
  let w := a.toInt + b.toInt
  if w > 2 ^ 31 - 1 then (0x7FFFFFFF, true) else if w < -(2 ^ 31) then (0x80000000, true) else (BitVec.ofInt 32 w, false)

/-- Whether port p meets the clock rule of R252: a master port with the RATE_NOM, the clock source and the AP_START_T modulo
the frame period of frame port q. -/
def State.clockRule (s : State) (p q : Nat) : Bool :=
  let start (p : Nat) : Nat := (s.reg64 (Page.audio p) Reg.AP_START_T_LO Reg.AP_START_T_HI).toNat
  s.portMaster p && s.rateNom p == s.rateNom q && bitsOf (s.apClk p) 1 2 == bitsOf (s.apClk q) 1 2 &&
  start p * s.rateNom p % 1000000000 == start q * s.rateNom q % 1000000000

/-- The frame port of the direct filter path (R252). -/
def State.framePort (s : State) : Nat := s.fld Page.dpMain Reg.DP_CTRL 0 5

/-- The direct-path samples that an output frame starting at t carries: the newest placed at or before its edge, whose stamps may
differ by less than half a frame (R253). -/
def State.dirAt (s : State) (t : W64) : SMap W32 :=
  let half := gridAt (2 * max (s.rateNom s.framePort) 1) 1
  match s.dp.pipe.find? fun e => decide (e.1.toNat ≤ t.toNat + half) with
  | some e => e.2
  | none => []

/-- The sample of a direct-path output in the frame of port p that starts at t: 24–31 act as ZERO (R250), and a port that fails the
clock rule plays +0 (R264). -/
def State.directOut (s : State) (p o : Nat) (t : W64) : W32 :=
  if o < 24 && s.clockRule p s.framePort then SMap.get (s.dirAt t) o 0 else 0

/-- The sample of a PDM output after its limit of ±0.70 · 2^31, and whether it was limited (R230). -/
def pdmLimit (v : W32) : W32 × Bool :=
  if v.toInt > 1503238553 then (BitVec.ofInt 32 1503238553, true)
  else if v.toInt < -1503238553 then (BitVec.ofInt 32 (-1503238553), true) else (v, false)

/-- The sample that transmit slot k selects for a frame at t with ring sample `v`, and whether it saturated (R228). -/
def State.txSample (s : State) (p k : Nat) (v : W32) (t : W64) : W32 × Bool :=
  let m := (SMap.get (s.port p).map k 0).toNat
  let o := s.directOut p (bitsOf m 3 5) t
  match bitsOf m 1 2 with
  | 0 => (v, false)
  | 1 => (o, false)
  | 2 => satAdd v o
  | _ => (0, false)

/-- Whether two samples differ in sign. -/
def signDiffers (a b : W32) : Bool := decide (a.toInt < 0) != decide (b.toInt < 0)

/-- One sample sent in a serial slot: at a zero crossing a gated slot opens, or mutes while stopping (R227, R243). -/
def State.sendSerial (s : State) (p k : Nat) (v : W32) : State :=
  let x := s.port p
  let cross := v == 0 || signDiffers v (SMap.get x.prevSample k 0)
  let was := x.openSlots.contains k
  let isOpen := if !s.slotGated p k then true else if x.st = 3 then was && !cross else was || cross
  let word := (v >>> (32 - s.wordBits p)) <<< (32 - s.wordBits p)
  s.setPort p { x with
    openSlots := if isOpen then (if was then x.openSlots else x.openSlots ++ [k]) else x.openSlots.filter (· != k),
    prevSample := SMap.set x.prevSample k v 0,
    out := SMap.set x.out k (s.driven p k (if isOpen then word.setWidth 128 else 0)) none }

/-- One sample sent on a PDM channel: modulated, or the zero-signal pattern on a line that is not enabled (R230). -/
def State.sendPdm (s : State) (p k : Nat) (v : W32) : State :=
  let x := s.port p
  if !bitOf (s.apFmt p) (1 + k / 2) then s.setPort p { x with out := SMap.set x.out k (some (s.pdmBits p zeroPattern)) none }
  else
    let (st, b) := Config.densityModulator (SMap.get x.mods k 0) v (bitOf (s.apFmt p) 0)
    s.setPort p { x with mods := SMap.set x.mods k st 0, out := SMap.set x.out k (some (s.pdmBits p b)) none }

/-- One frame sent: every slot selects its sample; saturated and limited samples are counted and flagged in the frame's block
(R223, R227, R228, R230, R243). -/
def State.sendFrame (s : State) (p : Nat) (f : TxFrame) : State :=
  let (s, clips) := (List.range (s.txSlots p)).foldl (fun (acc : State × Nat) k =>
    let (v, c1) := acc.1.txSample p k (f.v.getD k 0) f.t
    if portSerial p then (acc.1.sendSerial p k v, acc.2 + b2n c1)
    else
      let (v, c2) := pdmLimit v
      (acc.1.sendPdm p k v, acc.2 + b2n c1 + b2n c2)) (s, 0)
  if clips = 0 then s else
  let s := (s.count (Page.audio p) Reg.AP_CLIP_COUNT clips).irq (Page.audio p) 7
  match outRing p with
  | some r => s.blockFlag (s.ringShape r) f.frame 8
  | none => s

/-- The frames of port p whose edge has come are sent (R228, R239). -/
def State.sendDue (s : State) (p : Nat) (t : Nat) : State :=
  let (due, rest) := (s.port p).queue.partition fun f => decide (f.t.toNat ≤ t)
  due.foldl (fun s f => s.sendFrame p f) (s.modPort p fun x => { x with queue := rest })

/-- What every port has due is sent. -/
def State.sendAllDue (s : State) : State :=
  (s.audio.ports.filterMap fun e => if e.2.queue.isEmpty then none else some e.1).foldl (fun s p => s.sendDue p s.now.toNat) s

/-- Slot j taken at t: its frames wait for their edges with the samples that the port plays, zero where `zero` or where the read of
the frame found an uncorrectable error (R222, R239), and every ring frame of a marked slot is zeroed. -/
def State.takeSlot (s : State) (p r j : Nat) (t : W64) (zero : Bool) (ecc : List Ecc) : State :=
  let d := s.ringShape r
  let row := fun k => (List.range d.nch).map fun c =>
    if zero ∨ ecc.getD k .clean = .uncorrectable then (0 : W32) else s.sample d (j * d.slot + k) c
  let l := (List.range d.slot).map fun k =>
    ({ frame := j * d.slot + k, t := t + BitVec.ofNat 64 (s.ringTime r k), v := row k } : TxFrame)
  s.modPort p fun x => { x with queue := x.queue ++ l }

/-- The frames of slot j zeroed (R238, R239). -/
def State.zeroSlot (s : State) (r j : Nat) : State :=
  let d := s.ringShape r
  (List.range d.slot).foldl (fun s k => (List.range d.nch).foldl (fun s c => s.putSample d (j * d.slot + k) c 0) s) s

/-- The entries of the blocks whose first frame slot j holds (R223, R236): the take instants, SEQ, and DISCONT in the first block
after a start or a clock return. -/
def State.slotEntries (s : State) (p r j : Nat) (t : W64) : State :=
  let d := s.ringShape r
  ((List.range d.slot).filter fun k => d.block ≠ 0 ∧ (j * d.slot + k) % d.block = 0).foldl (fun s k =>
    let f := j * d.slot + k
    let tb := t + BitVec.ofNat 64 (s.ringTime r k)
    let x := s.port p
    let flags := 2 * b2n x.discontTx + 4 * b2n (decide (tb.toNat < x.errTo.toNat))
    (s.audioPut (d.stampAt (f / d.block)) (leBytes 8 tb.toNat ++ leBytes 4 (f / d.block) ++ leBytes 2 flags ++ [0, 0])).modPort p
      fun x => { x with discontTx := false }) s

/-- The CRCs of a slot's samples as the port takes them, by ring channel (R374). -/
def State.takeCrcs (s : State) (r j : Nat) (ecc : List Ecc) : SMap (Option W32) :=
  let d := s.ringShape r
  (List.range d.nch).foldl (fun m c =>
    let l := ((List.range d.slot).map fun k =>
      leBytes 4 (if ecc.getD k .clean = .uncorrectable then 0 else (s.sample d (j * d.slot + k) c).toNat)).flatten
    SMap.set m c (some (crc32 l)) none) []

/-- The errors that the reads of slot j's frames found: counted, and an uncorrectable one set in its block's entry (R222, R372). -/
def State.slotErrors (s : State) (r j : Nat) (ecc : List Ecc) : State :=
  let d := s.ringShape r
  (ecc.take d.slot).zipIdx.foldl (fun s e =>
    let s := s.audioEcc e.1
    if e.1 = .uncorrectable then s.blockFlag d (j * d.slot + e.2) 16 else s) s

/-- SLOT_TAKE (R238, R239): at the take instant of the next slot the port plays it, or zeros without its mark; during a clock
loss it discards it. `ecc` is what the read of each of its frames found (R222). A port that stops before it was ON takes nothing
(R246). -/
def execSlotTake (p : AudioPort) (ecc : List Ecc) (s : State) : Host.Outcome State Fault Refusal :=
  let p := p.val
  let x := s.port p
  match outRing p with
  | none => .next s
  | some r =>
    let d := s.ringShape r
    let on := x.st = 2 || (x.st = 3 && s.portTdm p && x.startT.isSome)
    if !on || !s.portTx p || !d.valid || d.slot = 0 then .next s else
    let j := x.taken / d.slot
    let due := if x.clkPresent then (match s.nextTake r with | some e => e.2 | none => 0)
      else if x.taken = 0 then (x.startT.getD s.now).toNat else x.takeT.toNat + gridAt (s.rateNom p) d.slot
    let s := s.reach (BitVec.ofNat 64 due)
    let s := (s.sendDue p (2 ^ 64)).slotEntries p r j s.now
    let t := s.now
    let g := s.ring r
    let s := (s.modPort p fun x => { x with taken := x.taken + d.slot, takeT := t, playCrc := [], unmarked := false }).modRing r
      fun g => { g with
        ready := g.ready.filter (· != j), expect := g.expect.filter fun e => decide (j < e / 16),
        commitCrc := g.commitCrc.filter fun e => decide (j ≤ e.1 / 16) }
    if !x.clkPresent then .next (s.zeroSlot r j)
    else
      let s := (if (inRing p).isSome && s.portRx p then s else s.portFrames p d.slot).phaseEdges p t (if (s.bankOf r).isSome then 0 else d.slot)
      if g.ready.contains j then
        let s := s.slotErrors r j ecc
        let s := s.modPort p fun x => { x with playCrc := s.takeCrcs r j ecc }
        .next (((s.takeSlot p r j t (s.bankUnlocked r) ecc).zeroSlot r j).sendDue p t.toNat)
      else
        let s := (s.takeSlot p r j t true []).sendDue p t.toNat
        let s := s.modPort p fun x => { x with unmarked := true }
        if g.expect.any fun e => e / 16 == j then .next ((s.count (Page.audio p) Reg.AP_UNDERRUN_COUNT).irq (Page.audio p) 4)
        else .next s

/-- SLOT_READY_MARK (R239): the commits that a boundary targets at the slot are complete. -/
def execSlotReadyMark (p : AudioPort) (slot : Nat) (s : State) : Host.Outcome State Fault Refusal :=
  match outRing p.val with
  | none => .next s
  | some r =>
    let g := s.ring r
    if (g.commitCrc.any fun e => e.1 / 16 == slot) && !s.slotPassed r slot && !g.ready.contains slot then
      let s := s.setRing r { g with ready := g.ready ++ [slot] }
      let ns := min (s.age (s.barStart s.pattern.bar) / 256) 0xFFFFF
      .next (s.setFld Page.streams Reg.SM_COMMIT_TIME_MAX 0 20 (max (s.fld Page.streams Reg.SM_COMMIT_TIME_MAX 0 20) ns))
    else .next s

/-- GATE_TIMEOUT (R243): with no zero crossing in time the slot opens, or mutes when stopping. -/
def execGateTimeout (p : AudioPort) (slot : Fin 16) (s : State) : Host.Outcome State Fault Refusal :=
  let p := p.val
  let k := slot.val
  let x := s.port p
  let pg := Page.audio p
  let frames := gridAt (s.rateNom p) (max (s.fld pg Reg.AP_GATE 0 16) 1)
  if !s.slotGated p k || !s.portTx p || decide (s.txSlots p ≤ k) then .next s
  else if x.st = 2 && !x.openSlots.contains k then
    let s := s.reach (x.startT.getD s.now + BitVec.ofNat 64 frames)
    .next (((s.setPort p { x with openSlots := x.openSlots ++ [k] }).count pg Reg.AP_GATE_TO_COUNT).irq pg 6)
  else if x.st = 3 && x.openSlots.contains k then
    let s := s.reach (x.stopT + BitVec.ofNat 64 frames)
    .next (((s.setPort p { x with
      openSlots := x.openSlots.filter (· != k), out := SMap.set x.out k (s.driven p k 0) none }).count pg Reg.AP_GATE_TO_COUNT).irq pg 6)
  else .next s

/-- LINE_STUCK (R229). -/
def execLineStuck (g : Fin 6) (_line : Fin 4) (s : State) : Host.Outcome State Fault Refusal :=
  let p := 12 + g.val
  if (s.port p).st = 0 then .next s
  else .next ((s.modPort p fun x => { x with lineStuck := true }).irq (Page.audio p) 8)

/-- MODULATOR_RESET (R230): the modulator is cleared and the channel sends the zero-signal pattern for one frame. -/
def execModulatorReset (h : Fin 2) (ch : Fin 8) (s : State) : Host.Outcome State Fault Refusal :=
  let p := 18 + h.val
  if (s.port p).st = 0 then .next s
  else .next ((s.modPort p fun x => { x with
    mods := SMap.set x.mods ch.val 0 0, out := SMap.set x.out ch.val (some (s.pdmBits p zeroPattern)) none }).count
      (Page.audio p) Reg.AP_MOD_RESET_COUNT)

/-! ### Ring descriptors (R221, R222) -/

/-- Whether ring r's descriptor passes the checks of R222. -/
def State.ringCheck (s : State) (r : Nat) : Bool :=
  let d := s.ringShape r
  decide (d.nch ≤ ringMaxCh r) && decide (1 ≤ d.block) && decide (d.block ≤ 256) && decide (1 ≤ d.frames) &&
  decide (d.frames ≤ 65536) && d.frames % d.block == 0 && d.base % 256 == 0 &&
  (!ringIsOut r || (decide (1 ≤ d.slot) && decide (d.slot ≤ 12288) && d.frames % d.slot == 0)) &&
  decide (d.stop ≤ 2097152) &&
  (List.range 32).all fun q =>
    q == r || !(s.ringShape q).valid || decide ((s.ringShape q).stop ≤ d.base) || decide (d.stop ≤ (s.ringShape q).base)

/-- Whether descriptor registers of ring r take writes: its port is OFF (R222). -/
def State.ringWritable (s : State) (r : Nat) : Bool := (s.port (ringPort r)).st == 0

/-- A write of RING_SHAPE[r] (R222): VALID is set only when the checks pass. -/
def State.ringShapeWrite (s : State) (src r : Nat) (v : W32) : State :=
  let off := Reg.RING_SHAPE + 16 * r
  if !s.ringWritable r then s.pgErrAt Page.audioBuf off src [28, 0]
  else
    let s := s.setReg Page.audioBuf off (BitVec.ofNat 32 (bitsOf v.toNat 0 13))
    if !bitOf v.toNat 13 then s
    else if s.ringCheck r then s.setFlag Page.audioBuf off 13 true
    else s.pgErrAt Page.audioBuf off src [28, 2]

/-- RING_SHAPE_VALID (R222). -/
def execRingShapeValid (src : NodeId) (r : Fin 32) (v : W32) (s : State) : Host.Outcome State Fault Refusal :=
  .next (s.ringShapeWrite src.val r.val v)

end Sys2Proof.Machine
end

