-- ==== Sys2Proof/Machine/DirectPath.lean ====
section
/-!
DEFINITION. The direct filter path (R251–R266): banks, enable checks, path frames with filtering and adaptation, load lists,
swaps and resync. A word of a bank is named by one number: pool word i is i; model word j of output o and error e is
131072 + 64·(16·o + e) + j; μ of pair p is 155648 + p; λ of output o is 156416 + o.
-/
namespace Sys2Proof.Machine

/-! ### Banks (R251, R258, R263) -/

/-- What an unwritten word of a bank reads as: +0, or unpredictable after a chip warm reset (R263). -/
def DirectPath.dflt (d : DirectPath) (bank : Bool) (i : Nat) : W32 :=
  match d.bankFree with
  | none => 0
  | some n => Config.freeWord n (i + 262144 * b2n bank)

/-- Word i of a bank. -/
def DirectPath.word (d : DirectPath) (bank : Bool) (i : Nat) : W32 :=
  if i < 131072 then SMap.get (if bank then d.coef1 else d.coef0) i (d.dflt bank i)
  else if i < 155648 then SMap.get (if bank then d.sec1 else d.sec0) (i - 131072) (d.dflt bank i)
  else if i < 156416 then SMap.get (if bank then d.mu1 else d.mu0) (i - 155648) (d.dflt bank i)
  else SMap.get (if bank then d.lam1 else d.lam0) (i - 156416) (d.dflt bank i)

/-- Word i of a bank written. -/
def DirectPath.put (d : DirectPath) (bank : Bool) (i : Nat) (v : W32) : DirectPath :=
  let z := d.dflt bank i
  if i < 131072 then
    if bank then { d with coef1 := SMap.set d.coef1 i v z } else { d with coef0 := SMap.set d.coef0 i v z }
  else if i < 155648 then
    let k := i - 131072
    if bank then { d with sec1 := SMap.set d.sec1 k v z } else { d with sec0 := SMap.set d.sec0 k v z }
  else if i < 156416 then
    let k := i - 155648
    if bank then { d with mu1 := SMap.set d.mu1 k v z } else { d with mu0 := SMap.set d.mu0 k v z }
  else
    let k := i - 156416
    if bank then { d with lam1 := SMap.set d.lam1 k v z } else { d with lam0 := SMap.set d.lam0 k v z }

/-- Model word j of output o and error e. -/
def secWord (o e j : Nat) : Nat := 131072 + 64 * (16 * o + e) + j
/-- μ of pair p. -/
def muWord (p : Nat) : Nat := 155648 + p
/-- λ of output o. -/
def lamWord (o : Nat) : Nat := 156416 + o

/-- A pair's settings (R266). -/
structure PairCfg where
  taps : Nat
  base : Nat
  adapt : Bool
deriving DecidableEq, Repr

/-- DP_PAIR[p]. -/
def State.dpPair (s : State) (p : Nat) : PairCfg :=
  let v := (s.reg Page.dpPair (Reg.DP_PAIR + 4 * p)).toNat
  { taps := bitsOf v 0 11, base := bitsOf v 11 17, adapt := bitOf v 28 }

/-- The used pairs (R251). -/
def State.dpUsed (s : State) : List Nat := (List.range 768).filter fun p => (s.dpPair p).taps != 0
/-- SEC_TAPS. -/
def State.dpSecTaps (s : State) : Nat := s.fld Page.dpMain Reg.DP_CTRL 5 7
/-- DP_OUT[o]. -/
def State.dpOut (s : State) (o : Nat) : Nat := (s.reg Page.dpMain (Reg.DP_OUT + 4 * o)).toNat
/-- The error inputs of output o's ERRMASK. -/
def State.dpErrs (s : State) (o : Nat) : List Nat := (List.range 16).filter fun e => bitOf (bitsOf (s.dpOut o) 1 16) e
/-- 2^UPD of output o. -/
def State.dpUpd (s : State) (o : Nat) : Nat := 2 ^ bitsOf (s.dpOut o) 17 4
/-- The active bank of output o. -/
def State.dpBank (s : State) (o : Nat) : Bool := s.dp.active.getLsbD o

/-- Every word that output o owns: its pairs' pool words, its models, its μ and its λ (R258). -/
def State.dpOwned (s : State) (o : Nat) : List Nat :=
  let pairs := s.dpUsed.filter fun p => p % 24 == o
  (pairs.map fun p => (List.range (s.dpPair p).taps).map fun i => (s.dpPair p).base + i).flatten ++
  ((List.range 16).map fun e => (List.range 64).map fun j => secWord o e j).flatten ++ pairs.map muWord ++ [lamWord o]

/-! ### Enable (R252, R257, R263) -/

/-- The frame cost C (R257). -/
def State.dpCost (s : State) : Nat :=
  ((s.dpUsed.map fun p =>
    let c := s.dpPair p
    let u := s.dpUpd (p % 24)
    c.taps + if c.adapt then (s.dpErrs (p % 24)).length * (s.dpSecTaps + (c.taps + u - 1) / u) else 0)).sum

/-- Whether the used pairs lie in the pool without overlap (R257). -/
def State.dpPoolOk (s : State) : Bool :=
  s.dpUsed.all fun p =>
    let c := s.dpPair p
    decide (c.taps ≤ 1024) && decide (c.base + c.taps ≤ 131072) &&
    s.dpUsed.all fun q =>
      let d := s.dpPair q
      q == p || decide (c.base + c.taps ≤ d.base) || decide (d.base + d.taps ≤ c.base)

/-- The ports that DP_REF and DP_ERR name. -/
def State.dpPorts (s : State) : List Nat :=
  ((List.range 32).filterMap fun r =>
    let v := (s.reg Page.dpMain (Reg.DP_REF + 4 * r)).toNat
    if bitsOf v 0 2 = 1 then some (bitsOf v 2 5) else none) ++
  ((List.range 16).filterMap fun e =>
    let v := (s.reg Page.dpMain (Reg.DP_ERR + 4 * e)).toNat
    if bitOf v 0 then some (bitsOf v 1 5) else none)

/-- The checks of an enable (R252, R257, R266). -/
def State.dpEnableOk (s : State) : Bool :=
  let fp := s.framePort
  let fs := s.rateNom fp
  let ph := s.fld Page.dpMain Reg.DP_PHASE 0 16
  let c := s.dpCost
  decide (fp < 20) && decide (1 ≤ fs) && decide (1 ≤ s.dpSecTaps) && decide (s.dpSecTaps ≤ 64) &&
  s.dpPorts.all (fun p => decide (p < 18) && s.clockRule p fp) &&
  decide (100 ≤ ph) && decide (ph * 2 * fs ≤ 1000000000) && s.dpPoolOk &&
  (if fs ≤ 96000 then
     decide ((c : Int) * fs * 1000 ≤ 64000 * ((1000000000 : Int) - ph * fs - 500 * fs))
   else decide (c * fs ≤ 64000000000))

/-- A write of ENABLE = 1 (R263). -/
def State.dpEnable (s : State) (src : Nat) : State :=
  let pg := Page.dpMain
  if !s.pageOn pg then s.setFlag pg Reg.PG_STATE 2 true else
  match s.dp.st with
  | 0 =>
    let s := s.setFld pg Reg.DP_COST 0 24 s.dpCost
    if s.dpEnableOk then
      let s := s.setFlag pg Reg.PG_CTRL 0 true
      let d := { s.dp with st := 1, pend := false, edge := none, recent := [], pipe := [] }
      let d := if s.flag pg Reg.DP_CTRL 13 then
          { d with coef0 := [], coef1 := [], sec0 := [], sec1 := [], mu0 := [], mu1 := [], lam0 := [], lam1 := [],
                   bankFree := none, hist := [], fhist := [] }
        else d
      { s with dp := d }
    else (s.setFlag pg Reg.PG_CTRL 0 false).enableRefused pg src
  | 3 =>
    let s := s.setFlag pg Reg.PG_CTRL 0 true
    { s with dp := { s.dp with pend := true } }
  | _ => s

/-- DIRECT_PATH_ENABLE (R263). -/
def execDirectPathEnable (src : NodeId) (s : State) : Host.Outcome State Fault Refusal := .next (s.dpEnable src.val)

/-- A write of ENABLE = 0 (R263, R428). -/
def State.dpDisable (s : State) : State :=
  let s := s.setFlag Page.dpMain Reg.PG_STATE 2 false
  let s := s.setFlag Page.dpMain Reg.PG_CTRL 0 false
  match s.dp.st with
  | 1 | 2 => { s with dp := { s.dp with st := 3, stopIn := 2 } }
  | 3 => { s with dp := { s.dp with pend := false } }
  | _ => s

/-- DIRECT_PATH_DISABLE (R263). -/
def execDirectPathDisable (_src : NodeId) (s : State) : Host.Outcome State Fault Refusal := .next s.dpDisable

/-- BLOCK_RESET of the direct filter path (R444): OFF without STOPPING, outputs +0, banks kept. -/
def State.dpBlockReset (s : State) : State :=
  if !s.pageOn Page.dpMain then s else
  let s := s.setFlag Page.dpMain Reg.PG_CTRL 0 false
  { s with dp := { s.dp with st := 0, pend := false, pipe := [], stopIn := 0 } }

/-- DIRECT_PATH_BLOCK_RESET (R444). -/
def execDirectPathBlockReset (_src : NodeId) (s : State) : Host.Outcome State Fault Refusal := .next s.dpBlockReset

/-! ### A path frame (R254–R256, R261, R264) -/

/-- The outputs of a mask. -/
def outputsOf (m : BitVec 24) : List Nat := (List.range 24).filter fun o => m.getLsbD o

/-- Swaps at the path frame that begins at E_k: armed outputs whose boundary has come by then, and at the first frame after the path
goes ON every ready output; an output marked ready at E_k or later is not ready (R261, R264). -/
def State.dpSwap (s : State) (ek : W64) : State :=
  let due := if s.dp.swapT.toNat ≤ ek.toNat then s.dp.swapDue else 0
  let s := (List.range 24).foldl (fun s o =>
    let armed := due.getLsbD o && bitOf (s.dpOut o) 0
    let ready := s.dp.ready.getLsbD o && decide ((SMap.get s.dp.readyT o 0).toNat < ek.toNat)
    let bit : BitVec 24 := BitVec.ofNat 24 (2 ^ o)
    if (armed || s.dp.firstFrame) && ready then
      let s := s.count Page.dpMain Reg.DP_SWAP_COUNT
      { s with dp := { s.dp with active := s.dp.active ^^^ bit, ready := s.dp.ready &&& ~~~bit, resync := s.dp.resync ||| bit } }
    else if armed then s.count Page.dpMain Reg.DP_SWAP_SKIP_COUNT
    else s) s
  { s with dp := { s.dp with swapDue := s.dp.swapDue &&& ~~~due, firstFrame := false } }

/-- Errors met in bank words: corrected ones are counted; an uncorrectable word becomes +0 (R264). -/
def State.dpFaults (s : State) (l : List DpFault) : State :=
  l.foldl (fun s f =>
    if f.corrected then s.correctedError Page.dpMain Reg.DP_ECC
    else
      let s := s.countFld Page.dpMain Reg.DP_ECC 16 16 1
      ({ s with dp := s.dp.put f.bank f.word 0 }).raiseMech 4 none) s

/-- Whether a port delivers samples: ON and not in a clock loss (R254). -/
def State.portLive (s : State) (p : Nat) : Bool := (s.port p).st == 2 && !(s.port p).filling && (s.port p).clkPresent

/-- Whether oscillator k runs: enabled, its angle TRACKING (R255). -/
def State.oscLive (s : State) (k : Nat) : Bool :=
  let v := (s.reg Page.dpMain (Reg.DP_OSC + 8 * k)).toNat
  bitOf v 25 && (s.angle (bitsOf v 24 1)).st == 2

/-- The phase p of oscillator k in units of 2^−32 cycle (R255). -/
def State.oscPhase (s : State) (k : Nat) : W32 :=
  let v := (s.reg Page.dpMain (Reg.DP_OSC + 8 * k)).toNat
  let ph := s.fld Page.dpMain (Reg.DP_OSC_PHASE + 8 * k) 0 16
  BitVec.ofNat 32 (bitsOf v 0 24 * (s.angleNow (bitsOf v 24 1)).toNat + ph * 65536)

/-- The instant from which the path may use channel ch of a received frame (R253): 40 ns after the end of a serial slot, or t_grp
(R229) and 200 ns after the stamp of a PDM sample. -/
def State.availAt (s : State) (f : PortFrame) (ch : Nat) : Nat :=
  let p := f.port.val
  if portSerial p then
    f.stamp.toNat + gridAt (s.bitClock p) ((ch + 1) * widthBits (bitsOf (s.apFmt p) 5 2)) + nsTb 40
  else
    let osr := [16, 32, 64, 128].getD (bitsOf (s.apFmt p) 0 2) 16
    f.stamp.toNat + gridAt (4 * osr * s.rateNom p) (21 * osr + 10 * (osr / 4 - 1)) + nsTb 200

/-- Channel ch of a received frame: a serial word as the port places it, and nothing beyond NSLOTS (R227). -/
def State.frameSample (s : State) (f : PortFrame) (ch : Nat) : W32 :=
  let p := f.port.val
  if portSerial p then
    if ch < s.nslots p then ((f.samples.getD ch 0) >>> (32 - s.wordBits p)) <<< (32 - s.wordBits p) else 0
  else f.samples.getD ch 0

/-- The latest sample of a port's channel available before E_k (R253). Before any is, the value is free: draw `n`. -/
def State.latest (s : State) (p ch : Nat) (ek : W64) (n : Nat) : W32 :=
  let l := s.dp.recent.filter fun f => f.port.val == p && decide (s.availAt f ch < ek.toNat)
  match l.foldl (fun (b : Option PortFrame) f =>
      match b with
      | some g => if g.stamp.toNat < f.stamp.toNat then some f else some g
      | none => some f) none with
  | some f => s.frameSample f ch
  | none => (Config.freeValue n).setWidth 32

/-- Reference r in this frame: its value, whether it is lost, and whether its pairs may update (R254, R255). -/
def State.dpRef (s : State) (r : Nat) (ek : W64) : W32 × Bool × Bool :=
  let v := (s.reg Page.dpMain (Reg.DP_REF + 4 * r)).toNat
  let osc := bitsOf v 11 5
  match bitsOf v 0 2 with
  | 0 => (0, false, true)
  | 1 => if s.portLive (bitsOf v 2 5) then (sampleFp (s.latest (bitsOf v 2 5) (bitsOf v 7 4) ek (s.free + r)), false, true) else (0, true, true)
  | 2 => if s.oscLive osc then (sineOf (s.oscPhase osc + 0x40000000), false, true) else (0, false, false)
  | _ => if s.oscLive osc then (sineOf (s.oscPhase osc), false, true) else (0, false, false)

/-- Error input e in this frame: its value and whether it is lost (R254). -/
def State.dpErr (s : State) (e : Nat) (ek : W64) : W32 × Bool :=
  let v := (s.reg Page.dpMain (Reg.DP_ERR + 4 * e)).toNat
  if !bitOf v 0 then (0, false)
  else if s.portLive (bitsOf v 1 5) then (sampleFp (s.latest (bitsOf v 1 5) (bitsOf v 6 4) ek (s.free + 32 + e)), false)
  else (0, true)

/-- A history value `age` frames ago. -/
def histGet (m : SMap W32) (k frame age : Nat) : W32 := SMap.get m (1024 * k + (frame + 1024 - age) % 1024) 0

/-- One adaptive update of pair p at frame k (R256): the new coefficients written into both banks; a non-finite one zeroes the
pair. -/
def State.dpUpdate (s : State) (p k : Nat) (err : Nat → W32) : State :=
  let c := s.dpPair p
  let o := p % 24
  let r := p / 24
  let b := s.dpBank o
  let es := s.dpErrs o
  let u := s.dpUpd o
  let mu := s.dp.word b (muWord p)
  let keep := fpSub fpOne (s.dp.word b (lamWord o))
  let taps := (List.range c.taps).filter fun i => i % u == k % u
  let new := taps.map fun i =>
    let g := sumAny s.free (20000 + 1024 * p + i) (es.map fun e => fpMul (histGet s.dp.fhist (384 * r + 16 * o + e) k i) (err e))
    (i, fpSub (fpMul keep (s.dp.word b (c.base + i))) (fpMul mu g))
  if new.any fun e => fpIsNaN e.2 || fpIsInf e.2 then
    let d := (List.range c.taps).foldl (fun d i => (d.put false (c.base + i) 0).put true (c.base + i) 0) s.dp
    let d := { d with fhist := d.fhist.filter fun h => !(es.any fun e => h.1 / 1024 == 384 * r + 16 * o + e) }
    (({ s with dp := d }).count Page.dpMain Reg.DP_DIVERGE_COUNT).setFlag Page.dpMain Reg.DP_DIVERGED o true
  else
    { s with dp := new.foldl (fun d e => (d.put false (c.base + e.1) e.2).put true (c.base + e.1) e.2) s.dp }

/-- The filtered references of pair p at frame k entered into their histories (R256). -/
def State.dpFilterRef (s : State) (p k : Nat) : State :=
  let o := p % 24
  let r := p / 24
  let b := s.dpBank o
  (s.dpErrs o).foldl (fun s e =>
    let v := sumAny s.free (32 + 384 * r + 16 * o + e) ((List.range s.dpSecTaps).map fun j => fpMul (s.dp.word b (secWord o e j)) (histGet s.dp.hist r k j))
    { s with dp := { s.dp with fhist := SMap.set s.dp.fhist (1024 * (384 * r + 16 * o + e) + k % 1024) v 0 } }) s

/-- The output sample of y (R256): a NaN has no stated result and gives a free value. -/
def State.dpSample (s : State) (y : W32) : W32 × State :=
  if fpIsNaN y then s.draw 32
  else
    let (i, sat) := fpSample y
    (BitVec.ofInt 32 i, if sat then s.count Page.dpMain Reg.DP_OUT_SAT_COUNT else s)

/-- The edge of the output frame that takes the outputs of the path frame of frame edge `edge`: the next one, and above 96 kHz the
one after it (R253). -/
def State.dpPlace (s : State) (edge : W64) : W64 :=
  let fs := s.rateNom s.framePort
  edge + BitVec.ofNat 64 (gridAt fs (if fs ≤ 96000 then 1 else 2))

/-- Output samples placed in their output frame (R253). -/
def State.dpOutput (s : State) (edge : W64) (m : SMap W32) : State :=
  { s with dp := { s.dp with pipe := ((s.dpPlace edge, m) :: s.dp.pipe).take 4 } }

/-- One path frame of a path that is ON, for frame edge `edge` and E_k (R253–R256). The order of each sum is free: draw `free`. -/
def State.dpFrame (s : State) (edge ek : W64) : State :=
  let k := s.dp.frame
  let at_ : State := { s with time := { s.time with tb := ek } }
  let rs : List (W32 × Bool × Bool) := (List.range 32).map fun r => at_.dpRef r ek
  let es : List (W32 × Bool) := (List.range 16).map fun e => s.dpErr e ek
  let mask (l : List Bool) : Nat := (l.zipIdx.map fun b => b2n b.1 * 2 ^ b.2).sum
  let hist := rs.zipIdx.foldl (fun (m : SMap W32) (e : (W32 × Bool × Bool) × Nat) => SMap.set m (1024 * e.2 + k % 1024) e.1.1 0) s.dp.hist
  let s := { s with dp := { s.dp with
    hist := hist, refLost := BitVec.ofNat 32 (mask (rs.map fun (x : W32 × Bool × Bool) => x.2.1)), errLost := BitVec.ofNat 16 (mask (es.map fun (x : W32 × Bool) => x.2)) } }
  let used := s.dpUsed.filter fun p => bitOf (s.dpOut (p % 24)) 0
  let s : State := used.foldl (fun (s : State) p => s.dpFilterRef p k) s
  let ys := (List.range 24).map fun o =>
    (o, (used.filter fun p => p % 24 == o).map fun p =>
      (List.range (s.dpPair p).taps).map fun i =>
        fpMul (s.dp.word (s.dpBank o) ((s.dpPair p).base + i)) (histGet s.dp.hist (p / 24) k i))
  let adapting := used.filter fun p =>
    (s.dpPair p).adapt && s.flag Page.dpMain Reg.DP_CTRL 12 && (rs.getD (p / 24) (0, false, false)).2.2 &&
    !(s.dpErrs (p % 24)).any fun e => (es.getD e (0, false)).2
  let s : State := adapting.foldl (fun (s : State) p => s.dpUpdate p k fun e => (es.getD e (0, false)).1) s
  let n := s.free
  let (s, m) := ys.foldl (fun (acc : State × SMap W32) e =>
    if bitOf (acc.1.dpOut e.1) 0 then
      let (v, s) := acc.1.dpSample (sumAny n e.1 e.2.flatten)
      (s, SMap.set acc.2 e.1 v 0)
    else acc) ({ s with free := n + 48 }, [])
  ({ s with dp := { s.dp with frame := k + 1 } }).dpOutput edge m

/-- Whether a port with a DIRECT or SUM slot fails the clock rule (R264). -/
def State.dpMismatch (s : State) : Bool :=
  (List.range 20).any fun p =>
    (s.port p).st == 2 && s.portTx p && !s.clockRule p s.framePort &&
    (List.range (s.txSlots p)).any fun k => let m := (SMap.get (s.port p).map k 0).toNat; bitsOf m 1 2 == 1 || bitsOf m 1 2 == 2

/-- A path frame of a path that is ON. -/
def State.dpRun (s : State) (edge ek : W64) (ecc : List DpFault) : State :=
  let s := ((s.dpFaults ecc).dpSwap ek).dpFrame edge ek
  { s with dp := { s.dp with mapMismatch := s.dpMismatch } }

/-- A path frame while STOPPING: outputs +0, OFF two frames later (R263). -/
def State.dpStopFrame (s : State) (edge : W64) : State :=
  let n := s.dp.stopIn
  let s := ({ s with dp := { s.dp with stopIn := n - 1 } }).dpOutput edge []
  if n ≠ 0 then s
  else
    let pend := s.dp.pend
    let s := { s with dp := { s.dp with st := 0, pend := false, pipe := [] } }
    if pend then s.dpEnable s.node else s

/-- The timebase at E_k = G_k + DP_PHASE (R252), the frames received since the last path frame held (R253; those of the last 16
frame periods serve every sample that can still be the latest), and every output frame before it sent. -/
def State.dpReach (s : State) (edge : W64) (inputs : List PortFrame) : State :=
  let s := s.reach (edge + BitVec.ofNat 64 (nsTb (s.fld Page.dpMain Reg.DP_PHASE 0 16)))
  let old := gridAt (s.rateNom s.framePort) 16
  let keep := (inputs ++ s.dp.recent).filter fun f => decide (edge.toNat ≤ f.stamp.toNat + old)
  ({ s with dp := { s.dp with edge := some edge, recent := keep } }).sendAllDue

/-- PATH_FRAME (R252, R253, R256, R261, R263): frame edge `edge` of the frame port, with the frames that the ports have received
since the last path frame. Edges come while the frame port's clocks run, one after another. -/
def execPathFrame (edge : W64) (inputs : List PortFrame) (ecc : List DpFault) (s : State) : Host.Outcome State Fault Refusal :=
  let again := match s.dp.edge with | some e => decide (edge.toNat ≤ e.toNat) | none => false
  if s.dp.st = 0 || again || !(s.port s.framePort).clkPresent then .next s else
  let s := s.dpReach edge inputs
  let ek := edge + BitVec.ofNat 64 (nsTb (s.fld Page.dpMain Reg.DP_PHASE 0 16))
  let s :=
    if s.dp.st = 1 && (s.port s.framePort).st = 2 then
      State.lockPending { s with dp := { s.dp with st := 2, firstFrame := true } } Page.dpMain
    else s
  if s.dp.st = 2 then .next (s.dpRun edge ek ecc)
  else if s.dp.st = 3 then .next (s.dpStopFrame edge)
  else .next s

/-- RESYNC_DONE (R258): output o's active words have been copied into its shadow. -/
def execResyncDone (o : Fin 24) (s : State) : Host.Outcome State Fault Refusal :=
  let o := o.val
  if !s.dp.resync.getLsbD o then .next s else
  let b := s.dpBank o
  let d := (s.dpOwned o).foldl (fun d i => d.put (!b) i (d.word b i)) s.dp
  .next { s with dp := { d with resync := d.resync &&& ~~~(BitVec.ofNat 24 (2 ^ o)) } }

/-! ### Load lists (R259, R260) -/

/-- The READs on VC6 for the oldest list, where it lies on another node (R259, R308): issued once. -/
def State.askList (s : State) : State :=
  match s.dp.loads with
  | [] => s
  | x :: rest =>
    if x.asked || nodeOf x.addr == s.node then s else
    let put (y : LoadList) : State := { s with dp := { s.dp with loads := { y with asked := true } :: rest } }
    match s.refuseRequest (nodeOf x.addr) with
    | some _ => put { x with bad := some 0 }
    | none =>
      (pieces (localOf x.addr) x.bytes).foldl (fun s p =>
        s.request 6 { s.newPacket 0x10 (nodeOf x.addr) with addr := BitVec.ofNat 64 p.1, operand := BitVec.ofNat 64 p.2 }
          { plainTag with addr := BitVec.ofNat 64 p.1, len := p.2, kind := .loadRead x.serial (p.1 - localOf x.addr) })
        (put { x with data := List.replicate x.bytes 0, left := x.bytes })

/-- A write of 1 to DP_LOAD_GO (R259). -/
def State.dpLoadGo (s : State) : State :=
  let w (k : Nat) : W32 := s.reg Page.dpMain (Reg.DP_LOAD_DESC + 4 * k)
  if 4 ≤ s.dp.loads.length then s.count Page.dpMain Reg.DP_LOAD_REFUSED_COUNT
  else
    let x : LoadList := { serial := s.dp.nextList, addr := w 1 ++ w 0, bytes := (w 2).toNat, mask := (w 3).setWidth 24,
                          asked := false, data := [], left := 0, bad := none }
    State.askList { s with dp := { s.dp with loads := s.dp.loads ++ [x], nextList := s.dp.nextList + 1 } }

/-- DP_LOAD_GO (R259). -/
def execDpLoadGo (_src : NodeId) (s : State) : Host.Outcome State Fault Refusal := .next s.dpLoadGo

/-- A record of a load list (R260). -/
structure LoadRec where
  kind : Nat
  index : Nat
  offset : Nat
  count : Nat
  data : List W32
deriving DecidableEq, Repr

/-- The output that owns a record (R260). -/
def LoadRec.owner (r : LoadRec) : Nat := if r.kind = 2 then r.index / 16 else if r.kind = 4 then r.index else r.index % 24

/-- The record at an offset of a list. -/
def loadRecAt (l : List Byte) (o : Nat) : LoadRec :=
  let n := natAt l (o + 6) 2
  { kind := natAt l o 1, index := natAt l (o + 2) 2, offset := natAt l (o + 4) 2, count := n,
    data := (List.range n).map fun i => BitVec.ofNat 32 (natAt l (o + 16 + 4 * i) 4) }

/-- Why a record stops its list: 1 KIND, 2 RANGE, 4 UNUSED_PAIR (R260, R266). -/
def State.loadBad (s : State) (r : LoadRec) : Option Nat :=
  if 4 < r.kind then some 1
  else
    let single := decide (r.kind = 3) || decide (r.kind = 4)
    let lim := match r.kind with | 2 => 384 | 4 => 24 | _ => 768
    if lim ≤ r.index then some 2
    else if r.kind ≠ 2 ∧ r.kind ≠ 4 ∧ (s.dpPair r.index).taps = 0 then some 4
    else
      let top := match r.kind with | 2 => s.dpSecTaps | 3 | 4 => 1 | _ => (s.dpPair r.index).taps
      if r.count = 0 ∨ 1024 < r.count ∨ top < r.offset + r.count ∨ (single && (r.count != 1 || r.offset != 0)) then some 2
      else none

/-- A record written into the shadow of its owner (R260). -/
def State.loadApply (s : State) (r : LoadRec) : State :=
  let b := !s.dpBank r.owner
  let base := match r.kind with
    | 2 => 131072 + 64 * r.index
    | 3 => muWord r.index
    | 4 => lamWord r.index
    | _ => (s.dpPair r.index).base
  { s with dp := r.data.zipIdx.foldl (fun d e =>
      let i := base + r.offset + e.2
      d.put b i (if r.kind = 1 then fpAdd (d.word b i) e.1 else e.1)) s.dp }

/-- The records of a list from byte `o` on, `n` of them before it, up to its stop: cause and record index, or none at its end
(R260). `got` bytes arrived of `total`; a record takes at least 16 bytes, which bounds their number. -/
def State.loadList (s : State) (l : List Byte) (got total o n : Nat) : Nat → List LoadRec × Option (Nat × Nat)
  | 0 => ([], none)
  | fuel + 1 =>
    if total ≤ o then ([], none)
    else if got < o + 16 then ([], some (if got < total then 3 else 2, n))
    else
      let r := loadRecAt l o
      match s.loadBad r with
      | some c => ([], some (c, n))
      | none =>
        let stop := o + 16 + 4 * r.count
        if got < stop then ([], some (if got < total then 3 else 2, n))
        else
          let (t, e) := s.loadList l got total ((stop + 15) / 16 * 16) (n + 1) fuel
          (r :: t, e)

/-- The bytes of a local range up to the first transaction that fails. -/
def State.readPrefix (s : State) (who : Requester) : List (Nat × Nat) → List Byte × State
  | [] => ([], s)
  | p :: rest =>
    let (st, l, s) := s.readPiece who false p.1 p.2
    if st ≠ 0 then ([], s)
    else
      let (m, s) := s.readPrefix who rest
      (l ++ m, s)

/-- Outputs marked ready now (R259, R264). -/
def State.markReady (s : State) (m : BitVec 24) : State :=
  { s with dp := { s.dp with
    ready := s.dp.ready ||| m, readyT := (outputsOf m).foldl (fun t o => SMap.set t o s.now 0) s.dp.readyT } }

/-- The bytes of a list up to its first read that failed (R260): read from this device, or as they came over the links. -/
def State.loadBytes (s : State) (x : LoadList) : List Byte × State :=
  if nodeOf x.addr = s.node then s.readPrefix .sys (pieces (localOf x.addr) x.bytes)
  else (match x.bad with | some b => x.data.take b | none => x.data, s)

/-- A list has run (R259, R260): its records up to its stop are applied; then its outputs are READY, or the stop is recorded. -/
def State.loadEnd (s : State) (x : LoadList) (recs : List LoadRec) (stop : Option (Nat × Nat)) : State :=
  let s := recs.foldl (fun s r => s.loadApply r) s
  match stop with
  | none => s.markReady x.mask
  | some (c, n) => (s.setFld Page.dpMain Reg.DP_LOAD_ERR 0 4 c).setFld Page.dpMain Reg.DP_LOAD_ERR 4 16 n

/-- LOAD_LIST_DONE (R259, R260, R264): the oldest pending list has been run, at `t` or later. It waits while reads of it are outstanding, and while it targets
an output under resync (R258, R264). -/
def execLoadListDone (t : W64) (s : State) : Host.Outcome State Fault Refusal :=
  match s.dp.loads with
  | [] => .next s
  | x :: rest =>
    if x.left ≠ 0 then .next s else
    let (l, s') := s.loadBytes x
    let (recs, stop) := s'.loadList l l.length x.bytes 0 0 (x.bytes / 16 + 1)
    if recs.any fun r => s.dp.resync.getLsbD r.owner then .next s
    else
      let u := (s'.reach t).loadEnd x recs stop
      .next (State.askList { u with dp := { u.dp with loads := rest } })

end Sys2Proof.Machine
end

