-- ==== Sys2Proof/Machine/Compression.lean ====
section
/-!
DEFINITION. Coded blocks, Codec H and Codec Z (R282–R291), table slots (R284–R287), the compression engine's jobs
(R292–R296).
-/
namespace Sys2Proof.Machine

/-! ### Codec H (R284) -/

/-- The canonical codes of a list of lengths: (length, code, symbol), as RFC 1951 section 3.2.2 constructs them. -/
def hCodes (lengths : List Nat) : List (Nat × Nat × Nat) :=
  ((List.range 15).foldl (fun (acc : Nat × List (Nat × Nat × Nat)) k =>
    let len := k + 1
    let code := acc.1 * 2
    let syms := (lengths.zipIdx.filter fun e => e.1 == len).map (·.2)
    (code + syms.length, acc.2 ++ syms.zipIdx.map fun e => (len, code + e.2, e.1))) (0, [])).2

/-- The next code of a payload from bit `pos` on: its length and symbol. `v` is the payload as a number, `len` the bits taken
so far and `code` their value, first bit most significant. -/
def hNext (codes : List (Nat × Nat × Nat)) (v bits pos len code : Nat) : Nat → Option (Nat × Nat)
  | 0 => none
  | fuel + 1 =>
    if bits ≤ pos then none else
    let code := code * 2 + bitsOf v pos 1
    match codes.find? fun c => c.1 == len + 1 && c.2.1 == code with
    | some c => some (len + 1, c.2.2)
    | none => hNext codes v bits (pos + 1) (len + 1) code fuel

/-- Symbols decoded with their code lengths, the bit after the last one, and whether decoding stopped early. -/
def hDecode (codes : List (Nat × Nat × Nat)) (v bits pos : Nat) : Nat → List (Nat × Nat) × Nat × Bool
  | 0 => ([], pos, false)
  | n + 1 =>
    match hNext codes v bits pos 0 0 15 with
    | none => ([], pos, true)
    | some (len, sym) =>
      let (l, p, bad) := hDecode codes v bits (pos + len) n
      ((len, sym) :: l, p, bad)

/-- Lane cycles of a Codec H decode: codes in order, at most 32 bits and `lim` codes a cycle (R292). -/
def hCycles (lens : List Nat) (lim : Nat) : Nat :=
  let r := lens.foldl (fun (acc : Nat × Nat × Nat) n =>
    let (cycles, used, cnt) := acc
    if used + n ≤ 32 ∧ cnt < lim ∧ cnt ≠ 0 then (cycles, used + n, cnt + 1) else (cycles + 1, n, 1)) (0, 0, 0)
  r.1

/-- Nibbles joined into bytes, low nibble first; a last odd nibble makes no byte. -/
def joinNibbles : List Nat → List Byte
  | a :: b :: r => BitVec.ofNat 8 (a + 16 * b) :: joinNibbles r
  | _ => []

/-- What a decode gives: the bytes produced, whether damage was found, and lane cycles. -/
structure Decoded where
  bytes : List Byte
  bad : Bool
  cycles : Nat
deriving DecidableEq, Repr

/-- A Codec H payload decoded with a table into `raw` bytes (R284, R290). -/
def decodeH (t : TableVer) (payload : List Byte) (raw : Nat) : Decoded :=
  let bits := 8 * payload.length
  let v := leNat payload
  let n := if t.bc4 then 2 * raw else raw
  let (syms, pos, stop) := hDecode (hCodes t.lengths) v bits 0 n
  let bytes := if t.bc4 then joinNibbles (syms.map (·.2)) else syms.map fun e => BitVec.ofNat 8 e.2
  { bytes := bytes, bad := stop || v / 2 ^ pos != 0, cycles := 16 + hCycles (syms.map (·.1)) (if t.bc4 then 8 else 4) }

/-! ### Codec Z (R288, R289) -/

/-- An element of W magnitude bits at a bit position: its byte. -/
def zElem (v pos w : Nat) : Byte := BitVec.ofNat 8 (128 * bitsOf v pos 1 + bitsOf v (pos + 1) w)

/-- The units of a Codec Z payload from bit `pos` on, `left` raw bytes still to produce: bytes, the bit reached, damage
(R288, R290). -/
def zUnits (v bits pos left : Nat) : Nat → List Byte × Nat × Bool
  | 0 => ([], pos, decide (left ≠ 0))
  | fuel + 1 =>
    if left = 0 then ([], pos, false)
    else if bits < pos + 2 then ([], pos, true)
    else
      match bitsOf v pos 2 with
      | 0 =>
        if bits < pos + 9 then ([], pos, true) else
        let n := 32 * (bitsOf v (pos + 2) 7 + 1)
        if left < n then (List.replicate left 0, pos + 9, true)
        else
          let (l, p, bad) := zUnits v bits (pos + 9) (left - n) fuel
          (List.replicate n 0 ++ l, p, bad)
      | 1 =>
        let w := bitsOf v (pos + 2) 3
        let stop := pos + 5 + 32 * (1 + w)
        if bits < stop then ([], pos, true) else
        let u := (List.range 32).map fun i => zElem v (pos + 5 + i * (1 + w)) w
        if w ≠ 0 ∧ u.all (fun b => b.toNat % 128 < 2 ^ (w - 1)) then ([], pos, true)
        else
          let (l, p, bad) := zUnits v bits stop (left - 32) fuel
          (u ++ l, p, bad)
      | 2 =>
        let w := bitsOf v (pos + 2) 3
        let mask := bitsOf v (pos + 5) 32
        let ones := (List.range 32).filter fun i => bitOf mask i
        let stop := pos + 37 + ones.length * (1 + w)
        if bits < pos + 37 ∨ bits < stop then ([], pos, true) else
        let el := (List.range ones.length).map fun j => zElem v (pos + 37 + j * (1 + w)) w
        if mask = 0 ∨ el.any (· == 0) ∨ (w ≠ 0 ∧ el.all fun b => b.toNat % 128 < 2 ^ (w - 1)) then ([], pos, true)
        else
          let u := (List.range 32).map fun i =>
            if bitOf mask i then el.getD ((ones.filter fun k => decide (k < i)).length) 0 else (0 : Byte)
          let (l, p, bad) := zUnits v bits stop (left - 32) fuel
          (u ++ l, p, bad)
      | _ => ([], pos, true)

/-- A Codec Z payload decoded into `raw` bytes (R288, R290). -/
def decodeZ (payload : List Byte) (raw : Nat) : Decoded :=
  let bits := 8 * payload.length
  let v := leNat payload
  let (l, pos, bad) := zUnits v bits 0 raw 129
  { bytes := l, bad := bad || v / 2 ^ pos != 0, cycles := 16 + max ((raw + 31) / 32) ((payload.length + 7) / 8) }

/-- The smallest width for which every magnitude of a unit is below 2^W (R289). -/
def zWidth (u : List Byte) : Nat :=
  (List.range 8).find? (fun w => u.all fun b => decide (b.toNat % 128 < 2 ^ w)) |>.getD 7

/-- The fields of an element: sign, then magnitude. -/
def zFields (w : Nat) (b : Byte) : List (Nat × Nat) := [(1, b.toNat / 128), (w, b.toNat % 128)]

/-- The fields of a unit that is not all zero (R289). -/
def zUnit (u : List Byte) : List (Nat × Nat) :=
  let w := zWidth u
  let nz := u.filter (· != 0)
  if 32 + nz.length * (1 + w) < 32 * (1 + w) then
    [(2, 2), (3, w), (32, (u.zipIdx.map fun e => b2n (e.1 != 0) * 2 ^ e.2).sum)] ++ (nz.map (zFields w)).flatten
  else [(2, 1), (3, w)] ++ (u.map (zFields w)).flatten

/-- The fields of a list of 32-byte units, `run` zero units pending (R289). -/
def zEncode (us : List (List Byte)) (run : Nat) : List (Nat × Nat) :=
  let flush : List (Nat × Nat) := if run = 0 then [] else [(2, 0), (7, run - 1)]
  match us with
  | [] => flush
  | u :: r =>
    if u.all (· == 0) then
      if run = 128 then flush ++ zEncode r 1 else zEncode r (run + 1)
    else flush ++ zUnit u ++ zEncode r 0

/-- Fields packed from bit 0 upward, each least significant bit first: total bits and value. -/
def packFields (l : List (Nat × Nat)) : Nat × Nat :=
  l.foldl (fun acc f => (acc.1 + f.1, acc.2 + f.2 * 2 ^ acc.1)) (0, 0)

/-- The 32-byte units of raw data. -/
def unitsOf (l : List Byte) : List (List Byte) := (List.range ((l.length + 31) / 32)).map fun i => bytesAt l (32 * i) 32

/-- A block encoded with Codec Z, or RAW when the payload would not be shorter: header and payload (R282, R283, R289), and
whether it was stored RAW. -/
def encodeBlock (raw : List Byte) : List Byte × Bool :=
  let (bits, v) := packFields (zEncode (unitsOf raw) 0)
  let n := (bits + 7) / 8
  if n < raw.length then
    ([2, 0, 0, 0] ++ leBytes 2 raw.length ++ leBytes 2 n ++ leBytes n v, false)
  else ([0, 0, 0, 0] ++ leBytes 2 raw.length ++ leBytes 2 raw.length ++ raw, true)

/-! ### Blocks (R282, R290, R291) -/

/-- A block header. -/
structure BlockHdr where
  codec : Nat
  slot : Nat
  tag : Byte
  sym : Nat
  rawLen : Nat
  codedLen : Nat
deriving DecidableEq, Repr

/-- The header in the first 8 bytes. -/
def blockHdr (l : List Byte) : BlockHdr :=
  { codec := natAt l 0 1, slot := natAt l 1 1, tag := BitVec.ofNat 8 (natAt l 2 1), sym := natAt l 3 1,
    rawLen := natAt l 4 2, codedLen := natAt l 6 2 }

/-- Whether RAW_LEN is legal for the codec (R282). -/
def BlockHdr.rawOk (h : BlockHdr) : Bool :=
  decide (1 ≤ h.rawLen) && decide (h.rawLen ≤ 4096) && (h.codec != 2 || h.rawLen % 32 == 0)

/-- Whether a header meets R282. -/
def BlockHdr.ok (h : BlockHdr) : Bool :=
  h.rawOk &&
  (match h.codec with
   | 0 => h.slot == 0 && h.tag == 0 && h.sym == 0 && h.codedLen == h.rawLen
   | 1 => decide (h.slot < 16) && decide (h.sym ≤ 1) && decide (1 ≤ h.codedLen) && decide (h.codedLen < h.rawLen)
   | 2 => h.slot == 0 && h.tag == 0 && h.sym == 0 && decide (1 ≤ h.codedLen) && decide (h.codedLen < h.rawLen)
   | _ => false)

/-- The live version of a slot with a tag (R286). -/
def Compression.version (e : Compression) (slot : Nat) (tag : Byte) : Option TableVer :=
  match SMap.get e.cur slot none, SMap.get e.old slot none with
  | some v, o => if v.tag = tag then some v else o.filter fun w => w.tag == tag
  | none, o => o.filter fun w => w.tag == tag

/-- One count taken on a live version (R286). -/
def Compression.hold (e : Compression) (slot : Nat) (tag : Byte) : Compression :=
  match SMap.get e.cur slot none with
  | some v =>
    if v.tag = tag then { e with cur := SMap.set e.cur slot (some { v with refs := v.refs + 1 }) none }
    else
      match SMap.get e.old slot none with
      | some o => if o.tag = tag then { e with old := SMap.set e.old slot (some { o with refs := o.refs + 1 }) none } else e
      | none => e
  | none => e

/-- The raw length a block yields: 4,096 when RAW_LEN is illegal (R291). -/
def BlockHdr.outLen (h : BlockHdr) : Nat := if h.rawOk then h.rawLen else 4096

/-- A block's payload decoded (R284, R288, R290): the bytes, cut or filled to the raw length, the status, and lane cycles. `ver`
is the live version that the header names. -/
def decodeBlock (h : BlockHdr) (payload : List Byte) (ver : Option TableVer) : List Byte × Nat × Nat :=
  if !h.ok then (List.replicate h.outLen 0, 2, 16)
  else
    let fit (l : List Byte) : List Byte := bytesAt l 0 h.outLen
    let st (d : Decoded) : Nat := if d.bad then 2 else 0
    match h.codec with
    | 0 => (fit payload, 0, 16 + (h.rawLen + 31) / 32)
    | 1 =>
      match ver with
      | none => (fit [], 3, 16)
      | some t =>
        if t.bc4 != (h.sym == 1) then (fit [], 2, 16)
        else let d := decodeH t payload h.rawLen; (fit d.bytes, st d, d.cycles)
    | _ => let d := decodeZ payload h.rawLen; (fit d.bytes, st d, d.cycles)

/-- One whole coded block decoded outside a job (link messages and mirror images, R291): the bytes, or none when damaged. Such a
block is RAW or Codec Z. -/
def decodeWhole (l : List Byte) : Option (List Byte) :=
  let h := blockHdr l
  if l.length < 8 ∨ h.codec = 1 ∨ l.length < 8 + h.codedLen then none
  else
    let (b, st, _) := decodeBlock h (bytesAt l 8 h.codedLen) none
    if st = 0 then some b else none

/-! ### Table loads (R284–R287) -/

/-- A table image's fields, when legal (R284, R285). -/
def tableOf (l : List Byte) : Option TableVer :=
  let fmt := natAt l 0 1
  let mx := natAt l 1 1
  let n := natAt l 2 2
  let lens := (List.range n).map fun v => natAt l (16 + v / 2) 1 / (if v % 2 = 0 then 1 else 16) % 16
  if 1 < fmt ∨ mx < 1 ∨ 15 < mx ∨ n ≠ (if fmt = 0 then 256 else 16) ∨ natAt l 4 12 ≠ 0 ∨ l.length < 16 + n / 2 then none
  else if lens.any (fun x => decide (mx < x)) ∨ lens.all (· == 0) then none
  else if 2 ^ 15 < ((lens.filter (· != 0)).map fun x => 2 ^ (15 - x)).sum then none
  else some { tag := 0, bc4 := decide (fmt = 1), maxLen := mx, lengths := lens, refs := 0 }

/-- A load of a table image into a slot under a tag: the completion code (R285–R287). -/
def Compression.load (e : Compression) (slot : Nat) (tag : Byte) (image : List Byte) : Nat × Compression :=
  match tableOf image with
  | none => (0x0E, e)
  | some t =>
    let cur := SMap.get e.cur slot none
    let old := SMap.get e.old slot none
    let same (v : Option TableVer) : Bool := match v with | some x => x.tag == tag | none => false
    if same cur || same old then (0x0E, e)
    else if cur.isSome && old.isSome then (0x04, e)
    else
      let keep := match cur with
        | some v => if v.refs = 0 then none else some v
        | none => none
      (0, { e with cur := SMap.set e.cur slot (some { t with tag := tag }) none, old := SMap.set e.old slot keep none })

/-! ### Jobs (R293–R296) -/

/-- A read of any length for a job, its first status other than OK, and the bytes. -/
def State.readJob (s : State) (who : Requester) (weight : Bool) (a len : Nat) : Nat × List Byte × State :=
  (pieces a len).foldl (fun (acc : Nat × List Byte × State) p =>
    let (st, l, s) := acc
    let (st', l', s) := s.readPiece who weight p.1 p.2
    (if st = 0 then st' else st, l ++ (if st' = 0 then l' else List.replicate p.2 0), s)) (0, [], s)

/-- The record of a request of a job: it carries CTX and GEN, and counts against CE_TAG_LIMIT (R293, R294). -/
def CeJob.tag (j : CeJob) (kind : TagKind) (a : W64) (len : Nat) : Tag :=
  { plainTag with ctx := some (Fin.ofNat 64 j.ctx), gen := j.gen, addr := a, len := len, kind := kind, agent := 33 }

/-- A write of a job: on this device done at once, on another node by WRITE packets on VC6 (R308). Its status, 0 for a write
that is sent. -/
def State.jobWrite (s : State) (j : CeJob) (kind : TagKind) (a : W64) (l : List Byte) : Nat × State :=
  if nodeOf a = s.node then s.writeSpan (.ctx (Fin.ofNat 64 j.ctx)) (localOf a) l
  else
    match s.refuseRequest (nodeOf a) with
    | some st => (st, s)
    | none => (0, (pieces (localOf a) l.length).foldl (fun s p =>
        let n := BitVec.ofNat 16 p.2
        s.request 6 { s.newPacket 0x11 (nodeOf a) with
          addr := BitVec.ofNat 64 p.1, len := n, wlen := n, data := bytesAt l (p.1 - localOf a) p.2 }
          (j.tag kind (BitVec.ofNat 64 p.1) p.2)) s)

/-- The status record of a job written and its semaphore signalled (R295). -/
def State.jobReport (s : State) (j : CeJob) : State :=
  let rec_ := [j.status, 0] ++ leBytes 2 (min j.nbad 0xFFFF) ++ leBytes 4 j.firstBad.toNat ++ leBytes 8 j.outPos
  let (_, s) := s.jobWrite j .ack j.statusAddr rec_
  if j.semAddr = 0 then s else s.signalGlobal j.semAddr 1 (some (Fin.ofNat 64 j.ctx))

/-- The job that CE_JOB[0]–[9] describe (R294). -/
def State.jobDesc (s : State) : CeJob × Bool :=
  let l := ((List.range 10).map fun i => leBytes 4 (s.reg Page.compression (Reg.CE_JOB + 4 * i)).toNat).flatten
  let op := natAt l 0 1
  let kind := natAt l 1 1
  let cg := natAt l 2 2
  let cnt := natAt l 4 4
  let src := natAt l 8 8
  let dst := natAt l 16 8
  let sta := natAt l 24 8
  let ok := decide (op ≤ 1) && decide (kind ≤ 3) && bitsOf cg 10 6 == 0 && sta % 16 == 0 &&
    (if op = 0 then decide (1 ≤ cnt) && decide (cnt ≤ 65536) && src % 8 == 0 && dst % 32 == 0
     else decide (1 ≤ cnt) && cnt % 32 == 0 && decide (cnt ≤ 2 ^ 28) && src % 32 == 0 && dst % 8 == 0)
  ({ op := BitVec.ofNat 8 op, kind := BitVec.ofNat 8 kind, ctx := bitsOf cg 0 6, gen := BitVec.ofNat 4 (bitsOf cg 6 4),
     count := cnt, src := BitVec.ofNat 64 src, dst := BitVec.ofNat 64 dst, statusAddr := BitVec.ofNat 64 sta,
     semAddr := BitVec.ofNat 64 (natAt l 32 8), serial := s.ce.next, started := false, srcLen := 0, dstLen := 0,
     queued := 0, block := 0, inPos := 0, outPos := 0, nbad := 0, firstBad := 0xFFFFFFFF,
     status := if ok then 0 else 0x0E, finished := !ok, quench := false }, ok)

/-! ### What a job spans, and whether it is denied (R280, R296) -/

/-- What a read of this device's memory would find now, without any effect. -/
def State.peek (s : State) (a len : Nat) : List Byte :=
  ((pieces a len).map fun p =>
    match regionOf p.1 with
    | .dram =>
      let u := p.1 / 256
      let l := match s.hitWay u with
        | some w => (match s.line (cacheSet u) w with | some l => l.data | none => [])
        | none => s.unitPlain u
      bytesAt l (p.1 % 256) p.2
    | .scratch c off => s.scratchGet c off p.2
    | .dump off => memGet s.hang.dumpBuf off p.2
    | _ => List.replicate p.2 0).flatten

/-- The source and raw bytes of a run of coded blocks from local address a on, as their headers stand now. -/
def State.runLens (s : State) (a : Nat) : Nat → Nat → Nat → Nat × Nat
  | 0, i, o => (i, o)
  | n + 1, i, o =>
    let h := blockHdr (s.peek (a + i) 8)
    s.runLens a n (i + (8 + h.codedLen + 7) / 8 * 8) (o + h.outLen)

/-- Bytes padded to a multiple of 8. -/
def pad8 (l : List Byte) : List Byte := l ++ List.replicate ((8 - l.length % 8) % 8) 0

/-- The raw bytes of block i of an encode (R294). -/
def encodeCut (count i : Nat) : Nat := min 4096 (count - 4096 * i)

/-- The bytes that a job's source and destination span, as its source stands now; for a source on another node the most that they
can span. -/
def State.jobSpan (s : State) (j : CeJob) : Nat × Nat :=
  let here := nodeOf j.src == s.node
  let blocks := (j.count + 4095) / 4096
  if j.op = 0 then
    if here then s.runLens (localOf j.src) j.count 0 0 else (4104 * j.count, 4096 * j.count)
  else if here then
    (j.count, ((List.range blocks).map fun i =>
      (pad8 (encodeBlock (s.peek (localOf j.src + 4096 * i) (encodeCut j.count i))).1).length).sum)
  else (j.count, j.count + 8 * blocks)

/-- Whether an access of a context to a range of this device is denied (R203, R279, R316, R426). -/
def State.spanDenied (s : State) (who : Requester) (write : Bool) (a len : Nat) : Bool :=
  (pieces a len).any fun p =>
    match regionOf p.1 with
    | .dram => s.dramRefuses who p.1 p.2
    | .scratch c _ => s.domState (32 + c) != 2
    | .dump _ => write
    | _ => true

/-- Whether a range of this device meets an enabled protected region: a coded side there moves nothing (R280, R291). -/
def State.codedBlocked (s : State) (a : W64) (len : Nat) : Bool :=
  nodeOf a == s.node && decide (localOf a < 0x200000000) && (List.range 16).any fun n => s.prMeets n (localOf a) len

/-- Whether a job moves nothing: a side on this device is denied anywhere, or its coded side lies in a protected region
(R280, R296). -/
def State.jobDenied (s : State) (j : CeJob) : Bool :=
  let who : Requester := .ctx (Fin.ofNat 64 j.ctx)
  (nodeOf j.src == s.node && s.spanDenied who false (localOf j.src) j.srcLen) ||
  (nodeOf j.dst == s.node && s.spanDenied who true (localOf j.dst) j.dstLen) ||
  (if j.op = 0 then s.codedBlocked j.src j.srcLen else s.codedBlocked j.dst j.dstLen)

/-! ### The queues and the lanes (R286, R292, R293) -/

/-- The first job replaced. -/
def State.setJob (s : State) (j : CeJob) : State := { s with ce := { s.ce with jobs := j :: s.ce.jobs.drop 1 } }

/-- A block of the engine changed. -/
def State.modBlock (s : State) (b : CeBlock) : State :=
  { s with ce := { s.ce with blocks := s.ce.blocks.map fun x => if x.job = b.job ∧ x.index = b.index then b else x } }

/-- Bytes in the input queue (R293): of blocks that no lane has taken. -/
def Compression.inFill (e : Compression) : Nat :=
  ((e.blocks.filter fun b => b.lane.isNone && b.out.isNone).map fun b => b.data.length).sum

/-- Bytes in the output queue (R293). -/
def Compression.outFill (e : Compression) : Nat :=
  (e.blocks.map fun b => match b.out with | some o => o.1.length | none => 0).sum

/-- Lanes that code a block, bit l for lane l (R298). -/
def Compression.lanesBusy (e : Compression) : Nat :=
  ((List.range 16).map fun l => b2n (e.blocks.any fun b => b.lane == some l) * 2 ^ l).sum

/-- Bytes of a queue (R293). -/
def ceQueueBytes : Nat := 262144

/-- Bytes of a job that R296 makes unpredictable where `meet` holds: free values (notes/assumptions/45.md). -/
def State.freeWhere (s : State) (meet : Bool) (l : List Byte) : List Byte × State :=
  if meet then ((List.range l.length).map (Config.freeByte s.free), { s with free := s.free + 1 }) else (l, s)

/-- Whether source bytes of a job lie in its destination (R296). -/
def CeJob.readsDest (j : CeJob) (pos n : Nat) : Bool := spansMeet (j.src.toNat + pos) n j.dst.toNat j.dstLen

/-- Whether destination bytes of a job lie in its source (R296). -/
def CeJob.writesSource (j : CeJob) (n : Nat) : Bool := spansMeet (j.dst.toNat + j.outPos) n j.src.toNat j.srcLen

/-- `n` bytes of a block's source fetched, from byte `off` of the block on: at once from this device, otherwise by READ packets on
VC6 (R293, R308). Where they overlap the destination what arrives is unpredictable (R296). -/
def State.ceRead (s : State) (j : CeJob) (b : CeBlock) (off n : Nat) : State :=
  let b := { b with data := b.data ++ List.replicate n 0, left := b.left + n }
  let a := j.src + BitVec.ofNat 64 (b.pos + off)
  let here (s : State) (st : Nat) (l : List Byte) : State :=
    let (l, s) := s.freeWhere (j.readsDest (b.pos + off) n) l
    let s := s.modBlock b
    { s with ce := s.ce.landed b.job b.index off n st l }
  if nodeOf a = s.node then
    let (st, l, s) := s.readJob (.ctx (Fin.ofNat 64 j.ctx)) (decide (j.kind = 0)) (localOf a) n
    here s st l
  else
    match s.refuseRequest (nodeOf a) with
    | some st => here s st []
    | none =>
      (pieces (localOf a) n).foldl (fun s p =>
        s.request 6 { s.newPacket 0x10 (nodeOf a) with addr := BitVec.ofNat 64 p.1, operand := BitVec.ofNat 64 p.2 }
          (j.tag (.ceRead b.job b.index (off + (p.1 - localOf a))) (BitVec.ofNat 64 p.1) p.2)) (s.modBlock b)

/-- The next block of the first job enters the input queue: the header of a coded block, or the raw bytes of a block to encode. -/
def State.queueBlock (s : State) (j : CeJob) : State :=
  let b : CeBlock := { job := j.serial, index := j.queued, pos := j.inPos, data := [], left := 0, st := 0, known := decide (j.op ≠ 0),
                       held := none, lane := none, out := none }
  let n := if j.op = 0 then 8 else encodeCut j.count j.queued
  let s := s.setJob { j with queued := j.queued + 1, inPos := j.inPos + n }
  let s := { s with ce := { s.ce with blocks := s.ce.blocks ++ [b] } }
  s.ceRead j b 0 n

/-- A header has arrived (R286, R290): the block counts the live version that it names, and its payload is fetched. The length of a
block whose header was not read is open: a free value (notes/assumptions/44.md). -/
def State.headerIn (s : State) (j : CeJob) (b : CeBlock) : State :=
  let h := blockHdr b.data
  let (len, s) := if b.st = 0 then (h.codedLen, s) else let (v, s) := s.draw 16; (v.toNat, s)
  let s := s.setJob { j with inPos := b.pos + (8 + len + 7) / 8 * 8 }
  let live := b.st = 0 && h.ok && h.codec == 1 && (s.ce.version h.slot h.tag).isSome
  let b := { b with known := true, held := if live then some (h.slot, h.tag) else none }
  let s := if live then { s with ce := s.ce.hold h.slot h.tag } else s
  if b.st = 0 && h.ok then s.ceRead j b 8 len else s.modBlock b

/-- What the engine fetches next: a payload whose header is there, or while there is room for a whole block the next header; nothing
for a job that has ended or is wholly queued (R293). A header must be known before the one after it is found. -/
def State.ceFetch (s : State) : Option State :=
  match s.ce.jobs with
  | [] => none
  | j :: _ =>
    if j.finished then none
    else if !j.started then
      let (i, o) := s.jobSpan j
      let j := { j with started := true, srcLen := i, dstLen := o }
      some (if s.jobDenied j then s.setJob { j with status := 0x0D, finished := true } else s.setJob j)
    else
      match s.ce.blocks.find? fun b => !b.known with
      | some b => if b.left = 0 then some (s.headerIn j b) else none
      | none =>
        let more := if j.op = 0 then decide (j.queued < j.count) else decide (4096 * j.queued < j.count)
        if more && decide (s.ce.inFill + 4104 ≤ ceQueueBytes) then some (s.queueBlock j) else none

/-- The engine fetches until nothing more is to be fetched now; `fuel` bounds the blocks. -/
def State.ceFetchAll (s : State) : Nat → State
  | 0 => s
  | fuel + 1 => match s.ceFetch with | some t => t.ceFetchAll fuel | none => s

/-- A block in a lane is watched (R380): ENGINE 6, core 0 (the engine belongs to none), the lane as the object. -/
def State.laneWait (s : State) (ctx lane : Nat) : State :=
  s.addWait { kind := 3, core := 0, engine := 6, ctx := some (Fin.ofNat 64 ctx), start := s.now, prog := s.now,
              obj := BitVec.ofNat 64 lane }

/-- The waits of lanes that no block occupies end (R380). -/
def State.lanesFree (s : State) : State :=
  s.endWaits fun w => w.kind == 3 && w.engine == 6 && !(s.ce.blocks.any fun b => b.lane == some w.obj.toNat)

/-- Fetched blocks go to free lanes, in order (R293). -/
def State.ceLanes (s : State) : State :=
  s.ce.blocks.foldl (fun s b =>
    if b.known && b.left == 0 && b.lane.isNone && b.out.isNone then
      match (List.range 16).find? fun l => !(s.ce.blocks.any fun x => x.lane == some l) with
      | some l =>
        (s.modBlock { b with lane := some l }).laneWait (match s.ce.jobs with | j :: _ => j.ctx | [] => 0) l
      | none => s
    else s) s

/-- The job's damage noted: the first bad block and its code (R295). -/
def CeJob.damage (j : CeJob) (index st : Nat) : CeJob :=
  { j with nbad := j.nbad + 1, firstBad := if j.nbad = 0 then BitVec.ofNat 32 index else j.firstBad,
           status := if j.status = 0 then BitVec.ofNat 8 st else j.status }

/-- Whether a write of a job is outstanding (R295). -/
def State.jobWaits (s : State) (j : CeJob) : Bool :=
  (s.tagCount fun t => t.kind == .ceWrite j.serial) != 0 || s.fab.backlog.any fun r => r.2.2.kind == .ceWrite j.serial

/-- The first job ends with a status; its other blocks are discarded. -/
def State.endJob (s : State) (j : CeJob) : State :=
  let s := s.setJob { j with finished := true }
  { s with ce := s.ce.dropBlocks fun b => b.job == j.serial }

/-- A coded block leaves the output queue for its destination (R290, R291, R294); `out` and `code` are its bytes and its status. -/
def State.ceWrite (s : State) (j : CeJob) (b : CeBlock) (out : List Byte) (code : Nat) : State :=
  if b.st = 0x0D then s.endJob { j with status := if j.status = 0 then 0x0D else j.status } else
  let (out, s) := s.freeWhere (j.writesSource out.length) out
  let (wst, s) := s.jobWrite j (.ceWrite j.serial) (j.dst + BitVec.ofNat 64 j.outPos) out
  if wst = 0x0D then s.endJob { j with status := if j.status = 0 then 0x0D else j.status } else
  let j := if wst = 0 ∨ j.status ≠ 0 then j else { j with status := BitVec.ofNat 8 wst }
  let s := if code = 0 then s else s.count Page.compression (if code = 3 then Reg.CE_STALE_COUNT else Reg.CE_DAMAGED_COUNT)
  let j := if code = 0 then j else j.damage b.index code
  let j : CeJob := { j with block := b.index + 1, outPos := j.outPos + out.length }
  let s := { s with ce := { s.ce with blocks := s.ce.blocks.drop 1 } }
  if decide (code ≠ 0) && decide (j.kind = 0) && j.op == 0 then s.endJob { j with quench := true }
  else s.setJob { j with finished := decide (j.count ≤ if j.op = 0 then j.block else 4096 * j.block) }

/-- The coded blocks at the front of the output queue leave it, in order, while the job goes on; `fuel` bounds them. -/
def State.ceDrain (s : State) : Nat → State
  | 0 => s
  | fuel + 1 =>
    match s.ce.jobs, s.ce.blocks with
    | j :: _, b :: _ =>
      match b.out with
      | some (out, code) => if j.finished then s else (s.ceWrite j b out code).ceDrain fuel
      | none => s
    | _, _ => s

/-- The first job removed. -/
def State.popJob (s : State) : State := { s with ce := { s.ce with jobs := s.ce.jobs.drop 1 } }

/-- A job that a damaged weight block stopped is reported once its writes are acknowledged, and its context's quench requested
(R291). -/
def State.ceStop (s : State) : State :=
  match s.ce.jobs with
  | j :: _ => if j.quench && !s.jobWaits j then ((s.jobReport j).popJob).requestQuench j.ctx 2 else s
  | [] => s

/-- The engine goes on by itself: coded blocks leave, a stopped job ends, blocks are fetched and go to lanes (R293). -/
def State.cePump (s : State) : State :=
  let s := s.lanesFree
  if s.ce.jobs.isEmpty then s else
  let s := (s.ceDrain (s.ce.blocks.length + 1)).ceStop
  (s.ceFetchAll (ceQueueBytes + 4)).lanesFree.ceLanes

/-- A write of 1 to CE_JOB_GO (R294). A job of a context that is free or of another generation is discarded (R206, R296). -/
def State.jobGo (s : State) : State :=
  let (j, _) := s.jobDesc
  if (s.ctx j.ctx).st = .free ∨ s.gen j.ctx ≠ j.gen then s
  else if 64 ≤ s.ce.jobs.length then
    (s.count Page.compression Reg.CE_JOB_REFUSED_COUNT).jobReport { j with status := 0x10, finished := true }
  else State.cePump { s with ce := { s.ce with jobs := s.ce.jobs ++ [j], next := s.ce.next + 1 } }

/-- CE_JOB_GO (R294). -/
def execCeJobGo (_src : NodeId) (s : State) : Host.Outcome State Fault Refusal := .next s.jobGo

/-- A block decoded (R290–R292): the bytes for its destination, its status, and lane cycles. -/
def State.blockDecoded (s : State) (b : CeBlock) : List Byte × Nat × Nat :=
  let h := blockHdr b.data
  if b.st ≠ 0 then (List.replicate h.outLen 0, 2, 16)
  else decodeBlock h (bytesAt b.data 8 h.codedLen) (match b.held with | some (slot, tag) => s.ce.version slot tag | none => none)

/-- A block encoded (R289, R292): the same, and whether it was stored RAW. -/
def blockEncoded (b : CeBlock) : List Byte × Nat × Nat × Bool :=
  let (c, isRaw) := encodeBlock b.data
  (pad8 c, if b.st = 0 then 0 else 2,
   16 + max ((b.data.length + 31) / 32) (if isRaw then 0 else (natAt c 6 2 + 7) / 8), isRaw)

/-- A lane is done with its block: the result enters the output queue, the version that the block counted is released, and the lane
is free (R286, R292, R293). A lane that finds the output queue full stalls. -/
def State.blockCoded (s : State) (j : CeJob) (b : CeBlock) : State :=
  let (out, code, cycles, raw) : List Byte × Nat × Nat × Bool :=
    if j.op = 0 then let (o, c, n) := s.blockDecoded b; (o, c, n, false) else blockEncoded b
  if ceQueueBytes < s.ce.outFill + out.length then s else
  let s := s.count Page.compression Reg.CE_LANE_CYCLES cycles
  let s := if raw then s.count Page.compression Reg.CE_RAW_STORED_COUNT else s
  let s := match b.held with | some (slot, tag) => { s with ce := s.ce.release slot tag } | none => s
  (s.modBlock { b with held := none, lane := none, out := some (out, code) }).cePump

/-- BLOCK_CODE (R292, R293): a lane codes its block; an idle lane does nothing. -/
def execBlockCode (lane : Fin 16) (s : State) : Host.Outcome State Fault Refusal :=
  match s.ce.jobs, s.ce.blocks.find? fun b => b.lane == some lane.val with
  | j :: _, some b => .next (s.blockCoded j b)
  | _, _ => .next s

/-- CE_JOB_DONE (R295): the first job's writes are all acknowledged; its status record is written, its semaphore signalled. -/
def execCeJobDone (s : State) : Host.Outcome State Fault Refusal :=
  match s.ce.jobs with
  | [] => .next s
  | j :: _ => if j.finished && !s.jobWaits j then .next ((s.jobReport j).popJob).cePump else .next s

end Sys2Proof.Machine
end

