-- ==== Sys2Proof/Machine/Crypto.lean ====
section
/-!
DEFINITION. Hashes and checks that the spec names by an external standard and that are computed here: SHA-256 (R41, R320,
R407–R419) and CRC-64/XZ (R305). AES stands in Machine/Aes.lean, the curve in Machine/Curve.lean.
-/
namespace Sys2Proof.Machine

/-! ### SHA-256 -/

/-- The n-th root of x rounded down, found bit by bit from bit `b` − 1 of `r` down. -/
def rootFrom (n x r : Nat) : Nat → Nat
  | 0 => r
  | b + 1 => rootFrom n x (if (r + 2 ^ b) ^ n ≤ x then r + 2 ^ b else r) b

/-- The first 32 fraction bits of the n-th root of p. -/
def rootBits (n p : Nat) : W32 := BitVec.ofNat 32 (rootFrom n (p * 2 ^ (32 * n)) 0 40)

/-- The primes below 312: there are 64, and no other number there lacks a divisor below 18. -/
def shaPrimes : List Nat := (List.range 312).filter fun p => decide (2 ≤ p) && (List.range 18).all fun d => decide (d < 2) || p == d || p % d != 0 || decide (p < d)

/-- The 64 round constants of SHA-256: from the cube roots of the first 64 primes. -/
def shaK : List W32 := shaPrimes.map (rootBits 3)

/-- The initial hash value of SHA-256: from the square roots of the first 8 primes. -/
def shaH0 : List W32 := (shaPrimes.take 8).map (rootBits 2)

/-- A word rotated right. -/
def rotr (x : W32) (n : Nat) : W32 := x.rotateRight n

/-- Big-endian 32-bit words of a byte string. -/
def beWords : List Byte → List W32
  | a :: b :: c :: d :: r => (a ++ b ++ c ++ d : W32) :: beWords r
  | _ => []

/-- The message schedule extended by n words; the list holds the words so far, newest first. -/
def shaExtend (l : List W32) : Nat → List W32
  | 0 => l
  | n + 1 =>
    let w15 := l.getD 14 0
    let w2 := l.getD 1 0
    let s0 := rotr w15 7 ^^^ rotr w15 18 ^^^ (w15 >>> 3)
    let s1 := rotr w2 17 ^^^ rotr w2 19 ^^^ (w2 >>> 10)
    shaExtend ((l.getD 15 0 + s0 + l.getD 6 0 + s1) :: l) n

/-- One round on the eight working words. -/
def shaRound (v : List W32) (kw : W32 × W32) : List W32 :=
  match v with
  | [a, b, c, d, e, f, g, h] =>
    let s1 := rotr e 6 ^^^ rotr e 11 ^^^ rotr e 25
    let ch := (e &&& f) ^^^ (~~~e &&& g)
    let t1 := h + s1 + ch + kw.1 + kw.2
    let s0 := rotr a 2 ^^^ rotr a 13 ^^^ rotr a 22
    let maj := (a &&& b) ^^^ (a &&& c) ^^^ (b &&& c)
    [t1 + (s0 + maj), a, b, c, d + t1, e, f, g]
  | _ => v

/-- One block of 64 bytes. -/
def shaBlock (h : List W32) (block : List Byte) : List W32 :=
  let w := (shaExtend (beWords block).reverse 48).reverse
  let v := (shaK.zip w).foldl shaRound h
  List.zipWith (· + ·) h v

/-- The blocks of a padded message in turn; `fuel` bounds their number. -/
def shaBlocks (h : List W32) (m : List Byte) : Nat → List W32
  | 0 => h
  | fuel + 1 => if m.isEmpty then h else shaBlocks (shaBlock h (m.take 64)) (m.drop 64) fuel

/-- SHA-256 of a byte string. -/
def sha256 (m : List Byte) : List Byte :=
  let pad := (119 - m.length % 64) % 64
  let p := m ++ [0x80] ++ List.replicate pad 0 ++ beBytes 8 (8 * m.length)
  ((shaBlocks shaH0 p (p.length / 64 + 1)).map fun w => beBytes 4 w.toNat).flatten

/-- The bytes of an ASCII string. -/
def ascii (s : String) : List Byte := s.toList.map fun c => BitVec.ofNat 8 c.toNat

/-- The order n of P-256 (SEC 2). -/
def p256Order : Nat := 0xFFFFFFFF00000000FFFFFFFFFFFFFFFFBCE6FAADA7179E84F3B9CAC2FC632551

/-- The identity private key: (SHA-256("TW32-ID" then UDS) mod (n − 1)) + 1 (R413). -/
def identityKey (uds : BitVec 256) : BitVec 256 :=
  BitVec.ofNat 256 (beNat (sha256 (ascii "TW32-ID" ++ beBytes 32 uds.toNat)) % (p256Order - 1) + 1)

/-! ### CRC-64/XZ (R305) -/

/-- One bit of the reflected CRC-64. -/
def crc64Bit (c : W64) : W64 := if c.getLsbD 0 then (c >>> 1) ^^^ 0xC96C5795D7870F42 else c >>> 1

/-- One byte. -/
def crc64Byte (c : W64) (b : Byte) : W64 :=
  let c := c ^^^ b.setWidth 64
  crc64Bit (crc64Bit (crc64Bit (crc64Bit (crc64Bit (crc64Bit (crc64Bit (crc64Bit c)))))))

/-- CRC-64/XZ of a byte string. -/
def crc64 (l : List Byte) : W64 := ~~~(l.foldl crc64Byte (BitVec.allOnes 64))

end Sys2Proof.Machine
end

