-- ==== Sys2Proof/Machine/Curve.lean ====
section
/-!
DEFINITION. The curve P-256 (SEC 2) with what the spec names on it: public keys, the shared point of ECDH, and ECDSA signatures
(R320, R408, R413–R415, R419; FIPS 186-5). Values are byte strings in the order of SEC 1.
-/
namespace Sys2Proof.Machine

/-- The field prime of P-256. -/
def p256Prime : Nat := 2 ^ 256 - 2 ^ 224 + 2 ^ 192 + 2 ^ 96 - 1
/-- The coefficient b of y² = x³ − 3x + b. -/
def p256B : Nat := 0x5AC635D8AA3A93E7B3EBBD55769886BC651D06B0CC53B0F63BCE3C3E27D2604B
/-- The base point. -/
def p256Base : Option (Nat × Nat) :=
  some (0x6B17D1F2E12C4247F8BCE6E563A440F277037D812DEB33A0F4A13945D898C296,
        0x4FE342E2FE1A7F9B8EE7EB4A7C0F9E162BCE33576B315ECECBB6406837BF51F5)

/-- b^e modulo m, for e below 2^256. -/
def powMod (b e m : Nat) : Nat :=
  (List.range 256).foldl (fun r i => (r * r % m) * (if bitOf e (255 - i) then b else 1) % m) 1

/-- The inverse modulo a prime. -/
def invMod (a m : Nat) : Nat := powMod a (m - 2) m

/-- A difference modulo the field prime. -/
def subP (a b : Nat) : Nat := (a + p256Prime - b % p256Prime) % p256Prime

/-- The third point on the line of slope m through a point and another with x-coordinate `x2`, mirrored. -/
def chord (m : Nat) (p : Nat × Nat) (x2 : Nat) : Nat × Nat :=
  let x := subP (subP (m * m) p.1) x2
  (x, subP (m * subP p.1 x) p.2)

/-- The sum of two points; none is the point at infinity. -/
def curveAdd (a b : Option (Nat × Nat)) : Option (Nat × Nat) :=
  match a, b with
  | none, q => q
  | q, none => q
  | some p, some q =>
    if p.1 ≠ q.1 then some (chord (subP q.2 p.2 * invMod (subP q.1 p.1) p256Prime % p256Prime) p q.1)
    else if p.2 ≠ q.2 ∨ p.2 = 0 then none
    else some (chord (subP (3 * p.1 * p.1) 3 * invMod (2 * p.2) p256Prime % p256Prime) p p.1)

/-- k times a point, for k below 2^256. -/
def curveMul (k : Nat) (p : Option (Nat × Nat)) : Option (Nat × Nat) :=
  (List.range 256).foldl (fun r i =>
    let r := curveAdd r r
    if bitOf k (255 - i) then curveAdd r p else r) none

/-- The point of 64 bytes X, Y, when it lies on the curve (R414). -/
def pointOf (l : List Byte) : Option (Nat × Nat) :=
  let x := beNat (bytesAt l 0 32)
  let y := beNat (bytesAt l 32 32)
  if x < p256Prime ∧ y < p256Prime ∧ y * y % p256Prime = (subP (x * x * x) (3 * x) + p256B) % p256Prime then some (x, y) else none

/-- Whether 64 bytes are a valid point on P-256 (R414). -/
def validPoint (l : List Byte) : Bool := (pointOf l).isSome

/-- The bytes X, Y of a point. -/
def pointBytes (p : Option (Nat × Nat)) : List Byte :=
  match p with
  | some q => beBytes 32 q.1 ++ beBytes 32 q.2
  | none => List.replicate 64 0

/-- A private key from 256 random bits: 1 to n − 1 (DEDUCED, notes/assumptions/129.md). -/
def scalarOf (k : BitVec 256) : Nat := k.toNat % (p256Order - 1) + 1

/-- The public point of a private key (R320, R413). -/
def publicOf (d : Nat) : List Byte := pointBytes (curveMul d p256Base)

/-- The x-coordinate of the shared point of a private key and a public point (R320). -/
def sharedX (d : Nat) (q : List Byte) : List Byte := bytesAt (pointBytes (curveMul d (pointOf q))) 0 32

/-- HMAC-SHA-256 with a key of 32 bytes (RFC 2104). -/
def hmac (key l : List Byte) : List Byte :=
  let pad (v : Byte) : List Byte := (bytesAt key 0 64).map fun b => b ^^^ v
  sha256 (pad 0x5C ++ sha256 (pad 0x36 ++ l))

/-- The per-signature number from the state K, V of RFC 6979 (step h): candidates until one lies in 1 to n − 1; `fuel` bounds them. -/
def nonceFrom (key v : List Byte) : Nat → Nat
  | 0 => beNat v
  | fuel + 1 =>
    let v := hmac key v
    if 0 < beNat v ∧ beNat v < p256Order then beNat v
    else
      let key := hmac key (v ++ [0])
      nonceFrom key (hmac key v) fuel

/-- The per-signature number of RFC 6979 with SHA-256 for private key d and a hash (R416). -/
def nonceOf (d : Nat) (hash : List Byte) : Nat :=
  let x := beBytes 32 d ++ beBytes 32 (beNat hash % p256Order)
  let v : List Byte := List.replicate 32 1
  let key := hmac (List.replicate 32 0) (v ++ [0] ++ x)
  let v := hmac key v
  let key := hmac key (v ++ [1] ++ x)
  nonceFrom key (hmac key v) 64

/-- An ECDSA signature r ‖ s of a hash under private key d (FIPS 186-5), with the per-signature number of RFC 6979 (R416). -/
def ecdsaSign (d : Nat) (hash : List Byte) : List Byte :=
  let k := nonceOf d hash
  let r := (match curveMul k p256Base with | some q => q.1 | none => 0) % p256Order
  beBytes 32 r ++ beBytes 32 (invMod k p256Order * (beNat hash + r * d) % p256Order)

/-- Whether a signature r ‖ s of a hash verifies under a public key (FIPS 186-5). -/
def ecdsaVerify (key hash sig : List Byte) : Bool :=
  let r := beNat (bytesAt sig 0 32)
  let t := beNat (bytesAt sig 32 32)
  let w := invMod t p256Order
  decide (1 ≤ r) && decide (r < p256Order) && decide (1 ≤ t) && decide (t < p256Order) && validPoint key &&
  (match curveAdd (curveMul (beNat hash * w % p256Order) p256Base) (curveMul (r * w % p256Order) (pointOf key)) with
   | some q => q.1 % p256Order == r
   | none => false)

end Sys2Proof.Machine
end

