-- ==== Sys2Proof/Machine/Link.lean ====
section
/-!
DEFINITION. The link ports KL0–KL3: bring-up and loss (R300–R303), flits, retry, control and credits (R304–R309), key agreement
(R318–R321), and what a lost link or node completes (R331–R333, R367).
-/
namespace Sys2Proof.Machine

/-! ### Transactions that end without their reply (R89, R331) -/

/-- The first failing status of a context on a core is latched, and MV_FAIL records the last (R89). -/
def State.latchFail (s : State) (c n status : Nat) : State :=
  let s := s.modCore c fun k =>
    if SMap.get k.mvfail n 0 = 0 then { k with mvfail := SMap.set k.mvfail n (BitVec.ofNat 8 status) 0 } else k
  s.setReg (Page.mover c) Reg.MV_FAIL (BitVec.ofNat 32 (status + 256 * n))

/-- What a transaction's failure does beside freeing its tag (R89, R168). -/
def State.txnFailed (s : State) (t : Tag) (status : Nat) : State :=
  match t.kind with
  | .streamRead i o => s.copyFailed i o
  | .semWait =>
    let s := s.endWaits fun w => w.kind == 2 && w.ctx == t.ctx && w.obj == t.addr
    match t.core, t.ctx with
    | some c, some n => s.latchFail c.val n.val status
    | _, _ => s
  | .semCancel => s
  | .ceRead j b o => { s with ce := s.ce.landed j b o t.len status [] }
  | .ceWrite j => { s with ce := s.ce.writeFailed j status }
  | .loadRead i o => s.listLanded i o t.len status []
  | .slotWrite n => s.slotAcked n
  | .dumpWrite n => s.dumpLanded n status
  | _ =>
    match t.core, t.ctx with
    | some c, some n => s.latchFail c.val n.val status
    | _, _ => s

/-- Tag i completed with a status and without its reply: its EPOCH increments (R331). -/
def State.failTag (s : State) (i status : Nat) : State :=
  match s.tag i with
  | none => s
  | some t => (s.abandonTag i).txnFailed t status

/-- Every outstanding tag that meets `f`, and every request that waits for one, completed with a status. -/
def State.failTags (s : State) (f : Tag → Bool) (status : Nat) : State :=
  let gone := s.fab.backlog.filter fun r => f r.2.2
  let s := s.dropWaiting f
  let s := s.fab.tags.foldl (fun s e =>
    match e.2 with
    | some t => if f t then s.failTag e.1 status else s
    | none => s) s
  gone.foldl (fun s r => s.txnFailed r.2.2 status) s

/-! ### Nodes (R329, R332, R333, R367) -/

/-- FB_PEER[n] written. -/
def State.setPeer (s : State) (n : Nat) (bgen : Byte) (up : Bool) : State :=
  s.setReg Page.fabric (Reg.FB_PEER + 4 * n) (BitVec.ofNat 32 (bgen.toNat + 256 * b2n up))

/-- The partner is declared FAILED (R367): sensing for the takeover starts. -/
def State.declareFailed (s : State) : State :=
  if !s.flag Page.mirror Reg.MR_CTRL 0 || s.pair.st == 2 then s else
  let s := { s with pair := { s.pair with st := 2, declaredAt := s.now, sensing := true, driven := false } }
  s.raiseMech 9 none

/-- Whether node n is the pair partner. -/
def State.isPartner (s : State) (n : Nat) : Bool :=
  s.flag Page.mirror Reg.MR_CTRL 0 && s.fld Page.mirror Reg.MR_CTRL 2 5 == n

/-- Node n marked DOWN: requests to it complete with NODE_RESET, event NODE_DOWN, and for the pair partner the declaration
(R332, R333, R367). -/
def State.markDown (s : State) (n : Nat) : State :=
  let bg := s.peerBgen n
  let s := s.setFlag Page.fabric (Reg.FB_PEER + 4 * n) 8 false
  let s := if s.fab.known.contains n then s else { s with fab := { s.fab with known := s.fab.known ++ [n] } }
  let s := s.failTags (fun t => t.dst == n) 0x09
  let s := s.logEvent 0x21 Page.fabric none 0 0x09 n bg
  if s.isPartner n then s.declareFailed else s

/-- Whether this device is the bridge: it holds the active host link (R324, R333). -/
def State.isBridge (s : State) : Bool := s.fab.hostActive

/-- A NODE_DOWN for node n (R333). -/
def State.nodeDownAct (s : State) (n : Nat) : State := if n = s.node ∨ n = 31 then s else s.markDown n

/-- The bridge broadcasts NODE_DOWN for node n and acts on it itself (R333). -/
def State.sendNodeDown (s : State) (n : Nat) : State :=
  let p := { s.newPacket 0x54 31 with operand := BitVec.ofNat 64 (n + 256 * s.peerBgen n) }
  (s.broadcast 0 p).nodeDownAct n

/-- The neighbours that FB_ADJ lists for node n. -/
def State.adjacent (s : State) (n : Nat) : List Nat :=
  ((List.range 4).map fun k => s.fld Page.fabric (Reg.FB_ADJ + 4 * n) (5 * k) 5).filter (· != 31)

/-- A PEER_LOST for node n reported by node `by_` (R332, R333): with cause CHIP the node is DOWN; the bridge counts the others
until every link that FB_ADJ lists has been reported. -/
def State.peerLostAct (s : State) (by_ n cause : Nat) : State :=
  if n = s.node ∨ n = 31 then s else
  let s := if cause = 2 then s.markDown n else s
  if !s.isBridge then s
  else if cause = 2 then s.sendNodeDown n
  else
    let s := { s with fab := { s.fab with lost := s.fab.lost ++ [(by_, n)] } }
    let adj := s.adjacent n
    let cnt (l : List Nat) (x : Nat) : Nat := (l.filter (· == x)).length
    let reports := (s.fab.lost.filter fun e => e.2 == n).map (·.1)
    if !adj.isEmpty && adj.all fun x => decide (cnt adj x ≤ cnt reports x) then s.sendNodeDown n else s

/-- The node on port p: its peer's ID, 31 if none or while the port carries nothing. -/
def State.neighbour (s : State) (p : Nat) : Nat :=
  let l := s.link p
  if l.st = 6 ∨ l.st = 7 then (match l.peer with | some x => x.nodeId.toNat | none => 31) else 31

/-- A NODE_UP of node n (R329, R333): UP with its new BGEN; the bridge keeps its neighbours; a FAILED partner that returns
with a new BGEN is ALIVE (R367). -/
def State.nodeUpAct (s : State) (n : Nat) (bgen : Byte) (data : List Byte) : State :=
  if n = 31 then s else
  let old := s.peerBgen n
  let s := s.setPeer n bgen true
  let s := { s with fab := { s.fab with known := if s.fab.known.contains n then s.fab.known else s.fab.known ++ [n],
                                        lost := s.fab.lost.filter fun e => e.2 != n } }
  let s := if s.isBridge then
      s.setReg Page.fabric (Reg.FB_ADJ + 4 * n)
        (BitVec.ofNat 32 (((List.range 4).map fun k => natAt data k 1 % 32 * 32 ^ k).sum))
    else s
  if s.isPartner n && s.pair.st == 2 && bgen.toNat != old then
    { s with pair := { s.pair with st := 1, missRun := 0, partnerBgen := bgen } }
  else s

/-- The device broadcasts NODE_UP with its neighbours (R323, R333). -/
def State.announce (s : State) : State :=
  if !s.fab.enumerated then s else
  let data : List Byte := (List.range 4).map fun k => BitVec.ofNat 8 (s.neighbour k)
  let p := { s.newPacket 0x55 31 with operand := BitVec.ofNat 64 s.node, len := 4, wlen := 4, data := data }
  (s.broadcast 0 p).nodeUpAct s.node s.fab.bgen data

/-! ### Link states (R300–R302) -/

/-- KL_STATUS.DOWN_CAUSE (R338). -/
def downCode : DownCause → Nat
  | .none => 0 | .port => 1 | .chip => 2 | .retrain => 3 | .rekey => 4 | .lock => 5 | .replay => 6 | .hostRefused => 7
  | .keyFail => 8 | .auth => 9 | .trainFail => 10

/-- CAUSE of a LINK_RESET flit (R307), for the causes it can carry. -/
def resetCode : DownCause → Option Nat
  | .port => some 0 | .chip => some 1 | .retrain => some 2 | .rekey => some 3
  | _ => none

/-- Whether a port carries DATA flits. -/
def Link.carries (l : Link) : Bool := l.st == 5 || l.st == 6 || l.st == 7

/-- A CONTROL flit handed to the lanes of port p. -/
def State.control (s : State) (p kind arg : Nat) : State :=
  { s with fab := { s.fab with flits := s.fab.flits ++ [⟨p, kind, arg⟩] } }

/-- The response type of a request type; none for a type without a response (R312). -/
def responseType (t : Nat) : Option Nat :=
  match t with
  | 0x10 => some 0x20 | 0x11 => some 0x21 | 0x12 => some 0x22 | 0x13 => some 0x22 | 0x14 => some 0x21
  | 0x15 => some 0x23 | 0x16 => some 0x23 | 0x17 => some 0x21 | 0x40 => some 0x21 | 0x50 => some 0x52 | 0x51 => some 0x52
  | _ => none

/-- A request of another node answered by this device with a status and no data; nothing for a packet without a response. -/
def State.refuse (s : State) (p : Packet) (status : Nat) : State :=
  match responseType p.ttype.toNat with
  | some r => s.send (if r = 0x52 then 0 else 3) (s.response p r status 0 [])
  | none => s

/-- Port p goes DOWN (R301, R332): state and cause, the count, keys discarded; of an UP port the device's own requests through
it complete, requests of other nodes that wait for it are answered, other waiting packets are discarded, and PEER_LOST is
broadcast and acted on here. -/
def State.goDown (s : State) (p : Nat) (cause : DownCause) : State :=
  let l := s.link p
  if l.st = 0 ∨ l.st = 8 then s else
  let up := l.st == 6 || l.st == 7
  let n := s.neighbour p
  let s := s.setLink p { l with
    st := 8, since := s.now, cause := cause, peerHeard := false, rxBuf := [], rxLens := [], pdelayAt := none, replay := [], nakSent := false, replays := 0, credits := [], owed := [], sending := [],
    encOn := false, keys := none, txCount := 0, rxCount := 0, offer := none, myOffer := [], eph := 0, peerKey := [],
    pdelayT1 := none }
  let s := s.count (Page.link p) Reg.KL_DOWN_COUNT
  let waiting := (s.fab.out.filter fun o => o.port == p).map (·.p)
  let s := { s with fab := { s.fab with out := s.fab.out.filter fun o => o.port != p } }
  if !up then s else
  let status := if cause = .chip then 0x09 else 0x0B
  let s := s.failTags (fun t => t.port == p) status
  let s := waiting.foldl (fun s q => if q.src.toNat = s.node then s else s.refuse q status) s
  if n = 31 then s else
  let c := downCode cause % 8
  let pk := { s.newPacket 0x53 31 with operand := BitVec.ofNat 64 (n + 32 * c + 256 * s.peerBgen n) }
  (s.broadcast 0 pk).peerLostAct s.node n c

/-- LINK_RESET sent three times in a row on a port that carries flits, which then goes DOWN (R307). -/
def State.resetLink (s : State) (p : Nat) (cause : DownCause) : State :=
  let l := s.link p
  let s := match resetCode cause with
    | some c => if l.st = 6 ∨ l.st = 7 then ((s.control p 2 c).control p 2 c).control p 2 c else s
    | none => s
  s.goDown p cause

/-- Bring-up starts at DETECT with KL_CTRL as it stands (R300, R338). -/
def State.startDetect (s : State) (p : Nat) : State :=
  s.modLink p fun l => { l with
    st := 1, ctrl := s.reg (Page.link p) Reg.KL_CTRL, peer := none, peerHeard := false, txSeq := 0, rxSeq := 0, rxAny := false,
    replay := [], upSince := s.now, since := s.now, rxPos := 0, rxBad := false, txFlit := [], txBytes := [], txNum := 0, txWord := [] }

/-- The sum of the credits of port p's virtual channels (R308). -/
def State.creditSum (s : State) (p : Nat) : Nat :=
  ((List.range 8).map fun v => s.fld (Page.linkVc p) (Reg.KL_VC_CREDIT + 4 * v) 0 11).sum

/-- A write of ENABLE = 1 to the LINK page of port p (R300, R308, R428): refused when the credits exceed the receive buffer; a
port whose domain is not ON starts when it is. -/
def State.linkEnable (s : State) (src p : Nat) : State :=
  let l := s.link p
  if !s.pageOn (Page.link p) then s.setFlag (Page.link p) Reg.PG_STATE 2 true
  else if s.creditSum p > 1024 then s.enableRefused (Page.link p) src
  else
    let s := s.setLink p { l with enabled := true }
    if (l.st == 0 || (l.st == 8 && (!l.enabled || l.cause == .hostRefused))) then s.startDetect p else s

/-- A write of ENABLE = 0: the port stops (R300, R428); an UP port says so with LINK_RESET. -/
def State.linkDisable (s : State) (p : Nat) : State :=
  if !s.pageOn (Page.link p) then s.setFlag (Page.link p) Reg.PG_STATE 2 false
  else (s.resetLink p .port).modLink p fun l => { l with enabled := false, st := 0 }

/-- BLOCK_RESET of a LINK page (R444). -/
def State.linkBlockReset (s : State) (p : Nat) : State :=
  if s.pageOn (Page.link p) then (s.resetLink p .port).modLink p fun l => { l with enabled := false } else s

/-- LINK_ENABLE (R300, R308). -/
def execLinkEnable (src : NodeId) (port : PortId) (s : State) : Host.Outcome State Fault Refusal :=
  .next (s.linkEnable src.val port.val)

/-- LINK_BLOCK_RESET (R444). -/
def execLinkBlockReset (_src : NodeId) (port : PortId) (s : State) : Host.Outcome State Fault Refusal :=
  .next (s.linkBlockReset port.val)

/-- LINK_CONTROLLER_RELEASE (R401 step 3, R387): every port whose domain is ON starts DETECT, and the training of every DRAM channel
starts (R273). -/
def execLinkControllerRelease (s : State) : Host.Outcome State Fault Refusal :=
  if s.sec.linksReleased then .next s else
  let s := { s with sec := { s.sec with linksReleased := true }, mem := { s.mem with training := List.range 16 } }
  .next ([0, 1, 2, 3].foldl (fun (s : State) (p : Nat) => s.linkEnable 0 p) s)

/-- LINK_DETECT_DONE (R300). -/
def execLinkDetectDone (port : PortId) (s : State) : Host.Outcome State Fault Refusal :=
  if (s.link port.val).st = 1 then .next (s.modLink port.val fun l => { l with st := 2, since := s.now }) else .next s

/-- LINK_TRAIN_DONE (R299, R300): the lanes' order and polarity are as training found them; the coefficients are kept. A fast
relink is possible with FAST_RELINK = 1 and stored coefficients only. -/
def execLinkTrainDone (port : PortId) (fast : Bool) (laneSwap : Bool) (laneInv : BitVec 2) (s : State) :
    Host.Outcome State Fault Refusal :=
  let l := s.link port.val
  if l.st = 2 ∧ (!fast || (l.coeffs && bitOf l.ctrl.toNat 0)) then
    .next (s.setLink port.val { l with st := 3, since := s.now, coeffs := true, laneSwap := laneSwap, laneInv := laneInv })
  else .next s

/-- The payload of the EXCHANGE flit that port p sends (R302), as a number. -/
def State.exchangePayload (s : State) (p : Nat) : Nat :=
  let l := s.link p
  let cr (v : Nat) : List Byte := leBytes 2 (s.fld (Page.linkVc p) (Reg.KL_VC_CREDIT + 4 * v) 0 11)
  leNat ([3, BitVec.ofNat 8 (2 * b2n s.sec.bridgeEn + 4 * b2n (bitOf l.ctrl.toNat 1) + 8 * b2n (bitOf l.ctrl.toNat 2) +
      16 * b2n l.peer.isSome), BitVec.ofNat 8 s.node, s.fab.bgen, BitVec.ofNat 8 p, 0, 0, 0] ++
    ((List.range 8).map cr).flatten ++ leBytes 2 1)

/-- LINK_ALIGN_DONE (R300, R302, R303): EXCHANGE starts with its first flit. -/
def execLinkAlignDone (port : PortId) (s : State) : Host.Outcome State Fault Refusal :=
  let p := port.val
  if (s.link p).st = 3 then
    let s := s.modLink p fun l => { l with st := 4, since := s.now, exchAt := s.now }
    .next (s.control p 3 (s.exchangePayload p))
  else .next s

/-- EXCHANGE_RESEND (R302): 1 µs after the last one. -/
def execExchangeResend (port : PortId) (s : State) : Host.Outcome State Fault Refusal :=
  let p := port.val
  let l := s.link p
  if l.st ≠ 4 then .next s else
  let s := s.reach (l.exchAt + BitVec.ofNat 64 (usTb 1))
  .next ((s.modLink p fun l => { l with exchAt := s.now }).control p 3 (s.exchangePayload p))

/-- Whether the peer of port p is a host. -/
def State.peerIsHost (s : State) (p : Nat) : Bool := match (s.link p).peer with | some x => x.host | none => false

/-- Port p enters UP, or STANDBY_HOST where it faces a host and the device is enumerated and its active host link, if any, is
another (R300, R324); the device announces itself (R333). -/
def State.enterUp (s : State) (p : Nat) : State :=
  let l := s.link p
  let standby := s.peerIsHost p && s.fab.enumerated && !(s.fab.hostActive && s.fab.hostPort == p)
  let s := s.setLink p { l with
    st := if standby then 7 else 6, since := s.now, trainUs := (s.now - l.upSince).toNat / 256000,
    authFails := [], delays := [], delay := 0 }
  if standby then s else s.announce

/-! ### Keys (R319, R320) -/

/-- A draw from the TRNG: 256 bits, remembered as the last good output (R41, R417). -/
def State.trng (s : State) : BitVec 256 × State :=
  let (v, s) := s.draw 256
  (v, { s with sec := { s.sec with trngLast := v } })

/-- The bytes whose hash both sides sign, from the offers of sides A and B (R320 step 3). -/
def confirmHash (a b : List Byte) : List Byte := sha256 (ascii "KLK-CONFIRM" ++ a ++ b)

/-- Whether this device is side A: its X is the smaller (R320). -/
def Link.sideA (l : Link) : Bool :=
  match l.offer with
  | some o => decide (beNat (l.myOffer.take 32) < beNat (o.take 32))
  | none => true

/-- H of a KEYING whose two offers are known. -/
def Link.hash (l : Link) : List Byte :=
  match l.offer with
  | some o => if l.sideA then confirmHash l.myOffer o else confirmHash o l.myOffer
  | none => []

/-- KEY_CONFIRM sent once both offers are known (R320 step 4). -/
def State.sendConfirm (s : State) (p : Nat) : State :=
  let l := s.link p
  if l.offer.isNone || l.myOffer.isEmpty then s else
  let sig := ecdsaSign (identityKey s.sec.fuses.uds).toNat l.hash
  s.emit p 0 { s.newPacket 0x71 31 with len := 64, wlen := 64, data := sig }

/-- KEY_OFFER sent with a fresh key pair and nonce (R320 steps 1, 2); while the TRNG withholds output it waits (R417). -/
def State.sendOffer (s : State) (p : Nat) : State :=
  if s.sec.trngFail || !(s.link p).myOffer.isEmpty then s else
  let (k, s) := s.trng
  let (n, s) := s.trng
  let data := publicOf (scalarOf k) ++ beBytes 32 n.toNat ++ s.sec.fuses.idCert
  let s := s.modLink p fun l => { l with eph := k, myOffer := data }
  let s := s.emit p 0 { s.newPacket 0x70 31 with
    len := BitVec.ofNat 16 data.length, wlen := BitVec.ofNat 16 data.length, data := data }
  s.sendConfirm p

/-- A failed key agreement (R320). -/
def State.keyFail (s : State) (p : Nat) : State := (s.count (Page.linkSec p) Reg.KL_KEY_FAIL).goDown p .keyFail

/-- Whether a certificate is accepted from a peer of the given kind (R414). -/
def State.certOk (s : State) (host : Bool) (c : List Byte) : Bool :=
  let key := bytesAt c 0x18 64
  let id := bytesAt c 0x58 8
  let ok (issuer : List Byte) : Bool := ecdsaVerify issuer (sha256 (c.take 0x60)) (bytesAt c 0x60 64)
  natAt c 0 2 == 1 && natAt c 2 1 == b2n host && validPoint key &&
  (if host then
     (List.range 2).any fun a =>
       match SMap.get s.sec.fuses.anchor a [] with
       | [] => false
       | k => (sha256 k).take 8 == id && ok k
   else ok Config.deviceIssuer)

/-- KEY_OFFER (R320 steps 2, 3). A packet that is not 96 bytes and a certificate is malformed (R315). -/
def execKeyOffer (port : PortId) (p : Packet) (s : State) : Host.Outcome State Fault Refusal :=
  let i := port.val
  let l := s.link i
  if l.st ≠ 5 then .next s
  else if p.data.length ≠ 256 ∨ p.len ≠ 256 ∨ p.wlen ≠ 256 ∨ p.z then .next (s.count (Page.link i) Reg.KL_MALFORMED)
  else
    let cert := p.data.drop 96
    if s.certOk (s.peerIsHost i) cert then
      let key := bytesAt cert 0x18 64
      let s := s.setLink i { l with offer := some p.data, peerKey := key, peerId := BitVec.ofNat 64 (leNat ((sha256 key).take 8)) }
      let s := (s.setReg (Page.linkSec i) Reg.KL_PEER_ID_LO (BitVec.ofNat 32 (leNat ((sha256 key).take 4)))).setReg
        (Page.linkSec i) Reg.KL_PEER_ID_HI (BitVec.ofNat 32 (leNat (((sha256 key).drop 4).take 4)))
      .next (s.sendConfirm i)
    else .next (s.keyFail i)

/-- One derived value of R320 step 5. -/
def deriveKey (z na nb : List Byte) (tag : Byte) : List Byte := sha256 ([0, 0, 0, 1] ++ z ++ ascii "KLK" ++ [tag] ++ na ++ nb)

/-- The session keys and salts of a KEYING: to send, to receive, salt to send, salt to receive (R320 steps 5, 6). -/
def Link.sessionKeys (l : Link) : BitVec 256 × BitVec 256 × W32 × W32 :=
  let o := l.offer.getD []
  let z := sharedX (scalarOf l.eph) (o.take 64)
  let mine := bytesAt l.myOffer 64 32
  let theirs := bytesAt o 64 32
  let (na, nb) := if l.sideA then (mine, theirs) else (theirs, mine)
  let key (t : Byte) : BitVec 256 := BitVec.ofNat 256 (beNat (deriveKey z na nb t))
  let salt (t : Byte) : W32 := BitVec.ofNat 32 (leNat ((deriveKey z na nb t).take 4))
  if l.sideA then (key 1, key 2, salt 3, salt 4) else (key 2, key 1, salt 4, salt 3)

/-- KEY_CONFIRM (R320 steps 4–6): the peer's signature verified, the port enters UP with its keys. -/
def execKeyConfirm (port : PortId) (p : Packet) (s : State) : Host.Outcome State Fault Refusal :=
  let i := port.val
  let l := s.link i
  if l.st ≠ 5 ∨ l.offer.isNone ∨ l.myOffer.isEmpty then .next s
  else if p.data.length ≠ 64 ∨ p.len ≠ 64 ∨ p.wlen ≠ 64 ∨ p.z then .next (s.count (Page.link i) Reg.KL_MALFORMED)
  else if ecdsaVerify l.peerKey l.hash p.data then
    let s := s.setLink i { l with encOn := true, keys := some l.sessionKeys, txCount := 0, rxCount := 0 }
    .next (s.enterUp i)
  else .next (s.keyFail i)

/-- KEYING_TIMEOUT (R320): 2 ms after EXCHANGE. -/
def execKeyingTimeout (port : PortId) (s : State) : Host.Outcome State Fault Refusal :=
  let l := s.link port.val
  if l.st = 5 then .next ((s.reach (l.since + BitVec.ofNat 64 (usTb 2000))).keyFail port.val) else .next s

/-- LINK_DOWN (R301, R332). -/
def execLinkDown (port : PortId) (cause : DownCause) (s : State) : Host.Outcome State Fault Refusal :=
  .next (s.goDown port.val cause)

/-- LOCK_LOSS_TIMEOUT (R301). -/
def execLockLossTimeout (port : PortId) (s : State) : Host.Outcome State Fault Refusal :=
  if (s.link port.val).st = 6 ∨ (s.link port.val).st = 7 then .next (s.goDown port.val .lock) else .next s

/-- When a state from DETECT to EXCHANGE must be complete (R300). -/
def Link.bound (l : Link) : W64 :=
  match l.st with
  | 1 => l.upSince + BitVec.ofNat 64 (usTb 1000)
  | 2 => l.upSince + BitVec.ofNat 64 (usTb 40000)
  | 3 => l.since + BitVec.ofNat 64 (usTb 20)
  | _ => l.since + BitVec.ofNat 64 (usTb 10)

/-- LINK_STATE_FAIL (R301): a state from DETECT to EXCHANGE is not completed in time. -/
def execLinkStateFail (port : PortId) (s : State) : Host.Outcome State Fault Refusal :=
  let l := s.link port.val
  if 1 ≤ l.st ∧ l.st ≤ 4 then .next ((s.reach l.bound).goDown port.val .trainFail) else .next s

/-- LINK_RESTART (R301): 10 µs after it went DOWN an enabled port starts again at DETECT; one that met a host it may not accept stays DOWN (R302). -/
def execLinkRestart (port : PortId) (s : State) : Host.Outcome State Fault Refusal :=
  let l := s.link port.val
  if l.st = 8 ∧ l.enabled ∧ l.cause ≠ .hostRefused ∧ s.pageOn (Page.link port.val) then
    .next ((s.reach (l.since + BitVec.ofNat 64 (usTb 10))).startDetect port.val)
  else .next s

/-- REKEY (R319): a packet counter has reached 2^48. -/
def execRekey (port : PortId) (s : State) : Host.Outcome State Fault Refusal :=
  let l := s.link port.val
  if l.encOn ∧ (2 ^ 48 ≤ l.txCount.toNat ∨ 2 ^ 48 ≤ l.rxCount.toNat) then .next (s.resetLink port.val .rekey) else .next s

/-! ### Flits (R304–R309) -/

/-- Bits of a flit's header (R304). -/
def flitField (f : List Byte) (lo w : Nat) : Nat := bitsOf (natAt f 0 8) lo w

/-- Whether a flit's CRC verifies (R305). -/
def flitCrcOk (f : List Byte) : Bool := decide (f.length = 256) && (crc64 (f.take 248)).toNat == natAt f 248 8

/-- The header fields of a flit that its content leaves over (R304); `errs` as the receiver finds them. -/
def headOf (f : List Byte) (errs : Nat) : FlitHead :=
  { ackValid := decide (flitField f 36 1 = 1), ack := BitVec.ofNat 12 (flitField f 24 12),
    creditVc := Fin.ofNat 8 (flitField f 37 3), creditCount := BitVec.ofNat 8 (flitField f 40 8), errs := errs }

/-- The ACK and the credit return of a good flit taken (R304, R306, R309). -/
def State.takeAck (s : State) (p : Nat) (h : FlitHead) : State :=
  let l := s.link p
  let l := if h.ackValid ∧ l.replay.any (fun e => e.1 == h.ack) then
      { l with replay := (l.replay.dropWhile fun e => e.1 != h.ack).drop 1, replays := 0, ackAt := s.now }
    else l
  let v := h.creditVc.val
  s.setLink p { l with credits := SMap.set l.credits v (SMap.get l.credits v 0 + h.creditCount.toNat) 0 }

/-- A flit's place in the codewords (R303): two codewords hold five flits, the third of them half in each. A codeword is decoded with
the flit in which it begins: up to 15 symbol errors are corrected and counted, more make it uncorrectable. Whether the flit is bad for
it, and the state. -/
def State.fecFlit (s : State) (p errs : Nat) : Bool × State :=
  let l := s.link p
  let begins := l.rxPos == 0 || l.rxPos == 2
  let bad := if begins then decide (15 < errs) else l.rxBad
  let s := s.setLink p { l with rxPos := (l.rxPos + 1) % 5, rxBad := bad }
  (bad || (l.rxPos == 2 && l.rxBad),
   if !begins then s
   else if 15 < errs then s.count (Page.link p) Reg.KL_FEC_UNCORR else s.count (Page.link p) Reg.KL_FEC_CORR errs)

/-- Whether CONTROL flits flow on a port (R300, R302). -/
def Link.controls (l : Link) : Bool := l.st == 4 || l.carries

/-- One NAK per detected gap (R306). -/
def State.nakOnce (s : State) (p : Nat) : State :=
  let l := s.link p
  if l.nakSent then s else (s.setLink p { l with nakSent := true }).control p 1 l.rxSeq.toNat

/-- The DATA flits from `seq` on are sent again and KL_REPLAY_COUNT counts; after 16 replays in a row from one SEQ the port goes
DOWN (R306). -/
def State.replayFrom (s : State) (p : Nat) (seq : BitVec 12) : State :=
  let l := s.link p
  let again := l.replay.dropWhile fun e => e.1 != seq
  if again.isEmpty then s else
  let n := if l.replays ≠ 0 ∧ l.replaySeq = seq then l.replays + 1 else 1
  let s := s.setLink p { l with replays := n, replaySeq := seq, ackAt := s.now }
  let s := again.foldl (fun s e => s.control p 4 e.1.toNat) s
  let s := s.count (Page.link p) Reg.KL_REPLAY_COUNT
  if 16 ≤ n then s.goDown p .replay else s

/-- A CONTROL flit whose CRC verifies arrives on a port on which CONTROL flits flow (R303, R304, R306): one of an uncorrectable codeword
is discarded; of the others the ACK and the credits are taken, and then `act` follows. -/
def State.goodControl (s : State) (p : Nat) (h : FlitHead) (act : State → State) : State :=
  if !(s.link p).controls then s else
  let (bad, s) := s.fecFlit p h.errs
  if bad then s else act (s.takeAck p h)

/-- NAK (R306). -/
def execNak (port : PortId) (f : NakFlit) (s : State) : Host.Outcome State Fault Refusal :=
  .next (s.goodControl port.val f.head fun s => s.replayFrom port.val f.seq)

/-- REPLAY_TIMEOUT (R306): 2 µs have passed without progress of ACK. -/
def execReplayTimeout (port : PortId) (s : State) : Host.Outcome State Fault Refusal :=
  let l := s.link port.val
  match l.replay with
  | e :: _ => if l.carries then .next ((s.reach (l.ackAt + BitVec.ofNat 64 (usTb 2))).replayFrom port.val e.1) else .next s
  | [] => .next s

/-- LINK_RESET (R307): the port goes DOWN with the cause that the flit carries; other causes have no code, and the receiver discards
the flit. -/
def execLinkReset (port : PortId) (f : ResetFlit) (s : State) : Host.Outcome State Fault Refusal :=
  match resetCode f.cause with
  | some _ => .next (s.goodControl port.val f.head fun s => s.goDown port.val f.cause)
  | none => .next s

/-- The peer's EXCHANGE content taken (R302, R309): its identity and credits are learned; a host peer of a device that is not
bridge-capable, and a peer without the encryption that this port requires, take the port DOWN; once the peer has seen this port's flit
the port goes on to KEYING or UP. -/
def State.exchangeTake (s : State) (i : Nat) (x : ExchangeInfo) : State :=
  let l := s.link i
  if l.st ≠ 4 then s else
  let credits := x.credits.zipIdx.foldl (fun (m : SMap Nat) e => SMap.set m e.2 e.1.toNat 0) []
  let s := s.setLink i { l with peer := some x, peerHeard := x.ackSeen, credits := credits }
  if x.host && !s.sec.bridgeEn then s.goDown i .hostRefused
  else if bitOf l.ctrl.toNat 2 && !x.encOffer then s.goDown i .keyFail
  else
    let n := x.nodeId.toNat
    let s := if n = 31 then s else s.setFld Page.fabric (Reg.FB_PEER + 4 * n) 0 8 x.bgen.toNat
    if !x.ackSeen then s
    else if bitOf l.ctrl.toNat 1 && x.encOffer then (s.modLink i fun l => { l with st := 5, since := s.now }).sendOffer i
    else s.enterUp i

/-- EXCHANGE (R302). -/
def execExchange (port : PortId) (f : ExchangeFlit) (s : State) : Host.Outcome State Fault Refusal :=
  .next (s.goodControl port.val f.head fun s => s.exchangeTake port.val f.info)

/-- A packet whose tag does not verify (R321): it is discarded, counted and reported; the receive counter advances; the fourth failure within
1 ms takes the port DOWN. -/
def State.authFail (s : State) (p : Nat) : State :=
  let l := s.link p
  if !l.encOn then s else
  let s := s.count (Page.linkSec p) Reg.KL_AUTH_FAIL
  let fails := (l.authFails.filter fun t => decide (s.age t ≤ usTb 1000)) ++ [s.now]
  let s := s.setLink p { l with rxCount := l.rxCount + 1, authFails := fails }
  let s := s.raiseMech 14 none
  if 4 ≤ fails.length then s.goDown p .auth else s

/-- AUTH_FAIL (R321). -/
def execAuthFail (port : PortId) (_vc : Fin 8) (_p : Packet) (s : State) : Host.Outcome State Fault Refusal :=
  .next (s.authFail port.val)

end Sys2Proof.Machine
end

