-- ==== Sys2Proof/Machine/Fabric.lean ====
section
/-!
DEFINITION. What every arriving packet goes through (R310–R312, R315, R322, R324, R330), forwarding and broadcasts (R322),
enumeration (R323), the host port (R324, R325), time synchronisation (R326, R327) and the node packets (R332, R333).
-/
namespace Sys2Proof.Machine

/-! ### Malformed packets (R315) -/

/-- The virtual channels on which a type travels (R312). -/
def typeVcs (t : Nat) : List Nat :=
  match t with
  | 0x10 | 0x11 => [2, 4, 6, 7]
  | 0x12 | 0x13 | 0x14 | 0x15 | 0x16 => [2]
  | 0x17 => [4]
  | 0x20 | 0x21 | 0x22 | 0x23 => [3]
  | 0x30 | 0x31 | 0x32 => [1]
  | 0x40 | 0x41 => [5]
  | 0x50 | 0x51 | 0x52 | 0x53 | 0x54 | 0x55 | 0x56 | 0x60 | 0x61 | 0x70 | 0x71 => [0]
  | _ => []

/-- Whether a type is a response. -/
def isResponse (t : Nat) : Bool := decide (0x20 ≤ t ∧ t ≤ 0x23) || t == 0x52

/-- The least and the largest LEN of a type (R312). A response may carry no data, when its status is not OK. -/
def lenRange (t : Nat) : Nat × Nat :=
  match t with
  | 0x11 => (1, 256)
  | 0x13 => (8, 8)
  | 0x17 | 0x40 => (1, 4096)
  | 0x20 => (0, 256)
  | 0x51 => (4, 256)
  | 0x52 => (0, 256)
  | 0x55 => (4, 4)
  | 0x70 => (256, 256)
  | 0x71 => (64, 64)
  | _ => (0, 0)

/-- Whether OPERAND of a packet holds a bit that its type does not use, or a size out of range (R312). -/
def operandBad (t : Nat) (v : Nat) : Bool :=
  match t with
  | 0x10 => decide (v = 0 ∨ 256 < v)
  | 0x14 | 0x15 => decide (2 ^ 16 ≤ v)
  | 0x16 => decide (2 ^ 16 ≤ v)
  | 0x12 | 0x13 | 0x22 | 0x30 | 0x32 | 0x40 | 0x41 => false
  | 0x23 => decide (1 < v)
  | 0x50 => decide (v < 4 ∨ 256 < v)
  | 0x53 => decide (2 ^ 16 ≤ v)
  | 0x54 => decide (2 ^ 16 ≤ v) || decide (v / 32 % 8 ≠ 0)
  | 0x55 => decide (32 ≤ v)
  | 0x60 => decide (32 ≤ v)
  | 0x61 => decide (64 ≤ v)
  | _ => decide (v ≠ 0)

/-- Whether ADDR of a packet holds a bit that its type does not use (R311, R312). -/
def addrBad (t : Nat) (a : Nat) : Bool :=
  match t with
  | 0x10 | 0x11 | 0x12 | 0x13 | 0x14 | 0x15 | 0x16 | 0x50 | 0x51 => decide (2 ^ 59 ≤ a)
  | 0x17 => decide (2 ^ 15 ≤ a)
  | 0x30 | 0x32 => false
  | 0x40 => decide (2 ^ 20 ≤ a)
  | _ => decide (a ≠ 0)

/-- Whether a read or a write of `n` bytes crosses a 256-byte boundary of its address (R312). -/
def crosses (a n : Nat) : Bool := decide (256 < a % 256 + n)

/-- Whether a packet is malformed (R315). -/
def malformed (vc : Nat) (p : Packet) : Bool :=
  let t := p.ttype.toNat
  let (lo, hi) := lenRange t
  let rsp := isResponse t
  let tagged := rsp || (responseType t).isSome || t == 0x30 || t == 0x31 || t == 0x32 || t == 0x60 || t == 0x61
  let ctxUsed := rsp || (decide (0x10 ≤ t) && decide (t ≤ 0x17))
  !(typeVcs t).contains vc ||
  decide (p.len.toNat < lo) || decide (hi < p.len.toNat) || decide (p.data.length ≠ p.wlen.toNat) ||
  (p.z && t != 0x17 && t != 0x40) || (!p.z && p.wlen != p.len) || (p.z && p.wlen == 0) ||
  (p.last && t != 0x40) ||
  (!rsp && (p.status != 0 || p.rbgen != 0)) || (!tagged && (p.tag != 0 || p.epoch != 0)) ||
  (!ctxUsed && (p.cgv || p.ctx != 0 || p.cgen != 0)) ||
  operandBad t p.operand.toNat || addrBad t p.addr.toNat ||
  (t == 0x10 && crosses p.addr.toNat p.operand.toNat) || (t == 0x11 && crosses p.addr.toNat p.len.toNat)

/-! ### Acceptance (R322, R324, R330) -/

/-- Whether an arriving packet is dropped by generation (R330). -/
def State.genMismatch (s : State) (p : Packet) : Bool :=
  let src := p.src.toNat
  let t := p.ttype.toNat
  let known := s.fab.known.contains src
  let srcBad := t != 0x55 && src != 31 && known && (!s.peerUp src || s.peerBgen src != p.bgen.toNat)
  let rspBad := isResponse t &&
    (p.rbgen != s.fab.bgen || (p.cgv && p.cgen != s.gen p.ctx.toNat) ||
     (match s.tag p.tag.toNat with
      | none => true
      | some _ => s.epoch p.tag.toNat != p.epoch))
  srcBad || (rspBad && p.dst.toNat == s.node)

/-- A packet dropped by R330: counted, with an event record. -/
def State.genDrop (s : State) (p : Packet) : State :=
  let ctx := if p.cgv then some p.ctx.toNat else none
  (s.count Page.fabric Reg.FB_GEN_DROP).logEvent 0x20 Page.fabric ctx p.cgen.toNat 0x0A
    (p.src.toNat + 256 * p.bgen.toNat + 65536 * p.rbgen.toNat) p.ttype.toNat

/-- A node whose state is not yet known since power-on is UP with the boot generation of its first packet (R329). -/
def State.learn (s : State) (p : Packet) : State :=
  let n := p.src.toNat
  if n = 31 ∨ s.fab.known.contains n then s
  else { s.setPeer n p.bgen true with fab := { s.fab with known := s.fab.known ++ [n] } }

/-- A packet sent on toward its destination with HOPS incremented; without a usable route it is dropped and counted, and a
request is answered with ACCESS_DENIED (R317, R322). -/
def State.forward (s : State) (vc : Nat) (p : Packet) : State :=
  let r := s.route p.dst.toNat
  if r < 4 && s.linkUp r then s.emit r vc { p with hops := p.hops + 1 }
  else (s.count Page.fabric Reg.FB_ROUTE_DROP).refuse p 0x0D

/-- A broadcast copied to every UP port but the one it came by (R322). -/
def State.copyOn (s : State) (arrived vc : Nat) (p : Packet) : State :=
  [0, 1, 2, 3].foldl (fun s k => if k ≠ arrived ∧ s.linkUp k then s.emit k vc { p with hops := p.hops + 1 } else s) s

/-- What becomes of an arriving packet: delivered here, or nothing more to do. -/
inductive Arrival where
  | deliver
  | done
deriving DecidableEq, Repr

/-- Whether a type goes from a port to its neighbour only. -/
def hopOnly (t : Nat) : Bool := t == 0x31 || t == 0x32 || t == 0x60 || t == 0x61 || t == 0x70 || t == 0x71

/-- First byte of the boot window (R405). -/
def bootWindow : Nat := 0x1FF000000
/-- Bytes of the boot window. -/
def bootWindowBytes : Nat := 0x200000

/-- Whether a packet for this device is refused because BOOT_STATE is not READY (R406): of the requests, MIRROR and TOLL only
MGMT_READ of the DEVICE and SECURITY pages, MGMT_WRITE of SEC_BOOT_GO and writes of node 0 to the open boot window pass. -/
def State.bootDenies (s : State) (p : Packet) : Bool :=
  let a := p.addr.toNat
  s.sec.boot != 4 &&
  (match p.ttype.toNat with
   | 0x50 => !(match regionOf a with | .regs page _ => page == Page.device || page == Page.security | _ => false)
   | 0x51 => !(match regionOf a with
      | .regs page off => page == Page.security && off == Reg.SEC_BOOT_GO && p.data.length == 4
      | _ => false)
   | 0x11 => !(s.sec.windowOpen && p.src == 0 && decide (bootWindow ≤ a) &&
      decide (a + p.data.length ≤ bootWindow + bootWindowBytes))
   | 0x10 | 0x12 | 0x13 | 0x14 | 0x15 | 0x16 | 0x17 | 0x40 | 0x41 => true
   | _ => false)

/-- The way of every packet that arrives on port `port`, virtual channel `vc` (R315, R322, R324, R330): malformed packets,
packets that a STANDBY_HOST port discards, generation drops, hop limit, forwarding and broadcast copies. A SYNC is forwarded by
its own rule (R327). A request that is answered goes to one node: with DST 31 it completes as an address with node ID 31
(R316). -/
def State.arrive (s : State) (port vc : Nat) (p : Packet) : Arrival × State :=
  let l := s.link port
  let t := p.ttype.toNat
  if l.st ≠ 6 ∧ l.st ≠ 7 then (.done, s) else
  let s := if l.encOn then s.setLink port { l with rxCount := l.rxCount + 1 } else s
  let mal (s : State) : State := s.count (Page.link port) Reg.KL_MALFORMED
  if malformed vc p then (.done, if p.dst.toNat = s.node then (mal s).refuse p 0x0E else mal s)
  else if l.st = 7 ∧ t ≠ 0x31 ∧ t ≠ 0x32 ∧ t ≠ 0x56 then (.done, mal s)
  else if s.genMismatch p then (.done, s.genDrop p)
  else
    let s := s.learn p
    if p.hops = 31 then (.done, s.count Page.fabric Reg.FB_ROUTE_DROP)
    else if hopOnly t then (.deliver, s)
    else if p.dst = 31 ∧ (responseType t).isSome then (.done, s.refuse p 0x0D)
    else if p.dst = 31 then
      if t = 0x56 ∧ l.st = 7 then (.deliver, s)
      else if s.route p.src.toNat ≠ port then (.done, s)
      else (.deliver, if t = 0x30 then s else s.copyOn port vc p)
    else if p.dst.toNat = s.node ∨ (!s.fab.enumerated ∧ s.sec.bridgeEn ∧ s.peerIsHost port ∧ p.dst = 1) then
      if s.bootDenies p then (.done, s.refuse p 0x0D) else (.deliver, s)
    else if t = 0x56 ∧ s.peerIsHost port then (.deliver, s)
    else (.done, s.forward vc p)

/-- PACKET_FORWARD (R322): a packet for another node is forwarded and a broadcast copied; of a packet for this device nothing is
left to forward. -/
def execPacketForward (port : PortId) (vc : Fin 8) (p : Packet) (s : State) : Host.Outcome State Fault Refusal :=
  .next (s.arrive port.val vc.val p).2

/-! ### Enumeration (R323) -/

/-- FB_ROUTE[n].PORT written. -/
def State.setRoute (s : State) (n port : Nat) : State := s.setFld Page.fabric (Reg.FB_ROUTE + 4 * n) 0 3 port

/-- The peer's node ID learned from an enumeration packet that it sent. -/
def State.learnPeer (s : State) (port : Nat) (p : Packet) : State :=
  if p.src = 31 then s
  else s.modLink port fun l => { l with peer := l.peer.map fun x => { x with nodeId := p.src } }

/-- The next port of a walk: UP, facing a device, not the upstream port. -/
def State.walkPort (s : State) (w : Walk) : Option Nat :=
  (List.range 4).find? fun k => decide (w.port ≤ k) && s.linkUp k && !s.peerIsHost k && w.upstream != some k

/-- A walk is over: the upstream device is answered, or on the bridge the status set; a device that the walk enumerated sends
every other ID upstream; the device announces its neighbours. -/
def State.walkDone (s : State) (w : Walk) : State :=
  let s := { s with fab := { s.fab with walk := none } }
  let s := match w.upstream with
    | some u =>
      s.emit u 0 { s.newPacket 0x61 31 with
        tag := w.tag, operand := BitVec.ofNat 64 (w.next + 32 * b2n w.overflow),
        dst := match (s.link u).peer with | some x => x.nodeId | none => 31 }
    | none => { s with fab := { s.fab with enumDone := true, enumOver := w.overflow, enumCount := (w.next - w.startId) % 32 } }
  s.announce

/-- A walk goes on at its next port, or ends. -/
def State.walkStep (s : State) (w : Walk) : State :=
  match s.walkPort w with
  | some k =>
    let s := { s with fab := { s.fab with walk := some { w with port := k } } }
    s.emit k 0 { s.newPacket 0x60 31 with
      operand := BitVec.ofNat 64 w.next, dst := match (s.link k).peer with | some x => x.nodeId | none => 31 }
  | none => s.walkDone w

/-- The port of the active host link on the bridge: the UP port that faces a host (R324). -/
def State.hostLink (s : State) : Nat := ((List.range 4).find? fun k => s.linkUp k && s.peerIsHost k).getD 0

/-- Every ID sent to one port, and the own ID LOCAL: the start of the routes of an enumerated device (R323). -/
def State.routesTo (s : State) (port : Nat) : State :=
  ((List.range 31).foldl (fun (s : State) (n : Nat) => s.setRoute n port) s).setRoute s.node 4

/-- A write of FB_ENUM_CTRL (R323): START on a bridge starts a walk; FIRST_ID 0 acts as 2. Nothing on another device or while a
walk runs. -/
def State.enumStart (s : State) (v : W32) : State :=
  if !bitOf v.toNat 0 || !s.sec.bridgeEn || s.fab.walk.isSome then s else
  let first := if bitsOf v.toNat 1 5 = 0 then 2 else bitsOf v.toNat 1 5
  let keep := s.fab.enumerated
  let h := s.hostLink
  let s := if keep then s
    else { s with fab := { s.fab with nodeId := 1, enumerated := true, hostPort := h, hostActive := true, upstream := h } }.routesTo h
  let s := { s with fab := { s.fab with enumDone := false, enumOver := false } }
  s.walkStep { next := first, port := 0, upstream := none, tag := 0, startId := first, overflow := false, keep := keep }

/-- FB_ENUM_START (R323). -/
def execFbEnumStart (_src : NodeId) (v : W32) (s : State) : Host.Outcome State Fault Refusal := .next (s.enumStart v)

/-- An ENUM taken (R323 steps 3, 4). -/
def State.enumTake (s : State) (u : Nat) (p : Packet) : State :=
  let s := s.learnPeer u p
  let next := p.operand.toNat % 32
  let answer (full : Bool) : State :=
    s.emit u 0 { s.newPacket 0x61 p.src.toNat with tag := p.tag, operand := BitVec.ofNat 64 (next + 32 * b2n full) }
  if s.fab.enumerated then answer false
  else if next = 31 then answer true
  else
    let s := { s with fab := { s.fab with nodeId := next, enumerated := true, upstream := u } }
    let s := [0, 1, 2, 3].foldl (fun (s : State) (k : Nat) =>
      if s.peerIsHost k && s.linkUp k then s.modLink k fun l => { l with st := 7 } else s) s
    let s := s.routesTo u
    s.walkStep { next := next + 1, port := 0, upstream := some u, tag := p.tag, startId := next + 1, overflow := false, keep := false }

/-- ENUM (R323). -/
def execEnum (port : PortId) (vc : Fin 8) (p : Packet) (s : State) : Host.Outcome State Fault Refusal :=
  let p := { p with ttype := 0x60 }
  match s.arrive port.val vc.val p with
  | (.done, s) => .next s
  | (.deliver, s) => .next (s.enumTake port.val p)

/-- ENUM_DONE (R323): the IDs of the explored port's range go to that port, and the walk goes on. -/
def execEnumDone (port : PortId) (vc : Fin 8) (p : Packet) (s : State) : Host.Outcome State Fault Refusal :=
  let p := { p with ttype := 0x61 }
  match s.arrive port.val vc.val p with
  | (.done, s) => .next s
  | (.deliver, s) =>
    let s := s.learnPeer port.val p
    match s.fab.walk with
    | none => .next s
    | some w =>
      if w.port ≠ port.val then .next s else
      let next := p.operand.toNat % 32
      let s := if w.keep then s
        else (List.range 31).foldl (fun (s : State) (n : Nat) =>
          if w.next ≤ n ∧ n < next then s.setRoute n port.val else s) s
      .next (s.walkStep { w with next := next, port := port.val + 1, overflow := w.overflow || bitOf p.operand.toNat 5 })

/-! ### The host port (R324, R325) -/

/-- HOST_SWITCH (R325): from the host on a standby port it makes that port the active one; from another bridge every device
copies ALT into its route to node 0 and gives up an active host port; on the active host port it is ignored (R335). -/
def execHostSwitch (port : PortId) (vc : Fin 8) (p : Packet) (s : State) : Host.Outcome State Fault Refusal :=
  let p := { p with ttype := 0x56 }
  match s.arrive port.val vc.val p with
  | (.done, s) => .next s
  | (.deliver, s) =>
    let i := port.val
    let standby (s : State) : State :=
      if s.fab.hostActive && s.linkUp s.fab.hostPort then s.modLink s.fab.hostPort fun l => { l with st := 7 } else s
    if (s.link i).st = 7 then
      let s := standby s
      let s := { s.modLink i fun l => { l with st := 6 } with fab := { s.fab with hostPort := i, hostActive := true } }
      let s := (s.modLink i fun l => { l with st := 6 }).setRoute 0 i
      .next (s.broadcast 0 (s.newPacket 0x56 31))
    else if s.peerIsHost i then .next (s.count (Page.link i) Reg.KL_MALFORMED)
    else
      let s := { standby s with fab := { (standby s).fab with hostActive := false } }
      .next (s.setRoute 0 (s.fld Page.fabric Reg.FB_ROUTE 4 3))

/-! ### Time (R326, R327) -/

/-- PDELAY_PERIOD (R326): TS_PDELAY_PERIOD after the last, an UP port sends PDELAY_REQ. Its departure stamp is taken when it leaves. -/
def execPdelayPeriod (port : PortId) (s : State) : Host.Outcome State Fault Refusal :=
  let l := s.link port.val
  if l.st = 6 ∨ l.st = 7 then
    let ms := max 1 (s.fld Page.tsync Reg.TS_PDELAY_PERIOD 0 16)
    let s := match l.pdelayAt with | some t => s.reach (t + BitVec.ofNat 64 (usTb (1000 * ms))) | none => s
    let s := s.modLink port.val fun l => { l with pdelayAt := some s.now }
    .next (s.emit port.val 1 { s.newPacket 0x31 31 with dst := match l.peer with | some x => x.nodeId | none => 31 })
  else .next s

/-- PDELAY_REQ (R326): answered with its arrival stamp; the departure stamp is written as the answer leaves. -/
def execPdelayReq (port : PortId) (vc : Fin 8) (p : Packet) (s : State) : Host.Outcome State Fault Refusal :=
  let p := { p with ttype := 0x31 }
  match s.arrive port.val vc.val p with
  | (.done, s) => .next s
  | (.deliver, s) =>
    .next (s.emit port.val 1 { s.newPacket 0x32 p.src.toNat with
      tag := p.tag, epoch := p.epoch, rbgen := 0, addr := s.now, operand := 0 })

/-- The delay of one exchange, 1/256 ns (R326). -/
def pdelayOf (t1 t2 t3 t4 : W64) : Int := (((t4 - t1).toInt) - ((t3 - t2).toInt)) / 2

/-- PDELAY_RSP (R326): the delay of the exchange enters the average of the last 8. -/
def execPdelayRsp (port : PortId) (vc : Fin 8) (p : Packet) (s : State) : Host.Outcome State Fault Refusal :=
  let p := { p with ttype := 0x32 }
  match s.arrive port.val vc.val p with
  | (.done, s) => .next s
  | (.deliver, s) =>
    let i := port.val
    let l := s.link i
    match l.pdelayT1 with
    | none => .next s
    | some t1 =>
      let d : W32 := BitVec.ofInt 32 (pdelayOf t1 p.addr p.operand s.now)
      let ds := (d :: l.delays).take 8
      let avg : Int := (ds.map fun x => x.toInt).sum / (ds.length : Int)
      .next (s.setLink i { l with pdelayT1 := none, delays := ds, delay := BitVec.ofInt 32 avg })

/-- The SYNC sequence numbers that count as already accepted: the last 4,096 (R327). -/
def syncWindow : Nat := 4096

/-- SYNC (R327): an offset for the servo when TB_CTRL.SRC takes links; forwarded with the arrival link's delay and the time in
the device, of which the departure stamp is added as it leaves. -/
def execSync (port : PortId) (vc : Fin 8) (p : Packet) (s : State) : Host.Outcome State Fault Refusal :=
  let p := { p with ttype := 0x30 }
  match s.arrive port.val vc.val p with
  | (.done, s) => .next s
  | (.deliver, s) =>
    let i := port.val
    let seq := p.tag.toNat
    if s.time.syncSeen.contains seq then .next (s.count Page.tsync Reg.TS_SYNC_DROP) else
    let rx := s.now
    let delay : BitVec 64 := BitVec.ofInt 64 (s.link i).delay.toInt
    let master := p.operand + p.addr + delay
    let s := { s with time := { s.time with syncSeen := (seq :: s.time.syncSeen).take syncWindow } }
    let s := s.count Page.tsync Reg.TS_SYNC_COUNT
    let s := s.setReg64 Page.tsync Reg.TS_LAST_ORIGIN_LO Reg.TS_LAST_ORIGIN_HI p.operand
    let s := { s with fab := { s.fab with syncPort := i, lastOrigin := p.operand, syncAny := true, syncAt := rx } }
    let s := s.copyOn i 1 { p with addr := p.addr + delay - rx }
    let src := s.fld Page.timebase Reg.TB_CTRL 0 2
    if src = 1 ∨ src = 3 then .next (s.servoUpdate (master - rx).toInt) else .next s

/-- SYNC_SEND (R327): node 0 sends SYNC, and this device is never node 0, so nothing happens here until it arrives. -/
def execSyncSend (s : State) : Host.Outcome State Fault Refusal := .next s

/-! ### Node packets (R332, R333) -/

/-- PEER_LOST (R332, R333, R367). -/
def execPeerLost (port : PortId) (vc : Fin 8) (p : Packet) (s : State) : Host.Outcome State Fault Refusal :=
  let p := { p with ttype := 0x53 }
  match s.arrive port.val vc.val p with
  | (.done, s) => .next s
  | (.deliver, s) => .next (s.peerLostAct p.src.toNat (bitsOf p.operand.toNat 0 5) (bitsOf p.operand.toNat 5 3))

/-- NODE_DOWN (R333, R367). -/
def execNodeDown (port : PortId) (vc : Fin 8) (p : Packet) (s : State) : Host.Outcome State Fault Refusal :=
  let p := { p with ttype := 0x54 }
  match s.arrive port.val vc.val p with
  | (.done, s) => .next s
  | (.deliver, s) => .next (s.nodeDownAct (bitsOf p.operand.toNat 0 5))

/-- NODE_UP (R333, R367). -/
def execNodeUp (port : PortId) (vc : Fin 8) (p : Packet) (s : State) : Host.Outcome State Fault Refusal :=
  let p := { p with ttype := 0x55 }
  match s.arrive port.val vc.val p with
  | (.done, s) => .next s
  | (.deliver, s) => .next (s.nodeUpAct (bitsOf p.operand.toNat 0 5) p.bgen p.data)

end Sys2Proof.Machine
end

