-- ==== Sys2Proof/Machine/Pair.lean ====
section
/-!
DEFINITION. Paired operation (R356–R371): enabling the pair, mirror export and import, bind records, shadow audit, tolls,
takeover; and the safety manager (R372–R376): raising mechanisms, safe state, the end-to-end check, the register comparison and
the latent-fault tests.
-/
namespace Sys2Proof.Machine

/-! ### Pair configuration (R356) -/

/-- MR_CTRL.EN. -/
def State.pairOn (s : State) : Bool := s.flag Page.mirror Reg.MR_CTRL 0
/-- MR_CTRL.SIDE. -/
def State.side (s : State) : Nat := s.fld Page.mirror Reg.MR_CTRL 1 1
/-- MR_CTRL.PARTNER. -/
def State.partner (s : State) : Nat := s.fld Page.mirror Reg.MR_CTRL 2 5

/-- Timebase units of 1 ms. -/
def msTb : Nat := 256000000

/-- The number of the toll whose window, by the partner's side, holds the instant `t` (R367). -/
def tollWindow (side : Nat) (t : Nat) : Nat := (t + usTb 250 - (1 - side) * usTb 500) / msTb

/-- The end of the window of toll k, by the partner's side (R367). -/
def tollEnd (side k : Nat) : Nat := k * msTb + (1 - side) * usTb 500 + usTb 750

/-- A write of MR_CTRL (R356): refused enables leave EN at 0; pair operation starts with the partner UNKNOWN. -/
def State.mrCtrlWrite (s : State) (src : Nat) (v : W32) : State :=
  let off := Reg.MR_CTRL
  if s.locked Page.mirror then s.pgErrAt Page.mirror off src [31] else
  let was := s.pairOn
  let w := (bitsOf v.toNat 0 7) + 2 ^ 8 * bitsOf v.toNat 8 11
  let partner := bitsOf w 2 5
  if bitOf w 0 && (partner == 0 || partner == 31 || partner == s.node || bitsOf w 8 11 == 0) then
    (s.setFlag Page.mirror off 0 false).writeRefused Page.mirror off src
  else
    let s := s.setReg Page.mirror off (BitVec.ofNat 32 w)
    if bitOf w 0 && !was then
      { s with pair := { s.pair with
          st := 0, missRun := 0, pinRun := 0, linkRun := 0, pinToll := false, linkToll := false, pinNext := 0, linkNext := 0,
          sensing := false, driven := false,
          rxK := tollWindow s.side s.now.toNat } }
    else s

/-- MR_CTRL_ENABLE (R356). -/
def execMrCtrlEnable (src : NodeId) (v : W32) (s : State) : Host.Outcome State Fault Refusal :=
  .next (s.mrCtrlWrite src.val (v ||| 1))

/-- The region of the partner that receives source region r of core c (R358). -/
def State.rmap (s : State) (c r : Nat) : Nat :=
  if r < 8 then s.fld Page.mirror (Reg.MR_RMAP_LO + 8 * c) (4 * r) 4 else s.fld Page.mirror (Reg.MR_RMAP_HI + 8 * c) (4 * (r - 8)) 4

/-- The MIRROR slots of a mirror-role entry: slot x of the target of every mirrored region of its section, by the device's own
map (R358; the pair loads one image and one map). -/
def State.mirrorSlots (s : State) (sec x : Nat) : SMap Nat :=
  (s.sectionRegions sec).foldl (fun m p =>
    if (s.region p.1 p.2).mirrored then SMap.set m (16 * p.1 + s.rmap p.1 p.2) x 4096 else m) []

/-! ### Export (R359) -/

/-- The mirrored slots of the active streams of RUNNING contexts, in ascending order of core, region and slot (R141, R359, R388). -/
def State.exportSlots (s : State) : List (Nat × Nat × Nat) :=
  let held := ((s.streams.filter fun e =>
    (e.2.st == 1 || e.2.st == 3 || e.2.st == 5) && !e.2.role && (s.ctx e.2.ctx).st == .running).map fun e =>
    e.2.slots.map fun v => (v.1, v.2)).flatten
  ((List.range 512).map fun k =>
    if (s.region (k / 16) (k % 16)).mirrored then
      ((List.range 2048).filter fun x => held.contains (k, x)).map fun x => (k / 16, k % 16, x)
    else []).flatten

/-- The pieces of a slot image: offset and length, at most 4,096 bytes each (R359). -/
def imagePieces (len : Nat) : List (Nat × Nat) :=
  (List.range ((len + 4095) / 4096)).map fun k => (4096 * k, min 4096 (len - 4096 * k))

/-- The image of a slot as the ending bar left it: kept aside if the slot has been written since (R19). -/
def State.exportImage (s : State) (p : Nat × Nat × Nat) : List Byte :=
  match s.pair.kept.find? fun e => e.1 == p with
  | some e => e.2
  | none => s.slotImage p.1 p.2.1 p.2.2

/-- One slot image exported piece by piece (R359), under tags of the state port of its core (R142). -/
def State.exportSlot (s : State) (bar : Nat) (z : Bool) (p : Nat × Nat × Nat) : State :=
  let (c, r, x) := p
  let image := s.exportImage p
  let s := (imagePieces image.length).foldl (fun s o =>
    let raw := bytesAt image o.1 o.2
    let data := if z then (encodeBlock raw).1 else raw
    let pk := { s.newPacket 0x40 s.partner with
      addr := BitVec.ofNat 64 (c + 32 * s.rmap c r + 512 * x), operand := BitVec.ofNat 64 (o.1 + 2 ^ 32 * (bar % 2 ^ 32)),
      last := decide (o.1 + o.2 = image.length), z := z, len := BitVec.ofNat 16 raw.length,
      wlen := BitVec.ofNat 16 data.length, data := data }
    match s.refuseRequest s.partner with
    | some _ => s
    | none => s.request 5 pk { plainTag with agent := 1 + c }) s
  s.xfer c image.length

/-- MIRROR_EXPORT (R359): the export that the boundary started; the slots are read and their pieces handed to the link. -/
def execMirrorExport (s : State) : Host.Outcome State Fault Refusal :=
  match s.pattern.exportBar with
  | none => .next s
  | some bar =>
    let z := s.pattern.exportZ.getD false
    let slots := s.pair.unread
    let bytes := (slots.map fun p => 32 * (s.region p.1 p.2.1).lines).sum
    let s := slots.foldl (fun s p => s.exportSlot bar z p) s
    let s := s.trace 3 (eventBytes s.now 0x42 0x00F none 0 0 0 bytes bar)
    let ns := (s.now - s.barStart (bar + 1)).toNat / 256
    let s := s.setReg Page.mirror Reg.MR_EXPORT_TIME_MAX
      (BitVec.ofNat 32 (min (max (s.reg Page.mirror Reg.MR_EXPORT_TIME_MAX).toNat ns) 0xFFFFFFFF))
    let s := s.agentDone Page.mirror 0
    .next { s with pattern := { s.pattern with exportBar := none, exportZ := none },
                   pair := { s.pair with unread := [], kept := [], exporting := false, exportDone := true } }

/-- Step 2 of R19 begins at the boundary that ends bar `bar`: with a MIRROR beat in that bar, pair operation on and the partner
not FAILED, the mirrored slots are due for export (R359). -/
def State.startExport (s : State) (bar : Nat) : State :=
  match s.pattern.mirror with
  | none => s
  | some z =>
    if !s.pairOn || s.pair.st == 2 then s else
    { s.agentWait Page.mirror 0 none with
      pattern := { s.pattern with exportBar := some bar, exportZ := some z },
      pair := { s.pair with unread := s.exportSlots, kept := [], exporting := true, exportDone := false } }

/-! ### Import and audit (R360, R364, R365) -/

/-- The pieces of one image. -/
def isImage (c r x bar : Nat) (p : Piece) : Bool := p.core == c && p.region == r && p.slot == x && p.bar == bar

/-- The sum of 32 sign-flipped projections: component j of a sketch (R364). -/
def sketchAt (v : List W32) (j : Nat) : W32 :=
  v.zipIdx.foldl (fun p e =>
    let h := e.2 * 0x9E3779B1 % 2 ^ 32 / 2 ^ 16
    fpAdd p (if bitOf h j then fpNeg e.1 else e.1)) 0

/-- The elements of a slot image (R125). -/
def imageValues (g : StRegion) (l : List Byte) : List W32 :=
  ((List.range g.ng).map fun k => groupValues g (bytesAt l (32 * k) 32) (l.getD (32 * g.ng + k) 0)).flatten

/-- An FP32 value times 2^149, exact. -/
def fpScaled (x : W32) : Int := fpSig x * (2 ^ (fpExp x - 1) : Nat)

/-- Whether two images pass the audit (R364); a NaN or an infinity in a sketch fails it. -/
def State.auditOk (s : State) (g : StRegion) (imported shadow : List Byte) : Bool :=
  let a := imageValues g imported
  let b := imageValues g shadow
  let p := (List.range 16).map (sketchAt a)
  let q := (List.range 16).map (sketchAt b)
  let bad := (p ++ q).any fun x => fpIsNaN x || fpIsInf x
  let d : Int := ((List.range 16).map fun j => (fpScaled (p.getD j 0) - fpScaled (q.getD j 0)) ^ 2).sum
  let n : Int := (p.map fun x => fpScaled x ^ 2).sum
  let tol := fpScaled (s.reg Page.mirror Reg.MR_AUDIT_TOL)
  let abs := fpScaled (s.reg Page.mirror Reg.MR_AUDIT_ABS)
  !bad && decide (d * 2 ^ 298 ≤ tol ^ 2 * n + abs ^ 2 * 2 ^ 298)

/-- A failed audit of stream i in bar `bar` (R364, R365). -/
def State.auditFailed (s : State) (i bar : Nat) : State :=
  let x := s.stream i
  let s := (s.count Page.mirror Reg.MR_AUDIT_FAIL).logEvent 0x29 0x00F (some x.ctx) (s.gen x.ctx).toNat 0 i bar
  let bars := (x.auditBars.filter fun b => decide (bar < b + 100)) ++ [bar]
  if bars.length < 3 then s.setStream i { x with auditBars := bars }
  else
    let s := (s.setStream i { x with auditBars := [] }).raiseMech 10 none
    s.writeRemote 4 s.partner (0x40000000000 + Page.mirror * 0x1000 + Reg.MR_AUDIT_IN) (leBytes 4 i)

/-- The chunks of stream i whose admitting bar has been imported for every slot are released (R362). -/
def State.releaseRetained (s : State) (i : Nat) : State :=
  s.modStream i fun x => { x with retained := x.retained.filter fun ch =>
    !(x.slots.all fun e => decide (ch.bar + 1 ≤ SMap.get s.pair.lastImport (e.1 * 2048 + e.2) 0)) }

/-- An image of bar `bar` is complete: audited where the shadow wrote the slot back in that bar, discarded where a shadow has since
run without it, and otherwise copied into the slot in one step (R360, R363, R364). -/
def State.importImage (s : State) (c r x bar : Nat) (image : List Byte) : State :=
  let g := s.region c r
  let key := (16 * c + r) * 2048 + x
  let s := { s with pair := { s.pair with importing := s.pair.importing.erase (c, r, x) } }
  if SMap.get s.pair.skipBar key 0 = bar + 2 then s else
  let own := SMap.get s.pair.shadowBar key 0 == bar + 1 && SMap.get s.pair.skipBar key 0 != bar + 1
  let shadow := s.slotImage c r x
  let s := match s.streamOfSlot c r x with
    | some i => if own && (s.stream i).role && !s.auditOk g image shadow then s.auditFailed i bar else s
    | none => s
  let s := (s.putImage c r x image).xfer c image.length
  let s := { s with pair := { s.pair with lastImport := SMap.set s.pair.lastImport key (bar + 1) 0 } }
  match s.streamOfSlot c r x with
  | some i => s.releaseRetained i
  | none => s

/-- An image discarded: its staged pieces go, later ones of the same bar are refused, and it is counted (R360). -/
def State.discardImage (s : State) (c r x bar : Nat) : State :=
  if s.pair.refused.contains (c, r, x, bar) then s else
  { s.count Page.mirror Reg.MR_IMPORT_DISCARD with pair := { s.pair with
      pieces := s.pair.pieces.filter fun p => !isImage c r x bar p,
      refused := s.pair.refused ++ [(c, r, x, bar)],
      importing := s.pair.importing.erase (c, r, x) } }

/-- Whether the staged pieces of an image cover it from 0 to the end of its LAST piece; its bytes. -/
def imageBytes (ps : List Piece) : Option (List Byte) :=
  match ps.find? fun p => p.last with
  | none => none
  | some l =>
    let n := l.off + l.data.length
    if (imagePieces n).all fun o => ps.any fun p => p.off == o.1 && p.data.length == o.2 then
      some ((imagePieces n).map fun o => match ps.find? fun p => p.off == o.1 with | some p => p.data | none => []).flatten
    else none

/-- One piece of an import (R360). -/
def State.importPiece (s : State) (p : Packet) : State :=
  let a := p.addr.toNat
  let c := bitsOf a 0 5
  let r := bitsOf a 5 4
  let x := bitsOf a 9 11
  let bar := bitsOf p.operand.toNat 32 32
  let off := bitsOf p.operand.toNat 0 32
  let g := s.region c r
  let data := if p.z then decodeWhole p.data else some p.data
  let staged := (s.pair.pieces.map fun q => q.data.length).sum
  let room := s.fld Page.mirror Reg.MR_STAGE_BYTES 0 28
  if s.pair.refused.contains (c, r, x, bar) then s else
  match data with
  | none => s.discardImage c r x bar
  | some d =>
    if !g.valid || g.kind ≠ 2 || decide (g.nslots ≤ x) || decide (32 * g.lines < off + d.length) ||
       decide (room < staged + d.length) || decide (bar + 1 < SMap.get s.pair.lastImport ((16 * c + r) * 2048 + x) 0) then
      s.discardImage c r x bar
    else
      let base := (s.reg64 Page.mirror Reg.MR_STAGE_BASE_LO Reg.MR_STAGE_BASE_HI).toNat % 2 ^ 59
      let (_, s) := s.writeSpan .sys (base + staged) d
      let s := { s with pair := { s.pair with
        pieces := s.pair.pieces ++ [{ core := c, region := r, slot := x, bar := bar, off := off, last := p.last, data := d }],
        importing := if s.pair.importing.contains (c, r, x) then s.pair.importing else s.pair.importing ++ [(c, r, x)] } }
      match imageBytes (s.pair.pieces.filter (isImage c r x bar)) with
      | none => s
      | some l =>
        { s with pair := { s.pair with pieces := s.pair.pieces.filter fun q => !isImage c r x bar q } }.importImage c r x bar l

/-- MIRROR (R312, R360): the piece is staged or discarded, and acknowledged. -/
def execMirror (port : PortId) (vc : Fin 8) (p : Packet) (s : State) : Host.Outcome State Fault Refusal :=
  let p := { p with ttype := 0x40 }
  match s.arrive port.val vc.val p with
  | (.done, s) => .next s
  | (.deliver, s) => .next ((s.importPiece p).respond p 0x21 0 0 [])

/-- Images still incomplete at a boundary are discarded (R360). -/
def State.importEnd (s : State) : State :=
  let s := s.pair.pieces.foldl (fun s p => s.discardImage p.core p.region p.slot p.bar) s
  { s with pair := { s.pair with pieces := [], refused := [], importing := [] } }

/-- A write of MR_AUDIT_IN: the partner's third failed audit of a stream (R365). -/
def State.auditIn (s : State) (v : W32) : State :=
  let i := bitsOf v.toNat 0 11
  let x := s.stream i
  if x.st = 0 then s.raiseMech 10 none
  else (s.setStream i { x with auditBars := [] }).raiseMech 10 (some x.ctx)

/-- MR_AUDIT_IN (R365). -/
def execMrAuditIn (_src : NodeId) (v : W32) (s : State) : Host.Outcome State Fault Refusal := .next (s.auditIn v)

/-! ### Bind records (R361) -/

/-- An entry read from the 15 words of a bind record (R152, R361). -/
def streamOfWords (l : List W32) : Stream :=
  let w (k : Nat) : Nat := (l.getD k 0).toNat
  { role := true, ctx := bitsOf (w 0) 4 6, section_ := bitsOf (w 0) 10 3, conceal := bitsOf (w 0) 13 2,
    backlogMax := bitsOf (w 0) 15 2, resetOnGap := bitOf (w 0) 17, resetPending := bitOf (w 0) 18, concealMax := bitsOf (w 0) 19 6,
    inW := l.getD 1 0, outW := l.getD 2 0, inQueue := bitsOf (w 3) 0 15, outQueue := bitsOf (w 3) 15 15,
    chunkFrames := bitsOf (w 4) 0 16, hopFrames := bitsOf (w 4) 16 16, resetAt := bitsOf (w 5) 0 16,
    nextT := l.getD 7 0 ++ l.getD 6 0, tReset := l.getD 9 0 ++ l.getD 8 0, outBufBase := l.getD 11 0 ++ l.getD 10 0,
    outBufSize := bitsOf (w 12) 0 24, outBufCountM1 := bitsOf (w 12) 24 4, outBufNext := bitsOf (w 12) 28 4,
    muffleGain := bitsOf (w 13) 0 8, muffleShift := bitsOf (w 13) 8 3, outNode := bitsOf (w 13) 11 5, lastBar := l.getD 14 0 }

/-- A bind record applied at a boundary: the entry of the same index with ROLE = 1 and STATE from KIND (R361). -/
def State.applyBind (s : State) (l : List W32) : State :=
  let w := (l.getD 15 0).toNat
  let i := bitsOf w 21 11
  let slot := bitsOf w 0 11
  let x := streamOfWords l
  match bitsOf w 16 2 with
  | 0 => s.setStream i { x with
      st := 1, slots := s.mirrorSlots x.section_ slot, mslot := some slot, firstChunk := (s.stream i).st == 0, activeInBar := true }
  | 1 => s.setStream i { x with st := 2 }
  | _ => s.setStream i {}

/-- A complete bind record accepted for the next boundary, or discarded when its index lies in the own half (R357, R361). -/
def State.bindAccept (s : State) (l : List W32) : State :=
  let i := bitsOf (l.getD 15 0).toNat 21 11
  let (lo, hi) := s.ownHalf
  if lo ≤ i ∧ i < hi then s.count Page.mirror Reg.MR_BIND_ERR
  else { s with pair := { s.pair with binds := s.pair.binds ++ [l] } }

/-- A write of MR_BIND_IN[w]: the record is complete with its last word (R361). -/
def State.bindWord (s : State) (w : Nat) (v : W32) : State :=
  let s := { s with pair := { s.pair with bind := SMap.set s.pair.bind w v 0 } }
  if w = 15 then s.bindAccept ((List.range 16).map fun k => SMap.get s.pair.bind k 0) else s

/-- MR_BIND_IN_WRITE (R361): the words of one transaction in order. -/
def execMrBindInWrite (_src : NodeId) (words : List W32) (s : State) : Host.Outcome State Fault Refusal :=
  .next ((words.take 16).zipIdx.foldl (fun s e => s.bindWord e.2 e.1) s)

/-- The bind records that wait are applied in order (R361). -/
def State.applyBinds (s : State) : State :=
  let l := s.pair.binds
  l.foldl (fun (s : State) (r : List W32) => s.applyBind r) { s with pair := { s.pair with binds := [] } }

/-! ### Tolls (R366–R368) -/

/-- The toll status word (R366). -/
def State.tollStatus (s : State) : Nat :=
  b2n (s.safety.armed && !s.safety.safe) + 2 * b2n s.safety.safe + 4 * b2n s.pair.takenOver + 8 * b2n s.pair.exportDone +
  256 * s.fab.bgen.toNat + 65536 * (s.pair.lastCommitBar % 65536)

/-- The link toll number k sent to the partner (R366). -/
def State.tollPacket (s : State) (k : Nat) : State :=
  if !s.pairOn then s else
  s.send 5 { s.newPacket 0x41 s.partner with operand := BitVec.ofNat 64 (k % 2 ^ 32 + 2 ^ 32 * s.tollStatus) }

/-- TOLL_SEND (R366): the next toll instant; TOLL_OUT rises and the packet goes out. -/
def execTollSend (s : State) : Host.Outcome State Fault Refusal :=
  if !s.safety.armed || s.safety.safe then .next s else
  let off := s.side * usTb 500
  let k := max s.pair.txK ((s.now.toNat + msTb - 1 - off) / msTb)
  let s := s.reach (BitVec.ofNat 64 (k * msTb + off))
  let s := s.tollPacket k
  .next { s with pair := { s.pair with txK := k + 1 }, safety := { s.safety with tollOut := true } }

/-- The window in which a toll that comes now counts: the current one, or a later one whose time has come although the current one's
end has not been commanded (R367, R368). -/
def State.tollNow (s : State) : Nat := max s.pair.rxK (tollWindow s.side s.now.toNat)

/-- TOLL_IN_PULSE (R367). -/
def execTollInPulse (widthNs : Nat) (s : State) : Host.Outcome State Fault Refusal :=
  if s.pairOn && decide (2000 ≤ widthNs) then
    let w := s.tollNow
    .next { s with pair := { s.pair with
      pinToll := s.pair.pinToll || w == s.pair.rxK, pinNext := if w = s.pair.rxK then s.pair.pinNext else w + 1,
      st := if s.pair.st = 0 then 1 else s.pair.st } }
  else .next s

/-- TOLL (R367, R368): a toll of the open window counts; a stale sequence or another BGEN is ignored; SAFE_STATE declares. -/
def execToll (port : PortId) (vc : Fin 8) (p : Packet) (s : State) : Host.Outcome State Fault Refusal :=
  let p := { p with ttype := 0x41 }
  match s.arrive port.val vc.val p with
  | (.done, s) => .next s
  | (.deliver, s) =>
    let seq := bitsOf p.operand.toNat 0 32
    let status := bitsOf p.operand.toNat 32 32
    let s := s.trace 4 (eventBytes s.now 0x43 0x00F none 0 0 0 seq status)
    if !s.pairOn || p.src.toNat ≠ s.partner || bitsOf status 8 8 ≠ s.peerBgen s.partner then .next s
    else
      let w := s.tollNow
      let now_ := decide (seq = w % 2 ^ 32)
      if bitOf status 1 && (now_ || decide (seq = (w + 1) % 2 ^ 32)) then .next s.declareFailed
      else if now_ then
        .next { s with pair := { s.pair with
          linkToll := s.pair.linkToll || w == s.pair.rxK, linkNext := if w = s.pair.rxK then s.pair.linkNext else w + 1,
          st := if s.pair.st = 0 then 1 else s.pair.st } }
      else .next s

/-- TOLL_WINDOW_END (R367, R368): misses counted, TOLL_PIN and TOLL_LINK raised at the third silent window of one path, and the
partner declared FAILED at the third window silent on both. -/
def execTollWindowEnd (s : State) : Host.Outcome State Fault Refusal :=
  if !s.pairOn then .next s else
  let s := s.reach (BitVec.ofNat 64 (tollEnd s.side s.pair.rxK))
  let q := s.pair
  let s := if q.pinToll then s else s.count Page.mirror Reg.MR_TOLL_MISS_PIN
  let s := if q.linkToll then s else s.count Page.mirror Reg.MR_TOLL_MISS_LINK
  let miss := if q.pinToll || q.linkToll then 0 else min (q.missRun + 1) 3
  let pin := if q.pinToll then 0 else min (q.pinRun + 1) 4
  let link := if q.linkToll then 0 else min (q.linkRun + 1) 4
  let k := max (q.rxK + 1) (tollWindow s.side s.now.toNat)
  let s := { s with pair := { q with
    missRun := miss, pinRun := pin, linkRun := link, pinOk := q.pinToll, linkOk := q.linkToll,
    pinToll := q.pinNext == k + 1, linkToll := q.linkNext == k + 1, pinNext := 0, linkNext := 0, rxK := k } }
  let s := if pin = 3 ∧ miss < 3 then s.raiseMech 7 none else s
  let s := if link = 3 ∧ miss < 3 then s.raiseMech 8 none else s
  if miss = 3 then .next s.declareFailed else .next s

/-! ### Takeover (R369, R370) -/

/-- The audio ports of MR_TAKEOVER_PORTS. -/
def State.takeoverPorts (s : State) : List Nat :=
  let m := s.fld Page.mirror Reg.MR_TAKEOVER_PORTS 0 14
  (List.range 14).filterMap fun b => if bitOf m b then some (if b < 12 then b else b + 6) else none

/-- The frame boundary of port p two frames after the first one at or after the declaration (R236, R369). -/
def State.sensedTill (s : State) (p : Nat) : Option W64 :=
  match (s.port p).startT with
  | none => none
  | some t =>
    let hz := s.rateNom p
    let d := s.pair.declaredAt.toNat - t.toNat
    let k := (d * hz + 1000000000 * 256 - 1) / (1000000000 * 256)
    some (t + BitVec.ofNat 64 (gridAt hz (k + 2)))

/-- The instant of the drive: the last of these boundaries among the ports taken over (R369). -/
def State.driveAt (s : State) : W64 :=
  s.takeoverPorts.foldl (fun (a : W64) p => match s.sensedTill p with | some t => if a.toNat < t.toNat then t else a | none => a)
    s.pair.declaredAt

/-- Whether any ball is sensed: that of a master serial port or of a PDM output group (R369). -/
def State.senses (s : State) : Bool := s.takeoverPorts.any fun p => s.portMaster p

/-- TAKEOVER_DRIVE (R369): after 2 frames of sensing; edges on a sensed ball mean that nothing is driven. -/
def execTakeoverDrive (edges : Bool) (s : State) : Host.Outcome State Fault Refusal :=
  if !s.pair.sensing then .next s else
  let s := s.reach s.driveAt
  if edges && s.senses then
    .next ({ s with pair := { s.pair with sensing := false, st := 1, missRun := 0 } }.raiseMech 15 none)
  else
    let ns := (s.now - s.pair.declaredAt).toNat / 256
    let s := { s with pair := { s.pair with sensing := false, driven := true, takeoverNs := BitVec.ofNat 32 (min ns 0xFFFFFFFF) } }
    .next (s.takeoverPorts.foldl (fun s p => (s.setFlag (Page.audio p) Reg.AP_CTRL 0 false).applyStandby p) s)

/-- The adoption of mirror-role stream i at the boundary that ends bar `bar` (R370 steps 1–4). -/
def State.adoptStream (s : State) (i bar : Nat) (t : W64) : State :=
  let x := s.stream i
  let shadowed := s.onLists x
  let done := shadowed && (match x.admitted with | some a => a.bar == bar && s.allEnded x.ctx bar t | none => false)
  s.setStream i { x with
    role := false, outNode := if x.outNode = s.partner then s.node else x.outNode, activeInBar := true, prev := [], lastPlayed := [],
    causes := if done then x.causes else x.causes ++ [7],
    admitted := if done then x.admitted else none,
    returned := if shadowed then [] else x.retained, retained := [] }

/-- At the first boundary after the drive every ACTIVE mirror-role entry is adopted (R370). -/
def State.adopt (s : State) (bar : Nat) (t : W64) : State :=
  if !s.pair.driven then s else
  let l := s.streams.filterMap fun e => if e.2.st == 1 && e.2.role then some e.1 else none
  let s := l.foldl (fun s i => s.adoptStream i bar t) s
  let s := { s with pair := { s.pair with driven := false, takenOver := true } }
  s.logEvent 0x22 0x00F none 0 0 s.partner l.length

/-- After the commits of a boundary, what a mirror-role stream held for the ending bar goes: its causes, and a shadow chunk that
was run (R362, R363). -/
def State.shadowBoundary (s : State) (bar : Nat) (t : W64) : State :=
  s.streams.foldl (fun s e =>
    let x := s.stream e.1
    if !x.role || x.st == 0 then s
    else if s.streamBE x && !(match x.admitted with | some a => s.allEnded x.ctx a.bar t | none => false) then s
    else if (match x.admitted with | some a => decide (a.bar ≤ bar) | none => false) then
      s.setStream e.1 { x with admitted := none, causes := [] }
    else s.setStream e.1 { x with causes := [] }) s

/-! ### Safety mechanisms and safe state (R372, R373) -/

/-- The clock of bit k of CK_STATUS is lost: its bit reads 0 (R450). -/
def State.clockLost (s : State) (k : Nat) : State :=
  if k = 8 then { s with audio := { s.audio with mclkOk := false } }
  else { s with power := { s.power with clkLost := if s.power.clkLost.contains k then s.power.clkLost else s.power.clkLost ++ [k] } }

/-- MECHANISM_RAISE (R372). A lost clock counts in CK_LOSS_COUNT (R449); `clk` names its bit of CK_STATUS, if it has one
(R450). -/
def execMechanismRaise (m : Fin 16) (ctx : Option CtxId) (clk : Option (Fin 9)) (s : State) : Host.Outcome State Fault Refusal :=
  let s := if m.val = 1 then s.count Page.clocks Reg.CK_LOSS_COUNT else s
  let s := match clk with | some k => if m.val = 1 then s.clockLost k.val else s | none => s
  .next (s.raiseMech m.val (ctx.map (·.val)))

/-- Entry into safe state (R373): outputs high-impedance, TOLL_OUT stopped, the toll of R366, FAULT_N low, every context
quenched. -/
def State.enterSafe (s : State) : State :=
  if s.safety.safe then s else
  let s := { s with safety := { s.safety with safe := true, safeDue := false, faultN := false, tollOut := false } }
  let s := (List.range 20).foldl (fun s p => s.modPort p fun x => { x with driving := false }) s
  let s := s.tollPacket s.pair.txK
  let s := { s with pair := { s.pair with txK := s.pair.txK + 1 } }
  (List.range 64).foldl (fun s n => s.quenchNow n 4) s

/-- SAFE_STATE_ENTRY (R373): a SAFE-class mechanism was raised. -/
def execSafeStateEntry (s : State) : Host.Outcome State Fault Refusal :=
  if s.safety.safeDue then .next s.enterSafe else .next s

/-- A write of SF_CTRL (R373, R379): ARM = 1 starts tolling and releases FAULT_N; an LFT_PERIOD outside 10–1,000 keeps the
previous one. -/
def State.sfCtrlWrite (s : State) (src : Nat) (v : W32) : State :=
  let off := Reg.SF_CTRL
  if s.locked Page.safety then s.pgErrAt Page.safety off src [31] else
  let lft := bitsOf v.toNat 16 10
  let s := s.setFlag Page.safety off 0 (bitOf v.toNat 0)
  let s := if 10 ≤ lft ∧ lft ≤ 1000 then s.setFld Page.safety off 16 10 lft else s
  if bitOf v.toNat 0 && !s.safety.armed && !s.safety.safe then
    { s with safety := { s.safety with armed := true, faultN := true } }
  else s

/-- SF_ARM (R373): SF_CTRL written with ARM = 1 and the period as it is. -/
def execSfArm (src : NodeId) (s : State) : Host.Outcome State Fault Refusal :=
  .next (s.sfCtrlWrite src.val (s.reg Page.safety Reg.SF_CTRL ||| 1))

/-! ### The periodic checks (R374–R376) -/

/-- E2E_CHECK (R374): the slot last taken by the ring's port is compared with its commit. -/
def execE2eCheck (k : Fin 16) (s : State) : Host.Outcome State Fault Refusal :=
  let v := (s.reg Page.safety (Reg.SF_E2E + 8 * k.val)).toNat
  let r := bitsOf v 1 5
  let ch := bitsOf v 6 4
  if !bitOf v 0 || !ringIsOut r then .next s else
  let x := s.port (ringPort r)
  let slot := (s.ringShape r).slot
  if slot = 0 ∨ x.taken < slot then .next s else
  let key := 16 * (x.taken / slot - 1) + ch
  let g := s.ring r
  let bad :=
    if x.unmarked then g.expect.contains key
    else match SMap.get g.commitCrc key none, SMap.get x.playCrc ch none with
      | some a, some b => a != b
      | _, _ => false
  if bad then .next ((s.count Page.safety (Reg.SF_E2E_COUNT + 8 * k.val)).raiseMech 6 none) else .next s

/-- The page and register of comparison pair k (R375). -/
def comparePair (k : Nat) : Nat × Nat :=
  if k = 0 then (Page.mirror, Reg.MR_CTRL)
  else if k = 1 then (Page.mirror, Reg.MR_TAKEOVER_PORTS)
  else if k = 2 then (Page.safety, Reg.SF_CTRL)
  else if k = 3 then (Page.safety, Reg.SF_CLASS)
  else (Page.safety, Reg.SF_E2E + 8 * (k - 4))

/-- CONFIG_COMPARE (R375): `goodReg` and `goodComp` are what the parity of the two copies shows. -/
def execConfigCompare (k : Fin 20) (goodReg goodComp : Bool) (s : State) : Host.Outcome State Fault Refusal :=
  let (pg, off) := comparePair k.val
  if !s.locked pg then .next s else
  let a := s.reg pg off
  let b := s.reg pg (off + 0x800)
  match goodReg, goodComp with
  | true, false => .next ((s.setReg pg (off + 0x800) (~~~a)).count Page.safety Reg.SF_CFG_CORR_COUNT)
  | false, true => .next ((s.setReg pg off (~~~b)).count Page.safety Reg.SF_CFG_CORR_COUNT)
  | g, _ =>
    if g && a == ~~~b then .next s else
    let s := (s.setReg pg off (regReset pg off)).setReg pg (off + 0x800) (regReset pg (off + 0x800))
    .next ((s.count Page.safety Reg.SF_CFG_FAULT_COUNT).raiseMech 11 none)

/-- LFT_CYCLE (R376): one cycle of the latent-fault tests, with the index of the first that failed. -/
def execLftCycle (failed : Option (Fin 256)) (s : State) : Host.Outcome State Fault Refusal :=
  let s := s.reach (s.safety.lftAt + BitVec.ofNat 64 (s.fld Page.safety Reg.SF_CTRL 16 10 * msTb))
  let s := { s with safety := { s.safety with
    lftAt := s.now, lftPass := failed.isNone, lftFailed := (match failed with | some i => BitVec.ofNat 8 i.val | none => 0),
    lftCycles := min (s.safety.lftCycles + 1) 0xFFFF } }
  match failed with
  | some _ => .next (s.raiseMech 12 none)
  | none => .next s

end Sys2Proof.Machine
end

