-- ==== Sys2Proof/Machine/Hang.lean ====
section
/-!
DEFINITION. The hang detector (R380–R382), engine and partition resets (R383–R386), checkpoints and replay (R388–R391), and the
seeding of a context's generators (R41).
-/
namespace Sys2Proof.Machine

/-! ### Seeding (R41) -/

/-- The generator of core c seeded for context n (R41). The start counter enters the hash with its value before the increment that
the seeding brings (DESIGN CHOICE, notes/assumptions/118.md). -/
def State.seedCore (s : State) (n c : Nat) : State :=
  let x := s.ctx n
  let k := s.core c
  let pg := Page.stat c
  let hash (l : List Byte) : BitVec 256 := BitVec.ofNat 256 (leNat (sha256 l))
  let status (v : Nat) (s : State) : State := s.setReg pg Reg.RNG_STATUS (BitVec.ofNat 32 v)
  if x.seed ≠ 0 then
    status 3 (s.setCore c { k with
      rng := hash (leBytes 32 x.seed.toNat ++ [BitVec.ofNat 8 c, BitVec.ofNat 8 n]), startCount := k.startCount + 1 })
  else if s.sec.trngFail then
    status 5 (s.setCore c { k with
      rng := hash (leBytes 32 s.sec.trngLast.toNat ++ [BitVec.ofNat 8 c] ++ leBytes 8 k.startCount.toNat),
      startCount := k.startCount + 1 })
  else
    let (v, s) := s.trng
    status 1 (s.setCore c { k with rng := v, startCount := k.startCount + 1 })

/-- The generators of every core of context n's partition seeded (R41). -/
def State.seedCtx (s : State) (n : Nat) : State :=
  (coresOf (s.reg Page.pattern (Reg.PART_CORES + 16 * (s.ctx n).part)).toNat).foldl (fun s c => s.seedCore n c) s

/-- Context n enters RUNNING and takes its place on its cores; a core with nothing better to do starts it (R58, R205, R207). -/
def State.runCtx (s : State) (n : Nat) : State :=
  let s := (s.modCtx n fun x => { x with st := .running, ends := [], cutoff := none, listReady := none }).seedCtx n
  (s.ctxCores n).foldl (fun s c =>
    (s.modCore c fun k => { k with ready := if k.ready.contains n then k.ready else k.ready ++ [n] }).resched c) s

/-! ### Hang actions (R382) -/

/-- A suspect awaits its replay (R385, R389). -/
def State.addSuspect (s : State) (n : Nat) : State :=
  if s.hang.suspects.contains n then s
  else { s with hang := { s.hang with suspects := s.hang.suspects ++ [n], replayFrom := s.now } }

/-- A context that a hang or a reset quenches becomes a suspect; one that is QUENCHED already, or FREE, stays as it is (R382). -/
def State.quenchSuspect (s : State) (n cause : Nat) : State :=
  match (s.ctx n).st with
  | .running | .stopped | .quenching => (s.addSuspect n).quenchNow n cause
  | _ => s

/-- A bit mask of contexts. -/
def ctxMask (l : List Nat) : Nat := (l.eraseDups.map fun n => 2 ^ n).sum

/-- The event record, the count and the interrupt of a hang (R382). -/
def State.hangEvent (s : State) (code : Nat) (ctx : Option Nat) (arg0 : Nat) (start : W64) : State :=
  ((s.logEvent code 0x009 ctx (match ctx with | some n => (s.gen n).toNat | none => 0) 0x0C arg0 start.toNat).count
    Page.hang Reg.HG_HANG_COUNT).irq Page.hang 1

/-- A threshold of the HANG page, µs; 0 acts as 1 (R399). -/
def State.hangUs (s : State) (off : Nat) : Nat := usTb (max (s.fld Page.hang off 0 16) 1)

/-- Whether a wait has reached its threshold (R380). -/
def State.waitHung (s : State) (w : WaitRec) : Bool :=
  match w.kind with
  | 1 => decide (s.hangUs Reg.HG_NOPROG_US ≤ s.age (if w.start.toNat < w.prog.toNat then w.prog else w.start))
  | 2 => decide (s.hangUs Reg.HG_SEM_US ≤ s.age w.start)
  | 3 => decide (s.hangUs Reg.HG_ENGINE_US ≤ s.age w.start)
  | 4 => decide (s.hangUs Reg.HG_HOLD_US ≤ s.age w.start)
  | _ => decide (usTb 10000 ≤ s.age w.prog)

/-- Whether the context of a wait is being or has been quenched (R382). -/
def State.waitDead (s : State) (w : WaitRec) : Bool :=
  match w.ctx with
  | some n => s.ctxQuenched n.val
  | none => false

/-- The core and engine of a record as one word: [7:0] core, [15:8] engine by R397 (DESIGN CHOICE, notes/assumptions/41.md). -/
def coreEngine (core engine : Nat) : Nat := core + 256 * engine

/-- A reset level becomes due (R383, R384): a chip warm reset takes the place of every other level; a level above the running one
runs before it, any other level waits for it. -/
def State.levelDue (s : State) (level a b : Nat) : State :=
  let h : Hang := { s.hang with dueSince := (s.hang.dueSince.filter fun e => e.1 != (level, a, b)) ++ [((level, a, b), s.now)] }
  if h.level = 3 || (level, a, b) = (h.level, h.due) || h.more.contains (level, a, b) then s
  else if h.level = 0 || level = 3 then
    { s with hang := { h with level := level, due := (a, b), more := if level = 3 then [] else h.more } }
  else if h.level < level then { s with hang := { h with level := level, due := (a, b), more := (h.level, h.due) :: h.more } }
  else { s with hang := { h with more := h.more ++ [(level, a, b)] } }

/-- One wait record examined (R382). -/
def State.examine (s : State) (w : WaitRec) : State :=
  if !s.hang.waits.contains w || !s.waitHung w || s.waitDead w then s else
  let n := w.ctx.map (·.val)
  let gone (s : State) : State := { s with hang := { s.hang with waits := s.hang.waits.erase w } }
  let quench (s : State) : State := match n with | some n => s.quenchSuspect n 3 | none => s
  match w.kind with
  | 1 => gone (quench (s.hangEvent 0x01 n (coreEngine w.core w.engine) w.start))
  | 2 => gone (quench (s.hangEvent 0x02 n w.obj.toNat w.start))
  | 3 => gone ((s.hangEvent 0x04 n (coreEngine w.core w.engine) w.start).levelDue 1 w.core w.engine)
  | 4 => gone ((s.hangEvent 0x05 n (coreEngine w.core w.engine) w.start).levelDue 1 w.core w.engine)
  | _ =>
    let s := gone (s.hangEvent 0x06 n w.core w.prog)
    if s.flag Page.hang Reg.HG_CTRL 1 then s.levelDue 3 3 0 else s.irq Page.hang 2

/-! ### The wait-for graph (R381) -/

/-- The local contexts that hold a count of a semaphore on which context n waits. -/
def State.waitsFor (s : State) (n : Nat) : List Nat :=
  (s.hang.waits.map fun w =>
    if w.kind = 2 ∧ w.ctx = some (Fin.ofNat 64 n) ∧ nodeOf w.obj = s.node then
      match regionOf (localOf w.obj) with
      | .sem k _ => (s.fab.holders.filter fun h => h.sem == k && h.node == s.node).map (·.ctx)
      | _ => []
    else []).flatten.eraseDups

/-- The contexts that a set reaches, in at most `fuel` steps. -/
def State.reachable (s : State) (l : List Nat) : Nat → List Nat
  | 0 => l
  | fuel + 1 => s.reachable ((l ++ (l.map s.waitsFor).flatten).eraseDups) fuel

/-- The contexts that n reaches by at least one edge. -/
def State.reaches (s : State) (n : Nat) : List Nat := s.reachable (s.waitsFor n) 64

/-- The members of the cycle with the lowest-numbered context, if there is one (R381). -/
def State.findCycle (s : State) : Option (List Nat) :=
  match (List.range 64).find? fun n => (s.reaches n).contains n with
  | none => none
  | some n => some ((List.range 64).filter fun m => (s.reaches n).contains m && (s.reaches m).contains n)

/-- The cycle search of one examination: a cycle seen 10 µs ago and still present is declared, and every member quenched
(R381, R382). -/
def State.examineCycle (s : State) : State :=
  let keep (c : Option (List Nat × W64)) : State := { s with hang := { s.hang with cycleSince := c } }
  match s.findCycle with
  | none => keep none
  | some l =>
    match s.hang.cycleSince with
    | some (l', t) =>
      if l = l' then
        if usTb 10 ≤ s.age t then
          let s := (keep none).hangEvent 0x03 none (ctxMask l) t
          l.foldl (fun s n => s.quenchSuspect n 3) s
        else s
      else keep (some (l, s.now))
    | none => keep (some (l, s.now))

/-- HANG_EXAMINE (R382). -/
def execHangExamine (s : State) : Host.Outcome State Fault Refusal :=
  let s := s.reach (s.hang.examAt + BitVec.ofNat 64 (usTb 10))
  let s := { s with hang := { s.hang with examAt := s.now } }
  if s.flag Page.hang Reg.HG_CTRL 0 then .next (s.examineCycle.hang.waits.foldl (fun s w => s.examine w) s.examineCycle) else .next s

/-! ### Engine and partition resets (R383–R386) -/

/-- The RC counts of a page cleared. -/
def State.clearCounts (s : State) (page : Nat) : State :=
  match pageKind page with
  | none => s
  | some k => (regsOf k).foldl (fun s r =>
      if hasAcc r.fields .rc then (List.range r.count).foldl (fun s i => s.setReg page (r.off + r.stride * i) (regReset page (r.off + r.stride * i))) s
      else s) s

/-- The statistics of core c cleared by an engine or partition reset (R54). -/
def State.statReset (s : State) (c : Nat) : State :=
  let s := ((s.layerClear c).tileClear c).setReg (Page.stat c) Reg.LAYER_ID 0
  (s.clearCounts (Page.stat c)).modCore c fun k => { k with beatLatch := [] }

/-- System transfers that the state port of core c runs are abandoned (R150). -/
def State.portAbandon (s : State) (c : Nat) : State :=
  let s := s.pair.pieces.foldl (fun s p => if p.core = c then s.discardImage p.core p.region p.slot p.bar else s) s
  let s := { s with pair := { s.pair with unread := s.pair.unread.filter (fun p => p.1 != c), kept := s.pair.kept.filter fun e => e.1.1 != c } }
  s.streams.foldl (fun s e =>
    let x := s.stream e.1
    let here := x.slots.any fun v => v.1 / 16 == c
    if x.due && here && x.st = 3 then (s.setStream e.1 { x with st := 1, due := false }).finishWait e.1 0x43 0x0B
    else if x.due && x.st = 4 && (s.sectionRegions x.section_).any (fun p => p.1 == c) then
      (s.setStream e.1 { x with st := 2, due := false }).finishWait e.1 0x44 0x0B
    else s) s

/-- The engine codes of R399: 1 matrix, 2 vector, 3 scan, 4 state port, 5 mover, 6 compression. -/
def resetCodeOf : ResetEngine → Nat
  | .matrix => 1
  | .vector => 2
  | .scan => 3
  | .statePort => 4
  | .mover => 5
  | .compression => 6

/-- The queue index of a reset engine, for the contexts that issued to it (R385). -/
def resetQueue : ResetEngine → Nat
  | .matrix => 0
  | .vector => 1
  | .scan | .statePort => 2
  | .mover => 3
  | .compression => 4

/-- The suspects of a fault of an engine (R385), with the context whose reheat point waits on the core (R54). -/
def State.suspectsOf (s : State) (c : Nat) (e : ResetEngine) : List Nat :=
  match e with
  | .compression => (s.ce.jobs.map fun j => j.ctx).eraseDups
  | _ =>
    let k := s.core c
    let waits := match k.ctx, k.blocked with | some n, some (.reheat _ _) => [n.val] | _, _ => []
    ((k.issuedBar.filter fun v => v.1 == resetQueue e).map (·.2) ++ waits).eraseDups

/-- One engine of core c brought to its reset state (R72, R91, R120, R150, R383). -/
def State.engineClear (s : State) (c : Nat) (e : ResetEngine) : State :=
  match e with
  | .matrix => (s.modCore c fun k => { k with matrixQ := [], banks := [] }).clearCounts (Page.matrix c)
  | .vector =>
    ((s.modCore c fun k => { k with vectorQ := [], masks := [], sums := [] }).clearCounts (Page.vector c)).setReg
      (Page.vector c) Reg.VX_FLAGS 0
  | .scan | .statePort =>
    let s := ((s.cutScan c fun _ => true).modCore c fun k => { k with scanQ := [], held := [] }).portAbandon c
    let s := (s.clearCounts (Page.scan c)).clearCounts (Page.port c)
    s.setReg (Page.scan c) Reg.SC_FLAGS 0
  | .mover =>
    let s := s.dropWaiting fun t => t.core.map (·.val) == some c
    let s := s.fab.tags.foldl (fun s t =>
      match t.2 with
      | some t' => if t'.core.map (·.val) = some c then s.abandonTag t.1 else s
      | none => s) s
    (s.modCore c fun k => { k with moverQ := [] }).setReg (Page.mover c) Reg.MV_BYTES 0
  | .compression => { s with ce := { s.ce.dropBlocks (fun _ => true) with jobs := [] } }

/-- The partition of a core. -/
def State.partOf (s : State) (c : Nat) : Option Nat :=
  (List.range 8).find? fun p => bitOf (s.reg Page.pattern (Reg.PART_CORES + 16 * p)).toNat c

/-- The due levels that f names end, and the first that waits takes the place of the running one (R383). -/
def State.levelDone (s : State) (f : Nat × Nat × Nat → Bool) : State :=
  let more := s.hang.more.filter fun x => !f x
  let s := { s with hang := { s.hang with dueSince := s.hang.dueSince.filter fun e => !f e.1, replayFrom := s.now } }
  if f (s.hang.level, s.hang.due) then
    match more with
    | [] => { s with hang := { s.hang with level := 0, due := (0, 0), more := [] } }
    | x :: more => { s with hang := { s.hang with level := x.1, due := x.2, more := more } }
  else { s with hang := { s.hang with more := more } }

/-- Whether a reset of engine e of core c is the due level x: the scan unit and the state port reset together (R150), and the
compression engine belongs to no core. -/
def engineDue (c : Nat) (e : ResetEngine) (x : Nat × Nat × Nat) : Bool :=
  let code := resetCodeOf e
  let scan (k : Nat) : Bool := decide (3 ≤ k ∧ k ≤ 4)
  x.1 == 1 && (x.2.2 == code || (scan x.2.2 && scan code)) && (x.2.1 == c || e == .compression)

/-- A partition reset (R383, R385): every context of the partition quenched as a suspect, then every engine, tile file, bank,
token count and mover tag of its cores removed. -/
def State.partitionReset (s : State) (p : Nat) : State :=
  let cores := coresOf (s.reg Page.pattern (Reg.PART_CORES + 16 * p)).toNat
  let ctxs := (List.range 64).filter fun n =>
    (s.ctx n).part == p && ((s.ctx n).st == .running || (s.ctx n).st == .stopped || (s.ctx n).st == .quenching)
  let s := ctxs.foldl (fun s n => s.quenchSuspect n 6) s
  let s := cores.foldl (fun s c =>
    let s := [ResetEngine.matrix, .vector, .scan, .mover].foldl (fun s e => s.engineClear c e) s
    let s := s.statReset c
    let s := (s.setReg (Page.ctrl c) Reg.CTRL_ISSUE_COUNT 0).setReg (Page.ctrl c) Reg.CTRL_IMEM_ECC 0
    let s := { s with free := s.free + 1 }.modCore c fun k => { k with
      tokens := [], tiles := [], tilesFree := some s.free, blocked := none, preempt := false, cur := none, stageLatch := [] }
    s.endWaits fun w => w.core == c && (w.kind == 1 || w.kind == 3 || w.kind == 4)) s
  let s := s.count Page.hang Reg.HG_PART_RESET_COUNT
  (s.logEvent 0x12 0x009 none 0 0 p (ctxMask ctxs)).levelDone fun x =>
    (x.1 == 2 && x.2.1 == p) || (x.1 == 1 && cores.contains x.2.1 && x.2.2 != resetCodeOf .compression)

/-- PARTITION_RESET (R383). -/
def execPartitionReset (p : Fin 8) (s : State) : Host.Outcome State Fault Refusal := .next (s.partitionReset p.val)

/-- The partition an engine of core c belongs to; the compression engine belongs to none. -/
def State.enginePart (s : State) (c : Nat) (e : ResetEngine) : Option Nat := if e = .compression then none else s.partOf c

/-- An engine reset (R383, R385); the second within 100 ms in one partition becomes a partition reset (R384). -/
def State.engineReset (s : State) (c : Nat) (e : ResetEngine) : State :=
  let again := match s.enginePart c e with
    | some p => (match SMap.get s.hang.lastEngineReset p none with
      | some t => if s.age t ≤ usTb 100000 then some p else none
      | none => none)
    | none => none
  match again with
  | some p => (s.levelDone (engineDue c e)).partitionReset p
  | none =>
    let sus := s.suspectsOf c e
    let s := sus.foldl (fun s n => s.quenchSuspect n 6) s
    let s := s.engineClear c e
    let s := if e = .compression then s else s.statReset c
    let code := resetCodeOf e
    let s := s.endWaits fun w => (w.core == c || e == .compression) && (w.kind == 3 || w.kind == 4) &&
      (w.engine == code || (decide (3 ≤ w.engine ∧ w.engine ≤ 4) && decide (3 ≤ code ∧ code ≤ 4)))
    let s := match s.enginePart c e with
      | some p => { s with hang := { s.hang with lastEngineReset := SMap.set s.hang.lastEngineReset p (some s.now) none } }
      | none => s
    let s := s.count Page.hang Reg.HG_ENGINE_RESET_COUNT
    (s.logEvent 0x11 0x009 none 0 0 (coreEngine c code) (ctxMask sus)).levelDone (engineDue c e)

/-- ENGINE_RESET (R383). -/
def execEngineReset (c : CoreId) (e : ResetEngine) (s : State) : Host.Outcome State Fault Refusal := .next (s.engineReset c.val e)

/-- A write of HG_RESET_REQ (R386): a request for a level that already runs or waits is ignored. -/
def State.resetReq (s : State) (src : Nat) (v : W32) : State :=
  let n := v.toNat
  let level := bitsOf n 0 2
  if bitsOf n 24 8 ≠ 0xA5 then s.writeRefused Page.hang Reg.HG_RESET_REQ src
  else if level = s.hang.level || s.hang.more.any (·.1 == level) then s
  else
    match level with
    | 1 => s.levelDue 1 (bitsOf n 2 5) (bitsOf n 7 3)
    | 2 => s.levelDue 2 (bitsOf n 10 3) 0
    | 3 => s.levelDue 3 1 0
    | _ => s

/-- HG_RESET_REQ_ENGINE: a write of HG_RESET_REQ with LEVEL 1 (R386). -/
def execHgResetReqEngine (src : NodeId) (v : W32) (s : State) : Host.Outcome State Fault Refusal :=
  .next (s.resetReq src.val (BitVec.ofNat 32 (putBits v.toNat 0 2 1)))

/-- HG_RESET_REQ_PARTITION: a write of HG_RESET_REQ with LEVEL 2 (R386). -/
def execHgResetReqPartition (src : NodeId) (v : W32) (s : State) : Host.Outcome State Fault Refusal :=
  .next (s.resetReq src.val (BitVec.ofNat 32 (putBits v.toNat 0 2 2)))

/-- HG_RESET_REQ_CHIP: a write of HG_RESET_REQ with LEVEL 3 (R386). -/
def execHgResetReqChip (src : NodeId) (v : W32) (s : State) : Host.Outcome State Fault Refusal :=
  .next (s.resetReq src.val (BitVec.ofNat 32 (putBits v.toNat 0 2 3)))

/-- The time bound of a level, µs (R383). -/
def levelBound (level : Nat) : Nat := if level = 1 then 200 else if level = 2 then 2000 else 1500000

/-- The end of the running level's time, from its detection or request (R383). -/
def State.levelEnd (s : State) : W64 :=
  match s.hang.dueSince.find? fun e => e.1 == (s.hang.level, s.hang.due) with
  | some e => e.2 + BitVec.ofNat 64 (usTb (levelBound s.hang.level))
  | none => s.now

/-- The running level becomes another (R384). -/
def State.levelBecomes (s : State) (level a b : Nat) : State :=
  { s with hang := { s.hang with
    level := level, due := (a, b),
    dueSince := (s.hang.dueSince.filter fun e => e.1 != (s.hang.level, s.hang.due)) ++ [((level, a, b), s.now)] } }

/-- What follows a level that has no higher one below the chip: a chip warm reset with AUTO_CHIP = 1, otherwise safe state (R384). -/
def State.chipOrSafe (s : State) : State :=
  if s.flag Page.hang Reg.HG_CTRL 1 then s.levelBecomes 3 2 0 else (s.levelBecomes 0 0 0).enterSafe

/-- RESET_ESCALATION (R384): the running level has not completed in time. The compression engine belongs to no partition, so its
reset is followed like a partition reset (notes/assumptions/137.md). -/
def execResetEscalation (s : State) : Host.Outcome State Fault Refusal :=
  let s := s.reach s.levelEnd
  match s.hang.level with
  | 1 =>
    match if s.hang.due.2 = resetCodeOf .compression then none else s.partOf s.hang.due.1 with
    | some p => .next (s.levelBecomes 2 p 0)
    | none => .next s.chipOrSafe
  | 2 => .next s.chipOrSafe
  | 3 =>
    let s := s.enterSafe
    let s := { s with hang := { s.hang with powerCycleReq := true } }
    .next (s.logEvent 0x14 0x009 none 0 0 0 0)
  | _ => .next s

/-! ### Checkpoints (R388) -/

/-- Whether a bit of a LO and HI register pair is set. -/
def State.pairBit (s : State) (page lo hi n : Nat) : Bool := if n < 32 then s.flag page lo n else s.flag page hi (n - 32)

/-- The checkpointed regions in order with their offsets in a copy (R388). -/
def State.ckptRegions (s : State) : List (Nat × Nat × Nat) :=
  ((List.range 512).foldl (fun (acc : List (Nat × Nat × Nat) × Nat) k =>
    let g := s.region (k / 16) (k % 16)
    if g.valid && decide (g.kind < 2) then (acc.1 ++ [(k / 16, k % 16, acc.2)], acc.2 + g.nslots * g.lines * 32) else acc) ([], 0)).1

/-- The checkpointed slots of context n: core, region, slot, offset in a copy, bytes. -/
def State.ckptSlots (s : State) (n : Nat) : List (Nat × Nat × Nat × Nat × Nat) :=
  let rs := s.ckptRegions
  ((s.streamsOf n).map fun i => (s.stream i).slots.filterMap fun v =>
    match rs.find? fun r => 16 * r.1 + r.2.1 == v.1 with
    | some (c, r, o) => let b := 32 * (s.region c r).lines; some (c, r, v.2, o + b * v.2, b)
    | none => none).flatten

/-- Bytes of one copy. -/
def State.ckptHalf (s : State) : Nat := s.fld Page.hang Reg.HG_CKPT_BYTES 0 29 / 2

/-- First local address of copy p. -/
def State.ckptBase (s : State) (p : Nat) : Nat :=
  (s.reg64 Page.hang Reg.HG_CKPT_BASE_LO Reg.HG_CKPT_BASE_HI).toNat % 2 ^ 59 + p * s.ckptHalf

/-- The checkpoint of context n for the ending bar (R388). -/
def State.checkpointCtx (s : State) (bar n : Nat) : State :=
  let slots := s.ckptSlots n
  if slots.any fun v => decide (s.ckptHalf < v.2.2.2.1 + v.2.2.2.2) then s.count Page.hang Reg.HG_CKPT_OVF else
  let (ok, s) := slots.foldl (fun (acc : Bool × State) v =>
    let (ok, s) := acc
    let (c, r, x, o, b) := v
    let (st, s) := s.writeSpan .sys (s.ckptBase (bar % 2) + o) (s.slotImage c r x)
    (ok && st == 0, s.xfer c b)) (true, s)
  if ok then { s with hang := { s.hang with ckpt := SMap.set s.hang.ckpt n (some bar) none } } else s

/-- The checkpoints of a boundary, beside the export (R388). -/
def State.checkpoint (s : State) (bar : Nat) : State :=
  (List.range 64).foldl (fun s n =>
    if (s.ctx n).st = .running && s.pairBit Page.hang Reg.HG_REPLAY_CTX_LO Reg.HG_REPLAY_CTX_HI n then s.checkpointCtx bar n else s) s

/-! ### Replay (R389–R391) -/

/-- Whether a replay may start now: at the boundary that began the bar, before its first beat, if that boundary is not earlier than the
last suspect, the end of its reset level and the end of the previous replay (R389). -/
def State.replayTurn (s : State) : Bool :=
  s.flag Page.hang Reg.HG_CTRL 2 && s.hang.replaying.isNone && s.hang.level == 0 && s.pattern.running && s.pattern.acted == 0 &&
  decide (s.hang.replayFrom.toNat ≤ (s.barStart s.pattern.bar).toNat)

/-- REPLAY_START (R389): at a boundary the lowest-numbered suspect starts its replay, once no level and no replay runs. -/
def execReplayStart (s : State) : Host.Outcome State Fault Refusal :=
  if !s.replayTurn then .next s else
  match (List.range 64).find? fun n => s.hang.suspects.contains n && (s.ctx n).st == .quenched with
  | none => .next s
  | some n =>
    let s := { s with hang := { s.hang with replaying := some (Fin.ofNat 64 n, false) } }
    .next (s.logEvent 0x18 0x009 (some n) (s.gen n).toNat 0 s.pattern.bar (s.ckptBar n))

/-- The retained chunk of a stream returned to its input's head; one whose ring frames were overwritten is dropped as a QUENCHED
concealment (R389 step 3, R391). -/
def State.returnRetained (s : State) (i : Nat) : State :=
  let x := s.stream i
  let gone (c : Chunk) : Bool := !kindQueue x.inW &&
    decide (c.bufAddr.toNat + (s.ringShape (ringNo x.inW)).frames < (s.port (ringPort (ringNo x.inW))).frames)
  let lost := (x.retained.filter gone).length
  let s := s.setStream i { x with
    returned := x.retained.filter (fun c => !gone c), retained := [], gap := x.gap || decide (0 < lost) }
  s.count Page.streams Reg.SM_CONCEAL_COUNT lost

/-- The slots of a replayed context restored from its last complete copy, or zeroed with a reset mark due (R389 step 1). -/
def State.restoreCtx (s : State) (n : Nat) : State :=
  let on := s.pairBit Page.hang Reg.HG_REPLAY_CTX_LO Reg.HG_REPLAY_CTX_HI n
  match SMap.get s.hang.ckpt n none, on with
  | some bar, true =>
    (s.ckptSlots n).foldl (fun s v =>
      let (c, r, x, o, b) := v
      let (_, l, s) := s.readSpan .sys (s.ckptBase (bar % 2) + o) b
      (s.putImage c r x l).xfer c b) s
  | _, _ =>
    (s.streamsOf n).foldl (fun s i =>
      let s := (s.stream i).slots.foldl (fun s v => s.putImage (v.1 / 16) (v.1 % 16) v.2 []) s
      s.modStream i fun x => { x with firstChunk := true }) s

/-- CHECKPOINT_RESTORE_DONE (R389 steps 1–3): the slots are restored, the context enters RUNNING, its retained chunks return. -/
def execCheckpointRestoreDone (s : State) : Host.Outcome State Fault Refusal :=
  match s.hang.replaying with
  | some (n, false) =>
    let s := s.restoreCtx n.val
    let s := (s.streamsOf n.val).foldl (fun s i => s.returnRetained i) s
    let s := { s with hang := { s.hang with replaying := some (n, true) } }
    .next (s.runCtx n.val)
  | _ => .next s

/-- Whether a replaying context has committed at this boundary: a best-effort one when a stream's lists have ended. -/
def State.replayCommitted (s : State) (n : Nat) (t : W64) : Bool :=
  !s.isBE n || (s.streamsOf n).any fun i =>
    match (s.stream i).admitted with
    | some a => s.allEnded n a.bar t
    | none => false

/-- A replay passes at the context's first commit (R389 step 4); `committed` is taken before the commits of the boundary. -/
def State.replayPass (s : State) (committed : Bool) : State :=
  match s.hang.replaying with
  | some (n, true) =>
    if committed && (s.ctx n.val).st == .running then
      let s := s.count Page.hang Reg.HG_REPLAY_PASS_COUNT
      let s := { s with hang := { s.hang with
        replaying := none, replayFrom := s.barStart (s.pattern.bar + 1), suspects := s.hang.suspects.filter (· != n.val) } }
      s.logEvent 0x19 0x009 (some n.val) (s.gen n.val).toNat 0 s.pattern.bar (s.ckptBar n.val)
    else s
  | _ => s

/-! ### Preparing a fault that a replay waits for -/

/-- A replay whose restore is not complete at the first cut-off restarts at the next boundary (R391). -/
def State.replayRestart (s : State) : State :=
  match s.hang.replaying with
  | some (n, false) => if (s.ctx n.val).st = .quenched then { s with hang := { s.hang with replaying := none, replayFrom := s.barStart (s.pattern.bar + 1) } }
    else s
  | _ => s

end Sys2Proof.Machine
end

