-- ==== Sys2Proof/Machine/Power.lean ====
section
/-!
DEFINITION. The power and thermal manager: the 80 switched domains and the enable rule of every block (R424–R429), the
operating point and the power limit (R430–R433), the thermal sensors and their levels (R434–R436), and the header's
ENABLE (R428, R443). How the choices the rules leave open are made stands in notes/assumptions/78.md to 81.md.
-/
namespace Sys2Proof.Machine

/-- `s` with the power manager's part changed. -/
def State.modPower (s : State) (f : Power → Power) : State := { s with power := f s.power }

/-- The state of domain d set. -/
def State.setDom (s : State) (d st : Nat) : State := s.modPower fun p => { p with dom := SMap.set p.dom d st 2 }

/-- UP_PENDING of domain d (R428). -/
def State.upPending (s : State) (d : Nat) : Bool := SMap.get s.power.up d false

/-- `s` with UP_PENDING of domain d set or cleared. -/
def State.setUpPending (s : State) (d : Nat) (b : Bool) : State :=
  s.modPower fun p => { p with up := SMap.set p.up d b false }

/-- The domains that are STARTING (R427). -/
def State.startingCount (s : State) : Nat := ((List.range 80).filter fun d => s.domState d == 1).length

/-- The pages of a domain. -/
def pagesOf (d : Nat) : List Nat := (List.range 960).filter fun p => pageDomain p == some d

/-! ### The enable rule of a block (R428, R443) -/

/-- A block whose chapter names no start or stop sequence beyond ENABLE: PATTERN, DRAM channels, COMPRESSION, MIRROR,
DEBUG, APLL and ASRC pages, which are not among those of R443. Its start and its stop take no time. -/
def simpleBlock (k : PageKind) : Bool :=
  match k with
  | .pattern | .dram | .compression | .mirror | .debug | .apll | .asrc => true
  | _ => false

/-- ENABLE of a simple block written: PG_STATE follows at once, and a pending LOCK_REQ locks at ON (R445). -/
def State.simpleEnable (s : State) (page : Nat) (en : Bool) : State :=
  let s := (s.setFlag page Reg.PG_CTRL 0 en).setFld page Reg.PG_STATE 0 3 (if en then 2 else 0)
  if en then s.lockPending page else s

/-- A write of PG_CTRL.ENABLE on any page (R428, R443): where the domain is not ON the write only sets or clears
ENABLE_PENDING; the pages of R443, and the second pages of a block, ignore it. -/
def State.blockEnable (s : State) (src page : Nat) (en : Bool) : State :=
  match pageKind page with
  | none => s
  | some k =>
    if alwaysOn k then s
    else if !s.pageOn page then s.setFlag page Reg.PG_STATE 2 en
    else match k with
      | .serial | .pdmIn | .pdmOut =>
        let p := page - Page.audio 0
        if en then s.portEnable src p else s.portDisable p
      | .dpMain => if en then s.dpEnable src else s.dpDisable
      | .link => if en then s.linkEnable src (pageInstance page) else s.linkDisable (pageInstance page)
      | _ => if simpleBlock k then s.simpleEnable page en else s

/-- BLOCK_ENABLE (R428). -/
def execBlockEnable (src : NodeId) (page : PageId) (en : Bool) (s : State) : Host.Outcome State Fault Refusal :=
  .next (s.blockEnable src.val page.val en)

/-- Whether the block of a page is OFF, so that its domain may lose its supply. -/
def State.blockOff (s : State) (page : Nat) : Bool :=
  match pageKind page with
  | some .serial | some .pdmIn | some .pdmOut => (s.port (page - Page.audio 0)).st == 0
  | some .dpMain => s.dp.st == 0
  | _ => true

/-! ### Domains (R425–R429) -/

/-- Whether channel group q holds a byte of [a, a + len), or the range is empty and does not count. -/
def rangeInGroup (a len q : Nat) : Bool :=
  decide (0 < len) && decide (a < 2 ^ 31 * (q + 1)) && decide (2 ^ 31 * q < a + len)

/-- Why a write of UP = 0 to an ON domain is refused (R429). -/
def State.downRefused (s : State) (d : Nat) : Bool :=
  if d < 32 then
    (List.range 64).any fun n =>
      (s.ctx n).st != .free && bitOf (s.reg Page.pattern (Reg.PART_CORES + 16 * (s.ctx n).part)).toNat d
  else if d < 64 then
    let c := d - 32
    s.domState c != 0 ||
    (match s.qm.image with
     | none => false
     | some im =>
       im.imemCores.contains c || im.scratchSegs.any (fun g => g.1 == c) ||
       (List.range 16).any (fun r => s.flag (Page.port c) (Reg.ST_REGION_SHAPE + 16 * r) 21) ||
       decide (s.fld Page.streams (Reg.WL_STRIDE + 8 * c) 0 18 ≠ 0))
  else if d < 68 then s.fab.hostActive && s.fab.hostPort == d - 64
  else if d < 72 then
    let q := d - 68
    (List.range 8).any (fun p => bitOf (s.fld Page.pattern (Reg.PART_MEM + 16 * p) 0 4) q) ||
    (List.range 16).any (fun n => s.prOn n && rangeInGroup (s.prLo n) (s.prHi n - s.prLo n) q) ||
    rangeInGroup (localOf (s.reg64 Page.hang Reg.HG_CKPT_BASE_LO Reg.HG_CKPT_BASE_HI)) (s.fld Page.hang Reg.HG_CKPT_BYTES 0 29) q ||
    rangeInGroup (localOf (s.reg64 Page.mirror Reg.MR_STAGE_BASE_LO Reg.MR_STAGE_BASE_HI))
      (s.fld Page.mirror Reg.MR_STAGE_BYTES 0 28) q
  else if d = 75 then
    (List.range 20).any fun p => (s.port p).st != 0 && (s.clockedBy p 0 || s.clockedBy p 1)
  else if d = 78 then s.flag Page.mirror Reg.MR_CTRL 0
  else false

/-- Domain numbers in ascending order with d added. -/
def insertDomain (d : Nat) (l : List Nat) : List Nat :=
  match l with
  | [] => [d]
  | x :: r => if d < x then d :: x :: r else if d = x then x :: r else x :: insertDomain d r

/-- An OFF domain starts, or waits while 4 domains are STARTING (R427). -/
def State.startDomain (s : State) (d : Nat) : State :=
  if s.startingCount < 4 then s.setDom d 1
  else s.modPower fun p => { p with waiting := insertDomain d p.waiting }

/-- Waiting domains start while fewer than 4 are STARTING, in ascending order (R427). -/
def State.startWaiting (s : State) : State :=
  match s.power.waiting with
  | [] => s
  | d :: r => if s.startingCount < 4 then (s.modPower fun p => { p with waiting := r }).setDom d 1 else s

/-- A write of UP = 1 (R427, R428). -/
def State.domainUp (s : State) (d : Nat) : State :=
  let s := s.setFlag Page.power (Reg.PW_DOM_CTRL + 4 * d) 0 true
  match s.domState d with
  | 0 => if s.power.waiting.contains d then s else s.startDomain d
  | 3 => s.setUpPending d true
  | _ => s

/-- DOMAIN_UP (R427). -/
def execDomainUp (_src : NodeId) (d : Fin 80) (s : State) : Host.Outcome State Fault Refusal := .next (s.domainUp d.val)

/-- A domain enters STOPPING: ENABLE = 0 is written to each of its block pages that is not OFF (R427). -/
def State.stopDomain (s : State) (d : Nat) : State :=
  let s := (pagesOf d).foldl (fun (s : State) (p : Nat) => s.blockEnable s.node p false) s
  s.setDom d 3

/-- A write of UP = 0 (R427–R429). -/
def State.domainDown (s : State) (src d : Nat) : State :=
  let off := Reg.PW_DOM_CTRL + 4 * d
  match s.domState d with
  | 2 =>
    if s.downRefused d then (s.pgErrAt Page.power off src [28, 0]).setFld Page.power Reg.PW_LAST_REFUSED 0 7 d
    else (s.setFlag Page.power off 0 false).stopDomain d
  | 3 => (s.setFlag Page.power off 0 false).setUpPending d false
  | 0 => (s.setFlag Page.power off 0 false).modPower fun p => { p with waiting := p.waiting.filter fun x => x != d }
  | _ => s.setFlag Page.power off 0 false

/-- DOMAIN_DOWN (R429). -/
def execDomainDown (src : NodeId) (d : Fin 80) (s : State) : Host.Outcome State Fault Refusal :=
  .next (s.domainDown src.val d.val)

/-- Every register of a page at its reset value, but an ENABLE_PENDING that waits for the domain (R426, R428). -/
def State.pageReset (s : State) (page : Nat) : State :=
  let pend := s.flag page Reg.PG_STATE 2
  let s := { s with regs := s.regs.filter fun e => e.1 / 4096 != page }
  s.setFlag page Reg.PG_STATE 2 pend

/-- The lines of channel group q written back and invalidated (R427). -/
def State.groupFlush (s : State) (q : Nat) : State :=
  s.mem.cache.foldl (fun s e =>
    match e.2 with
    | none => s
    | some l => if 256 * l.unit / 2 ^ 31 % 4 = q then s.evict (e.1 / 16) (e.1 % 16) else s) s

/-- What a domain's blocks hold when its supply is gone (R426): a memory domain every word zero; link coefficients, lane
order and polarity stay; what no rule gives after a loss of supply (tiles, the direct path's banks) is free. -/
def State.domainLost (s : State) (d : Nat) : State :=
  let s := (pagesOf d).foldl (fun (s : State) (p : Nat) => s.pageReset p) s
  let f := s.free
  if d < 32 then
    let k := s.core d
    { s with free := f + 1 }.setCore d
      { imem := k.imem, scratch := k.scratch, store := k.store, tilesFree := some f }
  else if d < 64 then s.modCore (d - 32) fun k => { k with imem := [], scratch := [], store := [] }
  else if d < 68 then
    s.modLink (d - 64) fun l => { coeffs := l.coeffs, laneSwap := l.laneSwap, laneInv := l.laneInv }
  else if d = 72 then (List.range 6).foldl (fun (s : State) (p : Nat) => s.setPort p {}) s
  else if d = 73 then (List.range 6).foldl (fun (s : State) (p : Nat) => s.setPort (6 + p) {}) s
  else if d = 74 then (List.range 8).foldl (fun (s : State) (p : Nat) => s.setPort (12 + p) {}) s
  else if d = 75 then { s with audio := { s.audio with aplls := [], asrc := [] } }
  else if d = 76 then { s with dp := { bankFree := some f }, free := f + 1 }
  else if d = 77 then { s with ce := {} }
  else if d = 78 then
    { s with pair := { s.pair with bind := [], binds := [], pieces := [], refused := [], exporting := false, exportDone := true } }
  else s

/-- A domain reaches ON: a block with ENABLE_PENDING starts (R428). -/
def State.domainOn (s : State) (d : Nat) : State :=
  let s := s.setDom d 2
  let s := s.modPower fun p => { p with clkLost := p.clkLost.filter fun k => decide (d < 64) || decide (67 < d) || k + 62 != d }
  (pagesOf d).foldl (fun (s : State) (p : Nat) =>
    if s.flag p Reg.PG_STATE 2 then (s.setFlag p Reg.PG_STATE 2 false).blockEnable s.node p true else s) s

/-- A transition of domain d completes (R427, R428): STARTING to ON, or to STOPPING where UP was written to 0 meanwhile;
STOPPING to OFF once its blocks are OFF, and back to STARTING with UP_PENDING. -/
def State.domainDone (s : State) (d : Nat) : State :=
  match s.domState d with
  | 1 =>
    if s.flag Page.power (Reg.PW_DOM_CTRL + 4 * d) 0 then ((s.domainOn d).startWaiting).irq Page.power 2
    else (s.setDom d 3).startWaiting
  | 3 =>
    if (pagesOf d).all s.blockOff then
      let s := if 68 ≤ d ∧ d < 72 then s.groupFlush (d - 68) else s
      let s := (s.domainLost d).setDom d 0
      let s := if s.upPending d then (s.setUpPending d false).startDomain d else s
      s.irq Page.power 2
    else s
  | _ => s

/-- DOMAIN_TRANSITION_DONE (R427). -/
def execDomainTransitionDone (d : Fin 80) (s : State) : Host.Outcome State Fault Refusal := .next (s.domainDone d.val)

/-! ### Operating point and power limit (R430–R433, R436) -/

/-- PW_CTRL.OP_FLOOR, the slowest point allowed (R432); a point beyond OP5 acts as OP5. -/
def State.opFloor (s : State) : Nat := min (s.fld Page.power Reg.PW_CTRL 0 3) 5
/-- PW_CTRL.OP_CEIL, the fastest point allowed (R432). -/
def State.opCeil (s : State) : Nat := min (s.fld Page.power Reg.PW_CTRL 3 3) 5

/-- The arithmetic clock of an operating point in MHz (R430). -/
def opMhz (p : Nat) : Nat := [2250, 1950, 1650, 1350, 1100, 900].getD p 900

/-- Whether a logic or PHY sensor is in FAULT, which caps the point at OP_FLOOR (R435). -/
def State.sensorCap (s : State) : Bool := (List.range 12).any fun i => s.flag Page.thermal (Reg.TH_TEMP + 4 * i) 9

/-- The arithmetic point becomes p, which PW_OP_CHANGE_COUNT counts (R431, R438). -/
def State.setPoint (s : State) (p : Nat) : State :=
  if p = s.power.op then s.modPower fun w => { w with target := p }
  else (s.modPower fun w => { w with op := p, target := p }).count Page.power Reg.PW_OP_CHANGE_COUNT

/-- The average power over PW_LIMIT in mW, and the limit (R433). -/
def State.powerAvg (s : State) : Nat := s.fld Page.power Reg.PW_EST 0 16
/-- PW_LIMIT.LIMIT in mW (R439: units of 0.125 W). -/
def State.powerLimit (s : State) : Nat := s.fld Page.power Reg.PW_LIMIT 0 9 * 125

/-- The manager's decision at a bar boundary, or while the pattern engine is stopped (R431–R436): the point that a change
makes due, and LIMITING and LIMIT_EXCEEDED. -/
def State.powerStep (s : State) : State :=
  let w := s.power
  if w.crit then s.modPower fun w => { w with target := 5 }
  else
    let floor := s.opFloor
    let ceil := if s.sensorCap then floor else s.opCeil
    let p := min w.op floor
    let limit := s.flag Page.power Reg.PW_CTRL 6
    let exceeds := limit && decide (s.powerAvg > s.powerLimit)
    let up := limit && !exceeds && decide (4 ≤ w.lowWindows)
    let p1 :=
      if exceeds then min (p + 1) floor
      else if w.throttle then p
      else if up then p - 1
      else if limit then p
      else ceil
    let t := min (max p1 ceil) floor
    let ex := exceeds && decide (p = floor)
    let lim := limit && (exceeds || (w.limiting && decide (t ≠ ceil)))
    let s := s.modPower fun w => { w with
      target := t, limiting := lim, limitExceeded := ex, lowWindows := if up then 0 else w.lowWindows }
    let s := if exceeds && !w.limiting then s.irq Page.power 0 else s
    if ex then (s.count Page.power Reg.PW_LIMIT_EXCEED_COUNT).irq Page.power 1 else s

/-- OP_POINT_CHANGE (R431): the change that is due takes effect. While the pattern engine is stopped the decision is taken
here, with no boundary to wait for. -/
def execOpPointChange (s : State) : Host.Outcome State Fault Refusal :=
  let s := if s.patternStopped then s.powerStep else s
  .next (s.setPoint s.power.target)

/-- POWER_ESTIMATE (R433): 100 µs after the last one, one estimate joins the window; at the window's end PW_EST shows its average, and a window at
least 1 W below the limit counts toward a step up. -/
def execPowerEstimate (mw : Nat) (s : State) : Host.Outcome State Fault Refusal :=
  let s := s.reach (s.power.estAt + BitVec.ofNat 64 (usTb 100))
  let s := s.modPower fun p => { p with estAt := s.now }
  let n := 10 * max 1 (s.fld Page.power Reg.PW_LIMIT 16 7)
  let l := s.power.est ++ [mw]
  if l.length < n then .next (s.modPower fun p => { p with est := l })
  else
    let avg := l.sum / l.length
    let s := s.setFld Page.power Reg.PW_EST 0 16 (min avg 0xFFFF)
    .next (s.modPower fun p => { p with
      est := [], lowWindows := if avg + 1000 ≤ s.powerLimit then p.lowWindows + 1 else 0 })

/-! ### Thermal limits (R434, R435) -/

/-- Tj_max in °C by the GRADE fuse (R434). -/
def State.tjMax (s : State) : Int := if s.sec.fuses.grade = 1 then 110 else 125

/-- A level with its hysteresis of 3 °C (R434). -/
def level (was : Bool) (t thr : Int) : Bool := if was then decide (thr - 3 < t) else decide (thr ≤ t)

/-- The reading of sensor i. -/
def State.sensor (s : State) (i : Nat) : Int := (BitVec.ofNat 8 (s.fld Page.thermal (Reg.TH_TEMP + 4 * i) 0 8)).toInt

/-- One sensor's update: reading, VALID and FAULT (R434, R435). -/
def State.sensorSet (s : State) (i : Nat) (r : SensorReading) : State :=
  let o := Reg.TH_TEMP + 4 * i
  match r with
  | .celsius t => s.setReg Page.thermal o (BitVec.ofNat 32 (t.toNat + 256))
  | .fault =>
    if s.flag Page.thermal o 9 then s else (s.setFlag Page.thermal o 9 true).irq Page.thermal 3

/-- The sensors' updates in order from sensor i. -/
def State.sensorsSet (s : State) (i : Nat) : List SensorReading → State
  | [] => s
  | r :: l => if i < 16 then (s.sensorSet i r).sensorsSet (i + 1) l else s

/-- The hottest logic or PHY sensor that reads, and its reading (R434). -/
def State.hottest (s : State) : Option (Nat × Int) :=
  (List.range 12).foldl (fun best i =>
    if s.flag Page.thermal (Reg.TH_TEMP + 4 * i) 8 && !s.flag Page.thermal (Reg.TH_TEMP + 4 * i) 9 then
      match best with
      | none => some (i, s.sensor i)
      | some b => if b.2 < s.sensor i then some (i, s.sensor i) else some b
    else best) none

/-- Stack sensor q sets DC_TEMP of its group's channels, and a FAULT their refresh to 4× (R434, R435). -/
def State.stackUpdate (s : State) (q : Nat) : State :=
  let o := Reg.TH_TEMP + 4 * (12 + q)
  (List.range 4).foldl (fun (s : State) (i : Nat) =>
    let p := Page.dram (4 * q + i)
    if s.flag Page.thermal o 9 then s.setFld p Reg.DC_STATUS 2 2 2
    else if s.flag Page.thermal o 8 then s.setFld p Reg.DC_TEMP 0 8 (s.fld Page.thermal o 0 8)
    else s) s

/-- The levels after the sensors' update (R434): each entry is counted and interrupts; CRIT goes to OP5 at once;
SHUTDOWN raises TEMP. -/
def State.thermalLevels (s : State) : State :=
  let tj := s.tjMax
  let warnAt : Int := (BitVec.ofNat 8 (s.fld Page.thermal Reg.TH_CTRL 0 8)).toInt
  let w := s.power
  let stack := (List.range 4).any fun q =>
    s.flag Page.thermal (Reg.TH_TEMP + 4 * (12 + q)) 8 && !s.flag Page.thermal (Reg.TH_TEMP + 4 * (12 + q)) 9 &&
      decide ((if w.shutdown then (112 : Int) else 115) < s.sensor (12 + q))
  match s.hottest with
  | none =>
    let s' := s.modPower fun w => { w with shutdown := stack }
    if stack && !w.shutdown then s'.raiseMech 3 none else s'
  | some (i, t) =>
    let b := (BitVec.ofInt 8 t).toNat
    let s := (s.setFld Page.thermal Reg.TH_STATUS 0 4 i).setFld Page.thermal Reg.TH_STATUS 8 8 b
    let old : Int := (BitVec.ofNat 8 (s.fld Page.thermal Reg.TH_MAX 0 8)).toInt
    let s := if old < t then s.setFld Page.thermal Reg.TH_MAX 0 8 b else s
    let warn := level w.warn t warnAt
    let thr := level w.throttle t (tj - 5)
    let crit := level w.crit t tj
    let sd := level (w.shutdown && !stack) t (tj + 5) || stack
    let s := s.modPower fun w => { w with warn := warn, throttle := thr, crit := crit, shutdown := sd }
    let s := if warn && !w.warn then s.irq Page.thermal 0 else s
    let s := if thr && !w.throttle then (s.count Page.thermal Reg.TH_THROTTLE_COUNT).irq Page.thermal 1 else s
    let s := if crit && !w.crit then (((s.count Page.thermal Reg.TH_CRIT_COUNT).irq Page.thermal 2).setPoint s.power.target).setPoint 5 else s
    if sd && !w.shutdown then s.raiseMech 3 none else s

/-- SENSOR_UPDATE (R434, R435): 100 µs after the last one. -/
def execSensorUpdate (readings : List SensorReading) (s : State) : Host.Outcome State Fault Refusal :=
  let s := s.reach (s.power.sensorAt + BitVec.ofNat 64 (usTb 100))
  let s := s.modPower fun p => { p with sensorAt := s.now }
  let s := s.sensorsSet 0 readings
  let s := [0, 1, 2, 3].foldl (fun (s : State) (q : Nat) => s.stackUpdate q) s
  .next s.thermalLevels

/-- THROTTLE_STEP (R434): in THROTTLE, 1 ms after the last step, the point goes down by one, never below OP_FLOOR. -/
def execThrottleStep (s : State) : Host.Outcome State Fault Refusal :=
  if s.power.throttle && decide (s.power.op < s.opFloor) then
    let s := s.reach (s.power.stepAt + BitVec.ofNat 64 (usTb 1000))
    .next ((s.modPower fun p => { p with stepAt := s.now }).setPoint (s.power.op + 1))
  else .next s

end Sys2Proof.Machine
end

