-- ==== Sys2Proof/Machine/Boundary.lean ====
section
/-!
DEFINITION. Bar boundaries: the order of R19 at T, the start and the stop of the pattern engine (R194), the reheat decision
(R50, R51), and what else the rules place at a boundary (latches R199, budgets R51, bank switch R201, power step R433).
-/
namespace Sys2Proof.Machine

/-! ### The reheat decision (R50, R51, R83) -/

/-- Whether the decision instant of reheat entry i has come on core c: no beat is asked for, or one has latched (R50). -/
def State.reheatDue (s : State) (c i : Nat) : Bool :=
  !s.flag (Page.stat c) (Reg.REHEAT_THRESH + 8 * i) 30 || (s.core c).beatLatch.contains i

/-- A core blocked at a reheat point goes on with the decision in rd. -/
def State.reheatResume (s : State) (c : Nat) (rd : BitVec 5) (again : Bool) : State :=
  s.modCore c fun k => { k.xSet rd.toNat (if again then 1 else 0) with blocked := none }

/-- The decision of R50 for entry i on core c: whether the layer is reheated, the class budget charged, the counts; the
beat latch is consumed. -/
def State.reheatDecide (s : State) (c i : Nat) (be : Bool) : Bool × State :=
  let p := Page.stat c
  let th := (s.reg p (Reg.REHEAT_THRESH + 8 * i)).toNat
  let cost := s.fld p (Reg.REHEAT_COST + 8 * i) 0 28
  let ro := if be then Reg.REHEAT_REMAIN_BE else Reg.REHEAT_REMAIN_RT
  let remain := s.fld p ro 0 28
  let s := s.modCore c fun k => { k with beatLatch := k.beatLatch.filter fun j => j != i }
  if !bitOf th 31 || decide ((s.reg p Reg.LAYER_SAT_COUNT).toNat ≤ bitsOf th 0 16) then (false, s)
  else if cost ≤ remain then
    (true, ((s.setFld p ro 0 28 (remain - cost)).count p Reg.REHEAT_RUN_COUNT).setFlag p Reg.LAYER_ID 8 true)
  else (false, s.count p Reg.REHEAT_DENIED_COUNT)

/-- A reheat point of core c whose decision instant has come decides (R50). -/
def State.reheat (s : State) (c : Nat) : State :=
  let k := s.core c
  match k.ctx, k.blocked with
  | some n, some (.reheat i rd) =>
    if s.reheatDue c i then
      let (again, s) := s.reheatDecide c i (s.isBE n.val)
      s.reheatResume c rd again
    else s
  | _, _ => s

/-- REHEAT_DECISION (R50). -/
def execReheatDecision (c : CoreId) (s : State) : Host.Outcome State Fault Refusal := .next (s.reheat c.val)

/-- At T a point still waiting for its beat decides keep for the ending bar, and the budgets are reloaded and every beat
latch cleared (R51). -/
def State.reheatBoundary (s : State) (c : Nat) : State :=
  let p := Page.stat c
  let s := s.reheat c
  let s := match (s.core c).blocked with
    | some (.reheat _ rd) => (s.reheatResume c rd false).count p Reg.REHEAT_MISSED_COUNT
    | _ => s
  let s := s.setReg p Reg.REHEAT_REMAIN_RT (s.reg p Reg.REHEAT_BUDGET_RT)
  let s := s.setReg p Reg.REHEAT_REMAIN_BE (s.reg p Reg.REHEAT_BUDGET_BE)
  if (s.core c).beatLatch = [] then s else s.modCore c fun k => { k with beatLatch := [] }

/-! ### Latches, contexts and lists at a boundary -/

/-- The stage-start latches of core c that no BEATWAIT consumed are cleared and counted; what a best-effort context's next
list left there stays (R199). The contexts that issued words in the ending bar are forgotten (R385). -/
def State.latchBoundary (s : State) (c : Nat) : State :=
  let k := s.core c
  let (keep, gone) := k.stageLatch.partition fun e => s.isBE (e.1 / 4)
  let s := if gone = [] then s else s.count Page.pattern Reg.PT_BEAT_MISSED_COUNT gone.length
  if gone = [] ∧ k.issuedBar = [] then s else s.modCore c fun k => { k with stageLatch := keep, issuedBar := [] }

/-- A context stops (R348): it leaves every core, so that its next start begins at its entry word (notes/assumptions/82.md). -/
def State.stopCtx (s : State) (n : Nat) : State :=
  let on := (List.range 32).filter fun c => (s.core c).ctx == some (Fin.ofNat 64 n)
  let s := s.cores.foldl (fun s e => s.purgeCore e.1 n) s
  let s := (s.abandonCtx n).modCtx n fun x => { x with st := .stopped, cutoff := none, listReady := none, ends := [] }
  let s := s.endWaits fun w => w.ctx == some (Fin.ofNat 64 n)
  on.foldl (fun s c => s.resched c) s

/-- What a boundary at T does to context n: a CTX_STOP that arrived before T takes effect and completes (R192, R348), the cut-off of the ending bar
is over (R167), and END reports are kept only for bars whose chunks have not committed (R175). -/
def State.ctxBoundary (s : State) (n : Nat) (t : W64) : State :=
  let x := s.ctx n
  let s := if x.cutoff.isSome && x.listReady.isNone then s.agentDone Page.streams (BitVec.ofNat 64 n) else s
  let bars := (s.streamsOf n).filterMap fun i => (s.stream i).admitted.map (·.bar)
  let s := s.setCtx n { x with cutoff := none, listReady := none, ends := x.ends.filter fun e => bars.contains e.1 }
  let (ripe, rest) := x.stopReq.partition fun r => decide (r.2.2.toNat < t.toNat)
  if ripe.isEmpty || x.st == .quenching then s
  else
    let s := if x.st = .running then s.stopCtx n else s
    ripe.foldl (fun (s : State) (r : QueueId × W32 × W64) => s.complete r.1 r.2.1 0x32 0 0 0)
      (s.modCtx n fun y => { y with stopReq := rest })

/-! ### Steps 1 to 3 of R19 -/

/-- Steps 1 and 2 of R19 at T, the end of bar `bar`: the takeover's adoption comes before the commits (R370), then every
stream commits; then the export, the checkpoints and what rests on the commits. -/
def State.endBar (s : State) (bar : Nat) (t : W64) : State :=
  let s := s.adopt bar t
  let done := match s.hang.replaying with
    | some (n, true) => s.replayCommitted n.val t
    | _ => false
  let s := s.commitAll bar t
  let s := { s with pair := { s.pair with lastCommitBar := bar } }
  let s := s.shadowBoundary bar t
  let s := (s.replayPass done).replayRestart
  let s := s.importEnd
  let s := (s.startExport bar).checkpoint bar
  (s.steer 0).steer 1

/-- What every boundary at T does beside the steps of R19: bind records and stream changes, contexts, latches, reheat
budgets, the power manager's decision, and the swaps that come due (R261). -/
def State.boundaryWork (s : State) (t : W64) : State :=
  let s := s.applyBinds
  let s := (s.streams.map (·.1)).foldl (fun s i => s.streamBoundary i t) s
  let s := (s.ctxs.map (·.1)).foldl (fun s n => s.ctxBoundary n t) s
  let s := (List.range 32).foldl (fun s c => (s.latchBoundary c).reheatBoundary c) s
  let s := s.powerStep
  let s := { s with dp := { s.dp with swapDue := s.dp.swapDue ||| s.dp.armed, armed := 0, swapT := t } }
  { s with pattern := { s.pattern with mirror := none } }

/-- The entries of the active bank before its END whose offset does not lie below the bar length: each drops once in the
bar (R202). -/
def State.outOfBar (s : State) : Nat :=
  let b := s.pattern.bank
  let n := ((List.range 512).takeWhile fun e => bitsOf (s.ptWord b e 0).toNat 28 4 != 0).length
  ((List.range n).filter fun e => decide (s.barLen ≤ bitsOf (s.ptWord b e 0).toNat 0 26)).length

/-- Step 3 of R19 for bar `bar`: a pending switch that was requested before T takes effect and its command completes (R193, R201),
and the bar starts. -/
def State.startBar (s : State) (bar : Nat) : State :=
  let s :=
    if s.pattern.pendingSwitch && decide (s.pattern.switchT.toNat < (s.barStart bar).toNat) then
      let s := { s with pattern := { s.pattern with bank := !s.pattern.bank, pendingSwitch := false } }
      match s.qm.switchCmd with
      | some r => ({ s with qm := { s.qm with switchCmd := none } }).complete r.1 r.2 0x51 0 0 0
      | none => s
    else s
  let s := { s with pattern := { s.pattern with bar := bar, acted := 0 } }
  let n := s.outOfBar
  if n = 0 then s else s.count Page.pattern Reg.PT_BEAT_DROP_COUNT n

/-- T of the boundary that ends the running bar (R194). -/
def State.nextT (s : State) : W64 := s.barStart (s.pattern.bar + 1)

/-- Whether the next boundary is the last: RUN was written 0 before it (R192, R194). -/
def State.lastBar (s : State) : Bool := !s.pattern.run && decide (s.pattern.stopT.toNat < s.nextT.toNat)

/-- BAR_BOUNDARY (R19): the boundary at T that ends the running bar. -/
def execBarBoundary (s : State) : Host.Outcome State Fault Refusal :=
  if s.pattern.running && !s.lastBar then
    let t := s.nextT
    let b := s.pattern.bar
    .next (((((s.reach t).endBar b t).boundaryWork t)).startBar (b + 1))
  else .next s

/-- PATTERN_START (R194): the first boundary ends no bar; nothing commits and nothing is exported. -/
def execPatternStart (s : State) : Host.Outcome State Fault Refusal :=
  if s.pattern.run && !s.pattern.running then
    let b := s.pattern.startBar
    let t := s.barStart b
    let s := s.reach t
    let s := { s with pattern := { s.pattern with running := true } }
    .next ((s.boundaryWork t).startBar b)
  else .next s

/-- PATTERN_STOP (R194): the boundary after RUN was cleared ends the last bar by steps 1 and 2 and starts none. -/
def execPatternStop (s : State) : Host.Outcome State Fault Refusal :=
  if s.pattern.running && s.lastBar then
    let t := s.nextT
    let s := ((s.reach t).endBar s.pattern.bar t).boundaryWork t
    .next { s with pattern := { s.pattern with running := false } }
  else .next s

end Sys2Proof.Machine
end

