-- ==== Sys2Proof/Machine/Matrix.lean ====
section
/-!
DEFINITION. The matrix engine: accumulator banks, groups and meta tiles (R72–R77), accumulation (R26, R27, R44–R47) and
the drain of a bank (R78). The fields of both words are those of R82.
-/
namespace Sys2Proof.Machine

/-- Contraction steps of an MMA (R73). -/
def mmaSteps (wfmt : Bool) : Nat := if wfmt then 64 else 32

/-- Cycles of an MMA in the array (R73). -/
def mmaCycles (wfmt : Bool) (afmt : BitVec 2) : Nat := if afmt = 2 then (if wfmt then 256 else 128) else 32

/-- Group size G (R82). -/
def groupSize (g : BitVec 2) : Nat := 32 * 2 ^ g.toNat

/-- The signed integer weight at step k, column j of tile TB (R22, R24, R64). -/
def weightAt (k : Core) (wfmt : Bool) (tb step j : Nat) : Int :=
  if wfmt then
    let b := (k.tileByte (1024 * tb + 32 * (step / 2) + j)).toNat
    bc4Int (if step % 2 = 0 then b % 16 else b / 16)
  else bc8Int (k.tileByte (1024 * tb + 32 * step + j))

/-- The integer activation at row i, step k of operand TA: ±m for BC8, q for U8Z (R26, R64). -/
def activationAt (k : Core) (afmt : BitVec 2) (ta i step : Nat) : Int :=
  let b := k.tileByte (1024 * (ta + step / 32) + 32 * i + step % 32)
  if afmt = 1 then (b.toNat : Int) else bc8Int b

/-- The FP16 activation at row i, step k as FP32 (R33, R64). -/
def activation16At (k : Core) (ta i step : Nat) : W32 :=
  let o := 1024 * (ta + 2 * (step / 32)) + 64 * i + 2 * (step % 32)
  ofFp16 (BitVec.ofNat 16 (leNat (k.tileBytes o 2)))

/-- Byte o of group record `rec_` of meta tile TC; there is no record 8, and what is read there is not stated. -/
def metaByte (k : Core) (tc rec_ o : Nat) : Byte :=
  if rec_ < 8 then k.tileByte (1024 * tc + 128 * rec_ + o) else Config.freeByte rec_ o

/-- The weight sum W_g of column j in a group record (R27, R76). -/
def weightSum (k : Core) (tc rec_ j : Nat) : Int :=
  let n := leNat ((List.range 3).map fun i => metaByte k tc rec_ (32 + 3 * j + i))
  if n < 2 ^ 23 then n else (n : Int) - 2 ^ 24

/-- Clamped to the 40-bit accumulator's span (R47). -/
def clamp40 (i : Int) : Int := if i < -(2 ^ 39) then -(2 ^ 39) else if i ≥ 2 ^ 39 then 2 ^ 39 - 1 else i

/-- One output while a word runs: the 40-bit sum, the FP32 group accumulator, the open group's sums, and whether it
saturated. -/
structure Cell where
  acc : Int
  facc : W32
  part : Int
  fpart : W32
  sat : Bool
deriving DecidableEq, Repr

/-- The output (i, j) of a bank. -/
def Bank.cell (b : Bank) (i j : Nat) : Cell :=
  let n := 32 * i + j
  { acc := (SMap.get b.acc n 0).toInt, facc := SMap.get b.facc n 0, part := (SMap.get b.part n 0).toInt,
    fpart := SMap.get b.fpart n 0, sat := b.sat.contains n }

/-- A mode A addition: the sum saturates at the nearer end (R44, R47). -/
def Cell.addA (x : Cell) (v : Int) : Cell :=
  let t := x.acc + v
  { x with acc := clamp40 t, sat := x.sat || decide (clamp40 t ≠ t) }

/-- A group closed in mode G: acc = fl(acc + fl(fl(P_g) × sc8_w)) (R45). An accumulator that becomes ±∞ counts as a saturation
(R47), also where an infinite FP16 operand and no overflow made it so (DESIGN CHOICE, notes/assumptions/107.md). -/
def Cell.closeG (x : Cell) (p : W32) (sc8 : Byte) : Cell :=
  let f := fpAdd x.facc (fpMul p (sc8Val sc8))
  { x with facc := f, part := 0, fpart := 0, sat := x.sat || (fpIsInf f && !fpIsInf x.facc) }

/-- Whether a bank accumulates by groups: mode G, or FP16 activations whatever the mode (R46). -/
def Bank.grouped (b : Bank) : Bool := b.mode || b.afmt == 2

/-- One contraction step of an integer pair in output (i, j): at a group's first step the −z·W_g load (R27), the product,
and in mode G the group's close at its last step (R45, R77). `n` counts steps from START; `rec_` is the group's record and
`sc` its SC8 code. -/
def Bank.stepInt (b : Bank) (k : Core) (w : TileWord) (i j n step rec_ : Nat) (sc : Byte) (x : Cell) : Cell :=
  let g := groupSize b.gsize
  let load := if b.afmt = 1 ∧ n % g = 0 then -(b.zp.toNat : Int) * weightSum k w.tc.toNat rec_ j else 0
  let prod := activationAt k b.afmt w.ta.toNat i step * weightAt k b.wfmt w.tb.toNat step j
  if b.mode then
    let x := { x with part := (if n % g = 0 then 0 else x.part) + load + prod }
    if (n + 1) % g = 0 then x.closeG (fpOfInt x.part) sc else x
  else ((if load = 0 then x else x.addA load).addA prod)

/-- The group's record at contraction count n of an MMA that starts at count n₀: for BC4 with G = 32 the second half of the
word takes record REC + 1 (R77). -/
def recordAt (w : TileWord) (g n₀ n : Nat) : Nat := w.f 41 3 + (n / g - n₀ / g)

/-- The steps of an FP16 pair in output (i, j): the products of each group that the word meets are added one at a time, in an
order the spec does not give, to the group's sum so far (R46; `draw` names the word's orders, DEDUCED for a group of several
words, notes/assumptions/108.md), and each full group closes as in mode G. -/
def Bank.rowFp (b : Bank) (k : Core) (w : TileWord) (i j n₀ steps draw : Nat) (scAt : Nat → Byte) (x : Cell) : Cell :=
  let g := groupSize b.gsize
  (List.range (steps / 32)).foldl (fun x h =>
    let n := n₀ + 32 * h
    let terms := (List.range 32).map fun q =>
      fpMul (activation16At k w.ta.toNat i (32 * h + q)) (fpOfInt (weightAt k b.wfmt w.tb.toNat (32 * h + q) j))
    let x := { x with fpart := sumAny draw (1024 * h + 32 * i + j) (if n % g = 0 then terms else x.fpart :: terms) }
    if (n + 32) % g = 0 then x.closeG x.fpart (scAt n) else x) x

/-- One output after an MMA of the bank's fields; `draw` names the order of its FP16 sums. -/
def Bank.mmaCell (b : Bank) (k : Core) (w : TileWord) (draw i j : Nat) : Cell :=
  let g := groupSize b.gsize
  let n₀ := b.count
  let steps := mmaSteps b.wfmt
  let scAt (n : Nat) : Byte :=
    if n / g = n₀ / g ∧ n₀ % g ≠ 0 then SMap.get b.scg j 0 else metaByte k w.tc.toNat (recordAt w g n₀ n) j
  let x := b.cell i j
  if b.afmt = 2 then b.rowFp k w i j n₀ steps draw scAt x
  else
    (List.range steps).foldl (fun x q =>
      let n := n₀ + q
      b.stepInt k w i j n q (recordAt w g n₀ n) (scAt n) x) x

/-- The outputs of a bank rewritten by a function of row and column. -/
def Bank.setCells (b : Bank) (f : Nat → Nat → Cell) : Bank :=
  let cells := (List.range 1024).map fun n => (n, f (n / 32) (n % 32))
  { b with
    acc := cells.filterMap fun e => if e.2.acc = 0 then none else some (e.1, BitVec.ofInt 40 e.2.acc),
    facc := cells.filterMap fun e => if e.2.facc = 0 then none else some (e.1, e.2.facc),
    part := cells.filterMap fun e => if e.2.part = 0 then none else some (e.1, BitVec.ofInt 40 e.2.part),
    fpart := cells.filterMap fun e => if e.2.fpart = 0 then none else some (e.1, e.2.fpart),
    sat := cells.filterMap fun e => if e.2.sat then some e.1 else none }

/-- The SC8 row of a group record as a sparse row. -/
def scRow (k : Core) (tc rec_ : Nat) : SMap Byte :=
  (List.range 32).filterMap fun j => let v := metaByte k tc rec_ j; if v = 0 then none else some (j, v)

/-- A bank opened by an MMA with the word's own fields (R75). -/
def openBank (owner : Nat) (w : TileWord) : Bank :=
  { isOpen := true, owner := owner, wfmt := w.b 35, afmt := BitVec.ofNat 2 (w.f 36 2), mode := w.b 38,
    gsize := BitVec.ofNat 2 (w.f 39 2), zp := BitVec.ofNat 8 (w.f 44 8) }

/-- The bank that an MMA accumulates into: opened by START, or by a word into a closed bank (R75, R90). -/
def mmaBank (k : Core) (owner : Nat) (w : TileWord) : Bank :=
  let b := k.bank (w.f 32 2)
  if w.b 34 || !b.isOpen then openBank owner w else b

/-- Whether the footprint of a bank's START fields breaks R65 for an MMA's tile bases (R75). -/
def footprintBad (b : Bank) (w : TileWord) : Bool := !tilesOk w.ta.toNat (activationTiles b.wfmt b.afmt)

/-- The bank after an MMA: its outputs, its contraction count and the SC8 rows of group 0 and of the open group (R77). -/
def mmaResult (k : Core) (owner draw : Nat) (w : TileWord) : Bank :=
  let b := mmaBank k owner w
  let g := groupSize b.gsize
  let steps := mmaSteps b.wfmt
  let new := b.setCells fun i j => b.mmaCell k w draw i j
  let lastStart := (b.count + steps - 1) / g * g
  { new with
    count := b.count + steps,
    sc0 := if b.count = 0 then scRow k w.tc.toNat (w.f 41 3) else b.sc0,
    scg := if lastStart < b.count then b.scg else scRow k w.tc.toNat (recordAt w g b.count lastStart) }

/-- What an MMA does on core c (R73–R77). -/
def State.runMma (s : State) (c : Nat) (e : QEntry) : State :=
  let k := s.core c
  let b := mmaBank k e.ctx.val e.w
  ({ s with free := if b.afmt = 2 then s.free + 1 else s.free }.setCore c
    (k.setBank (e.w.f 32 2) (mmaResult k e.ctx.val s.free e.w))).count (Page.matrix c) Reg.MX_BUSY_CYCLES
    (mmaCycles b.wfmt b.afmt)

/-! ### MOUT (R78) -/

/-- FP32 value at byte o of the tile register file. -/
def Core.fpAt (k : Core) (o : Nat) : W32 := BitVec.ofNat 32 (leNat (k.tileBytes o 4))

/-- 2^−10 and 2^−4 as FP32. -/
def twoNeg (n : Nat) : W32 := fpRound false 1 (-(n : Int))

/-- The output of row i, column j of a bank (R44–R46). -/
def Bank.output (b : Bank) (k : Core) (w : TileWord) (i j : Nat) : W32 :=
  let s2w := k.fpAt (1024 * w.tb.toNat + 4 * j)
  let s2a := k.fpAt (1024 * w.tc.toNat + 32)
  let cw := if b.wfmt then twoNeg 4 else twoNeg 10
  let ka :=
    if b.afmt = 2 then s2a
    else
      let q := fpMul s2a (sc8Val (k.tileByte (1024 * w.tc.toNat + i)))
      fpMul q (if b.afmt = 1 then fpOne else twoNeg 10)
  let x := b.cell i j
  if b.isOpen = false then 0
  else if b.grouped then
    let x := if b.count % groupSize b.gsize = 0 then x
             else x.closeG (if b.afmt = 2 then x.fpart else fpOfInt x.part) (SMap.get b.scg j 0)
    fpMul (fpMul x.facc (fpMul s2w cw)) ka
  else
    let kw := fpMul (fpMul s2w (sc8Val (SMap.get b.sc0 j 0))) cw
    fpMul (fpMul (fpOfInt x.acc) kw) ka

/-- Whether output (i, j) saturated by R47, the close of a partial group included. -/
def Bank.outSat (b : Bank) (i j : Nat) : Bool :=
  let x := b.cell i j
  if b.isOpen && b.grouped && decide (b.count % groupSize b.gsize ≠ 0) then
    (x.closeG (if b.afmt = 2 then x.fpart else fpOfInt x.part) (SMap.get b.scg j 0)).sat
  else b.isOpen && x.sat

/-- What a MOUT does on core c: the outputs written to TA as FP32 or FP16, the record of TA replaced, the bank closed with every
accumulator zero (R72, R78, R48). Its NaN outputs count in NAN_TOTAL with OFMT = 0 too, where R48 counts them in the record
though nothing is converted (DESIGN CHOICE, notes/assumptions/109.md). -/
def State.runMout (s : State) (c : Nat) (e : QEntry) : State :=
  let k := s.core c
  let w := e.w
  let bk := w.f 32 2
  let b := k.bank bk
  let half := w.b 34
  let outs := (List.range 1024).map fun n => b.output k w (n / 32) (n % 32)
  let accSat := ((List.range 1024).filter fun n => b.outSat (n / 32) (n % 32)).length
  let bytes := (outs.map fun y => if half then leBytes 2 (toFp16 y).1.toNat else leBytes 4 y.toNat).flatten
  let sat16 := if half then (outs.filter fun y => (toFp16 y).2.1).length else 0
  let t : Tally := { absMax := groupAbsMax outs, sat := accSat + sat16, nan := (outs.filter fpIsNaN).length }
  let k := (k.tilePut (1024 * w.ta.toNat) bytes).setBank bk {}
  ((s.setCore c k).count (Page.stat c) Reg.ACC_SAT_COUNT accSat).tileRecord c w.ta.toNat t

end Sys2Proof.Machine
end

