-- ==== Sys2Proof/Machine/Security.lean ====
section
/-!
DEFINITION. The security subsystem: the ROM sequence and boot (R400–R406), containers (R407, R408), fuses (R410–R412),
attestation (R415), the TRNG (R417), key slots (R418) and debug authentication (R419, R420).
-/
namespace Sys2Proof.Machine

/-! ### Containers (R407, R408) -/

/-- The causes of R423 and R408. -/
def bootNone : Nat := 0
/-- FLASH_IO. -/
def bootFlashIo : Nat := 1
/-- HEADER. -/
def bootHeader : Nat := 2
/-- STRAP. -/
def bootStrap : Nat := 10
/-- TRNG. -/
def bootTrng : Nat := 11
/-- ROM_SELFTEST. -/
def bootSelfTest : Nat := 12
/-- FUSE. -/
def bootFuse : Nat := 13
/-- LIFECYCLE. -/
def bootLifecycle : Nat := 14

/-- Whether bytes are all zero. -/
def allZero (l : List Byte) : Bool := l.all fun b => b == 0

/-- The fused hash of a signer slot; none where the slot is not programmed (R410). -/
def Fuses.hashOf (f : Fuses) (k : Nat) : Option (List Byte) :=
  let h := SMap.get f.signerHash k []
  if allZero h then none else some h

/-- The permissions of a signer slot (R410). -/
def Fuses.perm (f : Fuses) (k : Nat) : Nat := (SMap.get f.signerPerm k 0).toNat

/-- Whether a signer slot is revoked. -/
def Fuses.revoked (f : Fuses) (k : Nat) : Bool := f.revoke.getLsbD k

/-- Checks 1–7 of R408 on a container header for a use TYPE (1 FIRMWARE, 2 MODEL_IMAGE) whose payload may have up to `max`
bytes: the cause of the first failure, 0 if none. -/
def headerCause (f : Fuses) (type max_ : Nat) (h : List Byte) : Nat :=
  let n := natAt h 0x10 8
  let k := natAt h 7 1
  let serial := bytesAt h 0x80 16
  if natAt h 0 4 ≠ 0x53435754 ∨ natAt h 4 2 ≠ 1 ∨ natAt h 6 1 ≠ type ∨ 32 < natAt h 8 1 ∨ 1 < natAt h 9 1 ∨
    !allZero (bytesAt h 0x0A 6) ∨ !allZero (bytesAt h 0x18 8) ∨ !allZero (bytesAt h 0x90 48) ∨ n = 0 ∨ max_ < n then bootHeader
  else if 3 < k ∨ f.hashOf k ≠ some (sha256 (bytesAt h 0x40 64)) then 3
  else if f.revoked k then 4
  else if !bitOf (f.perm k) (type - 1) then 5
  else if !allZero serial && serial != f.serial then 6
  else if natAt h 8 1 < (if type = 1 then f.fwSvn else f.imgSvn) then 7
  else if !ecdsaVerify (bytesAt h 0x40 64) (sha256 (h.take 0xC0)) (bytesAt h 0xC0 64) then 8
  else 0

/-- R408 whole: the payload's hash after the header's checks. -/
def containerCause (f : Fuses) (type max_ : Nat) (c : List Byte) : Nat :=
  let h := bytesAt c 0 256
  match headerCause f type max_ h with
  | 0 => if sha256 (bytesAt c 256 (natAt h 0x10 8)) = bytesAt h 0x20 32 then 0 else 9
  | e => e

/-! ### The ROM sequence (R401–R406, R420) -/

/-- Whether the training of every DRAM channel is over (R401 step 4). -/
def State.dramTrained (s : State) : Bool := (List.range 16).all fun ch => s.mem.trained.contains ch || s.mem.failed.contains ch

/-- The ROM waits for DRAM training and then, in WAIT_HOST, opens the boot window (R405 step 1). -/
def State.awaitHost (s : State) : State :=
  if s.dramTrained then { s with sec := { s.sec with boot := 1, windowOpen := true, await := 0 } }
  else { s with sec := { s.sec with await := 1 } }

/-- Boot fails with a cause: FAILED, and after a flash failure WAIT_HOST with the boot window open (R405, R420). -/
def State.bootFail (s : State) (cause : Nat) (flash : Bool) : State :=
  let s := { s with sec := { s.sec with cause := cause, boot := 5, windowOpen := false } }
  if flash then s.awaitHost else s

/-- Firmware starts from a verified container (R401 step 5). -/
def State.bootFirmware (s : State) (source : Nat) (c : List Byte) : State :=
  { s with sec := { s.sec with
      boot := 3, source := source, windowOpen := false, cause := 0, fwSigner := c.getD 7 0, fwHash := bytesAt c 0x20 32,
      fwSvn := natAt c 8 1, fwAdvance := bitOf (natAt c 9 1) 0 } }

/-- The container that the boot window holds, as far as its header says it reaches. -/
def State.windowContainer (s : State) : List Byte × State :=
  let (_, h, s) := s.readSpan .sys bootWindow 256
  let n := natAt h 0x10 8
  if 1048576 < n then (h, s)
  else
    let (_, l, s) := s.readSpan .sys (bootWindow + 256) n
    (h ++ l, s)

/-- The container in the boot window verified again at a chip warm reset: the ROM boots from it, or waits for the host (R402). -/
def State.reverify (s : State) : State :=
  let (c, s) := s.windowContainer
  if containerCause s.sec.fuses 1 1048576 c = 0 then { s with sec := { s.sec with await := 0 } }.bootFirmware 3 c else s.awaitHost

/-- What the ROM was to do once DRAM is trained (R401 step 4, R402, R405). -/
def State.romGoes (s : State) : State :=
  if !s.dramTrained then s else if s.sec.await = 1 then s.awaitHost else if s.sec.await = 2 then s.reverify else s

/-- Steps 1, 2 and the start of step 5 of R401; a chip warm reset with BOOT_SRC = 10 re-verifies the window (R402). -/
def State.romStart (s : State) (warm : Bool) : State :=
  let o := s.sec.obs
  let s := { s with sec := { s.sec with boot := 0, source := 0, cause := 0, aCause := 0, copy := 0, windowOpen := false, await := 0 } }
  if !o.romOk then s.bootFail bootSelfTest false
  else if !o.fusesOk then s.bootFail bootFuse false
  else if !o.trngOk then s.bootFail bootTrng false
  else
    let (b, s) := if warm then (s.fab.bgen, s) else s.draw 8
    let (c, s) := s.trng
    let s := { s with fab := { s.fab with bgen := b }, sec := { s.sec with trngStartup := true, challenge := c } }
    if s.sec.fuses.lifecycle = 2 then s.bootFail bootLifecycle false
    else match s.sec.bootSrc.toNat with
      | 2 => State.romGoes { s with sec := { s.sec with await := if warm then 2 else 1 } }
      | 3 => s.bootFail bootStrap false
      | _ => s

/-- FLASH_READ_DONE (R403, R404, R408): a copy of the container as read, or with `io` the read that failed. -/
def execFlashReadDone (io : Bool) (container : List Byte) (s : State) : Host.Outcome State Fault Refusal :=
  let x := s.sec
  if x.boot ≠ 0 ∨ 2 ≤ x.bootSrc.toNat ∨ !x.trngStartup then .next s else
  match (if io then bootFlashIo else containerCause x.fuses 1 1048576 container) with
  | 0 => .next (s.bootFirmware (x.copy + 1) container)
  | e =>
    if x.copy = 0 then .next { s with sec := { x with aCause := e, copy := 1 } }
    else .next (s.bootFail e true)

/-- SEC_BOOT_GO (R405, R421). -/
def State.bootGo (s : State) (src : Nat) : State :=
  if s.sec.boot ≠ 1 then s.writeRefused Page.security Reg.SEC_BOOT_GO src else
  let (c, s) := s.windowContainer
  match containerCause s.sec.fuses 1 1048576 c with
  | 0 => s.bootFirmware 3 c
  | e => { s with sec := { s.sec with cause := e, windowOpen := true } }

/-- SEC_BOOT_GO (R405). -/
def execSecBootGo (src : NodeId) (s : State) : Host.Outcome State Fault Refusal := .next (s.bootGo src.val)

/-- FIRMWARE_READY (R401 step 6): with DRAM trained the firmware arms the safety manager and marks the device ready; the fused
firmware SVN advances (R408). -/
def execFirmwareReady (s : State) : Host.Outcome State Fault Refusal :=
  if s.sec.boot ≠ 3 || !s.dramTrained then .next s else
  let f := s.sec.fuses
  let f := if s.sec.fwAdvance then { f with fwSvn := max f.fwSvn (min s.sec.fwSvn 32) } else f
  let s := { s with sec := { s.sec with boot := 4, fuses := f } }
  .next ((s.sfCtrlWrite 0 (s.reg Page.safety Reg.SF_CTRL ||| 1)).levelDone (·.1 == 3))

/-- DRAM_TRAINING_DONE (R273): a channel in training is trained, or fails and every request to it is denied; the failure is reported to
the safety manager as ECC_UE, because R372 names no mechanism for it (notes/assumptions/31.md). -/
def execDramTrainingDone (ch : Fin 16) (ok : Bool) (s : State) : Host.Outcome State Fault Refusal :=
  let c := ch.val
  if !s.mem.training.contains c then .next s else
  let s := { s with mem := { s.mem with training := s.mem.training.filter (· != c) } }
  if ok then
    let s := { s with mem := { s.mem with trained := s.mem.trained.filter (· != c) ++ [c], failed := s.mem.failed.filter (· != c) } }
    .next (s.setFld (Page.dram c) Reg.DC_STATUS 0 2 1).romGoes
  else
    let s := { s with mem := { s.mem with trained := s.mem.trained.filter (· != c), failed := s.mem.failed.filter (· != c) ++ [c] } }
    .next ((((s.setFld (Page.dram c) Reg.DC_STATUS 0 2 0).setFlag (Page.dram c) Reg.DC_STATUS 4 true).raiseMech 4 none).romGoes)

/-! ### Fuses (R411, R412) -/

/-- A fuse request refused. -/
def State.fuseRefuse (s : State) (b : Bool) : State := { s with sec := { s.sec with fuseRefused := b } }

/-- `n` bytes of the words of a register row. -/
def State.rowBytes (s : State) (page off n : Nat) : List Byte :=
  ((List.range (n / 4)).map fun w => leBytes 4 (s.reg page (off + 4 * w)).toNat).flatten

/-- A PROGRAM operation (R411, R412). -/
def State.fuseProgram (s : State) (field value : Nat) : State :=
  let f := s.sec.fuses
  let ok (f : Fuses) : State := ({ s with sec := { s.sec with fuses := f } }).fuseRefuse false
  if field = 10 then
    if value = f.lifecycle + 1 ∧ value ≤ 2 then ok { f with lifecycle := value } else s.fuseRefuse true
  else if f.lifecycle ≠ 0 then s.fuseRefuse true
  else if field ≤ 3 ∧ (f.hashOf field).isNone then
    ok { f with signerHash := SMap.set f.signerHash field (s.rowBytes Page.security Reg.SEC_FUSE_DATA 32) [] }
  else if 4 ≤ field ∧ field ≤ 7 ∧ f.perm (field - 4) = 0 then
    ok { f with signerPerm := SMap.set f.signerPerm (field - 4) (BitVec.ofNat 3 value) 0 }
  else if 8 ≤ field ∧ field ≤ 9 ∧ allZero (SMap.get f.anchor (field - 8) []) then
    ok { f with anchor := SMap.set f.anchor (field - 8) (s.rowBytes Page.security Reg.SEC_FUSE_DATA 64) [] }
  else s.fuseRefuse true

/-- A REVOKE operation (R411). -/
def State.fuseRevoke (s : State) (k : Nat) : State :=
  let f := s.sec.fuses
  let other := (List.range 4).any fun j => j != k && !f.revoked j && bitOf (f.perm j) 0
  if 3 < k ∨ s.sec.fwSigner.toNat = k ∨ !other then s.fuseRefuse true
  else ({ s with sec := { s.sec with fuses := { f with revoke := f.revoke ||| BitVec.ofNat 4 (2 ^ k) } } }).fuseRefuse false

/-- A write of SEC_FUSE_CMD (R411, R423): only from node 0 and with CONFIRM. -/
def State.fuseCmd (s : State) (src : Nat) (v : W32) : State :=
  let n := v.toNat
  if src ≠ 0 ∨ bitsOf n 24 8 ≠ 0x5A then s else
  match bitsOf n 0 3 with
  | 1 => s.fuseRevoke (bitsOf n 3 5)
  | 2 => s.fuseProgram (bitsOf n 3 5) (bitsOf n 8 8)
  | _ => s

/-- FUSE_REVOKE: a write of SEC_FUSE_CMD with OP 1 (R411). -/
def execFuseRevoke (src : NodeId) (v : W32) (s : State) : Host.Outcome State Fault Refusal :=
  .next (s.fuseCmd src.val (BitVec.ofNat 32 (putBits v.toNat 0 3 1)))

/-- FUSE_PROGRAM: a write of SEC_FUSE_CMD with OP 2 (R411, R412). -/
def execFuseProgram (src : NodeId) (v : W32) (s : State) : Host.Outcome State Fault Refusal :=
  .next (s.fuseCmd src.val (BitVec.ofNat 32 (putBits v.toNat 0 3 2)))

/-! ### Key slots (R418) -/

/-- Whether an enabled protected region names key slot k. -/
def State.slotInUse (s : State) (k : Nat) : Bool :=
  (List.range 16).any fun n => s.prOn n && s.fld Page.cache (Reg.PR_CTRL + 16 * n) 1 4 == k

/-- A key slot's contents replaced. -/
def State.setKey (s : State) (k : Nat) (v : Option (BitVec 512)) : State :=
  { s with sec := { s.sec with keySlots := SMap.set s.sec.keySlots k v none } }

/-- The key of a label (R418). -/
def deriveSlot (uds : BitVec 256) (label : List Byte) : BitVec 512 :=
  let half (t : Byte) : List Byte := sha256 (beBytes 32 uds.toNat ++ ascii "TW32-KEY" ++ [t] ++ label)
  BitVec.ofNat 512 (beNat (half 1 ++ half 2))

/-- A write of SEC_KEY_CTRL (R418): only from node 0; a slot that an enabled region names is not touched. A DECOMMISSIONED device
derives nothing (R412), and while the TRNG withholds output RANDOM leaves the slot as it is (R417). -/
def State.keyCtrl (s : State) (src : Nat) (v : W32) : State :=
  let k := bitsOf v.toNat 0 4
  let op := bitsOf v.toNat 4 2
  if src ≠ 0 ∨ op = 0 then s
  else if s.slotInUse k then s.writeRefused Page.security Reg.SEC_KEY_CTRL src
  else match op with
    | 1 =>
      if s.sec.fuses.lifecycle = 2 then s
      else s.setKey k (some (deriveSlot s.sec.fuses.uds (s.rowBytes Page.security Reg.SEC_KEY_LABEL 32)))
    | 2 =>
      if s.sec.trngFail then s else
      let (a, s) := s.trng
      let (b, s) := s.trng
      s.setKey k (some (a ++ b))
    | _ => s.setKey k none

/-- SEC_KEY_CTRL with an operation. -/
def keyOp (v : W32) (op : Nat) : W32 := BitVec.ofNat 32 (putBits v.toNat 4 2 op)

/-- KEY_DERIVE (R418). -/
def execKeyDerive (src : NodeId) (v : W32) (s : State) : Host.Outcome State Fault Refusal := .next (s.keyCtrl src.val (keyOp v 1))
/-- KEY_RANDOM (R418). -/
def execKeyRandom (src : NodeId) (v : W32) (s : State) : Host.Outcome State Fault Refusal := .next (s.keyCtrl src.val (keyOp v 2))
/-- KEY_CLEAR (R418). -/
def execKeyClear (src : NodeId) (v : W32) (s : State) : Host.Outcome State Fault Refusal := .next (s.keyCtrl src.val (keyOp v 3))

/-! ### Debug authentication (R419) -/

/-- Whether the token in SEC_DBG_TOKEN passes (R419 step 3). -/
def State.tokenOk (s : State) (t : List Byte) : Bool :=
  let f := s.sec.fuses
  let key := bytesAt t 0x40 64
  bytesAt t 8 16 == f.serial && bytesAt t 24 32 == beBytes 32 s.sec.challenge.toNat &&
  ((List.range 4).any fun k => f.hashOf k == some (sha256 key) && !f.revoked k && bitOf (f.perm k) 2) &&
  ecdsaVerify key (sha256 (t.take 0x80)) (bytesAt t 0x80 64)

/-- A write of 1 to SEC_DBG_GO (R419): levels granted, or a failure counted; a new challenge is drawn whatever the outcome. A
grant of CORE_DEBUG clears every key slot first. A locked device refuses every token. -/
def State.dbgGo (s : State) (src : Nat) : State :=
  if src ≠ 0 ∨ s.sec.dbgLocked then s else
  let t := s.rowBytes Page.security Reg.SEC_DBG_TOKEN 192
  let ok := s.tokenOk t
  let (c, s) := s.trng
  let s := { s with sec := { s.sec with challenge := c } }
  if ok then
    let lv := natAt t 0x38 4
    let s := if bitOf lv 1 then { s with sec := { s.sec with keySlots := [], keysCleared := true } } else s
    { s with sec := { s.sec with levels := BitVec.ofNat 3 lv } }
  else
    let n := min (s.sec.dbgFails + 1) 3
    { s with sec := { s.sec with dbgFails := n, dbgLocked := n == 3 } }

/-- SEC_DBG_GO (R419). -/
def execSecDbgGo (src : NodeId) (s : State) : Host.Outcome State Fault Refusal := .next (s.dbgGo src.val)

/-- A write of 1 to SEC_DBG_RELOCK ends the grant (R419). -/
def State.dbgRelock (s : State) (src : Nat) : State := if src ≠ 0 then s else { s with sec := { s.sec with levels := 0 } }

/-- SEC_DBG_RELOCK (R419). -/
def execSecDbgRelock (src : NodeId) (s : State) : Host.Outcome State Fault Refusal := .next (s.dbgRelock src.val)

/-! ### Attestation (R415) -/

/-- The attestation report for a nonce (R415). -/
def State.attReport (s : State) (nonce : List Byte) : List Byte :=
  let f := s.sec.fuses
  let im := s.qm.image
  let b (n : Nat) : Byte := BitVec.ofNat 8 n
  let body : List Byte := leBytes 2 1 ++ [b s.node, s.fab.bgen, b f.lifecycle, b s.sec.levels.toNat] ++
    leBytes 2 (b2n im.isSome + 2 * b2n s.sec.trngFail + 4 * b2n s.sec.keysCleared) ++ [b f.fwSvn, b f.imgSvn, s.sec.fwSigner,
      (match im with | some i => i.signer | none => 0xFF), b f.revoke.toNat, 0, 0, 0] ++
    leBytes 8 s.now.toNat ++ List.replicate 8 0 ++ bytesAt nonce 0 32 ++ bytesAt s.sec.fwHash 0 32 ++
    (match im with | some i => bytesAt i.hash 0 32 | none => List.replicate 32 0)
  body ++ ecdsaSign (identityKey f.uds).toNat (sha256 body)

/-- A write of 1 to SEC_ATT_GO (R415). -/
def State.attGo (s : State) (src : Nat) : State :=
  if src ≠ 0 then s
  else { s with sec := { s.sec with report := s.attReport (s.rowBytes Page.security Reg.SEC_ATT_NONCE 32), attDone := true } }

/-- SEC_ATT_GO (R415). -/
def execSecAttGo (src : NodeId) (s : State) : Host.Outcome State Fault Refusal := .next (s.attGo src.val)

/-! ### The TRNG (R417) -/

/-- TRNG_HEALTH_FAIL (R417). -/
def execTrngHealthFail (s : State) : Host.Outcome State Fault Refusal :=
  .next ({ s with sec := { s.sec with trngFail := true } }.count Page.security Reg.SEC_TRNG_FAIL_COUNT)

/-- TRNG_HEALTH_RECOVERY (R417): output resumes, and a KEYING that waits for it goes on. -/
def execTrngHealthRecovery (s : State) : Host.Outcome State Fault Refusal :=
  let s := { s with sec := { s.sec with trngFail := false } }
  .next ([0, 1, 2, 3].foldl (fun (s : State) (p : Nat) => if (s.link p).st = 5 then s.sendOffer p else s) s)

end Sys2Proof.Machine
end

