-- ==== Sys2Proof/Machine/Pages.lean ====
section
/-!
DEFINITION. Register pages as software sees them: what a read returns where the register shows other state (the RO
registers of every page), the side effects of a read (R8, R218), and what a write does (R8–R10, R439–R445, R474 and the
rules of each page). A write that no rule singles out stores by the access codes.
-/
namespace Sys2Proof.Machine

/-- A word put together from fields: value and lowest bit. -/
def lay (l : List (Nat × Nat)) : Nat := (l.map fun e => e.1 * 2 ^ e.2).sum

/-- A mask of the numbers in a list. -/
def maskOf (l : List Nat) (n : Nat) : Nat := ((List.range n).map fun i => if l.contains i then 2 ^ i else 0).sum

/-- A mask of the numbers below n that satisfy a test. -/
def maskWhere (n : Nat) (f : Nat → Bool) : Nat := ((List.range n).map fun i => if f i then 2 ^ i else 0).sum

/-- Low or high half of a 64-bit value by whether the offset is the LO register. -/
def half (v : W64) (lo : Bool) : Nat := if lo then v.toNat % 2 ^ 32 else v.toNat / 2 ^ 32

/-! ### The common header (R440, R443) -/

/-- PG_STATE: state and ENABLE_PENDING (R440, R443; link pages notes/assumptions/83.md). -/
def State.viewState (s : State) (page : Nat) (k : PageKind) : Nat :=
  if alwaysOn k then 2 else
  match k with
  | .serial | .pdmIn | .pdmOut =>
    let x := s.port (page - Page.audio 0)
    lay [(x.st, 0), (b2n x.pend, 2)]
  | .dpMain | .dpPair => lay [(s.dp.st, 0), (b2n s.dp.pend, 2)]
  | .link | .linkVc | .linkSec =>
    let l := s.link (pageInstance page)
    if l.st = 0 ∨ (l.st = 8 ∧ !l.enabled) then 0 else if l.st = 6 ∨ l.st = 7 then 2 else 1
  | _ => s.fld page Reg.PG_STATE 0 3

/-- PG_CTRL as read: ENABLE and LOCK_REQ (R440, R443). -/
def State.viewCtrl (s : State) (page : Nat) (k : PageKind) : Nat :=
  let en := if alwaysOn k then true else
    match k with
    | .link | .linkVc | .linkSec => (s.link (pageInstance page)).enabled
    | .dpPair => s.flag Page.dpMain Reg.PG_CTRL 0
    | _ => s.flag page Reg.PG_CTRL 0
  lay [(b2n en, 0), (b2n (s.flag page Reg.PG_CTRL 2), 2)]

/-- The header registers that show other state. -/
def State.viewHeader (s : State) (page : Nat) (k : PageKind) (off : Nat) : Option Nat :=
  if off = Reg.PG_ID then some (lay [(1, 0), (pageInstance page, 8), (pageType k, 16)])
  else if off = Reg.PG_CTRL then some (s.viewCtrl page k)
  else if off = Reg.PG_STATE then some (s.viewState page k)
  else none

/-! ### DEVICE, CLOCKS, SEMAPHORES (R449, R450) -/

/-- DEVICE registers. -/
def State.viewDevice (s : State) (off : Nat) : Option Nat :=
  if off = Reg.DV_VENDOR then some 0x43484F56
  else if off = Reg.DV_ID then some (lay [(0x7732, 0), (Config.dieRevision.toNat, 16), (s.sec.fuses.grade.toNat, 24)])
  else if off = Reg.DV_STATUS then
    some (lay [(b2n (s.sec.boot == 4), 0), (b2n s.safety.safe, 1), (b2n (s.qm.imageState == 2), 2), (s.fab.nodeId, 4),
      (s.fab.bgen.toNat, 9)])
  else if off = Reg.DV_STRAPS then some (lay [(s.sec.bootSrc.toNat, 0), (b2n s.sec.bridgeEn, 2)])
  else if off = Reg.DV_IRQ_GLOBAL then some (maskWhere 0x14 s.summary)
  else if off = Reg.DV_IRQ_CORE then some (maskWhere 32 fun c => s.summary (Page.core c 0))
  else if off = Reg.DV_IRQ_LINK_MEM then
    some (lay [(maskWhere 4 fun p => s.summary (Page.link p), 0), (b2n (s.summary Page.fabric), 4),
      (b2n (s.summary Page.tsync), 5), (maskWhere 16 fun ch => s.summary (Page.dram ch), 6)])
  else if off = Reg.DV_IRQ_AUDIO then some (maskWhere 24 fun k => s.summary (Page.audio 0 + k))
  else none

/-- CLOCKS registers: out of power-on reset PLLs are locked and the system references good until CLOCK finds them lost
(notes/assumptions/84.md). -/
def State.viewClocks (s : State) (off : Nat) : Option Nat :=
  let on (k : Nat) : Bool := s.pins.poreset && !s.pins.held && !s.power.clkLost.contains k
  if off = Reg.CK_STATUS then
    some (lay [(b2n (on 0), 0), (b2n (on 1), 1), (maskWhere 4 fun p => on (2 + p) && s.domState (64 + p) == 2, 2), (b2n (on 6), 6),
      (b2n (on 7), 7), (b2n s.audio.mclkOk, 8), (b2n s.audio.mclkRate, 9)])
  else if off = Reg.CK_ARITH then some (opMhz s.power.op)
  else none

/-- SEMAPHORES registers. -/
def State.viewSemaphores (s : State) (off : Nat) : Option Nat :=
  if off = Reg.SE_WAITS then some s.fab.waits.length
  else if off = Reg.SE_HOLDERS then some s.fab.holders.length
  else none

/-! ### Time (R218, R219) -/

/-- TIMEBASE registers. -/
def State.viewTimebase (s : State) (off : Nat) : Option Nat :=
  if off = Reg.TB_NOW_LO then some (half s.time.tb true)
  else if off = Reg.TB_NOW_HI then some s.time.nowHi.toNat
  else none

/-- ANGLE registers of timebase a at base offset `off`. -/
def State.viewAngle (s : State) (off a : Nat) : Option Nat :=
  if off = Reg.ANG_NOW then some (s.angleNow a).toNat
  else if off = Reg.ANG_RATE then some (s.angleRate a).toNat
  else if off = Reg.ANG_STATUS then some (s.angle a).st
  else none

/-- CTX_STATUS[n] (R219). -/
def State.ctxStatus (s : State) (n : Nat) : Nat :=
  let x := s.ctx n
  let st := match x.st with
    | .free => 0 | .stopped => 1 | .running => 2 | .quenching => 3 | .quenched => 4
  let saved := s.cores.any fun e => e.2.isSaved n
  lay [(st, 0), (x.cls, 3), (x.part, 5), (x.section_, 8), (x.gen.toNat, 11), (x.prio, 15), (b2n saved, 17)]

/-- PATTERN registers. -/
def State.viewPattern (s : State) (off i : Nat) : Option Nat :=
  let p := s.pattern
  if off = Reg.PT_CTRL then some (lay [(b2n p.run, 0), (b2n p.pendingSwitch, 1)])
  else if off = Reg.PT_STATUS then
    some (lay [(b2n p.running, 0), (b2n p.bank, 1), (b2n p.pendingSwitch, 2), (s.fld Page.pattern Reg.PT_STATUS 3 13, 3)])
  else if off = Reg.PT_BAR_NOW_LO then some (p.bar % 2 ^ 32)
  else if off = Reg.PT_BAR_NOW_HI then some p.barHiLatch.toNat
  else if off = Reg.PT_ENTRY then
    let (e, b) := s.ptSel
    some (s.ptWord b e i).toNat
  else if off = Reg.CTX_STATUS then some (s.ctxStatus i)
  else none

/-! ### Streams and queues (R179, R354) -/

/-- STREAMS registers. -/
def State.viewStreams (s : State) (off i : Nat) : Option Nat :=
  if off = Reg.SM_COUNTS then
    some (lay [((s.streams.filter fun e => e.2.st != 0).length, 0), ((s.streams.filter fun e => e.2.st == 2).length, 16)])
  else if off = Reg.SM_ENTRY then
    some (((s.stream (s.fld Page.streams Reg.SM_ENTRY_SEL 0 11)).words).getD i 0).toNat
  else none

/-- Word w of the descriptor of queue q (R355). -/
def State.queueDesc (s : State) (q w : Nat) : Nat :=
  let x := s.queue q
  match w with
  | 0 => lay [(x.qtype, 0), (b2n x.valid, 3), (b2n x.irqEn, 4), (b2n x.hostOnly, 5), (x.log2, 8), (x.esize16, 16), (x.vec, 24)]
  | 1 => lay [(x.cq, 0), (x.coalCount, 16)]
  | 2 => half x.ringAddr true
  | 3 => half x.ringAddr false
  | 4 => x.pi.toNat
  | 5 => x.ci.toNat
  | 6 => x.coalUs
  | _ => min x.fullCount 0xFFFF

/-- QUEUE_MGR registers. -/
def State.viewQueueMgr (s : State) (off i : Nat) : Option Nat :=
  let n := (s.qm.queues.filter fun e => e.2.valid).length
  if off = Reg.QM_STATUS then some (lay [(n % 32768, 0), (b2n (n == 32768), 16), (s.qm.inFlight.length, 17)])
  else if off = Reg.QM_IMAGE_STATE then some (lay [(s.qm.imageState, 0), (s.qm.failStatus.toNat, 8)])
  else if off = Reg.QM_Q_DESC then some (s.queueDesc (s.fld Page.queueMgr Reg.QM_Q_SEL 0 15) i)
  else none

/-! ### Safety, hang, dump, power (R378, R398, R438) -/

/-- SAFETY registers. -/
def State.viewSafety (s : State) (off : Nat) : Option Nat :=
  let f := s.safety
  if off = Reg.SF_STATUS then
    some (lay [(b2n f.safe, 0), (b2n f.armed, 1), (b2n !f.faultN, 2), (f.first, 8), (b2n f.firstValid, 12)])
  else if off = Reg.SF_LFT_STATUS then some (lay [(b2n f.lftPass, 0), (f.lftFailed.toNat, 8), (min f.lftCycles 0xFFFF, 16)])
  else if off = Reg.SF_FAULT_TIME_LO then some (half f.firstTime true)
  else if off = Reg.SF_FAULT_TIME_HI then some (half f.firstTime false)
  else none

/-- HANG registers. -/
def State.viewHang (s : State) (off : Nat) : Option Nat :=
  let h := s.hang
  let sus := maskOf h.suspects 64
  let con := maskOf h.condemned 64
  if off = Reg.HG_STATUS then
    some (lay [(h.level, 0), (b2n h.replaying.isSome, 2), (match h.replaying with | some (n, _) => n.val | none => 0, 3),
      (b2n h.powerCycleReq, 9)])
  else if off = Reg.HG_SUSPECT_LO then some (sus % 2 ^ 32)
  else if off = Reg.HG_SUSPECT_HI then some (sus / 2 ^ 32)
  else if off = Reg.HG_CONDEMNED_LO then some (con % 2 ^ 32)
  else if off = Reg.HG_CONDEMNED_HI then some (con / 2 ^ 32)
  else if off = Reg.EV_WR then some h.evWr.toNat
  else none

/-- DUMP registers. -/
def State.viewDump (s : State) (off : Nat) : Option Nat :=
  let h := s.hang
  if off = Reg.DM_STATUS then some (lay [(b2n h.dumping.isSome, 0), (b2n h.dumpInBuf, 1), (h.dumpStatus.toNat, 8)])
  else if off = Reg.DM_BYTES then some h.dumpBytes.toNat
  else none

/-- POWER registers. -/
def State.viewPower (s : State) (off i : Nat) : Option Nat :=
  let w := s.power
  if off = Reg.PW_STATUS then
    some (lay [(w.op, 0), (b2n w.limiting, 3), (b2n w.limitExceeded, 4), (b2n (w.crit && w.op == 5), 5), (s.startingCount, 6)])
  else if off = Reg.PW_DOM_STATE then some (lay [(s.domState i, 0), (b2n (s.upPending i), 2)])
  else none

/-- THERMAL registers: TH_STATUS.LEVELS. -/
def State.viewThermal (s : State) (off : Nat) : Option Nat :=
  let w := s.power
  if off = Reg.TH_STATUS then
    some (lay [(s.fld Page.thermal Reg.TH_STATUS 0 16, 0), (b2n w.warn, 16), (b2n w.throttle, 17), (b2n w.crit, 18),
      (b2n w.shutdown, 19)])
  else none

/-! ### Security (R422, R423) -/

/-- SECURITY registers. -/
def State.viewSecurity (s : State) (off i : Nat) : Option Nat :=
  let c := s.sec
  let f := c.fuses
  if off = Reg.SEC_BOOT_STATUS then some (lay [(c.boot, 0), (c.source, 3), (c.cause, 5), (c.aCause, 10)])
  else if off = Reg.SEC_LIFECYCLE then some (lay [(f.lifecycle, 0), (f.grade.toNat, 4)])
  else if off = Reg.SEC_SVN then some (lay [(f.fwSvn, 0), (f.imgSvn, 8)])
  else if off = Reg.SEC_SIGNERS then
    some (lay [(maskWhere 4 fun k => (f.hashOf k).isSome, 0), (f.revoke.toNat, 4),
      (((List.range 4).map fun k => f.perm k * 2 ^ (3 * k)).sum, 8)])
  else if off = Reg.SEC_FUSE_STATUS then some (lay [(b2n c.fuseBusy, 0), (b2n c.fuseRefused, 1)])
  else if off = Reg.SEC_TRNG_STATUS then some (lay [(b2n c.trngFail, 0), (b2n c.trngStartup, 1)])
  else if off = Reg.SEC_KEY_STATUS then some (maskWhere 16 fun k => (SMap.get c.keySlots k none).isSome)
  else if off = Reg.SEC_DBG_STATUS then
    some (lay [(c.levels.toNat, 0), (min c.dbgFails 3, 3), (b2n c.dbgLocked, 5), (b2n c.keysCleared, 6)])
  else if off = Reg.SEC_ATT_STATUS then some (lay [(b2n c.attDone, 1)])
  else if off = Reg.SEC_SERIAL then some (natAt f.serial (4 * i) 4)
  else if off = Reg.SEC_DBG_CHAL then some (natAt (beBytes 32 c.challenge.toNat) (4 * i) 4)
  else if off = Reg.SEC_CERT then some (natAt f.idCert (4 * i) 4)
  else if off = Reg.SEC_ATT_REPORT then some (natAt c.report (4 * i) 4)
  else none

/-! ### Compression, mirror, direct path, cache, trace (R297, R378, R265, R470) -/

/-- References of a live table version, as shown. -/
def verRefs (v : Option TableVer) : Nat := match v with | some t => min t.refs 0xFFFF | none => 0

/-- COMPRESSION registers: the jobs, the lanes at work, the bytes of the two queues and the versions of the tables (R293, R298;
notes/assumptions/85.md). -/
def State.viewCompression (s : State) (off i : Nat) : Option Nat :=
  let cur := SMap.get s.ce.cur i none
  let old := SMap.get s.ce.old i none
  if off = Reg.CE_STATUS then some (lay [(min s.ce.jobs.length 64, 0), (s.ce.lanesBusy, 16)])
  else if off = Reg.CE_IN_FILL then some s.ce.inFill
  else if off = Reg.CE_OUT_FILL then some s.ce.outFill
  else if off = Reg.CE_SLOT_VER then
    some (lay [((match cur with | some t => t.tag.toNat | none => 0), 0), ((match old with | some t => t.tag.toNat | none => 0), 8),
      (b2n cur.isSome, 16), (b2n old.isSome, 17), ((match cur with | some t => b2n t.bc4 | none => 0), 18)])
  else if off = Reg.CE_SLOT_REFS then some (lay [(verRefs cur, 0), (verRefs old, 16)])
  else none

/-- DRAM channel registers: TRAINING (R273). -/
def State.viewDram (s : State) (c off : Nat) : Option Nat :=
  if off = Reg.DC_STATUS then
    some (lay [(s.fld (Page.dram c) Reg.DC_STATUS 0 1, 0), (b2n (s.dramTraining c), 1), (s.fld (Page.dram c) Reg.DC_STATUS 2 3, 2)])
  else none

/-- MIRROR registers. -/
def State.viewMirror (s : State) (off : Nat) : Option Nat :=
  let p := s.pair
  if off = Reg.MR_STATUS then
    some (lay [(p.st, 0), (b2n p.takenOver, 2), (b2n p.exporting, 3), (b2n !p.importing.isEmpty, 4), (min p.missRun 3, 5),
      (b2n p.pinOk, 7), (b2n p.linkOk, 8)])
  else if off = Reg.MR_TAKEOVER_TIME then some p.takeoverNs.toNat
  else none

/-- DIRECT_PATH registers. -/
def State.viewDirectPath (s : State) (off : Nat) : Option Nat :=
  let d := s.dp
  if off = Reg.DP_STATUS then
    some (lay [(d.active.toNat, 0), (b2n !d.loads.isEmpty, 24), (b2n (d.resync != 0), 25), (b2n d.mapMismatch, 26)])
  else if off = Reg.DP_READY then some d.ready.toNat
  else if off = Reg.DP_ARMED then some (d.armed ||| d.swapDue).toNat
  else if off = Reg.DP_REF_LOST then some d.refLost.toNat
  else if off = Reg.DP_ERR_LOST then some d.errLost.toNat
  else if off = Reg.DP_LOAD_PENDING then some d.loads.length
  else none

/-- CACHE registers. -/
def State.viewCache (s : State) (off : Nat) : Option Nat :=
  if off = Reg.CA_MAINT_STATUS then some (b2n s.mem.pass.isSome) else none

/-- DEBUG registers (R469, R471). -/
def State.viewDebug (s : State) (off : Nat) : Option Nat :=
  let p := Page.debug
  let places := s.fld p Reg.TR_BYTES 0 28 / 32
  if off = Reg.TR_STATUS then
    some (lay [(b2n (s.flag p Reg.TR_CTRL 0), 0), (b2n (!s.flag p Reg.TR_CTRL 1 && decide (places ≤ (s.reg p Reg.TR_WR).toNat)), 1)])
  else none

/-! ### Core pages (R91, R120, R150) -/

/-- Whether a queue has a started word. -/
def anyStarted (q : List QEntry) : Bool := q.any (·.started)

/-- The lines of the valid regions of core c. -/
def State.linesUsed (s : State) (c : Nat) : Nat :=
  ((List.range 16).map fun n => let g := s.region c n; if g.valid then g.nslots * g.lines else 0).sum

/-- The slots of region n of core c that no stream holds (R127). -/
def State.slotsFree (s : State) (c n : Nat) : Nat :=
  let used := (s.streams.filter fun e => e.2.slots.any fun v => v.1 == 16 * c + n).length
  (s.region c n).nslots - used

/-- Registers of a core's pages. -/
def State.viewCore (s : State) (k : PageKind) (c off i : Nat) : Option Nat :=
  let x := s.core c
  match k with
  | .coreCtrl =>
    if off = Reg.CTRL_STATUS then
      some (lay [((match x.ctx with | some n => n.val | none => 0), 0), (b2n x.ctx.isSome, 6),
        (b2n ((match x.ctx with | some n => (s.ctx n.val).st == .running | none => false) && x.blocked.isNone), 7), (b2n (x.blocked == some .brk), 8)])
    else if off = Reg.CTRL_PC then some (min x.pc 16383)
    else if off = Reg.CTRL_TOKENS then some x.tokenWord
    else if off = Reg.CTRL_QFILL then
      some (lay [(x.matrixQ.length, 0), (x.vectorQ.length, 8), (x.scanQ.length, 16), (x.moverQ.length, 24)])
    else none
  | .coreMatrix =>
    if off = Reg.MX_STATUS then some (lay [(b2n (anyStarted x.matrixQ), 0), (maskWhere 4 fun b => (x.bank b).isOpen, 1)])
    else none
  | .coreVector =>
    if off = Reg.VX_STATUS then
      some (lay [(b2n (anyStarted x.vectorQ), 0),
        (b2n (x.vectorQ.any fun e => e.started && pairMode e.op e.w), 1)])
    else if off = Reg.VX_MASK then some (x.mask i).toNat
    else if off = Reg.VX_SUM_LO then some (half (x.sum i) true)
    else if off = Reg.VX_SUM_HI then some (half (x.sum i) false)
    else none
  | .coreScan =>
    if off = Reg.SC_STATUS then some (lay [(b2n (anyStarted x.scanQ), 0), (b2n !x.held.isEmpty, 1)]) else none
  | .corePort =>
    if off = Reg.ST_STATUS then
      some (lay [(b2n (s.pair.unread.any fun u => u.1 == c), 0), (b2n (s.pair.importing.any fun u => u.1 == c), 1),
        (b2n (s.streams.any fun e => (e.2.st == 3 || e.2.st == 4) && e.2.due &&
          (e.2.slots.any (fun v => v.1 / 16 == c) ||
            e.2.st == 4 && (s.stagesOf e.2.section_).any fun g => bitOf g.cores.toNat c && !g.regions.isEmpty)), 2)])
    else if off = Reg.ST_LINES_USED then some (s.linesUsed c)
    else if off = Reg.ST_REGION_FREE then some (s.slotsFree c i)
    else none
  | .coreMover =>
    if off = Reg.MV_TAGS_IN_USE then
      some (min 255 (s.fab.tags.filter fun e => match e.2 with | some t => t.core.map (·.val) == some c | none => false).length)
    else none
  | _ => none

/-! ### Links and fabric (R337) -/

/-- LINK, LINK_VC and LINK_SEC registers of KLp. -/
def State.viewLink (s : State) (k : PageKind) (p off : Nat) : Option Nat :=
  let l := s.link p
  let peer (f : ExchangeInfo → Nat) (d : Nat) : Nat := match l.peer with | some x => f x | none => d
  match k with
  | .link =>
    if off = Reg.KL_STATUS then
      some (lay [(l.st, 0), (peer (fun x => b2n x.host) 0, 4), (peer (fun x => b2n x.bridge) 0, 5),
        (peer (fun x => x.nodeId.toNat) 31, 6), (peer (fun x => x.bgen.toNat) 0, 11), (b2n l.encOn, 19),
        (b2n l.laneSwap, 20), (l.laneInv.toNat, 21), (downCode l.cause, 23)])
    else if off = Reg.KL_TRAIN_TIME then some (min l.trainUs 0xFFFFFF)
    else if off = Reg.KL_LINK_DELAY then some l.delay.toNat
    else if off = Reg.KL_TAGS_OUT then
      some (s.fab.tags.filter fun e => match e.2 with | some t => t.port == p | none => false).length
    else none
  | .linkSec =>
    if off = Reg.KL_SEC_STATUS then some (lay [(b2n (l.encOn && l.keys.isSome), 0), (l.txCount.toNat / 2 ^ 32 % 2 ^ 16, 1)])
    else none
  | _ => none

/-- FABRIC registers. -/
def State.viewFabric (s : State) (off : Nat) : Option Nat :=
  let f := s.fab
  if off = Reg.FB_NODE then
    some (lay [(f.nodeId, 0), (b2n f.enumerated, 5), (f.bgen.toNat, 6), (b2n s.sec.bridgeEn, 14), (f.hostPort, 15),
      (b2n f.hostActive, 17), (f.upstream, 18)])
  else if off = Reg.FB_ENUM_STATUS then
    some (lay [(f.enumCount, 0), (b2n f.enumDone, 5), (b2n f.enumOver, 6), (b2n f.walk.isSome, 7)])
  else none

/-- TSYNC registers: SYNC_SEEN is whether a SYNC was accepted within TB_HOLD_LIMIT. -/
def State.viewTsync (s : State) (off : Nat) : Option Nat :=
  if off = Reg.TS_STATUS then
    let lim := usTb (1000 * max 1 (s.fld Page.timebase Reg.TB_HOLD_LIMIT 0 16))
    some (lay [(b2n (s.fab.syncAny && decide (s.age s.fab.syncAt < lim)), 0), (s.fab.syncPort, 1)])
  else none

/-! ### Audio (R249, R250) -/

/-- The converter bank attached to a ring of port p and in use, if any. -/
def State.bankOfPort (s : State) (p : Nat) : Option Nat :=
  (List.range 3).find? fun b =>
    s.flag Page.asrc (Reg.ASRC_BANK + 16 * b) 5 && ringPort (s.fld Page.asrc (Reg.ASRC_BANK + 16 * b) 0 5) == p

/-- Audio port registers. -/
def State.viewPort (s : State) (p off : Nat) : Option Nat :=
  let x := s.port p
  if off = Reg.AP_STATUS then
    let gated := if x.st = 0 ∨ !s.portTx p then 0 else
      maskWhere (s.txSlots p) fun k => s.slotGated p k && !x.openSlots.contains k
    some (lay [(b2n x.clkPresent, 0), (b2n x.rateOk, 1), (b2n (x.filling || (x.st == 2 && !x.clkPresent)), 2),
      (match s.bankOfPort p with | some b => b2n (SMap.get s.audio.asrc b (false, false)).1 | none => 0, 3),
      (b2n (x.st == 1 && s.portMaster p && !x.clocks && !s.sourceLocked p), 4), (b2n x.driving, 5), (b2n x.lineStuck, 6), (gated, 7)])
  else none

/-- APLL registers: the lock state, and the steer applied now (R232). -/
def State.viewApll (s : State) (a off : Nat) : Option Nat :=
  let x := s.apll a
  if off = Reg.APLL_STATUS then some (lay [(b2n x.locked, 0), (b2n x.holdover, 1), (b2n x.clamped, 2), (b2n x.phaseLocked, 3)])
  else if off = Reg.APLL_STEER_NOW then
    some (BitVec.ofInt 32 (s.steerNow a)).toNat
  else none

/-- ASRC and AUDIO_BUF registers. -/
def State.viewRings (s : State) (k : PageKind) (off i : Nat) : Option Nat :=
  match k with
  | .asrc =>
    if off = Reg.ASRC_STATUS then
      let b := SMap.get s.audio.asrc i (false, false)
      some (lay [(b2n b.1, 0), (b2n b.2, 1)])
    else none
  | .audioBuf =>
    if off = Reg.AB_USED then
      some ((List.range 32).map fun r => let d := s.ringShape r; if d.valid then d.stop - d.base else 0).sum
    else none
  | _ => none

/-! ### Reads -/

/-- What the block shows in register `r` (copy `i`) of a page of kind `k`; none where the stored content is shown. -/
def State.viewOf (s : State) (page : Nat) (k : PageKind) (off i : Nat) : Option Nat :=
  if off < 0x40 then s.viewHeader page k off else
  match k with
  | .device => s.viewDevice off
  | .clocks => s.viewClocks off
  | .timebase => s.viewTimebase off
  | .angle => s.viewAngle off i
  | .pattern => s.viewPattern off i
  | .streams => s.viewStreams off i
  | .queueMgr => s.viewQueueMgr off i
  | .semaphores => s.viewSemaphores off
  | .safety => s.viewSafety off
  | .hang => s.viewHang off
  | .dump => s.viewDump off
  | .power => s.viewPower off i
  | .thermal => s.viewThermal off
  | .security => s.viewSecurity off i
  | .compression => s.viewCompression off i
  | .mirror => s.viewMirror off
  | .dpMain | .dpPair => s.viewDirectPath off
  | .cache => s.viewCache off
  | .debug => s.viewDebug off
  | .coreCtrl | .coreMatrix | .coreVector | .coreScan | .corePort | .coreMover | .coreStat => s.viewCore k (pageInstance page) off i
  | .link | .linkVc | .linkSec => s.viewLink k (pageInstance page) off
  | .fabric => s.viewFabric off
  | .tsync => s.viewTsync off
  | .dram => s.viewDram (pageInstance page) off
  | .serial | .pdmIn | .pdmOut => s.viewPort (page - Page.audio 0) off
  | .apll => s.viewApll (pageInstance page) off
  | .asrc | .audioBuf => s.viewRings k off i

/-- What a register reads now, without the read's side effects. A page whose domain is not ON reads zero, but for
ENABLE_PENDING (R426, R428); reserved pages and registers read zero (R9, R448). -/
def State.regView (s : State) (page off : Nat) : W32 :=
  if !s.pageOn page then (if off = Reg.PG_STATE then BitVec.ofNat 32 (4 * b2n (s.flag page Reg.PG_STATE 2)) else 0) else
  match pageKind page, regAt page off with
  | some k, some (r, i) =>
    match s.viewOf page k r.off i with
    | some v => regMasked r.fields (BitVec.ofNat 32 v)
    | none => regMasked r.fields (s.reg page off)
  | _, _ => 0

/-- A read of one register word: its value, and RC fields cleared (R8); a read of TB_NOW_LO or PT_BAR_NOW_LO latches the
HI register (R218). -/
def State.regReadAt (s : State) (page off : Nat) : W32 × State :=
  let v := s.regView page off
  if !s.pageOn page then (v, s) else
  match regAt page off with
  | none => (v, s)
  | some (r, _) =>
    let s := if hasAcc r.fields .rc then s.setReg page off (regRead1 r.fields (s.reg page off)) else s
    if page = Page.timebase ∧ off = Reg.TB_NOW_LO then
      (v, { s with time := { s.time with nowHi := (s.time.tb >>> 32).setWidth 32 } })
    else if page = Page.pattern ∧ off = Reg.PT_BAR_NOW_LO then
      (v, { s with pattern := { s.pattern with barHiLatch := BitVec.ofNat 32 (s.pattern.bar / 2 ^ 32) } })
    else if pageKind page = some .apll ∧ off = Reg.APLL_STEER_NOW then (v, { s with free := s.free + 1 })
    else (v, s)

/-! ### Writes of the header (R440, R444–R446) -/

/-- PG_STATE reads ON. -/
def State.readsOn (s : State) (page : Nat) : Bool :=
  match pageKind page with
  | some k => s.viewState page k % 4 == 2
  | none => false

/-- LOCK_REQ of a page: PG_LOCK at once where PG_STATE reads ON, otherwise when it does (R445). -/
def State.lockReq (s : State) (page : Nat) : State :=
  if !s.pageOn page || s.locked page || (pageKind page).isNone then s else
  let s := s.setFlag page Reg.PG_CTRL 2 true
  if s.readsOn page then s.lockPending page else s

/-- PG_LOCK.LOCKED set; LOCK_REQ clears with it (R445). -/
def State.lockPage (s : State) (page : Nat) : State :=
  if !s.pageOn page || (pageKind page).isNone then s
  else (s.setFlag page Reg.PG_LOCK 0 true).setFlag page Reg.PG_CTRL 2 false

/-- BLOCK_RESET on a page (R444): the state, and whether the page type takes it. -/
def State.blockReset (s : State) (src page : Nat) : Bool × State :=
  match pageKind page with
  | some .serial | some .pdmIn | some .pdmOut => (true, s.portBlockReset (page - Page.audio 0))
  | some .link => (true, s.linkBlockReset (pageInstance page))
  | some .dpMain => (true, s.dpBlockReset)
  | _ => (false, s.pgErrAt page Reg.PG_CTRL src [30])

/-- A write of PG_CTRL (R428, R440, R444, R445). -/
def State.pgCtrlWrite (s : State) (src page : Nat) (v : W32) : State :=
  let n := v.toNat
  if !s.pageOn page then s.blockEnable src page (bitOf n 0) else
  let (done, s) := if bitOf n 1 then s.blockReset src page else (false, s)
  let s := if done then s else s.blockEnable src page (bitOf n 0)
  if bitOf n 2 then s.lockReq page else s

/-- PG_IRQ_FORCE (R440). -/
def State.irqForce (s : State) (page : Nat) (v : W32) : State :=
  if !s.pageOn page || (pageKind page).isNone then s else
  let old := s.fld page Reg.PG_IRQ_STATUS 0 16
  s.summaryEdge (s.setFld page Reg.PG_IRQ_STATUS 0 16 (old ||| bitsOf v.toNat 0 16)) page

/-! ### Writes of the pages -/

/-- The stored content written by the access codes, a summary bit's rise noted (R8, R446). -/
def State.store (s : State) (page off : Nat) (r : RegDef) (v : W32) : State :=
  let s' := s.setReg page off (regWritten false r.fields (s.reg page off) v)
  if off < 0x40 then s.summaryEdge s' page else s'

/-- Whether a mask written into a field of PART register p would meet another partition's (R203). -/
def State.partMeets (s : State) (p reg lo w v : Nat) : Bool :=
  (List.range 8).any fun q => q != p && (s.fld Page.pattern (reg + 16 * q) lo w &&& bitsOf v lo w) != 0

/-- PATTERN page writes (R194, R200, R201, R203, R219). -/
def State.writePattern (s : State) (src off0 off i : Nat) (r : RegDef) (v : W32) : State :=
  let n := v.toNat
  let page := Page.pattern
  if off0 = Reg.PT_CTRL then
    let s := s.runWrite (bitOf n 0)
    if bitOf n 1 then s.switchWrite src else s
  else if off0 = Reg.PT_BAR_LEN then
    if !s.patternStopped || decide (bitsOf n 0 26 < 500000) || decide (64000000 < bitsOf n 0 26) then s.writeRefused page off src
    else s.store page off r v
  else if off0 = Reg.PT_EPOCH_LO ∨ off0 = Reg.PT_EPOCH_HI then
    if s.patternStopped then s.store page off r v else s.writeRefused page off src
  else if off0 = Reg.PT_ENTRY_SEL then s.ptSelWrite v
  else if off0 = Reg.PT_ENTRY then s.ptEntryWrite src i v
  else if off0 = Reg.PART_CORES then
    if s.partMeets i Reg.PART_CORES 0 32 n then s.writeRefused page off src else s.store page off r v
  else if off0 = Reg.PART_MEM then
    if s.partMeets i Reg.PART_MEM 0 4 n || s.partMeets i Reg.PART_MEM 16 16 n then s.writeRefused page off src
    else s.store page off r v
  else s.store page off r v

/-- TIMEBASE page writes (R185, R219). -/
def State.writeTimebase (s : State) (src off : Nat) (r : RegDef) (v : W32) : State :=
  let n := v.toNat
  let page := Page.timebase
  if off = Reg.TB_SET_LO then s.tbSet src v
  else if off = Reg.TB_SET_HI then s.tbSetHi src v
  else if off = Reg.TB_CTRL ∧ 17 < bitsOf n 2 5 then s.writeRefused page off src
  else if off = Reg.TB_SLEW_LIMIT ∧ (bitsOf n 0 10 = 0 ∨ 500 < bitsOf n 0 10) then s.writeRefused page off src
  else s.store page off r v

/-- ANGLE page writes (R190, R191, R219). -/
def State.writeAngle (s : State) (src off0 off a : Nat) (r : RegDef) (v : W32) : State :=
  let n := v.toNat
  if off0 = Reg.ANG_CTRL then
    if bitsOf n 13 2 = 3 then s.writeRefused Page.angle off src
    else
      let held := s.angleNow a
      let was := s.angMode a
      let s := s.store Page.angle off r v
      if s.angMode a = was then s else s.angModeChanged a held
  else if off0 = Reg.ANG_HS_COMMIT then if bitOf n 0 then s.angCommit a else s
  else s.store Page.angle off r v

/-- QUEUE_MGR page writes (R344, R354). -/
def State.writeQueueMgr (s : State) (src off0 off i : Nat) (r : RegDef) (v : W32) : State :=
  let page := Page.queueMgr
  if off0 = Reg.QM_ADMIN_CTRL then s.adminEnable src v
  else if Reg.QM_ADMIN_SQ_LO ≤ off0 ∧ off0 ≤ Reg.QM_ADMIN_SHAPE then
    if s.flag page Reg.QM_ADMIN_CTRL 0 then s.writeRefused page off src else s.store page off r v
  else if off0 = Reg.QM_VEC_CTRL then s.vecCtrlWrite i v
  else s.store page off r v

/-- POWER and THERMAL page writes (R427, R436, R439). -/
def State.writePower (s : State) (src off0 off i : Nat) (r : RegDef) (v : W32) : State :=
  let n := v.toNat
  let page := Page.power
  if off0 = Reg.PW_CTRL then
    if bitsOf n 0 3 < bitsOf n 3 3 ∨ 5 < bitsOf n 0 3 ∨ 5 < bitsOf n 3 3 then s.writeRefused page off src else s.store page off r v
  else if off0 = Reg.PW_LIMIT then
    if bitsOf n 0 9 < 64 ∨ 288 < bitsOf n 0 9 then s.writeRefused page off src else s.store page off r v
  else if off0 = Reg.PW_DOM_CTRL then if bitOf n 0 then s.domainUp i else s.domainDown src i
  else s.store page off r v

/-- SECURITY page writes: the actions of R405, R411, R415, R418 and R419. -/
def State.writeSecurity (s : State) (src off : Nat) (r : RegDef) (v : W32) : State :=
  let go := bitOf v.toNat 0
  if off = Reg.SEC_BOOT_GO then if go then s.bootGo src else s
  else if off = Reg.SEC_FUSE_CMD then s.fuseCmd src v
  else if off = Reg.SEC_KEY_CTRL then s.keyCtrl src v
  else if off = Reg.SEC_DBG_GO then if go then s.dbgGo src else s
  else if off = Reg.SEC_DBG_RELOCK then if go then s.dbgRelock src else s
  else if off = Reg.SEC_ATT_GO then if go then s.attGo src else s
  else if Reg.SEC_DBG_TOKEN ≤ off ∧ off < Reg.SEC_DBG_TOKEN + 4 * 48 then s.setReg Page.security off v
  else s.store Page.security off r v

/-- MIRROR page writes (R356, R361, R365). -/
def State.writeMirror (s : State) (src off0 off i : Nat) (r : RegDef) (v : W32) : State :=
  if off0 = Reg.MR_CTRL then s.mrCtrlWrite src v
  else if off0 = Reg.MR_AUDIT_IN then s.auditIn v
  else if off0 = Reg.MR_BIND_IN then s.bindWord i v
  else s.store Page.mirror off r v

/-- SAFETY page writes (R372, R373): a fixed class stays. -/
def State.writeSafety (s : State) (src off : Nat) (r : RegDef) (v : W32) : State :=
  if off = Reg.SF_CTRL then s.sfCtrlWrite src v
  else if off = Reg.SF_CLASS then s.store Page.safety off r (v ||| 3)
  else s.store Page.safety off r v

/-- DIRECT_PATH page writes (R259, R263): the configuration only while OFF. -/
def State.writeDirectPath (s : State) (src page off0 off : Nat) (r : RegDef) (v : W32) : State :=
  if page = Page.dpMain ∧ off0 = Reg.DP_LOAD_GO then (if bitOf v.toNat 0 then s.dpLoadGo else s)
  else
    let config := page = Page.dpPair ∨ off0 = Reg.DP_CTRL ∨ off0 = Reg.DP_PHASE ∨ off0 = Reg.DP_REF ∨ off0 = Reg.DP_ERR ∨
      off0 = Reg.DP_OUT ∨ off0 = Reg.DP_OSC ∨ off0 = Reg.DP_OSC_PHASE
    if config ∧ s.dp.st ≠ 0 then s.writeRefused page off src else s.store page off r v

/-- CACHE page writes (R276, R281): an enabled region's registers ignore writes. -/
def State.writeCache (s : State) (src off0 off i : Nat) (r : RegDef) (v : W32) : State :=
  if off0 = Reg.CA_MAINT then s.caMaint src v
  else if off0 = Reg.PR_CTRL then s.prCtrlWrite src i v
  else if (off0 = Reg.PR_BASE ∨ off0 = Reg.PR_END) ∧ s.prOn i then s.writeRefused Page.cache off src
  else s.store Page.cache off r v

/-- Whether region n of core c passes the checks of R126 as its registers stand. -/
def State.regionLegal (s : State) (c n : Nat) : Bool :=
  let g := s.region c n
  decide (1 ≤ g.groups) && decide (g.groups ≤ 4096) && decide (g.kind ≠ 3) &&
    (if g.kind = 1 then decide (1 ≤ g.depth) else g.depth == 0) && decide (g.nslots ≤ 2048) &&
    decide (g.base + g.nslots * g.lines ≤ 131072) &&
    (List.range 16).all fun m =>
      let h := s.region c m
      m == n || !h.valid || h.nslots == 0 || g.nslots == 0 ||
        !spansMeet h.base (h.nslots * h.lines) g.base (g.nslots * g.lines)

/-- A write of ST_REGION_SHAPE[n] (R126): VALID is set only when the checks pass. -/
def State.regionShapeWrite (s : State) (src c n : Nat) (v : W32) : State :=
  let page := Page.port c
  let off := Reg.ST_REGION_SHAPE + 16 * n
  if s.locked page then s.pgErrAt page off src [31] else
  let s := s.setReg page off (BitVec.ofNat 32 (bitsOf v.toNat 0 21))
  if !bitOf v.toNat 21 then s else
  if s.regionLegal c n then s.setFlag page off 21 true else s.writeRefused page off src

/-- Core page writes (R55, R90, R126, R149). -/
def State.writeCore (s : State) (src page : Nat) (k : PageKind) (off0 off i : Nat) (r : RegDef) (v : W32) : State :=
  let c := pageInstance page
  let n := v.toNat
  match k with
  | .coreStat =>
    if off0 = Reg.STAT_CTRL then
      let s := if bitOf n 0 then s.layerClear c else s
      if bitOf n 1 then s.tileClear c else s
    else s.store page off r v
  | .corePort =>
    if off0 = Reg.ST_REGION_SHAPE then s.regionShapeWrite src c i v
    else if off0 = Reg.ST_TAG_LIMIT ∧ (bitsOf n 0 7 = 0 ∨ 64 < bitsOf n 0 7) then s.writeRefused page off src
    else s.store page off r v
  | .coreMover =>
    if off0 = Reg.MV_TAG_LIMIT ∧ (bitsOf n 0 8 = 0 ∨ 128 < bitsOf n 0 8) then s.writeRefused page off src
    else s.store page off r v
  | _ => s.store page off r v

/-- LINK and FABRIC page writes (R323, R338): a weight for VC0 or VC1 is ignored. -/
def State.writeFabric (s : State) (src page : Nat) (k : PageKind) (off0 off i : Nat) (r : RegDef) (v : W32) : State :=
  let n := v.toNat
  match k with
  | .link =>
    if off0 = Reg.KL_TAG_LIMIT ∧ (bitsOf n 0 13 = 0 ∨ 4096 < bitsOf n 0 13) then s.writeRefused page off src
    else s.store page off r v
  | .linkVc =>
    if off0 = Reg.KL_VC_CREDIT ∧ i < 2 then s.store page off r (BitVec.ofNat 32 (putBits n 16 4 0)) else s.store page off r v
  | .fabric =>
    if off0 = Reg.FB_ENUM_CTRL then s.enumStart v
    else if off0 = Reg.FB_ROUTE ∧ (bitsOf n 0 3 = 5 ∨ bitsOf n 0 3 = 6) then s.writeRefused page off src
    else s.store page off r v
  | _ => s.store page off r v

/-- Audio page writes (R222, R235, R247, R250): ignored writes also set WRITE_IGNORED. -/
def State.writeAudio (s : State) (src page : Nat) (k : PageKind) (off0 off i : Nat) (r : RegDef) (v : W32) : State :=
  let n := v.toNat
  let ignored := s.pgErrAt page off src [28, 0]
  match k with
  | .serial | .pdmIn | .pdmOut =>
    let p := page - Page.audio 0
    let fixed := off0 = Reg.AP_FMT ∨ off0 = Reg.AP_CLK ∨ off0 = Reg.AP_RATE_NOM ∨ off0 = Reg.AP_START_T_LO ∨
      off0 = Reg.AP_START_T_HI ∨ off0 = Reg.AP_OUT_OFFSET ∨ off0 = Reg.AP_RATE_CTRL ∨ off0 = Reg.AP_GATE
    if fixed ∧ (s.port p).st ≠ 0 then ignored else s.store page off r v
  | .apll =>
    let a := pageInstance page
    let busy := (List.range 20).any fun p => (s.port p).st != 0 && s.clockedBy p a
    if off0 = Reg.APLL_CTRL ∨ off0 = Reg.APLL_MULT then
      if busy || (off0 == Reg.APLL_CTRL && (decide (1 < bitsOf n 0 2) || bitsOf n 2 8 == 0 || bitsOf n 10 2 == 3)) then ignored
      else
        let s := s.store page off r v
        let s := if off0 = Reg.APLL_CTRL ∧ bitsOf n 10 2 = 0 then s.steerTo a 0 else s
        s.setApll a { s.apll a with locked := false, phaseLocked := false, edges := 0 }
    else if off0 = Reg.APLL_LIMIT ∧ (bitsOf n 0 10 = 0 ∨ 1000 < bitsOf n 0 10) then ignored
    else s.store page off r v
  | .asrc =>
    if off0 = Reg.ASRC_BANK then
      let off1 := s.fld page off 0 5
      let off2 := bitsOf n 0 5
      if bitOf n 5 ≠ s.flag page off 5 ∧ ((s.port (ringPort off1)).st ≠ 0 ∨ (s.port (ringPort off2)).st ≠ 0) then ignored
      else
        let s := s.store page off r v
        if bitOf n 5 then s else { s with audio := { s.audio with asrc := SMap.set s.audio.asrc i (false, false) (false, false) } }
    else s.store page off r v
  | .audioBuf =>
    if off0 = Reg.RING_SHAPE then s.ringShapeWrite src i v
    else if off0 = Reg.RING_BASE ∨ off0 = Reg.RING_FRAMES ∨ off0 = Reg.RING_SLOT then
      if s.ringWritable i then s.store page off r v else ignored
    else s.store page off r v
  | _ => s.store page off r v

/-- A write of register `r` (base offset `off0`, copy `i`) on a page that is ON. -/
def State.writePage (s : State) (src page : Nat) (k : PageKind) (off0 off i : Nat) (r : RegDef) (v : W32) : State :=
  let n := v.toNat
  match k with
  | .pattern => s.writePattern src off0 off i r v
  | .timebase => s.writeTimebase src off r v
  | .angle => s.writeAngle src off0 off i r v
  | .streams =>
    if (off0 = Reg.WL_BASE ∨ off0 = Reg.WL_STRIDE) ∧ n % 256 ≠ 0 then s.writeRefused page off src else s.store page off r v
  | .queueMgr => s.writeQueueMgr src off0 off i r v
  | .safety => s.writeSafety src off r v
  | .hang => if off0 = Reg.HG_RESET_REQ then s.resetReq src v else s.store page off r v
  | .power => s.writePower src off0 off i r v
  | .thermal =>
    if off0 = Reg.TH_CTRL ∧ s.tjMax - 5 < (BitVec.ofNat 8 n).toInt then s.writeRefused page off src else s.store page off r v
  | .security => s.writeSecurity src off r v
  | .compression =>
    if off0 = Reg.CE_JOB_GO then (if bitOf n 0 then s.jobGo else s)
    else if off0 = Reg.CE_TAG_LIMIT ∧ (bitsOf n 0 12 = 0 ∨ 2048 < bitsOf n 0 12) then s.writeRefused page off src
    else s.store page off r v
  | .mirror => s.writeMirror src off0 off i r v
  | .dpMain | .dpPair => s.writeDirectPath src page off0 off r v
  | .cache => s.writeCache src off0 off i r v
  | .coreCtrl | .coreMatrix | .coreVector | .coreScan | .corePort | .coreMover | .coreStat => s.writeCore src page k off0 off i r v
  | .link | .linkVc | .linkSec | .fabric => s.writeFabric src page k off0 off i r v
  | .serial | .pdmIn | .pdmOut | .apll | .asrc | .audioBuf => s.writeAudio src page k off0 off i r v
  | .device | .clocks | .semaphores | .dump | .debug | .tsync | .dram => s.store page off r v

/-- A write of one register word by node `src` (R8–R10, R426, R442–R448, R474): reserved pages and registers ignore it, a
page whose domain is not ON takes ENABLE only, and a locked RWL field keeps its value with LOCKED_WRITE. -/
def State.regWriteAt (s : State) (src page off : Nat) (v : W32) : State :=
  match pageKind page, regAt page off with
  | some k, some (r, i) =>
    if off = Reg.PG_CTRL then s.pgCtrlWrite src page v
    else if !s.pageOn page then s
    else if off = Reg.PG_IRQ_FORCE then s.irqForce page v
    else if off = Reg.PG_LOCK then (if bitOf v.toNat 0 then s.lockPage page else s)
    else if s.locked page && hasAcc r.fields .rwl then s.pgErrAt page off src [31]
    else if off < 0x40 then s.store page off r v
    else s.writePage src page k r.off off i r v
  | _, _ => s

/-! ### Commands that are one register access -/

/-- REGISTER_WRITE (R8): register number `reg` is the word at byte offset 4 · reg. -/
def execRegisterWrite (src : NodeId) (page : PageId) (reg : Fin 1024) (v : W32) (s : State) : Host.Outcome State Fault Refusal :=
  .next (s.regWriteAt src.val page.val (4 * reg.val) v)

/-- RC_READ (R8): a read of a register with RC fields. -/
def execRcRead (_src : NodeId) (page : PageId) (reg : Fin 1024) (s : State) : Host.Outcome State Fault Refusal :=
  .next (s.regReadAt page.val (4 * reg.val)).2

/-- PG_LOCK (R445). -/
def execPgLock (_src : NodeId) (page : PageId) (s : State) : Host.Outcome State Fault Refusal := .next (s.lockPage page.val)

/-- LOCK_REQ (R445). -/
def execLockReq (_src : NodeId) (page : PageId) (s : State) : Host.Outcome State Fault Refusal := .next (s.lockReq page.val)

/-- PG_IRQ_FORCE (R440). -/
def execPgIrqForce (_src : NodeId) (page : PageId) (v : W32) (s : State) : Host.Outcome State Fault Refusal :=
  .next (s.irqForce page.val v)

/-- REGION_SHAPE_VALID (R126): ST_REGION_SHAPE written with VALID = 1. -/
def execRegionShapeValid (src : NodeId) (c : CoreId) (n : Fin 16) (v : W32) (s : State) : Host.Outcome State Fault Refusal :=
  if s.pageOn (Page.port c.val) then
    .next (s.regionShapeWrite src.val c.val n.val (BitVec.ofNat 32 (putBits v.toNat 21 1 1)))
  else .next s

end Sys2Proof.Machine
end

