-- ==== Sys2Proof/Machine/Bus.lean ====
section
/-!
DEFINITION. One access of a requester to the local map of R316, whatever region it names: reads, writes and atomic
operations, with the checks of R317, R419 and R422 that concern the region, and the WIDTH error of R452.
-/
namespace Sys2Proof.Machine

/-- Whether an access to a register page is unaligned or covers part of a word (R452). -/
def widthBad (off len : Nat) : Bool := off % 4 != 0 || len % 4 != 0

/-- Words of a page read in ascending offset order (R442). -/
def State.regWords (s : State) (page off : Nat) : Nat → List Byte × State
  | 0 => ([], s)
  | n + 1 =>
    let (v, s) := s.regReadAt page off
    let (l, s) := s.regWords page (off + 4) n
    (leBytes 4 v.toNat ++ l, s)

/-- A read of a register page (R316, R452): a bad width completes with zeros and sets WIDTH. -/
def State.busReadRegs (s : State) (page off len : Nat) : List Byte × State :=
  if widthBad off len then
    (List.replicate len 0, if (pageKind page).isSome && s.pageOn page then s.pgErr page 29 else s)
  else s.regWords page off (len / 4)

/-- Words written to a page in ascending offset order (R442). -/
def State.regWriteWords (s : State) (src page off : Nat) (l : List Byte) : Nat → State
  | 0 => s
  | n + 1 =>
    (s.regWriteAt src page off (BitVec.ofNat 32 (natAt l 0 4))).regWriteWords src page (off + 4) (l.drop 4) n

/-- Whether a register write of node `src` is denied: over a link from a node other than 0 without REG_PEER (R317), to the
SECURITY page from a node other than 0 but for SEC_BOOT_GO (R422), to the DEBUG page without a TRACE grant (R419). -/
def State.regDenied (s : State) (link : Bool) (src page off len : Nat) : Bool :=
  (link && src != 0 && !s.flag Page.fabric Reg.FB_ACCESS 8) ||
  (page == Page.security && src != 0 && !(off == Reg.SEC_BOOT_GO && len == 4)) ||
  (page == Page.debug && !bitOf s.sec.levels.toNat 2)

/-- A write of a register page: its status, and the state (R316, R452). -/
def State.busWriteRegs (s : State) (link : Bool) (src page off : Nat) (l : List Byte) : Nat × State :=
  if s.regDenied link src page off l.length then (0x0D, s)
  else if widthBad off l.length then
    (0, if (pageKind page).isSome && s.pageOn page then s.pgErrAt page off src [29] else s)
  else (0, s.regWriteWords src page off l (l.length / 4))

/-- A read of at most 256 bytes of the local map on behalf of `who`, on virtual channel `vc`: status, bytes, state. -/
def State.busRead (s : State) (who : Requester) (vc a len : Nat) : Nat × List Byte × State :=
  match regionOf a with
  | .dram | .scratch _ _ | .dump _ => s.readPiece who false a len
  | .stateWin off =>
    if vc = 7 && bitOf s.sec.levels.toNat 0 then
      (0, memGet (s.core (off / 0x400000)).store (off % 0x400000) len, s)
    else (0x0D, [], s)
  | .regs page off => let r := s.busReadRegs page off len; (0, r.1, r.2)
  | .sem n 0 => if len = 8 then (0, leBytes 8 (s.sem n).toNat, s) else (0x0D, [], s)
  | _ => (0x0D, [], s)

/-- A write of at most 256 bytes to the local map on behalf of `who` by node `src`, over a link or not: status and state. A
semaphore's count is set only from node 0 (R313). -/
def State.busWrite (s : State) (who : Requester) (link : Bool) (src a : Nat) (l : List Byte) : Nat × State :=
  match regionOf a with
  | .dram | .scratch _ _ => s.writePiece who a l
  | .regs page off => s.busWriteRegs link src page off l
  | .doorbell q true => if l.length = 8 then s.doorbell src q (BitVec.ofNat 64 (leNat l)) else (0x0D, s)
  | .sem n 0 =>
    if l.length = 8 ∧ src = 0 then (0, (s.setSem n (BitVec.ofNat 32 (natAt l 0 4))).grantAll) else (0x0D, s)
  | _ => (0x0D, s)

/-- An atomic operation on 8 bytes of DRAM or of a scratchpad (R314): the addition of `operand`, or with `swap` the write of
the swap value where the old value equals `operand`. Status, old value and state; an address that is not 8-byte aligned
answers BAD_COMMAND (DESIGN CHOICE, notes/assumptions/89.md). -/
def State.busAtomic (s : State) (who : Requester) (a : Nat) (operand : W64) (swap : Option W64) : Nat × W64 × State :=
  let act (s : State) : Nat × W64 × State :=
    if a % 8 ≠ 0 then (0x0E, 0, s) else
    let (st, l, s) := s.readPiece who false a 8
    if st ≠ 0 then (st, 0, s) else
    let old := BitVec.ofNat 64 (leNat l)
    let new := match swap with
      | some v => if old = operand then some v else none
      | none => some (old + operand)
    match new with
    | none => (0, old, s)
    | some v => let w := s.writePiece who a (leBytes 8 v.toNat); (w.1, old, w.2)
  match regionOf a with
  | .dram | .scratch _ _ => act s
  | _ => (0x0D, 0, s)

end Sys2Proof.Machine
end

