-- ==== Sys2Proof/Machine/Mover.lean ====
section
/-!
DEFINITION. The mover (R84–R90): the transactions of each word, their issue under tags, what a reply or a failure does, and the
withdrawal of a semaphore wait (R213). A transaction on this device is done as it is issued, and holds its tag until its completion
returns: with the word, at an idle cycle, or at a reply commanded for it (DESIGN CHOICE, notes/assumptions/114.md); a remote one is
done when its reply, or its timeout, is commanded.
-/
namespace Sys2Proof.Machine

/-! ### Addresses and transactions of a word (R84–R86) -/

/-- One transaction of a mover word: its global address, where its bytes go or come from (a byte of the tile register file, or
for a copy the global destination), and its length. -/
structure MvTxn where
  addr : W64
  other : Nat
  len : Nat
deriving DecidableEq, Repr

/-- IMM sign-extended to 64 bits (R84). -/
def immOff (w : TileWord) : W64 := w.imm.signExtend 64

/-- The global address of a word's x[XA] operand, with IMM where the word adds it (R84). -/
def mvAddr (e : QEntry) : W64 :=
  match e.op with
  | .tload | .tstore | .matom => e.xa + immOff e.w
  | _ => e.xa

/-- STRIDE of a tile transfer; 0 means 32 (R84). -/
def mvStride (w : TileWord) : Nat := if w.f 50 16 = 0 then 32 else w.f 50 16

/-- The transactions of a tile transfer: one contiguous span, or one 32-byte row each (R84, R86). -/
def tileTxns (e : QEntry) : List MvTxn :=
  let base := 1024 * e.w.ta.toNat
  let rows := 32 * (e.w.f 47 3 + 1)
  let a := mvAddr e
  let st := mvStride e.w
  if st = 32 then
    (pieces a.toNat (32 * rows)).map fun p => { addr := BitVec.ofNat 64 p.1, other := base + (p.1 - a.toNat), len := p.2 }
  else
    (List.range rows).map fun i => { addr := a + BitVec.ofNat 64 (i * st), other := base + 32 * i, len := 32 }

/-- The transactions of a copy: cut at the 256-byte boundaries of the source and of the destination (R86); `fuel` bounds
their number. -/
def copyTxns (fuel : Nat) (src dst : W64) (len : Nat) : List MvTxn :=
  match fuel with
  | 0 => []
  | fuel + 1 =>
    if len = 0 then [] else
    let n := min len (min (256 - src.toNat % 256) (256 - dst.toNat % 256))
    { addr := src, other := dst.toNat, len := n } ::
      copyTxns fuel (src + BitVec.ofNat 64 n) (dst + BitVec.ofNat 64 n) (len - n)

/-- The transactions of a mover word. -/
def mvTxns (e : QEntry) : List MvTxn :=
  match e.op with
  | .tload | .tstore => tileTxns e
  | .mcopy => copyTxns (e.xc.toNat / 128 + 4) e.xa e.xb e.xc.toNat
  | .mfence => []
  | _ => [{ addr := mvAddr e, other := 0, len := 8 }]

/-- Whether a word breaks R85 at execution: addresses, stride, length, result offset. -/
def mvMisaligned (e : QEntry) : Bool :=
  let a := (mvAddr e).toNat
  match e.op with
  | .tload | .tstore => a % 32 != 0 || mvStride e.w % 32 != 0
  | .mcopy => a % 32 != 0 || e.xb.toNat % 32 != 0 || e.xc.toNat % 32 != 0 || decide (2 ^ 24 < e.xc.toNat)
  | .semsig | .semwait => a % 8 != 0
  | .matom => a % 8 != 0 || e.xd.toNat % 8 != 0 || decide (4194296 < e.xd.toNat)
  | _ => false

/-! ### Tags of a word and of a core (R86, R87) -/

/-- Whether a tag belongs to word `seq` of core c. -/
def Tag.of (t : Tag) (c seq : Nat) : Bool := t.core == some (Fin.ofNat 32 c) && t.seq == seq

/-- Whether word `seq` of core c has a transaction outstanding. -/
def State.mvWaits (s : State) (c seq : Nat) : Bool :=
  s.waitsTag (fun t => t.of c seq) || s.fab.tags.any fun e => match e.2 with | some t => t.of c seq | none => false

/-- The tags that the mover of core c holds or waits for. -/
def State.mvTags (s : State) (c : Nat) : Nat :=
  (s.tagCount fun t => t.core == some (Fin.ofNat 32 c)) + (s.fab.backlog.filter fun r => r.2.2.core == some (Fin.ofNat 32 c)).length

/-- MV_TAG_LIMIT of core c. -/
def State.mvLimit (s : State) (c : Nat) : Nat := s.fld (Page.mover c) Reg.MV_TAG_LIMIT 0 8

/-- Whether a started mover word has issued and completed every transaction. -/
def State.mvDone (s : State) (c : Nat) (e : QEntry) : Bool :=
  e.started && decide ((mvTxns e).length ≤ e.txn) && !s.mvWaits c e.seq

/-- The tag of a transaction of word e. -/
def mvTag (c : Nat) (s : State) (e : QEntry) (a : W64) (len : Nat) (kind : TagKind) : Tag :=
  { plainTag with core := some (Fin.ofNat 32 c), seq := e.seq, ctx := some e.ctx, gen := s.gen e.ctx.val, addr := a, len := len,
                  count := e.w.imm.toNat % 65536, sig := e.w.sig, sigv := e.w.sigv, kind := kind, detached := e.detached,
                  since := s.now }

/-- The tag of an access on this device that is done: it returns later (R86). -/
def State.holdHere (s : State) (c : Nat) (e : QEntry) (a : W64) (len : Nat) : State :=
  let i := lowestFree (s.fab.tags.map (·.1)) 0
  s.setTag i (some { mvTag c s e a len .here with epoch := s.epoch i, dst := s.node })

/-- Whether a tile transfer's address lies in the core's own scratchpad: such a move takes no tag (R86). -/
def State.ownScratch (s : State) (c : Nat) (op : TileOp) (a : W64) : Bool :=
  (op == .tload || op == .tstore) && nodeOf a == s.node && decide (localOf a / 0x400000 = 0x10000000000 / 0x400000 + c)

/-- A request of word e sent to another node, or its failure at once (R317, R335). -/
def State.mvRequest (s : State) (c vc : Nat) (e : QEntry) (p : Packet) (t : Tag) : State :=
  let n := p.dst.toNat
  match s.refuseRequest n with
  | some st => s.latchFail c e.ctx.val st
  | none => s.request vc p t

/-- The packet of a request to a global address. -/
def State.mvPacket (s : State) (ttype : Nat) (a : W64) : Packet :=
  { s.newPacket ttype (nodeOf a) with addr := BitVec.ofNat 64 (localOf a) }

/-- Whether a global address lies on this device. -/
def State.isLocal (s : State) (a : W64) : Bool := nodeOf a == s.node && s.node != 31

/-! ### Bytes moved (R84, R86, R89) -/

/-- A virtual channel for reads and writes of a word: bulk for a copy (R308). -/
def mvVc (op : TileOp) : Nat := if op = .mcopy then 6 else 2

/-- The status of a local access latched where it failed; otherwise its bytes count (R89, R92). -/
def State.mvStatus (s : State) (c ctx st len : Nat) : State :=
  if st = 0 then s.count (Page.mover c) Reg.MV_BYTES len else s.latchFail c ctx st

/-- Bytes read from an address of this device for context n. -/
def State.mvRead (s : State) (n : CtxId) (a : W64) (len : Nat) : Nat × List Byte × State := s.busRead (.ctx n) 2 (localOf a) len

/-- Bytes written to an address of this device for context n. -/
def State.mvWrite (s : State) (n : CtxId) (a : W64) (l : List Byte) : Nat × State :=
  s.busWrite (.ctx n) false s.node (localOf a) l

/-- Tiles written from byte `o` of the register file of core c. -/
def State.putTiles (s : State) (c o : Nat) (l : List Byte) : State := s.modCore c fun k => k.tilePut o l

/-- The write half of a copy, or a store: local at once, remote under a tag. -/
def State.mvStore (s : State) (c : Nat) (e : QEntry) (a : W64) (l : List Byte) : State :=
  if s.isLocal a then
    let (st, s) := s.mvWrite e.ctx a l
    let s := s.mvStatus c e.ctx.val st l.length
    if s.ownScratch c e.op a then s else s.holdHere c e a l.length
  else
    let n := BitVec.ofNat 16 l.length
    s.mvRequest c (mvVc e.op) e { s.mvPacket 0x11 a with len := n, wlen := n, data := l } (mvTag c s e a l.length .ack)

/-- A semaphore wait put to the unit of its node: under a tag on this device too (R86, R313). -/
def State.mvSemWait (s : State) (c : Nat) (e : QEntry) (a : W64) : State :=
  let count := e.w.imm.toNat % 65536
  let t := mvTag c s e a 8 .semWait
  let p := { s.mvPacket 0x15 a with operand := BitVec.ofNat 64 count }
  if s.isLocal a then
    match regionOf (localOf a) with
    | .sem n 0 =>
      let i := lowestFree (s.fab.tags.map (·.1)) 0
      let p := { p with tag := BitVec.ofNat 13 i, epoch := s.epoch i, ctx := BitVec.ofNat 6 e.ctx.val, cgv := true,
                        cgen := s.gen e.ctx.val }
      let s := s.setTag i (some { t with epoch := s.epoch i, dst := s.node })
      let (st, s) := s.semWait n count p
      if st = 0x10 then s.setTag i (some { t with epoch := p.epoch, dst := s.node, busy := true }) else s
    | _ => s.latchFail c e.ctx.val 0x0D
  else s.mvRequest c 2 e p t

/-- A semaphore signal of a word (R84, R88). -/
def State.mvSemSig (s : State) (c : Nat) (e : QEntry) (a : W64) : State :=
  let count := e.w.imm.toNat % 65536
  if s.isLocal a then
    match regionOf (localOf a) with
    | .sem n 0 => (s.semSignal n count (some (s.node, e.ctx.val))).holdHere c e a 8
    | _ => s.latchFail c e.ctx.val 0x0D
  else s.mvRequest c 2 e { s.mvPacket 0x14 a with operand := BitVec.ofNat 64 count } (mvTag c s e a 8 .ack)

/-- An atomic of a word (R84, R314): the old value lands in the core's own scratchpad at x[XD]. -/
def State.mvAtomic (s : State) (c : Nat) (e : QEntry) (a : W64) : State :=
  let cas := e.w.b 66
  if s.isLocal a then
    let (st, old, s) := s.busAtomic (.ctx e.ctx) (localOf a) e.xb (if cas then some e.xc else none)
    (if st = 0 then (s.scratchPut c e.xd.toNat (leBytes 8 old.toNat)).mvStatus c e.ctx.val 0 8
     else s.latchFail c e.ctx.val st).holdHere c e a 8
  else
    let p := { s.mvPacket (if cas then 0x13 else 0x12) a with operand := e.xb }
    let p := if cas then { p with len := 8, wlen := 8, data := leBytes 8 e.xc.toNat } else p
    s.mvRequest c 2 e p (mvTag c s e a 8 (.atomic e.xd.toNat))

/-- One transaction of word e issued (R84, R86). -/
def State.mvIssue (s : State) (c : Nat) (e : QEntry) (t : MvTxn) : State :=
  match e.op with
  | .tload =>
    if s.isLocal t.addr then
      let (st, l, s) := s.mvRead e.ctx t.addr t.len
      let s := (if st = 0 then s.putTiles c t.other l else s).mvStatus c e.ctx.val st t.len
      if s.ownScratch c e.op t.addr then s else s.holdHere c e t.addr t.len
    else s.mvRequest c 2 e { s.mvPacket 0x10 t.addr with operand := BitVec.ofNat 64 t.len }
      (mvTag c s e t.addr t.len (.loadTile t.other))
  | .tstore => s.mvStore c e t.addr ((s.core c).tileBytes t.other t.len)
  | .mcopy =>
    if s.isLocal t.addr then
      let (st, l, s) := s.mvRead e.ctx t.addr t.len
      if st = 0 then s.mvStore c e (BitVec.ofNat 64 t.other) l else (s.latchFail c e.ctx.val st).holdHere c e t.addr t.len
    else s.mvRequest c 6 e { s.mvPacket 0x10 t.addr with operand := BitVec.ofNat 64 t.len }
      (mvTag c s e t.addr t.len (.copyRead (BitVec.ofNat 64 t.other)))
  | .semsig => s.mvSemSig c e t.addr
  | .semwait => s.mvSemWait c e t.addr
  | .matom => s.mvAtomic c e t.addr
  | _ => s

/-- `s` with the mover entry of word `seq` changed. -/
def State.modEntry (s : State) (c seq : Nat) (f : QEntry → QEntry) : State :=
  s.modCore c fun k => { k with moverQ := k.moverQ.map fun e => if e.seq = seq then f e else e }

/-- The remaining transactions of word e issued, until the core holds MV_TAG_LIMIT tags; a move between the tiles and the own
scratchpad needs none (R86). -/
def State.mvIssueAll (s : State) (c : Nat) (e : QEntry) : List MvTxn → State
  | [] => s
  | t :: r =>
    if !s.ownScratch c e.op t.addr && decide (s.mvLimit c ≤ s.mvTags c) then s
    else ((s.modEntry c e.seq fun x => { x with txn := x.txn + 1 }).mvIssue c e t).mvIssueAll c e r

/-- Started words go on issuing, oldest first (R86). -/
def State.mvContinue (s : State) (c : Nat) : State :=
  (s.core c).moverQ.foldl (fun s e => if e.started then s.mvIssueAll c e ((mvTxns e).drop e.txn) else s) s

/-- The completions that the accesses of core c on this device wait for return. -/
def State.freeHere (s : State) (c : Nat) : State :=
  s.fab.tags.foldl (fun s e =>
    match e.2 with
    | some t => if t.kind = .here ∧ t.core = some (Fin.ofNat 32 c) then s.freeTag e.1 else s
    | none => s) s

/-- Completions return and started words go on issuing, until nothing on this device is outstanding; `fuel` bounds the rounds. -/
def State.returnHere (s : State) (c : Nat) : Nat → State
  | 0 => s
  | fuel + 1 => if s.tagCount (fun t => t.kind == .here && t.core == some (Fin.ofNat 32 c)) = 0 then s
                else ((s.freeHere c).mvContinue c).returnHere c fuel

/-- Rounds that suffice: one for each transaction of the started words. -/
def State.hereRounds (s : State) (c : Nat) : Nat := ((s.core c).moverQ.map fun e => (mvTxns e).length + 1).sum + 1

/-! ### Replies (R89, R312–R314) -/

/-- The entry of a tag, if the word is still in its queue. -/
def State.tagEntry (s : State) (t : Tag) : Option QEntry :=
  match t.core with
  | some c => (s.core c.val).moverQ.find? fun e => e.seq == t.seq
  | none => none

/-- A good reply lands (R84, R213, R163): tiles, the write half of a copy, the old value of an atomic, or the bytes of a
stream's payload, unless the copy has failed before them. The tag is free already. -/
def State.replyLands (s : State) (t : Tag) (operand : W64) (data : List Byte) : State :=
  match t.kind, t.core with
  | .loadTile o, some c => (s.putTiles c.val o (bytesAt data 0 t.len)).count (Page.mover c.val) Reg.MV_BYTES t.len
  | .copyRead d, some c =>
    match s.tagEntry t with
    | some e => s.mvStore c.val e d (bytesAt data 0 t.len)
    | none => s
  | .atomic o, some c => (s.scratchPut c.val o (leBytes 8 operand.toNat)).count (Page.mover c.val) Reg.MV_BYTES 8
  | .ack, some c => if t.len = 8 then s else s.count (Page.mover c.val) Reg.MV_BYTES t.len
  | .semWait, _ => s.endWaits fun w => w.kind == 2 && w.ctx == t.ctx && w.obj == t.addr
  | .semCancel, _ => if operand = 1 then s.signalGlobal t.addr t.count t.ctx else s
  | .streamRead i o, _ =>
    s.modStream i fun x => { x with admitted := x.admitted.map fun a =>
      if a.data.length ≤ o then a
      else { a with data := a.data.take o ++ bytesAt data 0 t.len ++ a.data.drop (o + t.len) } }
  | .ceRead j b o, _ => State.cePump { s with ce := s.ce.landed j b o t.len 0 data }
  | .ceWrite _, _ => s.cePump
  | .loadRead i o, _ => s.listLanded i o t.len 0 data
  | .slotWrite n, _ => s.slotAcked n
  | .dumpWrite n, _ => s.dumpLanded n 0
  | _, _ => s

/-- MV_TIMEOUT of a mover's transaction in µs; 0 acts as 1 (R92). -/
def State.mvTimeout (s : State) (t : Tag) : Nat :=
  match t.core with
  | some c => max 1 (s.fld (Page.mover c.val) Reg.MV_TIMEOUT 0 16)
  | none => 0

/-- Whether MV_TIMEOUT of a mover's transaction has run out: a reply exactly at its timeout is too late (R92, R193). -/
def State.tooLate (s : State) (t : Tag) : Bool :=
  t.core.isSome && t.kind != .semWait && t.kind != .here && decide (usTb (s.mvTimeout t) ≤ s.age t.since)

/-- A reply to the transaction under tag i (R89): the tag is freed; a grant answered BUSY keeps its tag until the wait is
re-issued (R313); a reply at or after MV_TIMEOUT completes the transaction with TIMEOUT; a failure leaves the destination unchanged and is latched. -/
def State.txnReply (s : State) (i status : Nat) (operand : W64) (data : List Byte) : State :=
  match s.tag i with
  | none => s
  | some t =>
    if t.kind = .semWait ∧ status = 0x10 then s.setTag i (some { t with busy := true })
    else
      let status := if s.tooLate t then 0x0B else status
      let s := s.freeTag i
      if status = 0 then s.replyLands t operand data else s.txnFailed t status

/-- A wait answered BUSY is put to its semaphore unit again under its tag (R313). -/
def State.mvReissue (s : State) (i : Nat) (t : Tag) : State :=
  let n := match t.ctx with | some n => n.val | none => 0
  let p := { s.mvPacket 0x15 t.addr with
    operand := BitVec.ofNat 64 t.count, tag := BitVec.ofNat 13 i, epoch := t.epoch, ctx := BitVec.ofNat 6 n, cgv := true,
    cgen := t.gen }
  let s := s.setTag i (some { t with busy := false })
  if s.isLocal t.addr then
    match regionOf (localOf t.addr) with
    | .sem k 0 =>
      let (st, s) := s.semWait k t.count p
      if st = 0x10 then s.setTag i (some { t with busy := true }) else s
    | _ => s
  else
    match s.refuseRequest (nodeOf t.addr) with
    | some st => s.failTag i st
    | none => s.send 2 p

/-! ### Withdrawal at a pre-emption point (R213) -/

/-- The tag under which word `seq` of core c waits for a semaphore. -/
def State.waitTag (s : State) (c seq : Nat) : Option (Nat × Tag) :=
  s.fab.tags.findSome? fun e =>
    match e.2 with
    | some t => if t.of c seq && t.kind == .semWait then some (e.1, t) else none
    | none => none

/-- A pending wait withdrawn: a wait still queued here is removed; one queued at another node by SEM_CANCEL, whose answer the
core then waits for (R213, R313). The grant that may still arrive fails its epoch. -/
def State.withdraw (s : State) (c : Nat) (e : QEntry) : State :=
  match s.waitTag c e.seq with
  | none =>
    (s.dropWaiting fun t => t.of c e.seq).endWaits fun w =>
      w.kind == 2 && w.ctx == some e.ctx && w.obj == mvAddr e && s.waitsTag fun t => t.of c e.seq
  | some (i, t) =>
    let s := (s.abandonTag i).endWaits fun w => w.kind == 2 && w.ctx == t.ctx && w.obj == t.addr
    if t.busy then s
    else if s.isLocal t.addr then
      match regionOf (localOf t.addr) with
      | .sem n 0 => (s.semCancel n s.node i).2
      | _ => s
    else
      let p := { s.mvPacket 0x16 t.addr with operand := BitVec.ofNat 64 (i + 8192 * t.epoch.toNat) }
      match s.refuseRequest (nodeOf t.addr) with
      | some _ => s
      | none => s.request 2 p { t with kind := .semCancel, busy := false }

end Sys2Proof.Machine
end

