-- ==== Sys2Proof/Machine/Hazard.lean ====
section
/-!
DEFINITION. Words of different engines that no token orders (R61): the tiles, scratchpad bytes, summaries, masks and records that
a word reads and writes, and the unpredictable results where two that run at once meet (notes/assumptions/90.md).
-/
namespace Sys2Proof.Machine

/-! ### Footprints (R64) -/

/-- Spans of tiles: first tile and number. -/
abbrev Spans := List (Nat × Nat)

/-- A span where `used` holds. -/
def spanIf (used : Bool) (base : BitVec 6) (n : Nat) : Spans := if used then [(base.toNat, n)] else []

/-- Whether two lists of spans share a tile. -/
def Spans.meet (a b : Spans) : Bool := a.any fun x => b.any fun y => spansMeet x.1 x.2 y.1 y.2

/-- The activation tiles of an MMA: by its bank's START fields where it continues one (R75). -/
def Core.mmaTiles (k : Core) (w : TileWord) : Nat :=
  let b := k.bank (w.f 32 2)
  if w.b 34 || !b.isOpen then activationTiles (w.b 35) (BitVec.ofNat 2 (w.f 36 2)) else activationTiles b.wfmt b.afmt

/-- The tiles that a word reads. -/
def Core.tileReads (k : Core) (op : TileOp) (w : TileWord) : Spans :=
  match op with
  | .mma => [(w.ta.toNat, k.mmaTiles w), (w.tb.toNat, 1), (w.tc.toNat, 1)]
  | .mout => [(w.tb.toNat, 1), (w.tc.toNat, 1)]
  | .scan => [(w.tb.toNat, inTiles w), (w.tc.toNat, inTiles w)] ++ spanIf (w.f 57 2 == 2) w.td (if w.b 65 then 2 else 4)
  | .sshift | .shsave => [(w.tb.toNat, inTiles w)]
  | .spstore => [(w.ta.toNat, 1), (w.td.toNat, 1)]
  | .tstore => [(w.ta.toNat, w.f 47 3 + 1)]
  | .tload | .spzero | .spload | .mcopy | .semsig | .semwait | .matom | .mfence => []
  | _ =>
    let (_, tb, tc, td) := vectorUses op w
    spanIf (op == .vfma) w.ta (vdf w).tiles ++ spanIf tb w.tb (vsf w).tiles ++ spanIf tc w.tc (vsf w).tiles ++ spanIf td w.td 1

/-- The tiles that a word writes. -/
def tileWrites (op : TileOp) (w : TileWord) : Spans :=
  match op with
  | .mout => [(w.ta.toNat, if w.b 34 then 2 else 4)]
  | .scan => spanIf (w.f 55 2 != 0) w.ta (if w.f 55 2 = 1 then 4 else 2)
  | .sshift => [(w.ta.toNat, inTiles w)]
  | .spload => [(w.ta.toNat, 1), (w.td.toNat, 1)]
  | .tload => [(w.ta.toNat, w.f 47 3 + 1)]
  | .mma | .shsave | .spzero | .spstore | .tstore | .mcopy | .semsig | .semwait | .matom | .mfence => []
  | _ => spanIf (vectorUses op w).1 w.ta (vdf w).tiles ++ spanIf (freshWord op w) w.td 1

/-- Whether a word replaces the record of tile TA (R48). -/
def writesTileRecord (op : TileOp) (w : TileWord) : Bool :=
  match op.engine with
  | .matrix => op == .mout
  | .vector => !moving op w && vdf w != .fp32
  | .scan => op == .scan && w.f 55 2 == 2
  | .mover => false

/-- Whether a word adds to the layer record (R49). -/
def writesLayerRecord (op : TileOp) (w : TileWord) : Bool :=
  writesTileRecord op w || (op == .scan && w.b 64) || op == .shsave

/-! ### Unordered words (R61) -/

/-- The words that run on the other engines of a core. -/
def Core.running (k : Core) (q : EngineId) : List QEntry :=
  ([EngineId.matrix, .vector, .scan, .mover].filter fun p => p != q).flatMap fun p => (k.queue p).filter (·.started)

/-- The bytes that a mover word of core c reads or writes: first global address, length, and whether it writes them. -/
def State.mvBytes (s : State) (c : Nat) (e : QEntry) : List (Nat × Nat × Bool) :=
  let a := (mvAddr e).toNat
  let span := (32 * (e.w.f 47 3 + 1) - 1) * mvStride e.w + 32
  match e.op with
  | .tload => [(a, span, false)]
  | .tstore => [(a, span, true)]
  | .mcopy => [(e.xa.toNat, e.xc.toNat, false), (e.xb.toNat, e.xc.toNat, true)]
  | .matom => [(a, 8, true), (2 ^ 59 * s.node + 0x10000000000 + 0x400000 * c + e.xd.toNat, 8, true)]
  | .semsig => [(a, 8, true)]
  | _ => []

/-- Whether two words share a tile that one of them writes. -/
def Core.tilesMeet (k : Core) (r e : QEntry) : Bool :=
  (tileWrites r.op r.w).meet (k.tileReads e.op e.w ++ tileWrites e.op e.w) || (tileWrites e.op e.w).meet (k.tileReads r.op r.w)

/-- The running words of other engines that a word meets. -/
def Core.rivals (k : Core) (e : QEntry) : List QEntry := (k.running e.op.engine).filter fun r => k.tilesMeet r e

/-- `s` with the entry of word `seq` in an engine's queue changed. -/
def State.modQ (s : State) (c : Nat) (q : EngineId) (seq : Nat) (f : QEntry → QEntry) : State :=
  s.modCore c fun k => k.setQueue q ((k.queue q).map fun e => if e.seq = seq then f e else e)

/-- Word `seq` of an engine has run beside a word that it meets (R61). -/
def State.markRaced (s : State) (c : Nat) (q : EngineId) (seq : Nat) : State := s.modQ c q seq fun e => { e with raced := true }

/-- A word that starts beside running words of other engines that it meets: no token orders them, and each is marked (R61). -/
def State.markRivals (s : State) (c : Nat) (e : QEntry) : State :=
  match (s.core c).rivals e with
  | [] => s
  | l => (l.foldl (fun s r => s.markRaced c r.op.engine r.seq) s).markRaced c e.op.engine e.seq

/-- The running mover words of core c that read or write bytes of its own scratchpad from `o` on; with `writes`, those that write
them. -/
def State.moversAt (s : State) (c o n : Nat) (writes : Bool) : List QEntry :=
  let a := 2 ^ 59 * s.node + 0x10000000000 + 0x400000 * c + o
  (s.core c).moverQ.filter fun e => e.started && !s.mvDone c e &&
    (s.mvBytes c e).any fun x => (x.2.2 || !writes) && spansMeet x.1 x.2.1 a n

/-- A bank whose outputs are free values from index n on. -/
def Bank.unpredictable (b : Bank) (n : Nat) : Bank :=
  b.setCells fun i j =>
    let v := Config.freeValue (n + 32 * i + j)
    { acc := (v.setWidth 40).toInt, facc := v.extractLsb' 64 32, part := (v.extractLsb' 128 40).toInt,
      fpart := v.extractLsb' 192 32, sat := v.getLsbD 256 }

/-- The results of the words on core c are unpredictable: its tiles, masks, summaries and accumulators take free values (R61). -/
def State.unpredictable (s : State) (c : Nat) : State :=
  let n := s.free
  let k := s.core c
  let k := (List.range 8).foldl (fun (k : Core) i => k.setMask i ((Config.freeValue (n + i)).setWidth 32)) k
  let k := (List.range 16).foldl (fun (k : Core) i => k.setSum i ((Config.freeValue (n + 8 + i)).setWidth 64)) k
  { s with free := n + 24 + 4096 }.setCore c
    { k with
      tiles := [], tilesFree := some n,
      banks := k.banks.map fun (b : Nat × Bank) => (b.1, b.2.unpredictable (n + 24 + 1024 * b.1)) }

/-- A word does what `run` says; where it ran beside a word that it meets, what it finds and what it leaves is unpredictable (R61). -/
def State.raceAround (s : State) (c : Nat) (raced : Bool) (run : State → State) : State :=
  if raced then (run (s.unpredictable c)).unpredictable c else run s

/-- The bytes of this device that a raced mover word wrote hold free values, where its context may write them. -/
def State.scramble (s : State) (c : Nat) (e : QEntry) : State :=
  (s.mvBytes c e).foldl (fun s x =>
    let a := BitVec.ofNat 64 x.1
    if x.2.2 && s.isLocal a then
      (pieces x.1 x.2.1).foldl (fun s p =>
        let l := (List.range p.2).map fun i => Config.freeByte s.free (p.1 + i)
        ({ s with free := s.free + 1 }.mvWrite e.ctx (BitVec.ofNat 64 p.1) l).2) s
    else s) s

/-- The value that SUMRD reads (R116). -/
def Core.summary (k : Core) (sel : Nat) : W64 := if sel < 16 then k.sum sel else (k.mask (sel - 16)).setWidth 64

/-- Whether a word that is not complete writes the record that STRD selects. -/
def Core.recordBusy (k : Core) (imm : Nat) : Bool :=
  (k.matrixQ ++ k.vectorQ ++ k.scanQ).any fun e =>
    if imm % 16 < 3 then writesLayerRecord e.op e.w else writesTileRecord e.op e.w && e.w.ta.toNat == bitsOf imm 8 6

/-- The summary word of the vector queue that runs and writes what SUMRD selects, if there is one. -/
def Core.summaryWord (k : Core) (sel : Nat) : Option QEntry :=
  k.vectorQ.find? fun e => e.started && (if sel < 16 then e.op.usesSum && e.w.f 71 4 == sel else e.op.usesMdst && e.w.f 68 3 == sel - 16)

/-- A value read while a word that is not complete writes it (R61). -/
def State.readRaced (s : State) (busy : Bool) (v : W64) : W64 × State := if busy then s.draw 64 else (v, s)

/-- What SUMRD reads (R116): the value present. Beside a running word that writes it, the old or the new value, and which is free
(R119). -/
def State.readSummary (s : State) (c sel : Nat) : W64 × State :=
  let k := s.core c
  match k.summaryWord sel with
  | none => (k.summary sel, s)
  | some e =>
    let (b, s) := s.draw 1
    (if b = 1 then ((s.runVector c e.op e.w).core c).summary sel else k.summary sel, s)

end Sys2Proof.Machine
end

