-- ==== Sys2Proof/Machine/Issue.lean ====
section
/-!
DEFINITION. The engine queues of a core (R59–R63): faults (R70, R92), starting words in order, tokens, completion, wait records
(R380), reads held for the mirror export (R143) and the switch at a pre-emption point (R210–R213). What a matrix, vector or scan
queue word does is done when WORD_COMPLETE is commanded; a mover word issues its transactions as it starts
(notes/assumptions/90.md).
-/
namespace Sys2Proof.Machine

/-! ### Faults (R70, R92, R216) -/

/-- Context n faults on core c: CTRL_FAULT records the cause and the word, and the quench of the context starts. -/
def State.coreFault (s : State) (c n cause pc : Nat) : State :=
  let v := cause + bitsOf pc 0 14 * 2 ^ 8 + bitsOf n 0 6 * 2 ^ 22
  (s.setReg (Page.ctrl c) Reg.CTRL_FAULT (BitVec.ofNat 32 v)).requestQuench n 1

/-- Whether context n may start words. -/
def State.runs (s : State) (n : Nat) : Bool := (s.ctx n).st == .running

/-! ### Tokens (R62, R63, R213) -/

/-- Token t of context n signalled on core c: a running context's count is in the core, where a sixteenth signal faults; a
saved context's count is in its save area, where it holds at 15. -/
def State.signalToken (s : State) (c n t pc : Nat) : State :=
  let k := s.core c
  if k.ctx = some (Fin.ofNat 64 n) then
    if k.tok t = 15 then s.coreFault c n causeToken pc else s.setCore c (k.setTok t (k.tok t + 1))
  else if k.isSaved n then
    let o := (s.ctx n).saveOff + 0xFC
    let v := natAt (s.scratchGet c o 4) 0 4
    let cnt := v / 16 ^ t % 16
    s.scratchPut c o (leBytes 4 (v + (min (cnt + 1) 15 - cnt) * 16 ^ t))
  else s

/-! ### Wait records of words (R380) -/

/-- ENGINE of a wait record (R397) for an entry: 4 for the words of the state port. -/
def waitEngine (op : TileOp) : Nat :=
  match op with
  | .spzero | .spload | .spstore => 4
  | _ => match op.engine with | .matrix => 1 | .vector => 2 | .scan => 3 | .mover => 5

/-- A wait of context n on core c begins, unless the same wait is recorded already. -/
def State.beginWait (s : State) (kind c engine : Nat) (n : CtxId) (obj : W64) : State :=
  if s.hang.waits.any fun w => w.kind == kind && w.core == c && w.engine == engine && w.ctx == some n && w.obj == obj then s
  else s.addWait { kind := kind, core := c, engine := engine, ctx := some n, start := s.now, prog := s.now, obj := obj }

/-- The waits of a kind of context n on an engine of core c end. -/
def State.endWait (s : State) (kind c engine : Nat) (n : CtxId) : State :=
  s.endWaits fun w => w.kind == kind && w.core == c && w.engine == engine && w.ctx == some n

/-- The waits of context n on core c see the completion of a word (R380). -/
def State.waitProgress (s : State) (c : Nat) (n : CtxId) : State :=
  { s with hang := { s.hang with waits := s.hang.waits.map fun w =>
      if w.core = c ∧ w.kind ≤ 4 ∧ w.ctx = some n then { w with prog := s.now } else w } }

/-! ### Starting words (R61, R62) -/

/-- Entry e starts: its tokens are taken (R62), and words of other engines that it meets are marked (R61). -/
def State.startEntry (s : State) (c : Nat) (q : EngineId) (e : QEntry) : State :=
  let s := s.endWait 1 c (waitEngine e.op) e.ctx
  ((s.modCore c fun k => k.takeTokens e.w.wait).modQ c q e.seq fun x => { x with started := true }).markRivals c e

/-- An entry of the matrix, vector or scan queue starts: an MMA whose START footprint breaks R65 faults instead (R75), and a
read that must wait for the mirror's export or import is held (R143). -/
def State.engineStart (s : State) (c : Nat) (q : EngineId) (e : QEntry) : State :=
  let k := s.core c
  let b := k.bank (e.w.f 32 2)
  if e.op = .mma ∧ b.isOpen ∧ !e.w.b 34 ∧ footprintBad b e.w then s.coreFault c e.ctx.val causeTile e.pc
  else
    let s := s.startEntry c q e
    if q = .scan ∧ s.mustHold c e then
      let s := s.modCore c fun k => { k with held := k.held ++ [(scanRegion e, scanSlot e, e)] }
      (s.count (Page.port c) Reg.ST_HOLD_COUNT).beginWait 4 c (waitEngine e.op) e.ctx (BitVec.ofNat 64 (scanSlot e))
    else s.beginWait 3 c (waitEngine e.op) e.ctx (BitVec.ofNat 64 e.seq)

/-- Whether a word may start behind a running word of its queue: only behind a MOUT that drains, and neither as another MOUT, nor
into the bank that drains, nor as an MMA that reads a tile the MOUT writes (R79). -/
def Core.passes (k : Core) (r e : QEntry) : Bool :=
  r.op == .mout && e.op == .mma && e.w.f 32 2 != r.w.f 32 2 && !(tileWrites r.op r.w).meet (k.tileReads e.op e.w)

/-- Words of a matrix, vector or scan queue start in order (R61), each when its context runs, the running words before it let it
pass and its tokens are there; otherwise it waits (R62). `before` are the words ahead, all started. -/
def State.queuePump (s : State) (c : Nat) (q : EngineId) (before : List QEntry) : List QEntry → State
  | [] => s
  | e :: r =>
    if e.started then s.queuePump c q (before ++ [e]) r
    else if !s.runs e.ctx.val || !(before.all fun b => (s.core c).passes b e) then s
    else if (s.core c).waitMet e.w.wait then
      let s := s.engineStart c q e
      if ((s.core c).queue q).any fun x => x.seq == e.seq && x.started then s.queuePump c q (before ++ [e]) r else s
    else s.beginWait 1 c (waitEngine e.op) e.ctx (e.w.wait.setWidth 64)

/-- The words of an engine's queue that can start do. -/
def State.tryHead (s : State) (c : Nat) (q : EngineId) : State := s.queuePump c q [] ((s.core c).queue q)

/-- Whether a later mover word must find the effects of an earlier one, or must not disturb it (R61): they share a tile or a byte
that one of them writes. -/
def State.mvMeets (s : State) (c : Nat) (r e : QEntry) : Bool :=
  (s.core c).tilesMeet r e ||
  (s.mvBytes c r).any fun x => (s.mvBytes c e).any fun y => (x.2.2 || y.2.2) && spansMeet x.1 x.2.1 y.1 y.2.1

/-- Whether the mover words before a word let it start (R61, R84, R88): a SEMWAIT that still waits holds every later word; SEMSIG
and MATOM wait for the earlier writes, MFENCE for every earlier transaction, and any word for one that it meets. -/
def State.moverReady (s : State) (c : Nat) (before : List QEntry) (e : QEntry) : Bool :=
  before.all fun r => s.mvDone c r ||
    !(r.op == .semwait || e.op == .mfence || s.mvMeets c r e ||
      ((e.op == .semsig || e.op == .matom) && (r.op == .tstore || r.op == .mcopy || r.op == .semsig || r.op == .matom)))

/-- A mover word starts: a misaligned operand faults (R85), otherwise its transactions are issued. -/
def State.moverStart (s : State) (c : Nat) (e : QEntry) : State :=
  if mvMisaligned e then s.coreFault c e.ctx.val causeMover e.pc
  else
    let s := s.startEntry c .mover e
    let s := if e.op = .semwait then s.beginWait 2 c 5 e.ctx (mvAddr e) else s
    s.raceAround c (((s.core c).moverQ.any fun x => x.seq == e.seq && x.raced)) fun s => s.mvIssueAll c e (mvTxns e)

/-- Mover words start in order, and overlap where neither meets the other (R61, R84; DEDUCED, notes/assumptions/101.md): `before` are the words ahead, all started. -/
def State.moverPump (s : State) (c : Nat) (before : List QEntry) : List QEntry → State
  | [] => s
  | e :: r =>
    if e.started then s.moverPump c (before ++ [e]) r
    else if !s.runs e.ctx.val || !s.moverReady c before e then s
    else if (s.core c).waitMet e.w.wait then
      let s := s.moverStart c e
      match (s.core c).moverQ.find? fun x => x.seq == e.seq with
      | some x => if x.started then s.moverPump c (before ++ [x]) r else s
      | none => s
    else s.beginWait 1 c 5 e.ctx (e.w.wait.setWidth 64)

/-- Whatever can start on core c starts: matrix, vector, scan, then mover (the order is a DESIGN CHOICE where two words wait
for one token, notes/assumptions/91.md). -/
def State.pump (s : State) (c : Nat) : State :=
  let s := ((s.tryHead c .matrix).tryHead c .vector).tryHead c .scan
  let s := s.mvContinue c
  s.moverPump c [] (s.core c).moverQ

/-! ### Completion (R62) -/

/-- Whether a held read belongs to word `seq`. -/
def Core.isHeld (k : Core) (seq : Nat) : Bool := k.held.any fun h => h.2.2.seq == seq

/-- A pending wait that is being withdrawn: its entry counts two transactions (R213). -/
def withdrawn (e : QEntry) : Bool := e.op == .semwait && decide (2 ≤ e.txn)

/-- The oldest word of an engine that can complete: a started word, not held, with no transaction outstanding. -/
def State.completable (s : State) (c : Nat) (q : EngineId) : Option QEntry :=
  ((s.core c).queue q).find? fun e =>
    e.started && !(s.core c).isHeld e.seq && (q != .mover || (s.mvDone c e && !withdrawn e))

/-- The counts of a completed word (R92, R117, R150). -/
def State.countWord (s : State) (c : Nat) (e : QEntry) : State :=
  match e.op with
  | .mma => s.count (Page.matrix c) Reg.MX_MMA_COUNT
  | .mout => s.count (Page.matrix c) Reg.MX_MOUT_COUNT
  | .scan => (s.count (Page.scan c) Reg.SC_BLOCK_COUNT).countFree (Page.scan c) Reg.SC_BUSY_CYCLES
  | _ => match e.op.engine with
    | .vector => (s.count (Page.vector c) Reg.VX_WORD_COUNT).countFree (Page.vector c) Reg.VX_BUSY_CYCLES
    | .scan => s.countFree (Page.scan c) Reg.SC_BUSY_CYCLES
    | _ => s

/-- What a word does, as it completes (R72–R78, R102, R139); a mover word has done it. -/
def State.runWord (s : State) (c : Nat) (q : EngineId) (e : QEntry) : State :=
  match q with
  | .matrix => if e.op = .mma then s.runMma c e else s.runMout c e
  | .vector => s.runVector c e.op e.w
  | .scan => s.runScan c e
  | .mover => if e.raced then s.scramble c e else s

/-- A word completes: what it does is done, it leaves its queue, is counted, ends its wait records and signals its token (R62). Until
then it fills its queue entry (DESIGN CHOICE, notes/assumptions/115.md). -/
def State.completeWord (s : State) (c : Nat) (q : EngineId) (e : QEntry) : State :=
  let s := s.raceAround c e.raced fun s => s.runWord c q e
  let s := s.modCore c fun k => k.setQueue q ((k.queue q).filter fun x => x.seq != e.seq)
  let s := s.endWaits fun w => w.kind == 3 && w.core == c && w.ctx == some e.ctx && w.obj == BitVec.ofNat 64 e.seq
  let s := (s.countWord c e).waitProgress c e.ctx
  if e.w.sigv then s.signalToken c e.ctx.val e.w.sig.toNat e.pc else s

/-! ### Pre-emption points (R209–R213) -/

/-- A wait whose withdrawal has been answered leaves the queue: the tokens it took return, and the context resumes at it
(R213). -/
def State.withdrawEnd (s : State) (c : Nat) : State :=
  match (s.core c).moverQ.find? fun e => withdrawn e && !s.mvWaits c e.seq with
  | none => s
  | some e =>
    s.modCore c fun k =>
      let k := if e.started then k.returnTokens e.w.wait else k
      { k with
        moverQ := k.moverQ.filter fun x => x.seq != e.seq,
        blocked := match k.blocked with | some (.point live _) => some (.point live (some e.pc)) | b => b }

/-- The wait immediately before a point, if it still waits: its entry (R213). -/
def State.pendingWait (s : State) (c n pc : Nat) : Option QEntry :=
  (s.core c).moverQ.find? fun e =>
    e.op == .semwait && e.ctx.val == n && e.pc + 1 == pc && !withdrawn e && (!e.started || (s.waitTag c e.seq).isSome)

/-- A context that stops at a point at word `pc` withdraws the wait before it (R213). -/
def State.pointWithdraw (s : State) (c n pc : Nat) : State :=
  match s.pendingWait c n pc with
  | none => s
  | some e => (s.withdraw c e).modEntry c e.seq fun x => { x with txn := 2 }

/-- The atomics of core c that still wait for their replies detach (R213). -/
def State.detachAtoms (s : State) (c : Nat) : State :=
  s.modCore c fun k => { k with
    atomWaited := true, moverQ := k.moverQ.map fun e => if e.op = .matom ∧ e.started then { e with detached := true } else e }

/-- ATOM_WAIT of the partition of the context on core c, in µs (R213). -/
def State.atomWait (s : State) (c : Nat) : Nat :=
  match (s.core c).ctx with
  | some n => s.fld Page.pattern (Reg.PART_CTRL + 16 * (s.ctx n.val).part) 16 16
  | none => 0

/-- A core stopped at a point switches once its queues have drained (R210, R213); with ATOM_WAIT 0 its atomics detach at once.
With no better context any more it goes on. -/
def State.tryPoint (s : State) (c : Nat) : State :=
  let s := s.withdrawEnd c
  let s := if s.atomWait c = 0 then s.detachAtoms c else s
  let k := s.core c
  match k.ctx, k.blocked with
  | some m, some (.point live resume) =>
    if !k.drained m.val then s else
    match s.bestReady c with
    | some n =>
      if n = m.val then s.setCore c { k with blocked := none, preempt := false, pc := resume.getD k.pc }
      else (((s.switchOut c live (resume.getD k.pc) none).switchIn c n).notePreempt k.preemptAt).resolveBeat c
    | none => s.setCore c { k with blocked := none, preempt := false, pc := resume.getD k.pc }
  | _, _ => s

end Sys2Proof.Machine
end

