-- ==== Sys2Proof/Machine/Control.lean ====
section
/-!
DEFINITION. The control core: issue of words (R57–R60, R70), the control and statistics words (R71, R83, R89, R116), what a
core does as its waits end, and the events of its engines (R62, R213).
-/
namespace Sys2Proof.Machine

/-! ### The program counter (R71) -/

/-- The program counter moves to the next word; 16,384 stands for the end of the instruction memory. -/
def State.nextPc (s : State) (c : Nat) : State := s.modCore c fun k => { k with pc := k.pc + 1 }

/-- The context for which core c issues now: one is bound and RUNNING, and nothing holds the control core. -/
def State.issuer (s : State) (c : Nat) : Option CtxId :=
  let k := s.core c
  match k.ctx, k.blocked with
  | some n, none => if s.runs n.val && s.domState c == 2 && s.domState (32 + c) == 2 then some n else none
  | _, _ => none

/-- Sequential issue past word 16,383 faults the context; the program counter stays at the last word (R71). -/
def State.pastEnd (s : State) (c : Nat) : State :=
  match s.issuer c with
  | some n => if (s.core c).pc < 16384 then s
              else (s.modCore c fun k => { k with pc := 16383 }).coreFault c n.val causePc 16383
  | none => s

/-- The control core of c goes on to the next word, if there is one (R71). -/
def State.advance (s : State) (c : Nat) : State := (s.nextPc c).pastEnd c

/-- A branch or a jump to a word index; outside 0 to 16,383 the context faults (R71). -/
def State.jump (s : State) (c n : Nat) (target : W64) : State :=
  if target.toNat < 16384 then s.modCore c fun k => { k with pc := target.toNat }
  else s.coreFault c n causePc (s.core c).pc

/-- The word's place as a 64-bit value. -/
def Core.pcWord (k : Core) : W64 := BitVec.ofNat 64 k.pc

/-! ### Control words (R71) -/

/-- The result of a word that computes on x registers and its immediate. -/
def aluValue (op : CtrlOp) (a b imm : W64) : W64 :=
  match op with
  | .add => a + b
  | .sub => a - b
  | .and => a &&& b
  | .or => a ||| b
  | .xor => a ^^^ b
  | .shl => a <<< (b.toNat % 64)
  | .shr => a >>> (b.toNat % 64)
  | .sra => a.sshiftRight (b.toNat % 64)
  | .mul => a * b
  | .slt => if a.slt b then 1 else 0
  | .addi => a + imm
  | _ => imm

/-- Whether a branch word is taken. -/
def branchTaken (op : CtrlOp) (a b : W64) : Bool :=
  match op with
  | .beq => a == b
  | .bne => a != b
  | .blt => a.slt b
  | .bge => !a.slt b
  | .bltu => a.ult b
  | _ => !a.ult b

/-- rd written and the program counter moved on. -/
def State.writeRd (s : State) (c : Nat) (rd : BitVec 5) (v : W64) : State :=
  (s.modCore c fun k => k.xSet rd.toNat v).advance c

/-- The 8 bytes at an offset of the own scratchpad as the control core reads them: where a running mover word writes there, no token
orders the two, and the value is unpredictable (R61). -/
def State.scratchRead (s : State) (c a : Nat) : W64 × State :=
  s.readRaced (!(s.moversAt c a 8 true).isEmpty) (BitVec.ofNat 64 (leNat (s.scratchGet c a 8)))

/-- LD: 8 bytes of the core's own scratchpad (R71). -/
def State.runLd (s : State) (c n : Nat) (w : CtrlWord) : State :=
  let k := s.core c
  let a := (k.xGet w.rs1.toNat + w.imm).toNat
  if a % 8 = 0 ∧ a ≤ 4194296 then
    let (v, s) := s.scratchRead c a
    s.writeRd c w.rd v
  else s.coreFault c n causeScalar k.pc

/-- 8 bytes of the own scratchpad written by the control core: beside a running mover word that reads or writes there, the bytes and
what that word moves are unpredictable (R61). -/
def State.scratchWrite (s : State) (c a : Nat) (v : W64) : State :=
  let rivals := s.moversAt c a 8 false
  let (v, s) := s.readRaced (!rivals.isEmpty) v
  rivals.foldl (fun s r => s.markRaced c .mover r.seq) (s.scratchPut c a (leBytes 8 v.toNat))

/-- ST: 8 bytes of the core's own scratchpad (R71). -/
def State.runSt (s : State) (c n : Nat) (w : CtrlWord) : State :=
  let k := s.core c
  let a := (k.xGet w.rs1.toNat + w.imm).toNat
  if a % 8 = 0 ∧ a ≤ 4194296 then (s.scratchWrite c a (k.xGet w.rs2.toNat)).advance c
  else s.coreFault c n causeScalar k.pc

/-- JAL and JALR: rd takes the next word's index, the program counter the target; a target out of range faults, with rd
unwritten (R71). -/
def State.runJump (s : State) (c n : Nat) (rd : BitVec 5) (target : W64) : State :=
  if target.toNat < 16384 then
    s.modCore c fun k => { k.xSet rd.toNat (k.pcWord + 1) with pc := target.toNat }
  else s.coreFault c n causePc (s.core c).pc

/-- Word `i` of the core's current work list, 0 without one (R61, R71, R165). -/
def State.wlWord (s : State) (c i : Nat) : W64 × State :=
  match (s.core c).cur with
  | some l => s.scratchRead c (s.wlOffset c l.slot l.bar + 8 * i)
  | none => (0, s)

/-- The record field that STRD reads (R83). -/
def State.strdValue (s : State) (c imm : Nat) : W64 :=
  let p := Page.stat c
  let t := bitsOf imm 8 6
  (match imm % 16 with
   | 0 => s.reg p Reg.LAYER_ABSMAX
   | 1 => s.reg p Reg.LAYER_SAT_COUNT
   | 2 => s.reg p Reg.LAYER_NAN_COUNT
   | 3 => s.reg p (Reg.TILE_ABSMAX + 8 * t)
   | _ => s.reg p (Reg.TILE_COUNT + 8 * t)).setWidth 64

/-- Whether every word that context n issued on core c is complete (R71 END). -/
def Core.idle (k : Core) (n : Nat) : Bool :=
  let none_ (q : List QEntry) : Bool := q.all fun e => e.ctx.val != n
  none_ k.matrixQ && none_ k.vectorQ && none_ k.scanQ && none_ k.moverQ

/-- END: with every issued word complete the stage is reported at once, otherwise when they are (R71). -/
def State.tryEnd (s : State) (c : Nat) : State :=
  let k := s.core c
  match k.ctx with
  | some n =>
    if k.idle n.val then ((s.setCore c { k with blocked := none }).reportEnd c).pastEnd c
    else s.setCore c { k with blocked := some .endWait }
  | none => s

/-- PPOINT: with a request against a best-effort context pending, the core stops here (R209, R210). -/
def State.runPoint (s : State) (c n : Nat) (imm : W64) : State :=
  let pc := (s.core c).pc
  let s := s.nextPc c
  if (s.core c).preempt && s.isBE n && s.runs n then
    ((((s.modCore c fun k => { k with blocked := some (.point (imm.toNat % 65536) none), pointAt := s.now }).pointWithdraw c n pc)).tryPoint c).pastEnd c
  else s.pastEnd c

/-- MVFAIL: the failure status of the running context read and cleared (R71, R89). -/
def State.runMvfail (s : State) (c n : Nat) (rd : BitVec 5) : State :=
  let v := SMap.get (s.core c).mvfail n 0
  (s.modCore c fun k => { k with mvfail := SMap.set k.mvfail n 0 0 }).writeRd c rd (v.setWidth 64)

/-- STLB: a layer begins (R83). -/
def State.runStlb (s : State) (c : Nat) (imm : W64) : State :=
  ((s.layerClear c).setReg (Page.stat c) Reg.LAYER_ID (imm.setWidth 8 |>.setWidth 32)).advance c

/-- SUMRD, WLREAD and STRD: rd takes a value read (R61, R71, R83, R116). -/
def State.runRead (c : Nat) (rd : BitVec 5) (r : W64 × State) : State := r.2.writeRd c rd r.1

/-- A control or statistics word of context n executed on core c; its WAIT mask has been met (R62, R71, R83). -/
def State.runCtrl (s : State) (c : Nat) (n : CtxId) (op : CtrlOp) (w : CtrlWord) : State :=
  let s := (s.count (Page.ctrl c) Reg.CTRL_ISSUE_COUNT).waitProgress c n
  let k := s.core c
  let a := k.xGet w.rs1.toNat
  let b := k.xGet w.rs2.toNat
  let block (s : State) (x : Blocked) : State := (s.nextPc c).modCore c fun k => { k with blocked := some x }
  match op with
  | .add | .sub | .and | .or | .xor | .shl | .shr | .sra | .mul | .slt | .addi | .li =>
    s.writeRd c w.rd (aluValue op a b w.imm)
  | .ld => s.runLd c n.val w
  | .st => s.runSt c n.val w
  | .beq | .bne | .blt | .bge | .bltu | .bgeu =>
    if branchTaken op a b then s.jump c n.val (k.pcWord + w.imm) else s.advance c
  | .jal => s.runJump c n.val w.rd (k.pcWord + w.imm)
  | .jalr => s.runJump c n.val w.rd (a + w.imm)
  | .sumrd => State.runRead c w.rd (s.readSummary c (w.imm.toNat % 256))
  | .wlread => State.runRead c w.rd (s.wlWord c (w.imm.toNat % 65536))
  | .beatwait => (block s (.beatWait w.rd)).resched c
  | .ppoint => s.runPoint c n.val w.imm
  | .endStage => (s.nextPc c).tryEnd c
  | .tokwait | .nop => s.advance c
  | .brk => block s .brk
  | .mvfail => s.runMvfail c n.val w.rd
  | .stlb => s.runStlb c w.imm
  | .strp => block s (.reheat (w.imm.toNat % 256) w.rd)
  | .strd => State.runRead c w.rd (s.readRaced (k.recordBusy w.imm.toNat) (s.strdValue c w.imm.toNat))

/-! ### Tile words at issue (R59, R60, R70) -/

/-- The queue entry of a word issued now: it reads the x registers that its fields name (R60). -/
def State.entryOf (s : State) (c : Nat) (n : CtxId) (op : TileOp) (w : TileWord) (ecc : List Ecc) : QEntry :=
  let k := s.core c
  { op := op, w := w, ecc := ecc, ctx := n, seq := k.nextSeq, xa := k.xGet (w.f 32 5), xb := k.xGet (w.f 37 5),
    xc := k.xGet (w.f 42 5), xd := k.xGet (w.f 67 5), pc := k.pc, started := false, txn := 0, detached := false, raced := false }

/-- A tile word enters the queue of its engine; a full queue stalls issue (R59, R380). -/
def State.enqueue (s : State) (c : Nat) (n : CtxId) (op : TileOp) (w : TileWord) (ecc : List Ecc) : State :=
  let q := op.engine
  let k := s.core c
  if queueSize q ≤ (k.queue q).length then
    (s.setCore c { k with blocked := some (.queueFull op w ecc) }).beginWait 1 c 0 n 0
  else
    let e := s.entryOf c n op w ecc
    let mark := (engineCode q, n.val)
    let s := s.endWait 1 c 0 n
    let s := s.setCore c { k.setQueue q (k.queue q ++ [e]) with
      blocked := none, nextSeq := k.nextSeq + 1,
      issuedBar := if k.issuedBar.contains mark then k.issuedBar else k.issuedBar ++ [mark] }
    ((s.count (Page.ctrl c) Reg.CTRL_ISSUE_COUNT).pump c).advance c

/-! ### Waits that end -/

/-- The control core of c goes on where what it waited for has come: a token, room in a queue, the last word of a stage, the
drain of a point (R59, R62, R71, R210). -/
def State.goOn (s : State) (c : Nat) : State :=
  let k := s.core c
  match k.ctx, k.blocked with
  | some n, some b =>
    if !s.runs n.val then s else
    match b with
    | .tokens op w =>
      if k.waitMet w.wait then
        ((s.endWait 1 c 0 n).setCore c { k.takeTokens w.wait with blocked := none }).runCtrl c n op w
      else s
    | .queueFull op w ecc =>
      if queueSize op.engine ≤ (k.queue op.engine).length then s else s.enqueue c n op w ecc
    | .endWait => s.tryEnd c
    | .point _ _ => s.tryPoint c
    | .beatWait _ => s.resched c
    | _ => s
  | _, _ => s

/-- Core c after something ended: words that can start do, and the control core goes on. -/
def State.settle (s : State) (c : Nat) : State := ((s.pump c).goOn c).pastEnd c

/-! ### Issue (R57–R60, R70) -/

/-- The fetch of a word (R57): a single-bit error is corrected and counted; an uncorrectable one faults the context. -/
def State.fetchEcc (s : State) (c n : Nat) (ecc : Ecc) : Bool × State :=
  let p := Page.ctrl c
  match ecc with
  | .clean => (true, s)
  | .corrected => (true, s.correctedError p Reg.CTRL_IMEM_ECC)
  | .uncorrectable =>
    let s := s.countFld p Reg.CTRL_IMEM_ECC 16 16 1
    (false, (s.coreFault c n causeImem (s.core c).pc).raiseMech 4 (some n))

/-- A control or statistics word issued on core c (R59, R62, R70). A core that cannot issue now does nothing. -/
def State.issueCtrl (s : State) (c : Nat) (op : CtrlOp) (w : CtrlWord) : State :=
  match s.issuer c with
  | none => s
  | some n =>
    if 16384 ≤ (s.core c).pc then s.pastEnd c else
    let (ok, s) := s.fetchEcc c n.val w.ecc
    if !ok then s else
    let k := s.core c
    match ctrlCause op w with
    | some cause => s.coreFault c n.val cause k.pc
    | none =>
      if k.waitMet w.wait then (s.setCore c (k.takeTokens w.wait)).runCtrl c n op w
      else (s.setCore c { k with blocked := some (.tokens op w) }).beginWait 1 c 0 n (w.wait.setWidth 64)

/-- The cause for which a tile word is illegal on core c, if any; what R140 records of a scan queue word (R70, R140). SC_FAULT records
the words that R140 makes illegal, not those that R70 alone does (DESIGN CHOICE, notes/assumptions/116.md). -/
def State.tileFault (s : State) (c : Nat) (op : TileOp) (w : TileWord) : Option Nat × State :=
  match tileCause op w with
  | some cause => (some cause, s)
  | none =>
    let slot := ((s.core c).xGet (w.f 32 5)).toNat % 65536
    if op.engine = .scan ∧ s.scanRegionBad c op w slot then
      let v := slot + w.f 42 4 * 2 ^ 16 + w.imm.toNat % 4096 * 2 ^ 20
      (some causeField, s.setReg (Page.scan c) Reg.SC_FAULT (BitVec.ofNat 32 v))
    else (none, s)

/-- A tile word issued on core c (R59, R60, R70). `ecc` is what its read of the state store finds. -/
def State.issueTile (s : State) (c : Nat) (op : TileOp) (w : TileWord) (ecc : List Ecc) : State :=
  match s.issuer c with
  | none => s
  | some n =>
    if 16384 ≤ (s.core c).pc then s.pastEnd c else
    let (ok, s) := s.fetchEcc c n.val w.ecc
    if !ok then s else
    let (cause, s) := s.tileFault c op w
    match cause with
    | some cause => s.coreFault c n.val cause (s.core c).pc
    | none => s.enqueue c n op w ecc

/-! ### The control words and statistics words as commands -/

/-- ADD (R71). -/
def execAdd (c : CoreId) (w : CtrlWord) (s : State) : Host.Outcome State Fault Refusal := .next (s.issueCtrl c.val .add w)

/-- SUB (R71). -/
def execSub (c : CoreId) (w : CtrlWord) (s : State) : Host.Outcome State Fault Refusal := .next (s.issueCtrl c.val .sub w)

/-- AND (R71). -/
def execAnd (c : CoreId) (w : CtrlWord) (s : State) : Host.Outcome State Fault Refusal := .next (s.issueCtrl c.val .and w)

/-- OR (R71). -/
def execOr (c : CoreId) (w : CtrlWord) (s : State) : Host.Outcome State Fault Refusal := .next (s.issueCtrl c.val .or w)

/-- XOR (R71). -/
def execXor (c : CoreId) (w : CtrlWord) (s : State) : Host.Outcome State Fault Refusal := .next (s.issueCtrl c.val .xor w)

/-- SHL (R71). -/
def execShl (c : CoreId) (w : CtrlWord) (s : State) : Host.Outcome State Fault Refusal := .next (s.issueCtrl c.val .shl w)

/-- SHR (R71). -/
def execShr (c : CoreId) (w : CtrlWord) (s : State) : Host.Outcome State Fault Refusal := .next (s.issueCtrl c.val .shr w)

/-- SRA (R71). -/
def execSra (c : CoreId) (w : CtrlWord) (s : State) : Host.Outcome State Fault Refusal := .next (s.issueCtrl c.val .sra w)

/-- MUL (R71). -/
def execMul (c : CoreId) (w : CtrlWord) (s : State) : Host.Outcome State Fault Refusal := .next (s.issueCtrl c.val .mul w)

/-- SLT (R71). -/
def execSlt (c : CoreId) (w : CtrlWord) (s : State) : Host.Outcome State Fault Refusal := .next (s.issueCtrl c.val .slt w)

/-- ADDI (R71). -/
def execAddi (c : CoreId) (w : CtrlWord) (s : State) : Host.Outcome State Fault Refusal := .next (s.issueCtrl c.val .addi w)

/-- LI (R71). -/
def execLi (c : CoreId) (w : CtrlWord) (s : State) : Host.Outcome State Fault Refusal := .next (s.issueCtrl c.val .li w)

/-- LD (R71). -/
def execLd (c : CoreId) (w : CtrlWord) (s : State) : Host.Outcome State Fault Refusal := .next (s.issueCtrl c.val .ld w)

/-- ST (R71). -/
def execSt (c : CoreId) (w : CtrlWord) (s : State) : Host.Outcome State Fault Refusal := .next (s.issueCtrl c.val .st w)

/-- BEQ (R71). -/
def execBeq (c : CoreId) (w : CtrlWord) (s : State) : Host.Outcome State Fault Refusal := .next (s.issueCtrl c.val .beq w)

/-- BNE (R71). -/
def execBne (c : CoreId) (w : CtrlWord) (s : State) : Host.Outcome State Fault Refusal := .next (s.issueCtrl c.val .bne w)

/-- BLT (R71). -/
def execBlt (c : CoreId) (w : CtrlWord) (s : State) : Host.Outcome State Fault Refusal := .next (s.issueCtrl c.val .blt w)

/-- BGE (R71). -/
def execBge (c : CoreId) (w : CtrlWord) (s : State) : Host.Outcome State Fault Refusal := .next (s.issueCtrl c.val .bge w)

/-- BLTU (R71). -/
def execBltu (c : CoreId) (w : CtrlWord) (s : State) : Host.Outcome State Fault Refusal := .next (s.issueCtrl c.val .bltu w)

/-- BGEU (R71). -/
def execBgeu (c : CoreId) (w : CtrlWord) (s : State) : Host.Outcome State Fault Refusal := .next (s.issueCtrl c.val .bgeu w)

/-- JAL (R71). -/
def execJal (c : CoreId) (w : CtrlWord) (s : State) : Host.Outcome State Fault Refusal := .next (s.issueCtrl c.val .jal w)

/-- JALR (R71). -/
def execJalr (c : CoreId) (w : CtrlWord) (s : State) : Host.Outcome State Fault Refusal := .next (s.issueCtrl c.val .jalr w)

/-- SUMRD (R116). -/
def execSumrd (c : CoreId) (w : CtrlWord) (s : State) : Host.Outcome State Fault Refusal := .next (s.issueCtrl c.val .sumrd w)

/-- WLREAD (R71). -/
def execWlread (c : CoreId) (w : CtrlWord) (s : State) : Host.Outcome State Fault Refusal := .next (s.issueCtrl c.val .wlread w)

/-- BEATWAIT (R167). -/
def execBeatwait (c : CoreId) (w : CtrlWord) (s : State) : Host.Outcome State Fault Refusal := .next (s.issueCtrl c.val .beatwait w)

/-- TOKWAIT (R71). -/
def execTokwait (c : CoreId) (w : CtrlWord) (s : State) : Host.Outcome State Fault Refusal := .next (s.issueCtrl c.val .tokwait w)

/-- PPOINT (R210). -/
def execPpoint (c : CoreId) (w : CtrlWord) (s : State) : Host.Outcome State Fault Refusal := .next (s.issueCtrl c.val .ppoint w)

/-- END (R71). -/
def execEndStage (c : CoreId) (w : CtrlWord) (s : State) : Host.Outcome State Fault Refusal := .next (s.issueCtrl c.val .endStage w)

/-- NOP (R71). -/
def execNop (c : CoreId) (w : CtrlWord) (s : State) : Host.Outcome State Fault Refusal := .next (s.issueCtrl c.val .nop w)

/-- BRK (R71). -/
def execBrk (c : CoreId) (w : CtrlWord) (s : State) : Host.Outcome State Fault Refusal := .next (s.issueCtrl c.val .brk w)

/-- MVFAIL (R89). -/
def execMvfail (c : CoreId) (w : CtrlWord) (s : State) : Host.Outcome State Fault Refusal := .next (s.issueCtrl c.val .mvfail w)

/-- STLB (R83). -/
def execStlb (c : CoreId) (w : CtrlWord) (s : State) : Host.Outcome State Fault Refusal := .next (s.issueCtrl c.val .stlb w)

/-- STRP (R83). -/
def execStrp (c : CoreId) (w : CtrlWord) (s : State) : Host.Outcome State Fault Refusal := .next (s.issueCtrl c.val .strp w)

/-- STRD (R83). -/
def execStrd (c : CoreId) (w : CtrlWord) (s : State) : Host.Outcome State Fault Refusal := .next (s.issueCtrl c.val .strd w)

/-! ### Events of the engines -/

/-- WORD_COMPLETE (R62): the oldest word of engine e that can complete does; what waited for it goes on. For the mover, the
completions of accesses on this device return first (R86). -/
def execWordComplete (c : CoreId) (e : EngineId) (s : State) : Host.Outcome State Fault Refusal :=
  let s := if e = .mover then s.returnHere c.val (s.hereRounds c.val) else s
  match s.completable c.val e with
  | some x => .next ((s.completeWord c.val e x).settle c.val)
  | none => .next s

/-- TRANSACTION_REPLY (R89): `data` of an atomic is its old value, of a withdrawn wait 1 where it had been granted. A reply for a
tag that no transaction holds any more is dropped (R206, R213, R330); the row does not name its sender, and the event record
names this device (DESIGN CHOICE, notes/assumptions/123.md). -/
def execTransactionReply (tag : TagId) (status : Byte) (data : List Byte) (s : State) : Host.Outcome State Fault Refusal :=
  match s.tag tag.val with
  | none => .next (s.genDrop (s.newPacket 0x21 s.node))
  | some t =>
    let s := s.txnReply tag.val (completionCode status) (BitVec.ofNat 64 (natAt data 0 8)) data
    match t.core with
    | some c => .next (s.settle c.val)
    | none => .next s

/-- TRANSACTION_TIMEOUT (R92): the timebase stands at least at MV_TIMEOUT after the issue of a mover's transaction. Not for a
semaphore wait, which has no timeout (R313). -/
def execTransactionTimeout (tag : TagId) (s : State) : Host.Outcome State Fault Refusal :=
  match s.tag tag.val with
  | none => .next s
  | some t =>
    if t.kind = .semWait ∨ t.kind = .here then .next s else
    let s := if t.core.isSome then s.reach (t.since + BitVec.ofNat 64 (usTb (s.mvTimeout t))) else s
    let s := s.failTag tag.val 0x0B
    match t.core with
    | some c => .next (s.settle c.val)
    | none => .next s

/-- SEM_WAIT_REISSUE (R313). -/
def execSemWaitReissue (tag : TagId) (s : State) : Host.Outcome State Fault Refusal :=
  match s.tag tag.val with
  | some t => if t.busy then .next (s.mvReissue tag.val t) else .next s
  | none => .next s

/-- MIRRORED_READ_HOLD_RELEASE (R143): the reads held on a slot whose export read, or import, is complete resume. -/
def execMirroredReadHoldRelease (c : CoreId) (region : Fin 16) (slot : Fin 2048) (s : State) :
    Host.Outcome State Fault Refusal :=
  let key := (c.val, region.val, slot.val)
  if s.pair.unread.contains key || s.pair.importing.contains key then .next s else
  let mine (h : Nat × Nat × QEntry) : Bool := h.1 == region.val && h.2.1 == slot.val
  let go := ((s.core c.val).held.filter mine).map (·.2.2)
  let s := s.modCore c.val fun k => { k with held := k.held.filter fun h => !mine h }
  .next (go.foldl (fun s e => (s.endWait 4 c.val (waitEngine e.op) e.ctx).beginWait 3 c.val (waitEngine e.op) e.ctx
    (BitVec.ofNat 64 e.seq)) s)

/-- ATOM_WAIT_EXPIRY (R213): ATOM_WAIT after the core stopped at its point, the atomics that still wait for their replies
detach. -/
def execAtomWaitExpiry (c : CoreId) (s : State) : Host.Outcome State Fault Refusal :=
  match (s.core c.val).blocked with
  | some (.point _ _) =>
    let s := s.reach ((s.core c.val).pointAt + BitVec.ofNat 64 (usTb (s.atomWait c.val)))
    .next ((s.detachAtoms c.val).tryPoint c.val)
  | _ => .next s

end Sys2Proof.Machine
end

