-- ==== Sys2Proof/Machine/Encoding.lean ====
section
/-!
DEFINITION. Instruction words of 128 bits: the common fields (R66), the fields of a tile word (R67) and of a control or statistics
word (R68), the opcodes (R69, R71, R82–R84, R102, R105, R138, R139), the command that a word of the instruction memory spells, and
the fault of a core whose next word has an unassigned opcode (R70).
-/
namespace Sys2Proof.Machine

/-! ### Fields -/

/-- A word of the instruction memory. -/
abbrev Word128 := BitVec 128

/-- OPCODE. -/
def wordOpcode (w : Word128) : Nat := (w.extractLsb' 120 8).toNat

/-- The fields of a tile word (R66, R67); `ecc` is what its fetch found. -/
def tileFields (w : Word128) (ecc : Ecc) : TileWord :=
  { engine := w.extractLsb' 118 2, wait := w.extractLsb' 110 8, sig := w.extractLsb' 107 3, sigv := w.getLsbD 106,
    ta := w.extractLsb' 100 6, tb := w.extractLsb' 94 6, tc := w.extractLsb' 88 6, td := w.extractLsb' 82 6,
    ctl := w.extractLsb' 32 50, imm := w.extractLsb' 0 32, ecc := ecc }

/-- The fields of a control or statistics word (R66, R68). -/
def ctrlFields (w : Word128) (ecc : Ecc) : CtrlWord :=
  { engine := w.extractLsb' 118 2, wait := w.extractLsb' 110 8, sig := w.extractLsb' 107 3, sigv := w.getLsbD 106,
    rd := w.extractLsb' 101 5, rs1 := w.extractLsb' 96 5, rs2 := w.extractLsb' 91 5, rsvd := w.extractLsb' 64 27,
    imm := w.extractLsb' 0 64, ecc := ecc }

/-! ### Opcodes -/

/-- The matrix, scan, state-port and mover words by opcode (R82, R84, R139), and the vector words but VMSK (R102). -/
def tileOpcodes : List (Nat × TileOp) :=
  [(0x00, .mma), (0x01, .mout),
   (0x40, .vadd), (0x41, .vsub), (0x42, .vmul), (0x43, .vfma), (0x44, .vmax), (0x45, .vmin), (0x46, .vcmp), (0x47, .vmov)] ++
  [(0x48, .vcvt), (0x49, .vfun), (0x4A, .vperm), (0x4B, .vshuf), (0x4C, .vpack), (0x4D, .vunpack), (0x4E, .vred),
   (0x4F, .vsum), (0x50, .vsmax)] ++
  [(0x80, .scan), (0x81, .sshift), (0x82, .shsave), (0x90, .spzero), (0x91, .spload), (0x92, .spstore)] ++
  [(0xA0, .tload), (0xA1, .tstore), (0xA2, .mcopy), (0xA3, .semsig), (0xA4, .semwait), (0xA5, .matom), (0xA6, .mfence)]

/-- The opcode of VMSK, whose FN selects the operation (R102, R105). -/
def opcodeVmsk : Nat := 0x51

/-- The operations of VMSK by FN (R105). -/
def maskOps : List TileOp := [.vmskSet, .vmskAnd, .vmskOr, .vmskXor, .vmskAndn, .vmskNot, .vmskFirst]

/-- The control and statistics words by opcode (R71, R83). -/
def ctrlOpcodes : List (Nat × CtrlOp) :=
  [(0xB0, .stlb), (0xB1, .strp), (0xB2, .strd),
   (0xC0, .add), (0xC1, .sub), (0xC2, .and), (0xC3, .or), (0xC4, .xor), (0xC5, .shl), (0xC6, .shr), (0xC7, .sra), (0xC8, .mul)] ++
  [(0xC9, .slt), (0xCA, .addi), (0xCB, .li), (0xCC, .ld), (0xCD, .st),
   (0xD0, .beq), (0xD1, .bne), (0xD2, .blt), (0xD3, .bge), (0xD4, .bltu), (0xD5, .bgeu), (0xD6, .jal), (0xD7, .jalr)] ++
  [(0xD8, .sumrd), (0xD9, .wlread), (0xDA, .beatwait), (0xDB, .tokwait), (0xDC, .ppoint), (0xDD, .endStage), (0xDE, .nop),
   (0xDF, .brk), (0xE0, .mvfail)]

/-- What a word says. -/
inductive WordMeaning where
  | ctrl (op : CtrlOp) (w : CtrlWord)
  | tile (op : TileOp) (w : TileWord)
  /-- the word is illegal whatever its other fields hold: the cause -/
  | illegal (cause : Nat)
deriving DecidableEq, Repr

/-- A word decoded (R66–R70): an opcode that its range does not assign is illegal, and so is an FN that VMSK does not list (R102). -/
def decodeWord (w : Word128) (ecc : Ecc) : WordMeaning :=
  let op := wordOpcode w
  match ctrlOpcodes.find? fun e => e.1 == op with
  | some (_, o) => .ctrl o (ctrlFields w ecc)
  | none =>
    let t := tileFields w ecc
    if op = opcodeVmsk then
      match maskOps[t.f 61 6]? with
      | some o => .tile o t
      | none => .illegal causeField
    else
      match tileOpcodes.find? fun e => e.1 == op with
      | some (_, o) => .tile o t
      | none => .illegal causeOpcode

/-! ### Commands -/

/-- The command by which core c issues a control or statistics word. -/
def ctrlInstr (c : CoreId) (w : CtrlWord) : CtrlOp → Instr
  | .add => .add c w | .sub => .sub c w | .and => .and c w | .or => .or c w | .xor => .xor c w | .shl => .shl c w
  | .shr => .shr c w | .sra => .sra c w | .mul => .mul c w | .slt => .slt c w | .addi => .addi c w | .li => .li c w
  | .ld => .ld c w | .st => .st c w | .beq => .beq c w | .bne => .bne c w | .blt => .blt c w | .bge => .bge c w
  | .bltu => .bltu c w | .bgeu => .bgeu c w | .jal => .jal c w | .jalr => .jalr c w | .sumrd => .sumrd c w
  | .wlread => .wlread c w | .beatwait => .beatwait c w | .tokwait => .tokwait c w | .ppoint => .ppoint c w
  | .endStage => .endStage c w | .nop => .nop c w | .brk => .brk c w | .mvfail => .mvfail c w | .stlb => .stlb c w
  | .strp => .strp c w | .strd => .strd c w

/-- The command by which core c issues a tile word; its reads of the state store find no error. -/
def tileInstr (c : CoreId) (w : TileWord) : TileOp → Instr
  | .mma => .mma c w | .mout => .mout c w | .vadd => .vadd c w | .vsub => .vsub c w | .vmul => .vmul c w
  | .vfma => .vfma c w | .vmax => .vmax c w | .vmin => .vmin c w | .vcmp => .vcmp c w | .vmov => .vmov c w
  | .vcvt => .vcvt c w | .vfun => .vfun c w | .vperm => .vperm c w | .vshuf => .vshuf c w | .vpack => .vpack c w
  | .vunpack => .vunpack c w | .vred => .vred c w | .vsum => .vsum c w | .vsmax => .vsmax c w
  | .vmskSet => .vmskSet c w | .vmskAnd => .vmskAnd c w | .vmskOr => .vmskOr c w | .vmskXor => .vmskXor c w
  | .vmskAndn => .vmskAndn c w | .vmskNot => .vmskNot c w | .vmskFirst => .vmskFirst c w
  | .scan => .scan c w [] | .sshift => .sshift c w [] | .shsave => .shsave c w [] | .spzero => .spzero c w []
  | .spload => .spload c w [] | .spstore => .spstore c w []
  | .tload => .tload c w | .tstore => .tstore c w | .mcopy => .mcopy c w | .semsig => .semsig c w
  | .semwait => .semwait c w | .matom => .matom c w | .mfence => .mfence c w

/-- The command that a word spells for core c; none for an illegal opcode. -/
def wordInstr (c : CoreId) (w : Word128) : Option Instr :=
  match decodeWord w .clean with
  | .ctrl op w => some (ctrlInstr c w op)
  | .tile op w => some (tileInstr c w op)
  | .illegal _ => none

/-! ### The next word of a core -/

/-- The word of core c's instruction memory at its program counter (R57). -/
def Core.nextWord (k : Core) : Word128 := SMap.get k.imem k.pc 0

/-- A core that can issue meets the end of its instruction memory, or a word that no command of the table spells: its context faults
(R70, R71). Such a word has no row of the table, so that the block meets it at an idle cycle (DESIGN CHOICE,
notes/assumptions/117.md). -/
def State.meetIllegal (s : State) (c : Nat) : State :=
  match s.issuer c with
  | none => s
  | some n =>
    if 16384 ≤ (s.core c).pc then s.pastEnd c
    else
      match decodeWord (s.core c).nextWord .clean with
      | .illegal cause => s.coreFault c n.val cause (s.core c).pc
      | _ => s

end Sys2Proof.Machine
end

