-- ==== Sys2Proof/Decode.lean ====
section
/-!
DEFINITION. The commands that words spell. The operation table gives its rows no bits (notes/assumptions/3.md); the rows that are
instruction words of a core have the 128 bits of R66–R69, and such a word spells the command by which core C0 issues it.
-/
namespace Sys2Proof

/-- The command that a word spells: a word of 128 bits is an instruction word, issued on core C0 (DESIGN CHOICE,
notes/assumptions/3.md); no other word spells one. -/
def decodeTableWord (nbits w : Nat) : Option Instr :=
  if nbits = 128 then Machine.wordInstr 0 (BitVec.ofNat 128 w) else none

end Sys2Proof
end

