-- ==== Sys2Proof/Machine/Fec.lean ====
section
/-!
DEFINITION. The forward error correction of the links (R303): RS(544,514) over 10-bit symbols with the field, the generator and the
symbol order of IEEE 802.3 Clause 119.
-/
namespace Sys2Proof.Machine

/-- A symbol: an element of the field of 1,024 elements with x^10 + x^3 + 1. -/
abbrev Sym := BitVec 10

/-- A symbol times x. -/
def symDouble (a : Sym) : Sym := (a <<< 1) ^^^ (if a.getLsbD 9 then 9 else 0)

/-- The product of two symbols. -/
def symMul (a b : Sym) : Sym :=
  ((List.range 10).foldl (fun (acc : Sym × Sym) i =>
    (if b.getLsbD i then acc.1 ^^^ acc.2 else acc.1, symDouble acc.2)) (0, a)).1

/-- The coefficients of the generator polynomial below its highest, highest power first: its roots are the powers 0 to 29 of x. -/
def rsGenerator : List Sym :=
  ((List.range 30).foldl (fun (acc : List Sym × Sym) _ =>
    (List.zipWith (· ^^^ ·) (acc.1 ++ [0]) (0 :: acc.1.map (symMul acc.2)), symDouble acc.2)) ([1], 1)).1.drop 1

/-- The 30 parity symbols of a message, both highest power first: the remainder of the message times x^30. -/
def rsParity (message : List Sym) : List Sym :=
  let g := rsGenerator
  message.foldl (fun (r : List Sym) m =>
    let f := m ^^^ r.headD 0
    List.zipWith (fun a b => a ^^^ symMul f b) (r.drop 1 ++ [0]) g) (List.replicate 30 0)

/-- The header of codeword n: the fixed pattern and the number modulo 16. -/
def wordHeader (n : Nat) : Nat := 0xC35A * 16 + n % 16

/-- The message of codeword n over 640 flit bytes: header, then the bytes in order, each from its bit 0 on; each symbol takes its
bits from bit 0 on (DESIGN CHOICE, notes/assumptions/132.md). -/
def wordMessage (n : Nat) (flits : List Byte) : List Sym :=
  let v := wordHeader n + 2 ^ 20 * (flits.zipIdx.map fun e => e.1.toNat * 2 ^ (8 * e.2)).sum
  (List.range 514).map fun i => BitVec.ofNat 10 (v / 2 ^ (10 * i))

/-- Codeword n over 640 flit bytes: 544 symbols. -/
def codeword (n : Nat) (flits : List Byte) : List Sym :=
  let m := wordMessage n flits
  m ++ rsParity m

/-- The bit pairs that lane k sends for a codeword: its symbols i with i mod 2 = k, each most significant bit first. -/
def laneBits (word : List Sym) (k : Nat) : List (BitVec 2) :=
  ((word.zipIdx.filter fun (e : Sym × Nat) => e.2 % 2 == k).map fun (e : Sym × Nat) =>
    (List.range 5).map fun j => (e.1 >>> (8 - 2 * j)).setWidth 2).flatten

/-- The value of a codeword at a power of x; zero at each root of the generator. -/
def syndrome (word : List Sym) (root : Sym) : Sym := word.foldl (fun acc c => symMul acc root ^^^ c) 0

end Sys2Proof.Machine
end

