-- ==== Sys2Proof/Machine/Flits.lean ====
section
/-!
DEFINITION. Packets as bytes (R311, R319), their segmentation into flits (R304, R305, R310), and what a port puts on its lanes
(R303–R310, R326, R327).
-/
namespace Sys2Proof.Machine

/-! ### Packets as bytes (R310, R311, R319) -/

/-- The 32-byte header of a packet (R311). -/
def packetHeader (p : Packet) : List Byte :=
  let b (n : Nat) : Byte := BitVec.ofNat 8 n
  [p.ttype, b p.dst.toNat, b p.src.toNat, b p.hops.toNat] ++ leBytes 2 (p.tag.toNat + 8192 * p.epoch.toNat) ++
  [p.bgen, p.rbgen, b (p.ctx.toNat + 64 * b2n p.cgv), b p.cgen.toNat, p.status,
   b (b2n p.z + 2 * b2n p.enc + 4 * b2n p.last)] ++
  leBytes 2 p.len.toNat ++ leBytes 2 p.wlen.toNat ++ leBytes 8 p.addr.toNat ++ leBytes 8 p.operand.toNat

/-- The packet whose header stands in the first 32 bytes, with its data. -/
def packetOf (l data : List Byte) : Packet :=
  let flags := natAt l 0x0B 1
  { ttype := BitVec.ofNat 8 (natAt l 0 1), dst := BitVec.ofNat 5 (natAt l 1 1), src := BitVec.ofNat 5 (natAt l 2 1),
    hops := BitVec.ofNat 5 (natAt l 3 1), tag := BitVec.ofNat 13 (natAt l 4 2), epoch := BitVec.ofNat 3 (natAt l 4 2 / 8192),
    bgen := BitVec.ofNat 8 (natAt l 6 1), rbgen := BitVec.ofNat 8 (natAt l 7 1), ctx := BitVec.ofNat 6 (natAt l 8 1),
    cgv := bitOf (natAt l 8 1) 6, cgen := BitVec.ofNat 4 (natAt l 9 1), status := BitVec.ofNat 8 (natAt l 10 1),
    z := bitOf flags 0, enc := bitOf flags 1, last := bitOf flags 2, len := BitVec.ofNat 16 (natAt l 0x0C 2),
    wlen := BitVec.ofNat 16 (natAt l 0x0E 2), addr := BitVec.ofNat 64 (natAt l 0x10 8), operand := BitVec.ofNat 64 (natAt l 0x18 8),
    data := data }

/-- The bytes of a packet as port `l` sends it, padded to a multiple of 16 (R310, R318, R319). -/
def packetBytes (l : Link) (p : Packet) : List Byte :=
  let h := packetHeader p
  let d := match p.enc, l.keys with
    | true, some (k, _, salt, _) => gcmSeal k salt l.txCount h p.data
    | _, _ => p.data
  let all := h ++ d
  all ++ List.replicate ((16 - all.length % 16) % 16) 0

/-- The bytes of the packet at the head of a stream, with its tag and its padding (R310, R311). -/
def packetSpan (l : List Byte) : Nat := (32 + natAt l 0x0E 2 + (if bitOf (natAt l 0x0B 1) 1 then 16 else 0) + 15) / 16 * 16

/-- The data of the packet at the head of a stream that port `l` receives (R319): decrypted, none where its tag does not verify. -/
def openData (l : Link) (b : List Byte) : Option (List Byte) :=
  let n := natAt b 0x0E 2
  let d := bytesAt b 32 n
  match bitOf (natAt b 0x0B 1) 1, l.keys with
  | true, some (_, k, _, salt) =>
    let plain := (gcmSeal k salt l.rxCount (b.take 32) d).take n
    if gcmSeal k salt l.rxCount (b.take 32) plain = bytesAt b 32 (n + 16) then some plain else none
  | _, _ => some d

/-! ### Flits (R304, R305) -/

/-- A byte string cut into flit payloads of at most 240 bytes (R304). -/
def flitPayloads (l : List Byte) : List (List Byte) :=
  (List.range ((l.length + 239) / 240)).map fun i => (l.drop (240 * i)).take 240

/-- The credits that the next flit returns (R304, R309): the virtual channel, the count, and what stays owed. -/
def Link.creditReturn (l : Link) : Nat × Nat × SMap Nat :=
  match l.owed.find? fun e => e.2 != 0 with
  | some (v, n) => (v, min n 255, SMap.set l.owed v (n - min n 255) 0)
  | none => (0, 0, l.owed)

/-- A flit of a port (R304, R305): its header with ACK and a credit return, the payload filled with zeros, and the CRC. -/
def Link.flit (l : Link) (ftype vc fill seq : Nat) (payload : List Byte) : List Byte :=
  let (cvc, ccount, _) := l.creditReturn
  let h := ftype + 2 ^ 4 * vc + 2 ^ 8 * fill + 2 ^ 12 * seq + 2 ^ 24 * (l.rxSeq - 1).toNat + 2 ^ 36 * b2n l.rxAny + 2 ^ 37 * cvc +
    2 ^ 40 * ccount
  let body := leBytes 8 h ++ bytesAt payload 0 240
  body ++ leBytes 8 (crc64 body).toNat

/-- The payload of a CONTROL flit (R302, R307). -/
def controlPayload (f : OutFlit) : List Byte :=
  match f.kind with
  | 1 => [1, 0] ++ leBytes 2 f.arg
  | 2 => [2, BitVec.ofNat 8 f.arg]
  | _ => leBytes 240 f.arg

/-- A flit goes onto the lanes of port p; with 640 bytes of flits there the next codeword goes out (R303). -/
def State.onLanes (s : State) (p : Nat) (f : List Byte) : State :=
  s.modLink p fun l =>
    let b := l.txBytes ++ f
    if 640 ≤ b.length then
      { l with txFlit := f, txBytes := b.drop 640, txNum := (l.txNum + 1) % 16, txWord := codeword l.txNum (b.take 640) }
    else { l with txFlit := f, txBytes := b }

/-! ### What a port sends in one cycle -/

/-- A packet as it leaves: the stamps of its departure (R326, R327). -/
def State.departing (s : State) (port : Nat) (p : Packet) : Packet × State :=
  match p.ttype.toNat with
  | 0x31 => (p, s.modLink port fun l => { l with pdelayT1 := some s.now })
  | 0x32 => ({ p with operand := s.now }, s)
  | 0x30 => (if p.src.toNat = s.node then p else { p with addr := p.addr + s.now }, s)
  | _ => (p, s)

/-- The first waiting packet of a virtual channel on a port. -/
def State.waitingPacket (s : State) (port vc : Nat) : Option OutPacket :=
  s.fab.out.find? fun o => o.port == port && o.vc == vc

/-- Whether port `p` can send a DATA flit of a virtual channel now (R306, R309). -/
def State.vcReady (s : State) (p vc : Nat) : Bool :=
  let l := s.link p
  decide (0 < SMap.get l.credits vc 0) && decide (l.replay.length < 511) &&
  (!(SMap.get l.sending vc []).isEmpty || (s.waitingPacket p vc).isSome)

/-- The virtual channel that sends next: VC1, then VC0, then VC2–VC7 by weighted round robin (R308); and the turn after it. -/
def State.nextVc (s : State) (p : Nat) : Option (Nat × Nat × Nat) :=
  let l := s.link p
  if s.vcReady p 1 then some (1, l.turn, l.turnLeft)
  else if s.vcReady p 0 then some (0, l.turn, l.turnLeft)
  else if 0 < l.turnLeft ∧ s.vcReady p l.turn = true then some (l.turn, l.turn, l.turnLeft - 1)
  else
    match ((List.range 6).map fun k => 2 + (l.turn - 1 + k) % 6).find? fun v => s.vcReady p v with
    | some v => some (v, v, max (s.fld (Page.linkVc p) (Reg.KL_VC_CREDIT + 4 * v) 16 4) 1 - 1)
    | none => none

/-- The next packet of a virtual channel taken from those that wait and cut into flit payloads. -/
def State.loadPacket (s : State) (p vc : Nat) : State :=
  if !(SMap.get (s.link p).sending vc []).isEmpty then s else
  match s.waitingPacket p vc with
  | none => s
  | some o =>
    let s := { s with fab := { s.fab with out := s.fab.out.erase o } }
    let (pk, s) := s.departing p o.p
    let l := s.link p
    let n := if pk.enc then l.txCount + 1 else l.txCount
    s.setLink p { l with txCount := n, sending := SMap.set l.sending vc (flitPayloads (packetBytes l pk)) [] }

/-- One DATA flit of a virtual channel sent and kept for replay (R304, R306, R309). -/
def State.sendFlit (s : State) (p vc : Nat) : State :=
  let s := s.loadPacket p vc
  let l := s.link p
  match SMap.get l.sending vc [] with
  | [] => s
  | d :: r =>
    let f := l.flit 1 vc (d.length / 16) l.txSeq.toNat d
    let s := s.setLink p { l with
      txSeq := l.txSeq + 1, replay := l.replay ++ [(l.txSeq, f)], ackAt := if l.replay.isEmpty then s.now else l.ackAt,
      owed := l.creditReturn.2.2, sending := SMap.set l.sending vc r [],
      credits := SMap.set l.credits vc (SMap.get l.credits vc 0 - 1) 0 }
    (s.count (Page.linkVc p) (Reg.KL_VC_TX_FLITS + 4 * vc)).onLanes p f

/-- A flit of port p that carries no packet sent, with its ACK and credit return (R304). -/
def State.sendOther (s : State) (p ftype : Nat) (payload : List Byte) : State :=
  let l := s.link p
  (s.setLink p { l with owed := l.creditReturn.2.2 }).onLanes p (l.flit ftype 0 0 0 payload)

/-- A CONTROL flit that waits, or a DATA flit to be sent again as it was, sent (R306, R307). -/
def State.sendWaiting (s : State) (p : Nat) (f : OutFlit) : State :=
  if f.kind = 4 then
    match (s.link p).replay.find? fun e => e.1.toNat == f.arg with
    | some e => s.onLanes p e.2
    | none => s
  else s.sendOther p 2 (controlPayload f)

/-- What port p puts on its lanes in one cycle, once they carry flits: a CONTROL or replayed flit that waits, else a DATA flit, else a
NULL flit (R303–R309). -/
def State.portCycle (s : State) (p : Nat) : State :=
  match s.fab.flits.find? fun f => f.port == p with
  | some f => { s with fab := { s.fab with flits := s.fab.flits.erase f } }.sendWaiting p f
  | none =>
    let l := s.link p
    if l.st < 3 || 7 < l.st then s else
    match (if l.carries then s.nextVc p else none) with
    | some (vc, turn, left) => (s.sendFlit p vc).modLink p fun l => { l with turn := turn, turnLeft := left }
    | none => s.sendOther p 0 []

end Sys2Proof.Machine
end

