-- ==== Sys2Proof/Machine/Packets.lean ====
section
/-!
DEFINITION. The requests and responses that arrive over a link (R312–R314, R316–R318, R343), the management packets, and the
debug access of the TAP (R144, R419, R468).
-/
namespace Sys2Proof.Machine

/-- On whose behalf a request that arrives over a link reaches memory (R317). -/
def requesterOf (p : Packet) : Requester := if p.src = 0 then .host else .peer (Fin.ofNat 32 p.src.toNat)

/-! ### Debug requests (R317, R419) -/

/-- Whether a request on VC7 is denied: it must come from node 0 with the DEBUG domain ON, and beside the SECURITY page and the
state store window, which has a level of its own, it needs CORE_DEBUG (R144, R317, R419, R425). -/
def State.debugDenied (s : State) (src a : Nat) : Bool :=
  src != 0 ||
  (match regionOf a with
   | .regs page _ => page != Page.security && (s.domState 79 != 2 || !bitOf s.sec.levels.toNat 1)
   | .stateWin _ => s.domState 79 != 2 || !bitOf s.sec.levels.toNat 0
   | _ => s.domState 79 != 2 || !bitOf s.sec.levels.toNat 1)

/-- A debug write of CTRL_STATUS: BRK_HALT 0 resumes a core that BRK halts, and 1 halts one that issues (R71, R419; the rules
name no means, notes/assumptions/94.md). -/
def State.debugHalt (s : State) (c : Nat) (halt : Bool) : State :=
  let k := s.core c
  match k.ctx, k.blocked with
  | some _, some .brk => if halt then s else (s.setCore c { k with blocked := none }).settle c
  | some _, none => if halt then s.setCore c { k with blocked := some .brk } else s
  | _, _ => s

/-- What a debug write does beside writing registers: a word written to CTRL_STATUS of a core (R419). -/
def State.debugCtrl (s : State) (a : Nat) (l : List Byte) : State :=
  match regionOf a with
  | .regs page off =>
    if pageKind page = some .coreCtrl ∧ off = Reg.CTRL_STATUS ∧ l.length = 4 ∧ s.pageOn page then
      s.debugHalt (pageInstance page) (bitOf (natAt l 0 4) 8)
    else s
  | _ => s

/-! ### Reads and writes (R312, R316, R317) -/

/-- A READ of `n` bytes on virtual channel `vc` by node `src`: status, bytes and state. -/
def State.serveRead (s : State) (who : Requester) (vc src a n : Nat) : Nat × List Byte × State :=
  if vc = 7 && s.debugDenied src a then (0x0D, [], s) else s.busRead who vc a n

/-- A WRITE on virtual channel `vc` by node `src`: status and state. -/
def State.serveWrite (s : State) (who : Requester) (vc src a : Nat) (l : List Byte) : Nat × State :=
  if vc = 7 then
    if s.debugDenied src a then (0x0D, s)
    else
      let (st, s) := s.busWrite who true src a l
      (st, if st = 0 then s.debugCtrl a l else s)
  else s.busWrite who true src a l

/-- A READ that arrives here answered (R312). -/
def State.answerRead (s : State) (vc : Nat) (p : Packet) : State :=
  let (st, l, s) := s.serveRead (requesterOf p) vc p.src.toNat p.addr.toNat p.operand.toNat
  s.respond p 0x20 st 0 (if st = 0 then l else [])

/-- READ (R312). -/
def execRead (port : PortId) (vc : Fin 8) (p : Packet) (s : State) : Host.Outcome State Fault Refusal :=
  let p := { p with ttype := 0x10 }
  match s.arrive port.val vc.val p with
  | (.done, s) => .next s
  | (.deliver, s) => .next (s.answerRead vc.val p)

/-- STATE_DEBUG_READ (R144): a READ whose address lies in the state store debug window. -/
def execStateDebugRead (port : PortId) (vc : Fin 8) (p : Packet) (s : State) : Host.Outcome State Fault Refusal :=
  let p := { p with ttype := 0x10, addr := BitVec.ofNat 64 (0x20000000000 + p.addr.toNat % 0x8000000) }
  match s.arrive port.val vc.val p with
  | (.done, s) => .next s
  | (.deliver, s) => .next (s.answerRead vc.val p)

/-- WRITE (R312). -/
def execWrite (port : PortId) (vc : Fin 8) (p : Packet) (s : State) : Host.Outcome State Fault Refusal :=
  let p := { p with ttype := 0x11 }
  match s.arrive port.val vc.val p with
  | (.done, s) => .next s
  | (.deliver, s) =>
    let (st, s) := s.serveWrite (requesterOf p) vc.val p.src.toNat p.addr.toNat p.data
    .next (s.respond p 0x21 st 0 [])

/-- ATOMIC_ADD (R314). -/
def execAtomicAdd (port : PortId) (vc : Fin 8) (p : Packet) (s : State) : Host.Outcome State Fault Refusal :=
  let p := { p with ttype := 0x12 }
  match s.arrive port.val vc.val p with
  | (.done, s) => .next s
  | (.deliver, s) =>
    let (st, old, s) := s.busAtomic (requesterOf p) p.addr.toNat p.operand none
    .next (s.respond p 0x22 st old [])

/-- ATOMIC_CAS (R314). -/
def execAtomicCas (port : PortId) (vc : Fin 8) (p : Packet) (s : State) : Host.Outcome State Fault Refusal :=
  let p := { p with ttype := 0x13 }
  match s.arrive port.val vc.val p with
  | (.done, s) => .next s
  | (.deliver, s) =>
    let (st, old, s) := s.busAtomic (requesterOf p) p.addr.toNat p.operand (some (BitVec.ofNat 64 (natAt p.data 0 8)))
    .next (s.respond p 0x22 st old [])

/-! ### Semaphores and queues (R313, R318, R343) -/

/-- SEM_SIGNAL (R313). -/
def execSemSignal (port : PortId) (vc : Fin 8) (p : Packet) (s : State) : Host.Outcome State Fault Refusal :=
  let p := { p with ttype := 0x14 }
  match s.arrive port.val vc.val p with
  | (.done, s) => .next s
  | (.deliver, s) =>
    match regionOf p.addr.toNat with
    | .sem n 0 =>
      let who := if p.cgv then some (p.src.toNat, p.ctx.toNat) else none
      .next ((s.semSignal n p.operand.toNat who).respond p 0x21 0 0 [])
    | _ => .next (s.respond p 0x21 0x0D 0 [])

/-- SEM_WAIT (R313). -/
def execSemWait (port : PortId) (vc : Fin 8) (p : Packet) (s : State) : Host.Outcome State Fault Refusal :=
  let p := { p with ttype := 0x15 }
  match s.arrive port.val vc.val p with
  | (.done, s) => .next s
  | (.deliver, s) =>
    match regionOf p.addr.toNat with
    | .sem n 0 => .next (s.semWait n p.operand.toNat p).2
    | _ => .next (s.respond p 0x23 0x0D 0 [])

/-- SEM_CANCEL (R313): OPERAND is 0 for a wait removed and 1 for one already granted. -/
def execSemCancel (port : PortId) (vc : Fin 8) (p : Packet) (s : State) : Host.Outcome State Fault Refusal :=
  let p := { p with ttype := 0x16 }
  match s.arrive port.val vc.val p with
  | (.done, s) => .next s
  | (.deliver, s) =>
    match regionOf p.addr.toNat with
    | .sem n 0 =>
      let (v, s) := s.semCancel n p.src.toNat (p.operand.toNat % 8192)
      .next (s.respond p 0x23 0 (BitVec.ofNat 64 v) [])
    | _ => .next (s.respond p 0x23 0x0D 0 [])

/-- The data of a QPUSH, decoded where it is one coded block; none when the block is damaged (R290, R318). -/
def pushedData (p : Packet) : Option (List Byte) :=
  if p.z then
    match decodeWhole p.data with
    | some l => if l.length = p.len.toNat then some l else none
    | none => none
  else some p.data

/-- QPUSH (R318, R343). -/
def execQpush (port : PortId) (vc : Fin 8) (p : Packet) (s : State) : Host.Outcome State Fault Refusal :=
  let p := { p with ttype := 0x17 }
  match s.arrive port.val vc.val p with
  | (.done, s) => .next s
  | (.deliver, s) =>
    match pushedData p with
    | some l =>
      let (st, s) := s.pushFor p.addr.toNat p.src.toNat false l (some p)
      .next (match st with | some st => s.respond p 0x21 st 0 [] | none => s)
    | none => .next ((s.count Page.fabric Reg.FB_Z_DAMAGED).respond p 0x21 0x02 0 [])

/-! ### Responses (R312, R330) -/

/-- A response of type `t` that arrives and passes R330 completes its transaction; what waited for it on its core goes on. -/
def State.takeResponse (s : State) (port vc t : Nat) (p : Packet) : State :=
  let p := { p with ttype := BitVec.ofNat 8 t }
  match s.arrive port vc p with
  | (.done, s) => s
  | (.deliver, s) =>
    match s.tag p.tag.toNat with
    | none => s
    | some x =>
      let s := s.txnReply p.tag.toNat (completionCode p.status) p.operand p.data
      match x.core with
      | some c => s.settle c.val
      | none => s

/-- READ_RSP (R330). -/
def execReadRsp (port : PortId) (vc : Fin 8) (p : Packet) (s : State) : Host.Outcome State Fault Refusal :=
  .next (s.takeResponse port.val vc.val 0x20 p)

/-- ACK (R330). -/
def execAck (port : PortId) (vc : Fin 8) (p : Packet) (s : State) : Host.Outcome State Fault Refusal :=
  .next (s.takeResponse port.val vc.val 0x21 p)

/-- ATOMIC_RSP (R312). -/
def execAtomicRsp (port : PortId) (vc : Fin 8) (p : Packet) (s : State) : Host.Outcome State Fault Refusal :=
  .next (s.takeResponse port.val vc.val 0x22 p)

/-- SEM_RSP (R313). -/
def execSemRsp (port : PortId) (vc : Fin 8) (p : Packet) (s : State) : Host.Outcome State Fault Refusal :=
  .next (s.takeResponse port.val vc.val 0x23 p)

/-! ### Management (R312, R316, R317) -/

/-- MGMT_READ (R312, R317): register pages and the dump buffer, for node 0 only. -/
def execMgmtRead (port : PortId) (vc : Fin 8) (p : Packet) (s : State) : Host.Outcome State Fault Refusal :=
  let p := { p with ttype := 0x50 }
  match s.arrive port.val vc.val p with
  | (.done, s) => .next s
  | (.deliver, s) =>
    let a := p.addr.toNat
    let ok := p.src == 0 && (match regionOf a with | .regs _ _ | .dump _ => true | _ => false)
    let (st, l, s) := if ok then s.busRead .host 0 a p.operand.toNat else (0x0D, [], s)
    .next (s.send 0 (s.response p 0x52 st 0 (if st = 0 then l else [])))

/-- MGMT_WRITE (R312, R317): register pages, for node 0 only. -/
def execMgmtWrite (port : PortId) (vc : Fin 8) (p : Packet) (s : State) : Host.Outcome State Fault Refusal :=
  let p := { p with ttype := 0x51 }
  match s.arrive port.val vc.val p with
  | (.done, s) => .next s
  | (.deliver, s) =>
    let a := p.addr.toNat
    let ok := p.src == 0 && (match regionOf a with | .regs _ _ => true | _ => false)
    let (st, s) := if ok then s.busWrite .host true 0 a p.data else (0x0D, s)
    .next (s.send 0 (s.response p 0x52 st 0 []))

/-- MGMT_RSP (R312): this device sends no management request, so that one for it completes nothing. -/
def execMgmtRsp (port : PortId) (vc : Fin 8) (p : Packet) (s : State) : Host.Outcome State Fault Refusal :=
  .next (s.arrive port.val vc.val { p with ttype := 0x52 }).2

/-! ### The TAP (R468) -/

/-- IDCODE (R468): METAL is the metal revision of DV_ID. -/
def State.idcode (s : State) : Nat := 0x07732D6B + bitsOf (s.regView Page.device Reg.DV_ID).toNat 16 4 * 2 ^ 28

/-- DBGACC (R468): one access of 4 bytes, handled as a VC7 request of node 0; the register then captures the data read and the
completion code. An address of another node is denied. -/
def execDbgacc (addr : W64) (data : W32) (write : Bool) (s : State) : Host.Outcome State Fault Refusal :=
  let a := localOf addr
  let done (s : State) (st : Nat) (d : W32) : State :=
    { s with tap := { addr := addr, data := d, write := write, status := BitVec.ofNat 7 st } }
  if s.sec.boot ≠ 4 ∨ nodeOf addr ≠ s.node then .next (done s 0x0D data)
  else if write then
    let (st, s) := s.serveWrite .host 7 0 a (leBytes 4 data.toNat)
    .next (done s st data)
  else
    let (st, l, s) := s.serveRead .host 7 0 a 4
    .next (done s st (if st = 0 then BitVec.ofNat 32 (natAt l 0 4) else data))

end Sys2Proof.Machine
end

