-- ==== Sys2Proof/Machine/Arrivals.lean ====
section
/-!
DEFINITION. Flits that arrive (R303–R310): retry, acknowledgements and credits, the byte stream of each virtual channel, the packets
assembled from it, their decryption (R319, R321) and their delivery.
-/
namespace Sys2Proof.Machine

/-! ### Delivery -/

/-- The state that a command which always goes on answers. -/
def nextOf (s : State) : Host.Outcome State Fault Refusal → State
  | .next t => t
  | _ => s

/-- A packet assembled from the stream of port `port`, virtual channel `vc`, acts as the row of its type does; an unassigned type is
malformed (R312, R315). -/
def State.deliver (s : State) (port : PortId) (vc : Fin 8) (p : Packet) : State :=
  nextOf s (match p.ttype.toNat with
    | 0x10 => execRead port vc p s
    | 0x11 => execWrite port vc p s
    | 0x12 => execAtomicAdd port vc p s
    | 0x13 => execAtomicCas port vc p s
    | 0x14 => execSemSignal port vc p s
    | 0x15 => execSemWait port vc p s
    | 0x16 => execSemCancel port vc p s
    | 0x17 => execQpush port vc p s
    | 0x20 => execReadRsp port vc p s
    | 0x21 => execAck port vc p s
    | 0x22 => execAtomicRsp port vc p s
    | 0x23 => execSemRsp port vc p s
    | 0x30 => execSync port vc p s
    | 0x31 => execPdelayReq port vc p s
    | 0x32 => execPdelayRsp port vc p s
    | 0x40 => execMirror port vc p s
    | 0x41 => execToll port vc p s
    | 0x50 => execMgmtRead port vc p s
    | 0x51 => execMgmtWrite port vc p s
    | 0x52 => execMgmtRsp port vc p s
    | 0x53 => execPeerLost port vc p s
    | 0x54 => execNodeDown port vc p s
    | 0x55 => execNodeUp port vc p s
    | 0x56 => execHostSwitch port vc p s
    | 0x60 => execEnum port vc p s
    | 0x61 => execEnumDone port vc p s
    | 0x70 => if vc = 0 then execKeyOffer port p s else execPacketForward port vc p s
    | 0x71 => if vc = 0 then execKeyConfirm port p s else execPacketForward port vc p s
    | _ => execPacketForward port vc p s)

/-! ### The receive buffer (R309, R310) -/

/-- `n` bytes taken from a virtual channel's buffer: the flits whose bytes have all left it, and what the others still hold there. -/
def leaveFlits : List Nat → Nat → Nat × List Nat
  | [], _ => (0, [])
  | x :: r, n => if x ≤ n then let (k, t) := leaveFlits r (n - x); (k + 1, t) else (0, (x - n) :: r)

/-- `n` bytes leave the buffer of a virtual channel; a credit is owed for each flit that is gone (R309). -/
def Link.leave (l : Link) (vc n : Nat) : Link :=
  let (k, lens) := leaveFlits (SMap.get l.rxLens vc []) n
  { l with rxBuf := SMap.set l.rxBuf vc ((SMap.get l.rxBuf vc []).drop n) [], rxLens := SMap.set l.rxLens vc lens [],
           owed := SMap.set l.owed vc (SMap.get l.owed vc 0 + k) 0 }

/-- Whether a packet that the port receives is encrypted as it must be (R319): every packet of an encrypted link but KEY_OFFER and
KEY_CONFIRM. -/
def encWrong (l : Link) (b : List Byte) : Bool :=
  let key := natAt b 0 1 == 0x70 || natAt b 0 1 == 0x71
  bitOf (natAt b 0x0B 1) 1 != (l.encOn && !key)

/-- The packets complete at the head of a virtual channel's stream leave the buffer in order and are delivered (R310): one whose tag
does not verify is discarded (R321), as is one that is not encrypted as it must be (malformed; notes/assumptions/132.md). -/
def State.assemble (s : State) (port : PortId) (vc : Fin 8) : Nat → State
  | 0 => s
  | fuel + 1 =>
    let l := s.link port.val
    let b := SMap.get l.rxBuf vc.val []
    if b.length < 32 || b.length < packetSpan b then s else
    let s := s.setLink port.val (l.leave vc.val (packetSpan b))
    let s :=
      if encWrong l b then s.count (Page.link port.val) Reg.KL_MALFORMED
      else
        match openData l b with
        | some d => s.deliver port vc (packetOf b d)
        | none => s.authFail port.val
    s.assemble port vc fuel

/-- The payload of an accepted DATA flit joins its virtual channel's stream. -/
def State.takeData (s : State) (port : PortId) (flit : List Byte) : State :=
  let v : Fin 8 := Fin.ofNat 8 (flitField flit 4 3)
  let n := 16 * flitField flit 8 4
  let s := s.modLink port.val fun l =>
    ({ l with rxSeq := l.rxSeq + 1, rxAny := true, nakSent := false,
              rxBuf := SMap.set l.rxBuf v.val (SMap.get l.rxBuf v.val [] ++ bytesAt flit 8 (min n 240)) [],
              rxLens := SMap.set l.rxLens v.val (SMap.get l.rxLens v.val [] ++ [min n 240]) [] }).leave v.val 0
  s.assemble port v ((SMap.get (s.link port.val).rxBuf v.val []).length / 32 + 1)

/-! ### Flits (R304–R307) -/

/-- The content of an EXCHANGE flit (R302). -/
def exchangeOf (f : List Byte) : ExchangeInfo :=
  let b := natAt f 9 1
  { host := bitOf b 0, bridge := bitOf b 1, encOffer := bitOf b 2, encReq := bitOf b 3, ackSeen := bitOf b 4,
    nodeId := BitVec.ofNat 5 (natAt f 10 1), bgen := BitVec.ofNat 8 (natAt f 11 1), port := BitVec.ofNat 2 (natAt f 12 1),
    credits := (List.range 8).map fun v => BitVec.ofNat 11 (natAt f (16 + 2 * v) 2) }

/-- A good CONTROL flit acts as the row of its kind does; other kinds, and causes without a meaning, are discarded (R307). -/
def State.takeControl (s : State) (p : Nat) (flit : List Byte) (h : FlitHead) : State :=
  match natAt flit 8 1 with
  | 1 => (s.takeAck p h).replayFrom p (BitVec.ofNat 12 (natAt flit 10 2))
  | 2 =>
    match natAt flit 9 1 with
    | 0 => (s.takeAck p h).goDown p .port
    | 1 => (s.takeAck p h).goDown p .chip
    | 2 => (s.takeAck p h).goDown p .retrain
    | 3 => (s.takeAck p h).goDown p .rekey
    | _ => s
  | 3 => (s.takeAck p h).exchangeTake p (exchangeOf flit)
  | _ => s

/-- A flit arrives on a port that carries flits (R303–R307); `errs` are the symbol errors of the codeword that begins in it, if one
does. A bad flit is counted and discarded, and answered by one NAK per gap where it is a DATA flit (`data`). Of a good one the ACK and
the credits are taken, of a DATA flit only when its SEQ is the expected one: otherwise it is discarded, and answered alike. -/
def State.takeFlit (s : State) (port : PortId) (flit : List Byte) (errs : Nat) (data : Bool) : State :=
  let p := port.val
  if !(s.link p).controls then s else
  let (bad, s) := s.fecFlit p errs
  let nak (s : State) : State := if data && (s.link p).carries then s.nakOnce p else s
  let h := headOf flit errs
  if bad then nak s
  else if !flitCrcOk flit then nak (s.count (Page.link p) Reg.KL_CRC_ERR)
  else
    match flitField flit 0 4 with
    | 0 => s.takeAck p h
    | 1 =>
      if !(s.link p).carries then s
      else if flitField flit 12 12 = (s.link p).rxSeq.toNat then (s.takeAck p h).takeData port flit
      else s.nakOnce p
    | 2 => s.takeControl p flit h
    | _ => nak s

/-- DATA_FLIT (R304–R306, R309, R310). -/
def execDataFlit (port : PortId) (flit : List Byte) (errs : Nat) (s : State) : Host.Outcome State Fault Refusal :=
  .next (s.takeFlit port flit errs true)

/-- NULL_FLIT (R304, R306): a bad one is discarded. -/
def execNullFlit (port : PortId) (flit : List Byte) (errs : Nat) (s : State) : Host.Outcome State Fault Refusal :=
  .next (s.takeFlit port flit errs false)

end Sys2Proof.Machine
end

