-- ==== Sys2Proof/Machine/Dump.lean ====
section
/-!
DEFINITION. The dump engine (R396) and the dump format (R397). The content of every unit is taken at the dump's end
(notes/assumptions/86.md).
-/
namespace Sys2Proof.Machine

/-! ### Units and sections (R397) -/

/-- One section to write: unit, KIND and the local address of its first byte. -/
structure DumpSection where
  unit : Nat
  kind : Nat
  addr : Nat
deriving DecidableEq, Repr

/-- The DRAM unit of a local DRAM address: its channel group (R397). -/
def dramUnit (a : Nat) : Nat := 0x460 + a / 2 ^ 31 % 4

/-- The sections that DM_SEL selects, in the order of R397; STATE only with a STATE_READ grant (R419). -/
def State.dumpSections (s : State) (sel : Nat) : List DumpSection :=
  let has (i : Nat) (l : List DumpSection) : List DumpSection := if bitOf sel i then l else []
  let cores := List.range 32
  has 3 [⟨0x470, 3, 0⟩] ++
  has 2 [⟨0x471, 2, 0⟩] ++
  has 0 (((List.range 0x3C0).filter fun p => (pageKind p).isSome).map fun p => ⟨p, 0, 0x40000000000 + 0x1000 * p⟩) ++
  has 1 (cores.map fun c => ⟨0x400 + c, 1, 0x40000000000 + 0x1000 * Page.ctrl c⟩) ++
  has 4 ((cores.filter fun c => bitOf (s.reg Page.dump Reg.DM_SPAD_CORES).toNat c).map fun c =>
    ⟨0x420 + c, 4, 0x10000000000 + 0x400000 * c + s.fld Page.dump Reg.DM_SPAD_OFF 0 22⟩) ++
  (if bitOf s.sec.levels.toNat 0 then has 5 (cores.map fun c => ⟨0x440 + c, 5, 0x20000000000 + 0x400000 * c⟩) else [])

/-- The node, context and validity of the first holder of the semaphore that a SEM wait names (R397 HOLDER). -/
def State.waitHolder (s : State) (w : WaitRec) : Nat :=
  if w.kind = 2 ∧ nodeOf w.obj = s.node then
    match regionOf (localOf w.obj) with
    | .sem k _ =>
      match s.fab.holders.find? fun h => h.sem == k with
      | some h => lay [(h.ctx, 0), (1, 6), (h.node, 8)]
      | none => 0
    | _ => 0
  else 0

/-- The 32 bytes of a wait record (R397). -/
def State.waitBytes (s : State) (w : WaitRec) : List Byte :=
  leBytes 8 w.start.toNat ++
  [BitVec.ofNat 8 w.kind, BitVec.ofNat 8 w.core, BitVec.ofNat 8 w.engine,
   match w.ctx with | some n => BitVec.ofNat 8 (n.val + 64) | none => 0] ++
  leBytes 4 (match w.ctx with | some n => (s.gen n.val).toNat | none => 0) ++
  leBytes 8 w.obj.toNat ++ leBytes 8 (s.waitHolder w)

/-- The bytes of a core's state: x1–x31, the PC, tokens, masks and summaries in the layout of R211, then tiles T0–T63
(R397; the packing is a DESIGN CHOICE, notes/assumptions/87.md). -/
def Core.dumpBytes (k : Core) : List Byte := (k.saveBytes k.pc 0).take 0x1A0 ++ k.tileBytes 0 65536

/-- The data bytes of a section's unit. -/
def State.unitBytes (s : State) (d : DumpSection) : List Byte :=
  match d.kind with
  | 0 => ((List.range 1024).map fun i => leBytes 4 (s.regView d.unit (4 * i)).toNat).flatten
  | 1 => (s.core (d.unit - 0x400)).dumpBytes
  | 2 => (s.hang.waits.map s.waitBytes).flatten
  | 3 => memGet s.hang.dumpBuf 0x78000 32768
  | 4 => s.scratchGet (d.unit - 0x420) (s.fld Page.dump Reg.DM_SPAD_OFF 0 22) (s.fld Page.dump Reg.DM_SPAD_LEN 0 23)
  | _ => memGet (s.core (d.unit - 0x440)).store 0 0x400000

/-- The marker words of a dead unit, over `n` bytes (R396). -/
def deadBytes (n : Nat) : List Byte := (List.range n).map fun i => (leBytes 4 0xDEAD0D0D).getD (i % 4) 0

/-- A section with its header, padded to 16 bytes (R397). -/
def State.sectionBytes (s : State) (d : DumpSection) : List Byte :=
  let dead := s.hang.deadUnits.contains d.unit
  let data := s.unitBytes d
  leBytes 2 d.unit ++ [BitVec.ofNat 8 d.kind, BitVec.ofNat 8 (b2n dead)] ++ leBytes 4 data.length ++ leBytes 8 d.addr ++
  (if dead then deadBytes data.length else data) ++ List.replicate ((16 - data.length % 16) % 16) 0

/-- The sections that fit before `limit` bytes, after the 256 bytes of the header: their bytes and how many were begun. -/
def State.dumpBody (s : State) (limit : Nat) : List DumpSection → Nat × List Byte → Nat × List Byte
  | [], acc => acc
  | d :: r, acc =>
    if limit ≤ 256 + acc.2.length then acc
    else s.dumpBody limit r (acc.1 + 1, acc.2 ++ s.sectionBytes d)

/-- The dump that job `j` writes with at most `limit` bytes: header FLAGS and bytes, the header first in place (R396, R397). -/
def State.dumpImage (s : State) (j : DumpJob) (inBuf : Bool) (limit : Nat) : Nat × List Byte :=
  let secs := s.dumpSections (bitsOf j.sel.toNat 0 6)
  let body := s.dumpBody limit secs (0, [])
  let total := 256 + body.2.length
  let cut := decide (limit < total) || decide (body.1 < secs.length)
  let flags := lay [(b2n inBuf, 0), (b2n cut, 1), (b2n j.destFailed, 2)]
  let dead := s.hang.deadUnits
  let header := leBytes 4 0x504D5544 ++ leBytes 2 1 ++ leBytes 1 s.node ++ [s.fab.bgen] ++ leBytes 8 j.start.toNat ++
    leBytes 8 s.now.toNat ++ leBytes 8 (min total limit) ++ leBytes 1 j.trigger ++ leBytes 1 flags ++ leBytes 2 body.1 ++
    leBytes 2 dead.length ++ leBytes 2 0 ++ leBytes 4 j.sel.toNat ++ leBytes 4 0 ++
    ((List.range 104).map fun i => leBytes 2 (dead.getD i 0)).flatten
  (flags, (header ++ body.2).take limit)

/-! ### Running a dump (R396) -/

/-- The bytes of the dump area of the dump buffer (R396). -/
def dumpArea : Nat := 0x78000

/-- A dump starts: no unit is dead yet. -/
def State.dumpStart (s : State) (cmd : Option (QueueId × W32)) (dest : W64) (limit trigger : Nat) : State :=
  { s with hang := { s.hang with
    deadUnits := [],
    dumping := some { cmd := cmd, dest := dest, limit := limit, start := s.now,
                      sel := s.reg Page.dump Reg.DM_SEL, destFailed := false, trigger := trigger,
                      serial := s.hang.nextDump, sent := none },
    nextDump := s.hang.nextDump + 1 } }

/-- A unit is marked dead, once (R396). -/
def State.deadUnit (s : State) (u : Nat) : State :=
  if s.hang.deadUnits.contains u then s
  else { s with hang := { s.hang with deadUnits := s.hang.deadUnits ++ [u] } }.count Page.dump Reg.DM_DEAD_COUNT

/-- DEST fails: its DRAM unit is dead, and the dump restarts in the dump buffer with the dead units kept (R396). -/
def State.destFails (s : State) (j : DumpJob) : State :=
  let s := if nodeOf j.dest = s.node then s.deadUnit (dramUnit (localOf j.dest)) else s
  { s with hang := { s.hang with dumping := some j.restart } }

/-- The dump written into the dump buffer: FLAGS, bytes written and the state (R396). -/
def State.dumpToBuffer (s : State) (j : DumpJob) : Nat × Nat × State :=
  let d := s.dumpImage j true (min j.limit dumpArea)
  (d.1, d.2.length, { s with hang := { s.hang with dumpBuf := memPut s.hang.dumpBuf 0 d.2, dumpInBuf := true } })

/-- The dump written to this device; a DEST that refuses a write fails (R396). -/
def State.dumpHere (s : State) (j : DumpJob) : Nat × Nat × State :=
  if j.dest = 0 then s.dumpToBuffer j else
  let d := s.dumpImage j false j.limit
  let (st, s') := s.writeSpan .sys (localOf j.dest) d.2
  if st = 0 then (d.1, d.2.length, { s' with hang := { s'.hang with dumpInBuf := false } })
  else s'.destFails j |>.dumpToBuffer j.restart

/-- The running dump is complete: the event recorded and its command completed (R396). -/
def State.dumpComplete (s : State) (j : DumpJob) (flags n : Nat) : State :=
  let s := { s with hang := { s.hang with dumping := none, dumpStatus := 0, dumpBytes := BitVec.ofNat 32 n } }
  let s := (s.count Page.dump Reg.DM_COUNT).logEvent 0x30 Page.dump none 0 0 n flags
  match j.cmd with
  | some c => s.complete c.1 c.2 0x60 0 n 0
  | none => s

/-- The writes of the running dump to another node issued, on VC6 (R308, R396). -/
def State.dumpSend (s : State) (j : DumpJob) : State :=
  let d := s.dumpImage j false j.limit
  let ps := pieces (localOf j.dest) d.2.length
  let s := { s with hang := { s.hang with dumpInBuf := false, dumping := some { j with sent := some (d.1, d.2.length, ps.length) } } }
  ps.foldl (fun s p =>
    let k := BitVec.ofNat 16 p.2
    s.request 6 { s.newPacket 0x11 (nodeOf j.dest) with
      addr := BitVec.ofNat 64 p.1, len := k, wlen := k, data := bytesAt d.2 (p.1 - localOf j.dest) p.2 }
      { plainTag with addr := BitVec.ofNat 64 p.1, len := p.2, kind := .dumpWrite j.serial }) s

/-- The running dump ends on this device at once; on another node its writes are issued, and it ends once they are acknowledged
(R396). A node that cannot be reached makes DEST fail. -/
def State.dumpEnd (s : State) : State :=
  match s.hang.dumping with
  | none => s
  | some j =>
    match j.sent with
    | some (flags, n, 0) => s.dumpComplete j flags n
    | some _ => s
    | none =>
      if j.dest ≠ 0 ∧ nodeOf j.dest ≠ s.node then
        if (s.refuseRequest (nodeOf j.dest)).isNone then s.dumpSend j
        else
          let (flags, n, s) := s.dumpToBuffer j.restart
          s.dumpComplete j flags n
      else
        let (flags, n, s) := s.dumpHere j
        s.dumpComplete j flags n

/-- A running dump whose writes are not all acknowledged ends as if they were (notes/assumptions/86.md). -/
def State.dumpCut (s : State) : State :=
  match s.hang.dumping with
  | some j => match j.sent with | some (flags, n, _) => s.dumpComplete j flags n | none => s
  | none => s

/-- An automatic dump into the dump buffer: it waits for a running dump to end (R396). -/
def State.autoDump (s : State) : State := (s.dumpEnd.dumpCut.dumpStart none 0 dumpArea 2).dumpEnd

/-- DUMP_ACCESS_TIMEOUT (R396): an access of the running dump to `unit` times out. A DRAM unit is reached only by the writes
to DEST, so that its timeout is the failure of DEST. -/
def execDumpAccessTimeout (unit : Fin 2048) (s : State) : Host.Outcome State Fault Refusal :=
  match s.hang.dumping with
  | none => .next s
  | some j =>
    if 0x460 ≤ unit.val ∧ unit.val < 0x464 then (if j.dest = 0 then .next s else .next (s.destFails j))
    else .next (s.deadUnit unit.val)

/-- DUMP_DONE (R396). -/
def execDumpDone (s : State) : Host.Outcome State Fault Refusal := .next s.dumpEnd

end Sys2Proof.Machine
end

