-- ==== Sys2Proof/Machine/Image.lean ====
section
/-!
DEFINITION. The model image (R349, R350): its descriptor arrays read from bytes, the layout checks of R351 and R429, and the
writing of registers, segments and tables.
-/
namespace Sys2Proof.Machine

/-! ### The descriptor arrays (R349, R350) -/

/-- A region descriptor of an image (R350). -/
structure ImgRegion where
  core : Nat
  region : Nat
  base : Nat
  shape : Nat
  slots : Nat
  s2 : Nat
deriving DecidableEq, Repr

/-- A segment descriptor of an image (R350). -/
structure ImgSegment where
  kind : Nat
  core : Nat
  dest : Nat
  src : Nat
  bytes : Nat
deriving DecidableEq, Repr

/-- A table descriptor of an image (R350). -/
structure ImgTable where
  slot : Nat
  tag : Nat
  off : Nat
deriving DecidableEq, Repr

/-- An image's header fields that the load uses (R349), with the counts and offsets of its arrays. -/
structure ImgHeader where
  nsect : Nat
  ntable : Nat
  nstage : Nat
  nregion : Nat
  nseg : Nat
  bytes : Nat
  sectOff : Nat
  stageOff : Nat
  regionOff : Nat
  segOff : Nat
  tableOff : Nat
  /-- WL_BASE and WL_STRIDE of each core -/
  wl : List (Nat × Nat)
deriving DecidableEq, Repr

/-- An image as read from its bytes. -/
structure ImgLayout where
  hdr : ImgHeader
  sections : List Section
  stages : List Stage
  regions : List ImgRegion
  segments : List ImgSegment
  tables : List ImgTable
deriving DecidableEq, Repr

/-- The header (R349). -/
def imgHeader (l : List Byte) : ImgHeader :=
  { nsect := natAt l 6 1, ntable := natAt l 7 1, nstage := natAt l 8 2, nregion := natAt l 0x0A 2, nseg := natAt l 0x0C 2,
    bytes := natAt l 0x10 8, sectOff := natAt l 0x18 4, stageOff := natAt l 0x1C 4, regionOff := natAt l 0x20 4,
    segOff := natAt l 0x24 4, tableOff := natAt l 0x28 4,
    wl := (List.range 32).map fun c => (natAt l (0x30 + 8 * c) 4, natAt l (0x34 + 8 * c) 4) }

/-- Whether `n` bytes from offset `o` are zero. -/
def zeroAt (l : List Byte) (o n : Nat) : Bool := (bytesAt l o n).all fun b => b == 0

/-- Whether the header of an image of `n` bytes is legal (R349). -/
def imgHeaderOk (l : List Byte) (n : Nat) : Bool :=
  let h := imgHeader l
  let array (o count size : Nat) : Bool := o % 16 == 0 && decide (o + count * size ≤ n)
  decide (0x130 ≤ n) && natAt l 0 4 == 0x4D495754 && natAt l 4 2 == 1 && decide (1 ≤ h.nsect) && decide (h.nsect ≤ 8) &&
  decide (h.ntable ≤ 32) && decide (1 ≤ h.nstage) && decide (h.nstage ≤ 512) && decide (1 ≤ h.nregion) &&
  decide (h.nregion ≤ 512) && decide (1 ≤ h.nseg) && decide (h.nseg ≤ 4096) && zeroAt l 0x0E 2 && zeroAt l 0x2C 4 &&
  h.bytes == n && array h.sectOff h.nsect 80 && array h.stageOff h.nstage 48 && array h.regionOff h.nregion 32 &&
  array h.segOff h.nseg 32 && array h.tableOff h.ntable 16 &&
  h.wl.all fun w => w.1 % 256 == 0 && decide (w.1 < 2 ^ 22) && w.2 % 256 == 0 && decide (w.2 < 2 ^ 18)

/-- The section descriptor at offset o (R350). -/
def imgSection (l : List Byte) (o : Nat) : Section :=
  { section_ := natAt l o 1, cores := BitVec.ofNat 32 (natAt l (o + 4) 4),
    entry := (List.range 32).map fun c => natAt l (o + 0x10 + 2 * c) 2 }

/-- Whether a section descriptor is legal (R350): its number is one of 0–7 and no other section's, and an entry word lies in the
instruction memory. -/
def imgSectionOk (l : List Byte) (all : List Section) (o : Nat) : Bool :=
  let x := imgSection l o
  decide (x.section_ ≤ 7) && zeroAt l (o + 2) 2 && zeroAt l (o + 8) 8 &&
  (x.entry.all fun e => decide (e < 16384) || e == 0xFFFF) &&
  (all.filter fun y => y.section_ == x.section_).length == 1

/-- The stage descriptor at offset o (R350). -/
def imgStage (l : List Byte) (o : Nat) : Stage :=
  let fl := natAt l (o + 9) 1
  { section_ := natAt l o 1, slot := natAt l (o + 1) 1, stage := natAt l (o + 2) 2,
    cores := BitVec.ofNat 32 (natAt l (o + 4) 4), batchMax := natAt l (o + 8) 1, final := bitOf fl 0, streamed := bitOf fl 1,
    maxStreams := natAt l (o + 10) 2, regions := (List.range 4).map fun i => natAt l (o + 12 + i) 1,
    inBase := natAt l (o + 16) 4, inStride := natAt l (o + 20) 4, outBase := natAt l (o + 24) 4,
    outStride := natAt l (o + 28) 4 }

/-- Whether the fields of a stage descriptor are legal (R164, R350). -/
def imgStageOk (l : List Byte) (regions : List ImgRegion) (o : Nat) : Bool :=
  let x := imgStage l o
  let cores := (List.range 32).filter fun c => bitOf x.cores.toNat c
  let m256 (n : Nat) : Bool := n % 256 == 0
  decide (x.slot ≤ 3) && decide (1 ≤ x.batchMax) && decide (x.batchMax ≤ 32) && decide (natAt l (o + 9) 1 < 4) &&
  decide (1 ≤ x.maxStreams) && decide (x.maxStreams ≤ 2048) && (x.regions.all fun r => decide (r < 16) || r == 0xFF) &&
  m256 x.inBase && m256 x.inStride && m256 x.outBase && m256 x.outStride &&
  [x.inBase, x.inStride, x.outBase, x.outStride].all (fun v => decide (v < 2 ^ 22)) && zeroAt l (o + 0x20) 16 &&
  cores.all fun c => x.regions.all fun r =>
    r == 0xFF || regions.any fun g => g.core == c && g.region == r && decide (x.maxStreams ≤ g.slots)

/-- The region descriptor at offset o (R350). -/
def imgRegion (l : List Byte) (o : Nat) : ImgRegion :=
  { core := natAt l o 1, region := natAt l (o + 1) 1, base := natAt l (o + 4) 4, shape := natAt l (o + 8) 4,
    slots := natAt l (o + 12) 4, s2 := natAt l (o + 16) 4 }

/-- Whether the fields of a region descriptor are legal (R151, R350). -/
def imgRegionOk (l : List Byte) (o : Nat) : Bool :=
  let x := imgRegion l o
  decide (x.core < 32) && decide (x.region < 16) && zeroAt l (o + 2) 2 && decide (x.base < 2 ^ 17) &&
  decide (x.shape < 2 ^ 22) && bitOf x.shape 21 && decide (x.slots < 2 ^ 12) && zeroAt l (o + 20) 12

/-- The segment descriptor at offset o (R350). -/
def imgSegment (l : List Byte) (o : Nat) : ImgSegment :=
  { kind := natAt l o 1, core := natAt l (o + 1) 1, dest := natAt l (o + 8) 8, src := natAt l (o + 16) 8,
    bytes := natAt l (o + 24) 8 }

/-- Whether a segment is legal in an image of `n` bytes whose container occupies the local bytes [lo, hi) (R350, R351). -/
def imgSegmentOk (l : List Byte) (n lo hi : Nat) (o : Nat) : Bool :=
  let x := imgSegment l o
  decide (x.kind < 3) && decide (x.core < 32) && zeroAt l (o + 2) 6 && x.src % 16 == 0 && decide (x.src + x.bytes ≤ n) &&
  (match x.kind with
   | 0 => x.bytes % 16 == 0 && decide (x.dest + x.bytes / 16 ≤ 16384)
   | 1 =>
     let a := 0x10000000000 + 0x400000 * x.core + x.dest
     decide (x.dest + x.bytes ≤ 0x400000) && (decide (hi ≤ a) || decide (a + x.bytes ≤ lo))
   | _ => decide (x.dest + x.bytes ≤ 0x200000000) && (decide (hi ≤ x.dest) || decide (x.dest + x.bytes ≤ lo)))

/-- The table descriptor at offset o (R350). -/
def imgTable (l : List Byte) (o : Nat) : ImgTable := { slot := natAt l o 1, tag := natAt l (o + 1) 1, off := natAt l (o + 8) 8 }

/-- Whether a table descriptor is legal in an image of `n` bytes (R284, R350). -/
def imgTableOk (l : List Byte) (n : Nat) (o : Nat) : Bool :=
  let x := imgTable l o
  decide (x.slot < 16) && zeroAt l (o + 2) 6 && x.off % 16 == 0 && decide (x.off + 16 ≤ n)

/-- `count` descriptors of `size` bytes from offset `o`. -/
def imgArray {α : Type} (f : Nat → α) (o count size : Nat) : List α := (List.range count).map fun i => f (o + size * i)

/-- The image read from its bytes. -/
def imgLayout (l : List Byte) : ImgLayout :=
  let h := imgHeader l
  { hdr := h, sections := imgArray (imgSection l) h.sectOff h.nsect 80, stages := imgArray (imgStage l) h.stageOff h.nstage 48,
    regions := imgArray (imgRegion l) h.regionOff h.nregion 32, segments := imgArray (imgSegment l) h.segOff h.nseg 32,
    tables := imgArray (imgTable l) h.tableOff h.ntable 16 }

/-! ### The checks of R351 step 3 -/

/-- Whether two stages of one section share a stage slot on a core (R351). -/
def stagesClash (l : List Stage) : Bool :=
  match l with
  | [] => false
  | x :: r => (r.any fun y => y.section_ == x.section_ && y.slot == x.slot && (x.cores &&& y.cores) != 0) || stagesClash r

/-- Whether a stage's cores lie in its section's and its work list buffer fits each of them (R164, R351). -/
def ImgLayout.stageFits (m : ImgLayout) (x : Stage) : Bool :=
  (match m.sections.find? fun y => y.section_ == x.section_ with
   | some y => (x.cores &&& ~~~ y.cores) == 0
   | none => false) &&
  (List.range 32).all fun c => !bitOf x.cores.toNat c || decide (0x240 + 32 * x.maxStreams ≤ (m.hdr.wl.getD c (0, 0)).2)

/-- The cores on which an image places a segment, a state region or a work list buffer (R429, R430). -/
def ImgLayout.coresUsed (m : ImgLayout) : List Nat :=
  (List.range 32).filter fun c =>
    m.stages.any (fun x => bitOf x.cores.toNat c) || m.regions.any (fun g => g.core == c) ||
    m.segments.any fun x => x.kind != 2 && x.core == c

/-- The registers of an image's regions written, each VALID once its checks pass (R126, R350). -/
def State.writeRegions (s : State) (l : List ImgRegion) : State :=
  let s := l.foldl (fun s g =>
    let p := Page.port g.core
    let w (s : State) (r v : Nat) : State := s.setReg p (r + 16 * g.region) (BitVec.ofNat 32 v)
    w (w (w (w s Reg.ST_REGION_BASE g.base) Reg.ST_REGION_SHAPE (bitsOf g.shape 0 21)) Reg.ST_REGION_SLOTS g.slots)
      Reg.ST_REGION_S2 g.s2) s
  l.foldl (fun s g =>
    if s.regionLegal g.core g.region then s.setFlag (Page.port g.core) (Reg.ST_REGION_SHAPE + 16 * g.region) 21 true else s) s

/-- Whether every region of an image passes R126. -/
def State.regionsOk (s : State) (l : List ImgRegion) : Bool :=
  let s := s.writeRegions l
  l.all fun g => s.flag (Page.port g.core) (Reg.ST_REGION_SHAPE + 16 * g.region) 21

/-- Whether the layout of an image of `n` bytes passes R351 step 3 and R429; its container occupies the local bytes [lo, hi). -/
def State.imageOk (s : State) (l : List Byte) (n lo hi : Nat) : Bool :=
  imgHeaderOk l n &&
  (let m := imgLayout l
   let h := m.hdr
   (imgArray (imgSectionOk l m.sections) h.sectOff h.nsect 80).all id &&
   (imgArray (imgRegionOk l) h.regionOff h.nregion 32).all id &&
   (imgArray (imgStageOk l m.regions) h.stageOff h.nstage 48).all id &&
   (imgArray (imgSegmentOk l n lo hi) h.segOff h.nseg 32).all id &&
   (imgArray (imgTableOk l n) h.tableOff h.ntable 16).all id &&
   !stagesClash m.stages && m.stages.all m.stageFits && s.regionsOk m.regions &&
   m.coresUsed.all fun c => s.domState (32 + c) == 2)

/-! ### Steps 4 and 5 of R351 -/

/-- WL_BASE, WL_STRIDE and the region descriptors written, and the STREAMS page and every state port page locked (R351). -/
def State.writeImageRegs (s : State) (m : ImgLayout) : State :=
  let s := m.hdr.wl.zipIdx.foldl (fun s e =>
    (s.setReg Page.streams (Reg.WL_BASE + 8 * e.2) (BitVec.ofNat 32 e.1.1)).setReg Page.streams (Reg.WL_STRIDE + 8 * e.2)
      (BitVec.ofNat 32 e.1.2)) s
  let s := s.writeRegions m.regions
  (List.range 32).foldl (fun s c => s.lockPage (Page.port c)) (s.lockPage Page.streams)

/-- The 128-bit words of a byte string (R66). -/
def imemWords (l : List Byte) (n : Nat) : List (BitVec 128) := (List.range n).map fun i => BitVec.ofNat 128 (natAt l (16 * i) 16)

/-- A segment copied (R350): its status and the state. -/
def State.copySegment (s : State) (l : List Byte) (x : ImgSegment) : Nat × State :=
  let d := bytesAt l x.src x.bytes
  match x.kind with
  | 0 => (0, s.modCore x.core fun k => { k with
      imem := (imemWords d (x.bytes / 16)).zipIdx.foldl (fun m e => SMap.set m (x.dest + e.2) e.1 0) k.imem })
  | 1 => (0, s.scratchPut x.core x.dest d)
  | _ => s.writeSpan .sys x.dest d

/-- The segments copied in order until one fails: its status and the state (R351). -/
def State.copySegments (s : State) (l : List Byte) : List ImgSegment → Nat × State
  | [] => (0, s)
  | x :: r =>
    match s.copySegment l x with
    | (0, s) => s.copySegments l r
    | (e, s) => (e, s)

/-- A table loaded into its slot; the COMPRESSION domain must be ON (R285, R286, R426). -/
def State.loadTable (s : State) (slot : Nat) (tag : Byte) (image : List Byte) : Nat × State :=
  if s.domState 77 ≠ 2 then (0x0D, s)
  else
    let r := s.ce.load slot tag image
    (r.1, { s with ce := r.2 })

/-- The bytes of a table image from offset `o`: its header says how many (R284). -/
def tableBytes (l : List Byte) (o : Nat) : List Byte := (l.drop o).take (16 + natAt l (o + 2) 2 / 2)

/-- The tables loaded in order until one fails: its status, its index and the state (R351). -/
def State.loadTables (s : State) (l : List Byte) : List ImgTable → Nat → Nat × Nat × State
  | [], _ => (0, 0, s)
  | x :: r, i =>
    match s.loadTable x.slot (BitVec.ofNat 8 x.tag) (tableBytes l x.off) with
    | (0, s) => s.loadTables l r (i + 1)
    | (e, s) => (e, i, s)

/-- The image as the device keeps it once it is resident. -/
def ImgLayout.toImage (m : ImgLayout) (signer : Byte) (hash : List Byte) : Image :=
  { sections := m.sections, stages := m.stages,
    scratchSegs := (m.segments.filter fun x => x.kind == 1).map fun x => (x.core, x.dest, x.bytes),
    imemCores := ((m.segments.filter fun x => x.kind == 0).map (·.core)).eraseDups, signer := signer, hash := hash }

/-- The load failed at step 5 with a status: FAILED until the next chip warm reset (R351). -/
def State.imageFailed (s : State) (e : Nat) : State :=
  { s with qm := { s.qm with imageState := 3, failStatus := BitVec.ofNat 8 e } }

/-- Steps 4 to 6 of R351 for a verified image `l` from a container with header `h`: status, RESULT1 and the state. -/
def State.installImage (s : State) (h l : List Byte) : Nat × Nat × State :=
  let m := imgLayout l
  let s := s.writeImageRegs m
  match s.copySegments l m.segments with
  | (0, s) =>
    match s.loadTables l m.tables 0 with
    | (0, _, s) =>
      let svn := natAt h 8 1
      let f := s.sec.fuses
      let f := if bitOf (natAt h 9 1) 0 then { f with imgSvn := max f.imgSvn (min svn 32) } else f
      let im := m.toImage (BitVec.ofNat 8 (natAt h 7 1)) (bytesAt h 0x20 32)
      (0, 0, { s with qm := { s.qm with image := some im, imageState := 2, failStatus := 0 },
                      sec := { s.sec with fuses := f } })
    | (e, i, s) => (e, i, s.imageFailed e)
  | (e, s) => (e, 0, s.imageFailed e)

/-- Steps 2 and 3 of R351, and what follows when they pass: `c` holds the container's header and payload, which occupy the
local bytes [lo, hi) where the container is local. -/
def State.loadImage (s : State) (bytes : Nat) (c : List Byte) (lo hi : Nat) : Nat × Nat × State :=
  let refuse (e : Nat) : Nat × Nat × State := (e, 0, { s with qm := { s.qm with failStatus := BitVec.ofNat 8 e } })
  let h := bytesAt c 0 256
  let n := natAt h 0x10 8
  if containerCause s.sec.fuses 2 (bytes - 256) c ≠ 0 then refuse 0x0F
  else if !s.imageOk (c.drop 256) n lo hi then refuse 0x0E
  else s.installImage h (bytesAt c 256 n)

end Sys2Proof.Machine
end

