-- ==== Sys2Proof/Machine/Commands.lean ====
section
/-!
DEFINITION. The commands of the COMMAND queues (R345–R348): registers, queues (R339–R341, R353), the image and the tables
(R285, R351), contexts (R204–R206, R211, R217, R391), streams (R145–R148, R154–R157), the pattern (R200, R201) and the dump
(R396), and the fetch that starts them (R346).
-/
namespace Sys2Proof.Machine

/-! ### A command slot (R345) -/

end Sys2Proof.Machine

namespace Sys2Proof
open Machine

/-- The number of `n` bytes at offset `o` of a command slot; the arguments start at 0x08. -/
def CmdSlot.nat (c : CmdSlot) (o n : Nat) : Nat := natAt c.args (o - 8) n

end Sys2Proof

namespace Sys2Proof.Machine

/-- Whether byte `o` lies in one of the given fields (offset, size). -/
def inFields (used : List (Nat × Nat)) (o : Nat) : Bool := used.any fun f => decide (f.1 ≤ o) && decide (o < f.1 + f.2)

end Sys2Proof.Machine

namespace Sys2Proof
open Machine

/-- Whether a reserved byte or bit of a slot is not zero (R345, R348). -/
def CmdSlot.reserved (c : CmdSlot) (used : List (Nat × Nat)) : Bool :=
  decide (1 < c.flags.toNat) || c.rsvd != 0 ||
  (List.range 56).any fun i => !inFields used (i + 8) && c.args.getD i 0 != 0

end Sys2Proof

namespace Sys2Proof.Machine

/-- Whether a command can start now: fewer than 256 are in flight and, behind a FENCE, none of its queue is (R345, R346). -/
def State.startable (s : State) (c : CmdSlot) : Bool :=
  decide (s.qm.inFlight.length < 256) && !(c.flags.getLsbD 0 && s.qm.inFlight.any fun f => f.queue == c.queue)

/-- A command completes (R347). -/
def State.finish (s : State) (c : CmdSlot) (op status r0 r1 : Nat) : State := s.complete c.queue c.cmdId op status r0 r1

/-- A command enters flight. -/
def State.flight (s : State) (c : CmdSlot) (op : Nat) : State :=
  { s with qm := { s.qm with inFlight := s.qm.inFlight ++ [{
      queue := c.queue, cmdId := c.cmdId, opcode := BitVec.ofNat 8 op, cq := (s.queue c.queue.val).cq }] } }

/-- What every command shares: it starts when it can, safe state completes all but REG_READ and DUMP (R373), and a reserved byte
completes it with BAD_COMMAND (R348); otherwise `body` acts. -/
def State.command (s : State) (c : CmdSlot) (op : Nat) (used : List (Nat × Nat)) (body : State → State) : State :=
  if !s.startable c then s
  else
    let s := s.flight c op
    if s.safety.safe && op != 1 && op != 0x60 then s.finish c op 0x13 0 0
    else if c.reserved used then s.finish c op 0x0E 0 0
    else body s

/-- CMD_NOP (R348). -/
def State.cmdNop (s : State) (c : CmdSlot) : State := s.command c 0 [] fun s => s.finish c 0 0 0 0

/-! ### Registers -/

/-- The page and offset of a register of this device that `words` words from a global address cover (R316, R348). -/
def State.cmdReg (s : State) (a words : Nat) : Option (Nat × Nat) :=
  let g : W64 := BitVec.ofNat 64 a
  match regionOf (localOf g) with
  | .regs page off => if nodeOf g = s.node ∧ off % 4 = 0 ∧ off + 4 * words ≤ 4096 then some (page, off) else none
  | _ => none

/-- REG_READ (R348). -/
def State.cmdRegRead (s : State) (c : CmdSlot) : State :=
  s.command c 1 [(0x08, 8), (0x10, 1)] fun s =>
    let n := c.nat 0x10 1
    match s.cmdReg (c.nat 0x08 8) n with
    | none => s.finish c 1 0x0E 0 0
    | some (page, off) =>
      if n = 0 ∨ 4 < n then s.finish c 1 0x0E 0 0 else
      let (l, s) := s.regWords page off n
      s.finish c 1 0 (natAt l 0 8) (natAt l 8 8)

/-- The bits of a register whose content a masked write keeps: RW and RWL fields. A one outside the mask would act on a field of
another access code (R8, R348; notes/assumptions/93.md). -/
def keptBits (page off : Nat) : Nat :=
  match regAt page off with
  | some (r, _) => (r.fields.map fun f => if f.acc = .rw ∨ f.acc = .rwl then (2 ^ f.w - 1) * 2 ^ f.lo else 0).sum
  | none => 0

/-- The value that a write under a mask gives a register (R348). -/
def State.maskedValue (s : State) (page off : Nat) (v m : W32) : W32 :=
  (s.regView page off &&& BitVec.ofNat 32 (keptBits page off) &&& ~~~ m) ||| (v &&& m)

/-- REG_WRITE (R348): by the register's access codes, on behalf of node 0. -/
def State.cmdRegWrite (s : State) (c : CmdSlot) : State :=
  s.command c 2 [(0x08, 8), (0x10, 4), (0x14, 4)] fun s =>
    match s.cmdReg (c.nat 0x08 8) 1 with
    | none => s.finish c 2 0x0E 0 0
    | some (page, off) =>
      if s.regDenied false 0 page off 4 then s.finish c 2 0x0D 0 0 else
      let v := s.maskedValue page off (BitVec.ofNat 32 (c.nat 0x10 4)) (BitVec.ofNat 32 (c.nat 0x14 4))
      (s.regWriteAt 0 page off v).finish c 2 0 0 0

/-! ### Queues (R339, R340, R353) -/

end Sys2Proof.Machine

namespace Sys2Proof
open Machine

/-- The queue that a QUEUE_CREATE describes. -/
def CmdSlot.newQueue (c : CmdSlot) : Queue :=
  { valid := true, qtype := c.nat 0x0A 1, irqEn := bitOf (c.nat 0x0D 1) 0, hostOnly := bitOf (c.nat 0x0D 1) 1,
    log2 := c.nat 0x0B 1, esize16 := c.nat 0x0C 1, vec := c.nat 0x0E 1, cq := c.nat 0x18 2, coalCount := c.nat 0x0F 1,
    coalUs := c.nat 0x1A 2, ringAddr := BitVec.ofNat 64 (c.nat 0x10 8) }

end Sys2Proof

namespace Sys2Proof.Machine

/-- Whether the fields of a new queue are legal (R339, R340, R344): its CQ, for a COMMAND queue only, is a COMPLETION queue. -/
def State.newQueueOk (s : State) (c : CmdSlot) : Bool :=
  let q := c.newQueue
  decide (q.qtype ≤ 4) && esizeOk q.qtype q.esize && decide (1 ≤ q.log2) && decide (q.log2 ≤ 16) &&
  decide (c.nat 0x0D 1 < 4) && decide (q.vec < 128) && s.ringOk q.qtype q.ringAddr (q.entries * q.stride) &&
  (if q.qtype = 0 then decide (q.cq < 32768) && (s.queue q.cq).valid && (s.queue q.cq).qtype == 1 else q.cq == 0)

/-- The lowest queue that is not allocated. -/
def State.freeQueue (s : State) : Nat := lowestFree ((s.qm.queues.filter fun e => e.2.valid).map (·.1)) 0

/-- QUEUE_CREATE (R348, R353). -/
def State.cmdQueueCreate (s : State) (c : CmdSlot) : State :=
  s.command c 0x10 [(0x08, 2), (0x0A, 1), (0x0B, 1), (0x0C, 1), (0x0D, 1), (0x0E, 1), (0x0F, 1), (0x10, 8), (0x18, 2), (0x1A, 2)]
  fun s =>
    let id := c.nat 0x08 2
    if !s.newQueueOk c || (decide (32767 < id) && id != 0xFFFF) then s.finish c 0x10 0x0E 0 0
    else if s.freeQueue = 32768 then (s.setFlag Page.queueMgr Reg.QM_FLAGS 3 true).finish c 0x10 0x07 0 0
    else
      let q := if id = 0xFFFF then s.freeQueue else id
      if (s.queue q).valid then s.finish c 0x10 0x10 0 0
      else (s.setQueue q c.newQueue).finish c 0x10 0 q 0

/-- Whether a queue is bound to a stream that is not FREE or serves as a CQ (R353). -/
def State.queueBound (s : State) (q : Nat) : Bool :=
  (s.streams.any fun e => e.2.st != 0 &&
    (e.2.inQueue == q || (kindQueue e.2.outW && e.2.outQueue == q && e.2.outNode == s.node))) ||
  s.qm.queues.any fun e => e.2.valid && e.2.qtype == 0 && e.2.cq == q

/-- QUEUE_DESTROY (R353); a queue that is not allocated answers BAD_COMMAND. -/
def State.cmdQueueDestroy (s : State) (c : CmdSlot) : State :=
  s.command c 0x11 [(0x08, 2)] fun s =>
    let q := c.nat 0x08 2
    if q < 2 ∨ 32767 < q ∨ (s.queue q).valid = false then s.finish c 0x11 0x0E 0 0
    else if s.queueBound q then s.finish c 0x11 0x10 0 0
    else (s.setQueue q {}).finish c 0x11 0 0 0

/-! ### Image and tables (R285, R351) -/

/-- `n` bytes at a global address for the queue manager: local memory is read, another node by READs on VC4 (R308). -/
def State.fetchBytes (s : State) (a : W64) (n : Nat) (f : Fetched) : Nat × List Byte × State :=
  if nodeOf a = s.node then s.readSpan .sys (localOf a) n else s.readRemote 4 a n f

/-- The container at a global address: its header, and its payload when the header passes R408; else zeros in its place. -/
def State.fetchContainer (s : State) (a : W64) (bytes : Nat) (f : Fetched) : Nat × List Byte × State :=
  match s.fetchBytes a 256 f with
  | (0, h, s) =>
    if headerCause s.sec.fuses 2 (bytes - 256) h ≠ 0 then (0, h, s)
    else s.fetchBytes a (256 + natAt h 0x10 8) f
  | r => r

/-- IMAGE_LOAD (R351, R408). -/
def State.cmdImageLoad (s : State) (c : CmdSlot) (f : Fetched) : State :=
  s.command c 0x20 [(0x08, 8), (0x10, 8)] fun s =>
    let a : W64 := BitVec.ofNat 64 (c.nat 0x08 8)
    let bytes := c.nat 0x10 8
    if s.qm.imageState ≠ 0 ∨ s.ctxs.any fun e => e.2.st != .free then s.finish c 0x20 0x10 0 0
    else
      match s.fetchContainer a bytes f with
      | (0, l, s) =>
        let (lo, hi) := if nodeOf a = s.node then (localOf a, localOf a + bytes) else (0, 0)
        let (st, r1, s) := s.loadImage bytes l lo hi
        s.finish c 0x20 st 0 r1
      | (e, _, s) => { s with qm := { s.qm with failStatus := BitVec.ofNat 8 e } }.finish c 0x20 e 0 0

/-- TABLE_LOAD (R285–R287): a slot above 15 or an image that is not 16-byte aligned is BAD_COMMAND. -/
def State.cmdTableLoad (s : State) (c : CmdSlot) (f : Fetched) : State :=
  s.command c 0x21 [(0x08, 1), (0x09, 1), (0x10, 8)] fun s =>
    let a : W64 := BitVec.ofNat 64 (c.nat 0x10 8)
    let slot := c.nat 0x08 1
    if 15 < slot ∨ a.toNat % 16 ≠ 0 then s.finish c 0x21 0x0E 0 0
    else
      match s.fetchBytes a 16 f with
      | (0, h, s) =>
        match s.fetchBytes a (16 + min (natAt h 2 2) 256 / 2) f with
        | (0, l, s) =>
          let (st, s) := s.loadTable slot (BitVec.ofNat 8 (c.nat 0x09 1)) l
          s.finish c 0x21 st 0 0
        | (e, _, s) => s.finish c 0x21 e 0 0
      | (e, _, s) => s.finish c 0x21 e 0 0

/-! ### Contexts (R204–R206, R211, R217, R348) -/

/-- Bytes of a save area by class (R211). -/
def saveBytesOf (cls : Nat) : Nat := if cls = 1 then 66560 else 1024

/-- The cores that run a stage of section n. -/
def State.stageCores (s : State) (sec : Nat) : W32 := (s.stagesOf sec).foldl (fun (m : W32) x => m ||| x.cores) 0

/-- Whether the byte ranges [a, a + m) and [b, b + n) meet. -/
def rangesMeet (a m b n : Nat) : Bool := decide (a < b + n) && decide (b < a + m)

/-- Whether a save area at `o` of `n` bytes on core c meets a SCRATCH segment or a work list buffer (R211). -/
def State.saveMeets (s : State) (c o n : Nat) : Bool :=
  match s.qm.image with
  | none => false
  | some im =>
    (im.scratchSegs.any fun g => g.1 == c && rangesMeet o n g.2.1 g.2.2) ||
    im.stages.any fun x => bitOf x.cores.toNat c &&
      [0, 1].any fun p => rangesMeet o n (s.wlOffset c x.slot p) (0x240 + 32 * x.maxStreams)

/-- Whether SAVE_OFF is legal for a context of a class on the cores of its section (R211). -/
def State.saveOk (s : State) (sec cls o : Nat) : Bool :=
  let n := saveBytesOf cls
  let m := s.stageCores sec
  o % 1024 == 0 && decide (o + n ≤ 4194304) &&
  (coresOf m.toNat).all fun c => !s.saveMeets c o n &&
    !(s.ctxs.any fun e => e.2.st != .free && bitOf (s.stageCores e.2.section_).toNat c &&
        rangesMeet o n e.2.saveOff (saveBytesOf e.2.cls))

/-- Whether a new context keeps the rules of R204 and R205 beside the contexts that are not FREE. -/
def State.classOk (s : State) (sec cls part : Nat) : Bool :=
  let m := s.stageCores sec
  (m &&& ~~~ s.reg Page.pattern (Reg.PART_CORES + 16 * part)) == 0 &&
  s.ctxs.all fun e => e.2.st == .free ||
    ((cls == 1 || e.2.cls == 1 || (s.stageCores e.2.section_ &&& m) == 0) &&
     (e.2.part != part || (e.2.cls == 2) == (cls == 2)))

/-- The lowest FREE context, 64 if there is none. -/
def State.freeCtx (s : State) : Nat := lowestFree ((s.ctxs.filter fun e => e.2.st != .free).map (·.1)) 0

/-- CTX_CREATE (R204–R206, R211, R217, R351). -/
def State.cmdCtxCreate (s : State) (c : CmdSlot) : State :=
  s.command c 0x30 [(0x08, 1), (0x09, 1), (0x0A, 1), (0x0B, 1), (0x0C, 1), (0x10, 32), (0x30, 4)] fun s =>
    let id := c.nat 0x08 1
    let sec := c.nat 0x09 1
    let cls := c.nat 0x0A 1
    let part := c.nat 0x0B 1
    let prio := c.nat 0x0C 1
    let off := c.nat 0x30 4
    let bad := s.finish c 0x30 0x0E 0 0
    if (63 < id ∧ id ≠ 0xFF) ∨ 2 < cls ∨ 7 < part ∨ 3 < prio ∨ (cls ≠ 1 ∧ prio ≠ 0) then bad
    else if id = 0xFF ∧ 63 < s.freeCtx then s.finish c 0x30 0x08 0 0
    else
      let n := if id = 0xFF then s.freeCtx else id
      let x := s.ctx n
      if x.st ≠ .free then s.finish c 0x30 0x10 0 0
      else if s.qm.imageState ≠ 2 ∨ (s.section_ sec).isNone ∨ s.classOk sec cls part = false ∨ s.saveOk sec cls off = false then bad
      else
        let s := s.setCtx n { st := .stopped, section_ := sec, cls := cls, part := part, prio := prio,
                              seed := BitVec.ofNat 256 (c.nat 0x10 32), saveOff := off, gen := x.gen + 1 }
        let s := { s with pattern := { s.pattern with dropAll := false } }
        s.finish c 0x30 0 (n + 256 * (x.gen + 1).toNat) 0

/-- What the commands on an existing context share (R348): a context that is FREE, a number above 63 or another GEN completes
with BAD_COMMAND. -/
def State.ctxCommand (s : State) (c : CmdSlot) (op : Nat) (body : Nat → State → State) : State :=
  s.command c op [(0x08, 1), (0x09, 1)] fun s =>
    let n := c.nat 0x08 1
    if 63 < n ∨ (s.ctx n).st = .free ∨ c.nat 0x09 1 ≠ (s.gen n).toNat then s.finish c op 0x0E 0 0 else body n s

/-- The GEN of a context in a result. -/
def State.genResult (s : State) (n : Nat) : Nat := 256 * (s.gen n).toNat

/-- A context leaves HG_SUSPECT and HG_CONDEMNED (R391). -/
def State.clearSuspect (s : State) (n : Nat) : State :=
  { s with hang := { s.hang with suspects := s.hang.suspects.filter (· != n), condemned := s.hang.condemned.filter (· != n) } }

/-- CTX_START (R41, R348, R391). -/
def State.cmdCtxStart (s : State) (c : CmdSlot) : State :=
  s.ctxCommand c 0x31 fun n s =>
    match (s.ctx n).st with
    | .running => s.finish c 0x31 0 (s.genResult n) 0
    | .quenching => s.finish c 0x31 0x10 0 0
    | _ => ((s.clearSuspect n).runCtx n).finish c 0x31 0 (s.genResult n) 0

/-- CTX_STOP (R348). -/
def State.cmdCtxStop (s : State) (c : CmdSlot) : State :=
  s.ctxCommand c 0x32 fun n s =>
    let wait := s.modCtx n fun x => { x with stopReq := x.stopReq ++ [(c.queue, c.cmdId, s.now)] }
    if (s.streamsOf n).any fun i => (s.stream i).st != 2 then s.finish c 0x32 0x10 0 0
    else
      match (s.ctx n).st with
      | .running => if s.patternStopped then (s.stopCtx n).finish c 0x32 0 0 0 else wait
      | .quenching => wait
      | _ => s.finish c 0x32 0 0 0

/-- CTX_QUENCH (R216, R217, R348): it completes when the context is QUENCHED; one that finds it QUENCHING or QUENCHED reports
QUENCHED. -/
def State.cmdCtxQuench (s : State) (c : CmdSlot) : State :=
  s.ctxCommand c 0x33 fun n s =>
    let wait (st : Nat) (s : State) : State := s.modCtx n fun x => { x with quenchReq := x.quenchReq ++ [(c.queue, c.cmdId, st)] }
    match (s.ctx n).st with
    | .quenched => s.finish c 0x33 0x0C (s.genResult n) 0
    | .quenching => wait 0x0C s
    | _ => wait 0 (s.requestQuench n 5)

/-- CTX_DESTROY (R348, R391): the number keeps its generation (R206). -/
def State.cmdCtxDestroy (s : State) (c : CmdSlot) : State :=
  s.ctxCommand c 0x34 fun n s =>
    let x := s.ctx n
    let idle := x.st == .stopped || x.st == .quenched
    if !idle || !(s.streamsOf n).isEmpty then s.finish c 0x34 0x10 0 0
    else
      let s := (s.clearSuspect n).setCtx n { gen := x.gen }
      { s with hang := { s.hang with ckpt := SMap.set s.hang.ckpt n none none } }.finish c 0x34 0 0 0

/-! ### Streams (R145–R148, R154–R157) -/

end Sys2Proof.Machine

namespace Sys2Proof
open Machine

/-- The fields of a STREAM_OPEN (R152, R348). -/
def CmdSlot.openArgs (c : CmdSlot) : OpenArgs :=
  let w (k : Nat) : Nat := c.nat (0x08 + 4 * k) 4
  let w12 := c.nat 0x28 4
  let w13 := c.nat 0x1C 4
  { ctx := bitsOf (w 0) 4 6, section_ := bitsOf (w 0) 10 3, conceal := bitsOf (w 0) 13 2, backlogMax := bitsOf (w 0) 15 2,
    resetOnGap := bitOf (w 0) 17, concealMax := bitsOf (w 0) 19 6, inW := BitVec.ofNat 32 (w 1), outW := BitVec.ofNat 32 (w 2),
    inQueue := bitsOf (w 3) 0 15, outQueue := bitsOf (w 3) 15 15, chunkFrames := bitsOf (w 4) 0 16, hopFrames := bitsOf (w 4) 16 16,
    outBufBase := BitVec.ofNat 64 (c.nat 0x20 8), outBufSize := bitsOf w12 0 24, outBufCountM1 := bitsOf w12 24 4,
    muffleGain := bitsOf w13 0 8, muffleShift := bitsOf w13 8 3, outNode := bitsOf w13 11 5,
    tStart := BitVec.ofNat 64 (c.nat 0x30 8) }

/-- Whether a STREAM_OPEN sets a bit that R152 or R348 requires to be zero: STATE, ROLE, RESET_PENDING, OUT_BUF_NEXT and
reserved bits. A mirror-role entry is made by a bind record only (R361). -/
def CmdSlot.openReserved (c : CmdSlot) : Bool :=
  let w (k : Nat) : Nat := c.nat (0x08 + 4 * k) 4
  bitsOf (w 0) 0 4 != 0 || bitOf (w 0) 18 || bitsOf (w 0) 25 7 != 0 || bitsOf (w 1) 17 15 != 0 || bitsOf (w 2) 17 15 != 0 ||
  bitsOf (w 3) 30 2 != 0 || bitsOf (c.nat 0x28 4) 28 4 != 0 || bitsOf (c.nat 0x1C 4) 16 16 != 0

end Sys2Proof

namespace Sys2Proof.Machine

/-- STREAM_OPEN (R154). -/
def State.cmdStreamOpen (s : State) (c : CmdSlot) : State :=
  s.command c 0x40 [(0x08, 48)] fun s =>
    if c.openReserved then s.finish c 0x40 0x0E 0 0 else
    let (st, i, s) := s.openStream c.openArgs
    s.finish c 0x40 st i 0

/-- What the commands on a stream share: a stream number above 2,047 or a FREE entry completes with BAD_COMMAND (R155). -/
def State.onStream (s : State) (c : CmdSlot) (op : Nat) (used : List (Nat × Nat)) (body : Nat → State → State) : State :=
  s.command c op used fun s =>
    let i := c.nat 0x08 2
    if 2047 < i ∨ (s.stream i).st = 0 then s.finish c op 0x0E 0 0 else body i s

/-- STREAM_CLOSE (R155). -/
def State.cmdStreamClose (s : State) (c : CmdSlot) : State :=
  s.onStream c 0x41 [(0x08, 2)] fun i s => s.streamCmd i 0x41 c.queue c.cmdId 0

/-- STREAM_RESET (R148, R156, R157): on a parked stream, or one that waits for its unpark, the mark falls on frame 0. -/
def State.cmdStreamReset (s : State) (c : CmdSlot) : State :=
  s.onStream c 0x42 [(0x08, 2), (0x0A, 1), (0x0C, 2), (0x10, 8)] fun i s =>
    let x := s.stream i
    let mode := c.nat 0x0A 1
    let off := c.nat 0x0C 2
    if 1 < mode ∨ (mode = 0 ∧ x.recFrames ≤ off) then s.finish c 0x42 0x0E 0 0
    else if x.resetPending then s.finish c 0x42 0x10 0 0
    else
      let at_ := if x.st = 2 ∨ x.st = 4 then 0 else if mode = 0 then off else 0xFFFF
      (s.setStream i { x with
        resetPending := true, resetAt := at_, tReset := BitVec.ofNat 64 (c.nat 0x10 8), resetBar := s.barNow }).finish c 0x42 0 0 0

/-- A park or unpark: the record is 256-byte aligned (R147). -/
def State.parkCommand (s : State) (c : CmdSlot) (op : Nat) : State :=
  s.onStream c op [(0x08, 2), (0x10, 8)] fun i s =>
    if c.nat 0x10 8 % 256 ≠ 0 then s.finish c op 0x0E 0 0
    else s.streamCmd i op c.queue c.cmdId (BitVec.ofNat 64 (c.nat 0x10 8))

/-! ### The pattern and the dump -/

/-- The entries of a PATTERN_WRITE stored into the inactive bank (R200). -/
def State.putEntries (s : State) (first : Nat) (l : List Byte) (n : Nat) : State :=
  (List.range (4 * n)).foldl (fun s k =>
    s.ptPut (!s.pattern.bank) (first + k / 4) (k % 4) (BitVec.ofNat 32 (natAt l (4 * k) 4))) s

/-- PATTERN_WRITE (R200, R348). -/
def State.cmdPatternWrite (s : State) (c : CmdSlot) (f : Fetched) : State :=
  s.command c 0x50 [(0x08, 8), (0x10, 2), (0x12, 2)] fun s =>
    let first := c.nat 0x10 2
    let n := c.nat 0x12 2
    if n = 0 ∨ 512 < n ∨ 512 < first + n then s.finish c 0x50 0x0E 0 0
    else if s.pattern.pendingSwitch then s.finish c 0x50 0x10 0 0
    else
      match s.fetchBytes (BitVec.ofNat 64 (c.nat 0x08 8)) (16 * n) f with
      | (0, l, s) => (s.putEntries first l n).finish c 0x50 0 0 0
      | (e, _, s) => s.finish c 0x50 e 0 0

/-- PATTERN_SWITCH (R201, R348). -/
def State.cmdPatternSwitch (s : State) (c : CmdSlot) : State :=
  s.command c 0x51 [] fun s =>
    match s.requestSwitch with
    | (0, _, s) => { s with qm := { s.qm with switchCmd := some (c.queue, c.cmdId) } }
    | (e, r, s) => s.finish c 0x51 e r 0

/-- DUMP (R348, R396, R397): one runs at a time, and DEST is 0, local DRAM or an address on node 0. -/
def State.cmdDump (s : State) (c : CmdSlot) : State :=
  s.command c 0x60 [(0x08, 8), (0x10, 8)] fun s =>
    let dest : W64 := BitVec.ofNat 64 (c.nat 0x08 8)
    let place := dest == 0 || nodeOf dest == 0 || (nodeOf dest == s.node && decide (localOf dest < 0x200000000))
    if !place then s.finish c 0x60 0x0E 0 0
    else if s.hang.dumping.isSome then s.finish c 0x60 0x10 0 0
    else s.dumpStart (some (c.queue, c.cmdId)) dest (c.nat 0x10 8) 0

/-! ### The commands as rows -/

/-- CMD_NOP (R348). -/
def execCmdNop (c : CmdSlot) (s : State) : Host.Outcome State Fault Refusal := .next (s.cmdNop c)
/-- REG_READ (R348). -/
def execRegRead (c : CmdSlot) (s : State) : Host.Outcome State Fault Refusal := .next (s.cmdRegRead c)
/-- REG_WRITE (R348). -/
def execRegWrite (c : CmdSlot) (s : State) : Host.Outcome State Fault Refusal := .next (s.cmdRegWrite c)
/-- QUEUE_CREATE (R348). -/
def execQueueCreate (c : CmdSlot) (s : State) : Host.Outcome State Fault Refusal := .next (s.cmdQueueCreate c)
/-- QUEUE_DESTROY (R348). -/
def execQueueDestroy (c : CmdSlot) (s : State) : Host.Outcome State Fault Refusal := .next (s.cmdQueueDestroy c)
/-- IMAGE_LOAD (R351). -/
def execImageLoad (c : CmdSlot) (f : Fetched) (s : State) : Host.Outcome State Fault Refusal := .next (s.cmdImageLoad c f)
/-- TABLE_LOAD (R285). -/
def execTableLoad (c : CmdSlot) (f : Fetched) (s : State) : Host.Outcome State Fault Refusal := .next (s.cmdTableLoad c f)
/-- CTX_CREATE (R348). -/
def execCtxCreate (c : CmdSlot) (s : State) : Host.Outcome State Fault Refusal := .next (s.cmdCtxCreate c)
/-- CTX_START (R348). -/
def execCtxStart (c : CmdSlot) (s : State) : Host.Outcome State Fault Refusal := .next (s.cmdCtxStart c)
/-- CTX_STOP (R348). -/
def execCtxStop (c : CmdSlot) (s : State) : Host.Outcome State Fault Refusal := .next (s.cmdCtxStop c)
/-- CTX_QUENCH (R348). -/
def execCtxQuench (c : CmdSlot) (s : State) : Host.Outcome State Fault Refusal := .next (s.cmdCtxQuench c)
/-- CTX_DESTROY (R348). -/
def execCtxDestroy (c : CmdSlot) (s : State) : Host.Outcome State Fault Refusal := .next (s.cmdCtxDestroy c)
/-- STREAM_OPEN (R154). -/
def execStreamOpen (c : CmdSlot) (s : State) : Host.Outcome State Fault Refusal := .next (s.cmdStreamOpen c)
/-- STREAM_CLOSE (R155). -/
def execStreamClose (c : CmdSlot) (s : State) : Host.Outcome State Fault Refusal := .next (s.cmdStreamClose c)
/-- STREAM_RESET (R156). -/
def execStreamReset (c : CmdSlot) (s : State) : Host.Outcome State Fault Refusal := .next (s.cmdStreamReset c)
/-- STREAM_PARK (R145). -/
def execStreamPark (c : CmdSlot) (s : State) : Host.Outcome State Fault Refusal := .next (s.parkCommand c 0x43)
/-- STREAM_UNPARK (R146). -/
def execStreamUnpark (c : CmdSlot) (s : State) : Host.Outcome State Fault Refusal := .next (s.parkCommand c 0x44)
/-- PATTERN_WRITE (R348). -/
def execPatternWrite (c : CmdSlot) (f : Fetched) (s : State) : Host.Outcome State Fault Refusal := .next (s.cmdPatternWrite c f)
/-- PATTERN_SWITCH (R348). -/
def execPatternSwitch (c : CmdSlot) (s : State) : Host.Outcome State Fault Refusal := .next (s.cmdPatternSwitch c)
/-- DUMP (R396). -/
def execDump (c : CmdSlot) (s : State) : Host.Outcome State Fault Refusal := .next (s.cmdDump c)

/-! ### The fetch (R346) -/

/-- The command with an opcode started; every other opcode completes with BAD_COMMAND (R348). -/
def State.runCommand (s : State) (op : Nat) (c : CmdSlot) (g : Fetched) : State :=
  match op with
  | 0x00 => s.cmdNop c
  | 0x01 => s.cmdRegRead c
  | 0x02 => s.cmdRegWrite c
  | 0x10 => s.cmdQueueCreate c
  | 0x11 => s.cmdQueueDestroy c
  | 0x20 => s.cmdImageLoad c g
  | 0x21 => s.cmdTableLoad c g
  | 0x30 => s.cmdCtxCreate c
  | 0x31 => s.cmdCtxStart c
  | 0x32 => s.cmdCtxStop c
  | 0x33 => s.cmdCtxQuench c
  | 0x34 => s.cmdCtxDestroy c
  | 0x40 => s.cmdStreamOpen c
  | 0x41 => s.cmdStreamClose c
  | 0x42 => s.cmdStreamReset c
  | 0x43 => s.parkCommand c 0x43
  | 0x44 => s.parkCommand c 0x44
  | 0x50 => s.cmdPatternWrite c g
  | 0x51 => s.cmdPatternSwitch c
  | 0x60 => s.cmdDump c
  | _ => s.command c op [(0x08, 56)] fun s => s.finish c op 0x0E 0 0

/-- The command slot in 64 bytes (R345). -/
def slotOf (q : QueueId) (l : List Byte) : CmdSlot :=
  { queue := q, cmdId := BitVec.ofNat 32 (natAt l 4 4), flags := BitVec.ofNat 8 (natAt l 1 1),
    rsvd := BitVec.ofNat 16 (natAt l 2 2), args := bytesAt l 8 56 }

/-- Whether fetching from the COMMAND queues bound to a CQ has stopped: a record is held for it and it is full (R346). -/
def State.cqStalled (s : State) (cq : Nat) : Bool := s.noRoom cq && s.qm.done.any fun c => c.cq == cq

/-- Whether a COMMAND queue has a slot to fetch (R346). -/
def State.fetchable (s : State) (q : Nat) : Bool :=
  let x := s.queue q
  x.valid && x.qtype == 0 && x.fill != 0 && !s.cqStalled x.cq && decide (s.qm.inFlight.length < 256)

/-- The COMMAND queue whose turn it is: round-robin from the one served last (R346). -/
def State.fetchTurn (s : State) : Option Nat :=
  let l := s.qm.queues.map (·.1)
  match l.find? fun q => decide (s.qm.lastFetch < q) && s.fetchable q with
  | some q => some q
  | none => l.find? fun q => s.fetchable q

/-- COMMAND_FETCH (R346): the next slot of the COMMAND queue whose turn it is is fetched and its command started. `f` is what the READ of a slot on
node 0 returned, `g` what the command's own read of data on another node returns. A slot that cannot be read, or whose command
cannot start yet, stays in the queue. -/
def execCommandFetch (q : QueueId) (f g : Fetched) (s : State) : Host.Outcome State Fault Refusal :=
  let x := s.queue q.val
  if s.fetchTurn ≠ some q.val then .next s
  else
    let s := { s with qm := { s.qm with lastFetch := q.val } }
    match s.fetchBytes (x.slotAddr x.ci.toNat) 64 f with
    | (0, l, t) =>
      let c := slotOf q l
      if t.startable c then .next ((t.modQueue q.val fun x => { x with ci := x.ci + 1 }).runCommand (natAt l 0 1) c g)
      else .next s
    | (_, _, t) => .next t

end Sys2Proof.Machine
end

