-- ==== Sys2Proof/Machine/Reset.lean ====
section
/-!
DEFINITION. The reset levels above the partition: chip warm reset (R387, R402, R451) and power-on reset with the supplies and
reset pins (R401, R459). What each item is left with where the tables of R387 and R451 are silent stands in
notes/assumptions/88.md.
-/
namespace Sys2Proof.Machine

/-- Whether a page keeps its registers across a chip warm reset, except its RC fields (R451). -/
def keepConfig (page : Nat) : Bool :=
  match pageKind page with
  | some .link | some .linkVc | some .linkSec | some .dram | some .cache => true
  | _ => false

/-- Whether the register at an offset of a page has an RC field. -/
def isCount (page off : Nat) : Bool :=
  match regAt page off with
  | some (r, _) => hasAcc r.fields .rc
  | none => false

/-- Whether a stored register keeps its value across a chip warm reset (R451); PG_LOCK and the status of a link or of a
channel do not (R445). -/
def keepReg (key : Nat) : Bool :=
  let page := key / 4096
  let off := key % 4096
  let isPart := page == Page.pattern && decide (Reg.PART_CORES ≤ off) && decide (off < Reg.PART_CORES + 128)
  if off = Reg.PG_LOCK then false
  else if page = Page.timebase ∨ page = Page.angle ∨ page = Page.hang then true
  else if page = Page.pattern then !isPart
  else if page = Page.fabric then
    decide (Reg.FB_ROUTE ≤ off) && decide (off < Reg.FB_ADJ + 128)
  else if page = Page.mirror then off == Reg.MR_TOLL_MISS_PIN || off == Reg.MR_TOLL_MISS_LINK
  else if keepConfig page then
    !isCount page off && !(pageKind page == some .dram && off == Reg.DC_STATUS)
  else false

/-- LOCK_REQ of a kept page cleared (R445). -/
def clearLockReq (e : Nat × W32) : Nat × W32 :=
  if e.1 % 4096 = Reg.PG_CTRL then (e.1, BitVec.ofNat 32 (putBits e.2.toNat 2 1 0)) else e

/-- A port's state across a chip warm reset: what training found is kept for a fast relink (R300, R387). -/
def Link.warm (l : Link) : Link :=
  { enabled := l.enabled, ctrl := l.ctrl, coeffs := l.coeffs, laneSwap := l.laneSwap, laneInv := l.laneInv }

/-- LINK_RESET with CAUSE CHIP on every port that carries flits (R334, R387). -/
def State.chipLinkReset (s : State) : State :=
  [0, 1, 2, 3].foldl (fun (s : State) (p : Nat) =>
    let l := s.link p
    let s := if l.st = 6 ∨ l.st = 7 then ((s.control p 2 1).control p 2 1).control p 2 1 else s
    s.setLink p l.warm) s

/-- Every outstanding tag freed without its reply (R331). -/
def State.abandonAll (s : State) : State := s.fab.tags.foldl (fun (s : State) e => s.abandonTag e.1) s

/-- WARN for the GRADE fuse, where the fuse gives another reset value than the field's (R439). -/
def State.gradeReset (s : State) : State :=
  if s.sec.fuses.grade = 1 then s.setFld Page.thermal Reg.TH_CTRL 0 8 95 else s

/-- What a chip warm reset leaves, after its flits are sent and the cache is written back (R383, R387, R451). -/
def State.warmState (s : State) : State :=
  let f := s.fab
  { regs := (s.regs.filter fun e => keepReg e.1).map clearLockReq
    time := s.time
    angles := s.angles
    pattern := { s.pattern with mirror := none, exportZ := none, exportBar := none, dropAll := true }
    audio := { bufFree := some s.free, mclkOk := s.audio.mclkOk, mclkRate := s.audio.mclkRate }
    dp := { bankFree := some (s.free + 1) }
    mem := { dram := s.mem.dram, damaged := s.mem.damaged }
    fab := { links := f.links, flits := f.flits, nodeId := f.nodeId, enumerated := f.enumerated, bgen := f.bgen + 1,
             hostPort := f.hostPort, hostActive := f.hostActive, upstream := f.upstream, known := f.known,
             epochs := f.epochs }
    hang := { level := 3, dueSince := [((3, 0, 0), s.now)], nextDump := s.hang.nextDump, evWr := s.hang.evWr, dumpBuf := s.hang.dumpBuf }
    sec := { fuses := s.sec.fuses, bootSrc := s.sec.bootSrc, bridgeEn := s.sec.bridgeEn, obs := s.sec.obs,
             keySlots := s.sec.keySlots, dbgFails := s.sec.dbgFails, dbgLocked := s.sec.dbgLocked,
             trngLast := s.sec.trngLast }
    pins := { s.pins with resetAt := s.now }
    power := { dom := s.power.dom, up := s.power.up, waiting := s.power.waiting, clkLost := s.power.clkLost }
    free := s.free + 2
    pending := s.pending }

/-- A chip warm reset (R387, R402): `source` is 0 WRESET_N, 1 a request, 2 escalation, 3 AGENT (R395). The cache is flushed
first (R274). -/
def State.chipReset (s : State) (source : Nat) : State :=
  let s := if source = 2 && s.flag Page.hang Reg.HG_CTRL 3 then s.autoDump else s
  let s := (s.chipLinkReset.abandonAll).visitSets 0xFFFF 0 8192 true true
  let s := s.warmState.gradeReset
  let s := (List.range 80).foldl (fun (s : State) (d : Nat) => s.domainUp d) s
  let s := s.setReg Page.device Reg.DV_RESET_CAUSE (BitVec.ofNat 32 (2 * source))
  let s := (s.count Page.hang Reg.HG_CHIP_RESET_COUNT).logEvent 0x13 Page.hang none 0 0 source s.fab.bgen.toNat
  if s.pins.wreset then s.romStart true else s

/-- CHIP_WARM_RESET (R387); not while the device is in power-on reset. -/
def execChipWarmReset (source : Fin 4) (s : State) : Host.Outcome State Fault Refusal :=
  if s.pins.poreset then .next (s.chipReset source.val) else .next s

/-- WRESET_FALL (R459): WRESET_N has been low for 200 ns (a shorter pulse is no such event); one while PORESET_N is low is ignored.
ROM step 1 waits for the rising edge. -/
def execWresetFall (s : State) : Host.Outcome State Fault Refusal :=
  if s.pins.poreset && s.pins.wreset then
    .next ({ s with pins := { s.pins with wreset := false } }.chipReset 0)
  else .next s

/-- WRESET_RISE (R459): step 1 of the ROM sequence of the chip warm reset starts. -/
def execWresetRise (s : State) : Host.Outcome State Fault Refusal :=
  if s.pins.poreset && !s.pins.wreset then
    .next ({ s with pins := { s.pins with wreset := true } }.romStart true)
  else .next s

/-- The ROM sequence of a power-on starts (R401). -/
def State.powerOn (s : State) : State :=
  (({ s with pins := { s.pins with held := false } }.gradeReset).setReg Page.device Reg.DV_RESET_CAUSE 1).romStart false

/-- PORESET_RISE (R401, R459): straps captured; with a PWRGD input low the device stays in power-on reset. `o` is what steps 1
and 2 of R401 find. -/
def execPoresetRise (bootSrc : BitVec 2) (bridgeEn : Bool) (o : RomObs) (s : State) : Host.Outcome State Fault Refusal :=
  if s.pins.poreset then .next s else
  let s := { s with sec := { s.sec with bootSrc := bootSrc, bridgeEn := bridgeEn, obs := o },
                    pins := { s.pins with poreset := true, resetAt := s.now } }
  if s.pins.pwrgd then .next s.powerOn else .next { s with pins := { s.pins with held := true } }

/-- PWRGD_RISE (R459): the last PWRGD input rises; a device held in power-on reset by it starts R401. -/
def execPwrgdRise (s : State) : Host.Outcome State Fault Refusal :=
  let held := s.pins.held && s.pins.poreset
  let s := { s with pins := { s.pins with pwrgd := true } }
  if held then .next s.powerOn else .next s

/-- PORESET_FALL (R459): power-on reset abandons everything but the fuses, the pins and the queue of commands. -/
def execPoresetFall (s : State) : Host.Outcome State Fault Refusal :=
  .next { sec := { fuses := s.sec.fuses }, pins := { s.pins with poreset := false, wreset := true, held := false },
          free := s.free, pending := s.pending }

/-- The operating range of a supply in mV (R457): VDD_CORE, VDD_MAIN, VDD_MEM, VPP_MEM, VDD_LNK, VDDA_LNK, VDDIO, VDDA_PLL. -/
def railRange (r : Fin 8) : Nat × Nat :=
  [(825, 875), (725, 775), (1020, 1080), (1710, 1890), (735, 765), (1176, 1224), (1710, 1890), (1746, 1854)].getD r.val (0, 0)

/-- SUPPLY_FAULT (R459): VOLTAGE is raised while PORESET_N is high and the device is not held in power-on reset, for a PWRGD input
that falls, or for a supply out of its range (R457) for 200 ns or longer. -/
def execSupplyFault (e : SupplyEvent) (s : State) : Host.Outcome State Fault Refusal :=
  let run := s.pins.poreset && !s.pins.held
  match e with
  | .rail r mv ns =>
    let (lo, hi) := railRange r
    if run && decide (200 ≤ ns) && (decide (mv < lo) || decide (hi < mv)) then .next (s.raiseMech 2 none) else .next s
  | .pwrgd _ =>
    let s := { s with pins := { s.pins with pwrgd := false } }
    if run then .next (s.raiseMech 2 none) else .next s

end Sys2Proof.Machine
end

