-- ==== Sys2Proof/Machine/Words.lean ====
section
/-!
DEFINITION. The tile words as commands: each is issued to its engine's queue (R59); what its rule says is done when it completes; the
operations stand in Matrix, Vector, Scan and Mover.
-/
namespace Sys2Proof.Machine

/-! ### Matrix engine -/

/-- MMA (R73). -/
def execMma (c : CoreId) (w : TileWord) (s : State) : Host.Outcome State Fault Refusal := .next (s.issueTile c.val .mma w [])

/-- MOUT (R78). -/
def execMout (c : CoreId) (w : TileWord) (s : State) : Host.Outcome State Fault Refusal := .next (s.issueTile c.val .mout w [])

/-! ### Mover -/

/-- TLOAD (R84). -/
def execTload (c : CoreId) (w : TileWord) (s : State) : Host.Outcome State Fault Refusal := .next (s.issueTile c.val .tload w [])

/-- TSTORE (R84). -/
def execTstore (c : CoreId) (w : TileWord) (s : State) : Host.Outcome State Fault Refusal := .next (s.issueTile c.val .tstore w [])

/-- MCOPY (R84). -/
def execMcopy (c : CoreId) (w : TileWord) (s : State) : Host.Outcome State Fault Refusal := .next (s.issueTile c.val .mcopy w [])

/-- SEMSIG (R88). -/
def execSemsig (c : CoreId) (w : TileWord) (s : State) : Host.Outcome State Fault Refusal := .next (s.issueTile c.val .semsig w [])

/-- SEMWAIT (R84). -/
def execSemwait (c : CoreId) (w : TileWord) (s : State) : Host.Outcome State Fault Refusal := .next (s.issueTile c.val .semwait w [])

/-- MATOM (R84). -/
def execMatom (c : CoreId) (w : TileWord) (s : State) : Host.Outcome State Fault Refusal := .next (s.issueTile c.val .matom w [])

/-- MFENCE (R84). -/
def execMfence (c : CoreId) (w : TileWord) (s : State) : Host.Outcome State Fault Refusal := .next (s.issueTile c.val .mfence w [])

/-! ### Vector engine -/

/-- VADD (R102). -/
def execVadd (c : CoreId) (w : TileWord) (s : State) : Host.Outcome State Fault Refusal := .next (s.issueTile c.val .vadd w [])

/-- VSUB (R102). -/
def execVsub (c : CoreId) (w : TileWord) (s : State) : Host.Outcome State Fault Refusal := .next (s.issueTile c.val .vsub w [])

/-- VMUL (R102). -/
def execVmul (c : CoreId) (w : TileWord) (s : State) : Host.Outcome State Fault Refusal := .next (s.issueTile c.val .vmul w [])

/-- VFMA (R102). -/
def execVfma (c : CoreId) (w : TileWord) (s : State) : Host.Outcome State Fault Refusal := .next (s.issueTile c.val .vfma w [])

/-- VMAX (R102). -/
def execVmax (c : CoreId) (w : TileWord) (s : State) : Host.Outcome State Fault Refusal := .next (s.issueTile c.val .vmax w [])

/-- VMIN (R102). -/
def execVmin (c : CoreId) (w : TileWord) (s : State) : Host.Outcome State Fault Refusal := .next (s.issueTile c.val .vmin w [])

/-- VCMP (R104). -/
def execVcmp (c : CoreId) (w : TileWord) (s : State) : Host.Outcome State Fault Refusal := .next (s.issueTile c.val .vcmp w [])

/-- VMOV (R102). -/
def execVmov (c : CoreId) (w : TileWord) (s : State) : Host.Outcome State Fault Refusal := .next (s.issueTile c.val .vmov w [])

/-- VCVT (R103). -/
def execVcvt (c : CoreId) (w : TileWord) (s : State) : Host.Outcome State Fault Refusal := .next (s.issueTile c.val .vcvt w [])

/-- VFUN (R114). -/
def execVfun (c : CoreId) (w : TileWord) (s : State) : Host.Outcome State Fault Refusal := .next (s.issueTile c.val .vfun w [])

/-- VPERM (R107). -/
def execVperm (c : CoreId) (w : TileWord) (s : State) : Host.Outcome State Fault Refusal := .next (s.issueTile c.val .vperm w [])

/-- VSHUF (R108). -/
def execVshuf (c : CoreId) (w : TileWord) (s : State) : Host.Outcome State Fault Refusal := .next (s.issueTile c.val .vshuf w [])

/-- VPACK (R109). -/
def execVpack (c : CoreId) (w : TileWord) (s : State) : Host.Outcome State Fault Refusal := .next (s.issueTile c.val .vpack w [])

/-- VUNPACK (R109). -/
def execVunpack (c : CoreId) (w : TileWord) (s : State) : Host.Outcome State Fault Refusal := .next (s.issueTile c.val .vunpack w [])

/-- VRED (R111). -/
def execVred (c : CoreId) (w : TileWord) (s : State) : Host.Outcome State Fault Refusal := .next (s.issueTile c.val .vred w [])

/-- VSUM (R115). -/
def execVsum (c : CoreId) (w : TileWord) (s : State) : Host.Outcome State Fault Refusal := .next (s.issueTile c.val .vsum w [])

/-- VSMAX (R112). -/
def execVsmax (c : CoreId) (w : TileWord) (s : State) : Host.Outcome State Fault Refusal := .next (s.issueTile c.val .vsmax w [])

/-- VMSK_SET (R105). -/
def execVmskSet (c : CoreId) (w : TileWord) (s : State) : Host.Outcome State Fault Refusal := .next (s.issueTile c.val .vmskSet w [])

/-- VMSK_AND (R105). -/
def execVmskAnd (c : CoreId) (w : TileWord) (s : State) : Host.Outcome State Fault Refusal := .next (s.issueTile c.val .vmskAnd w [])

/-- VMSK_OR (R105). -/
def execVmskOr (c : CoreId) (w : TileWord) (s : State) : Host.Outcome State Fault Refusal := .next (s.issueTile c.val .vmskOr w [])

/-- VMSK_XOR (R105). -/
def execVmskXor (c : CoreId) (w : TileWord) (s : State) : Host.Outcome State Fault Refusal := .next (s.issueTile c.val .vmskXor w [])

/-- VMSK_ANDN (R105). -/
def execVmskAndn (c : CoreId) (w : TileWord) (s : State) : Host.Outcome State Fault Refusal := .next (s.issueTile c.val .vmskAndn w [])

/-- VMSK_NOT (R105). -/
def execVmskNot (c : CoreId) (w : TileWord) (s : State) : Host.Outcome State Fault Refusal := .next (s.issueTile c.val .vmskNot w [])

/-- VMSK_FIRST (R105). -/
def execVmskFirst (c : CoreId) (w : TileWord) (s : State) : Host.Outcome State Fault Refusal := .next (s.issueTile c.val .vmskFirst w [])

/-! ### Scan unit and state port; `ecc` lists what the word's reads of groups find, in their order (R149) -/

/-- SCAN (R131). -/
def execScan (c : CoreId) (w : TileWord) (ecc : List Ecc) (s : State) : Host.Outcome State Fault Refusal :=
  .next (s.issueTile c.val .scan w ecc)

/-- SSHIFT (R136). -/
def execSshift (c : CoreId) (w : TileWord) (ecc : List Ecc) (s : State) : Host.Outcome State Fault Refusal :=
  .next (s.issueTile c.val .sshift w ecc)

/-- SHSAVE (R137). -/
def execShsave (c : CoreId) (w : TileWord) (ecc : List Ecc) (s : State) : Host.Outcome State Fault Refusal :=
  .next (s.issueTile c.val .shsave w ecc)

/-- SPZERO (R139). -/
def execSpzero (c : CoreId) (w : TileWord) (ecc : List Ecc) (s : State) : Host.Outcome State Fault Refusal :=
  .next (s.issueTile c.val .spzero w ecc)

/-- SPLOAD (R139). -/
def execSpload (c : CoreId) (w : TileWord) (ecc : List Ecc) (s : State) : Host.Outcome State Fault Refusal :=
  .next (s.issueTile c.val .spload w ecc)

/-- SPSTORE (R139). -/
def execSpstore (c : CoreId) (w : TileWord) (ecc : List Ecc) (s : State) : Host.Outcome State Fault Refusal :=
  .next (s.issueTile c.val .spstore w ecc)

end Sys2Proof.Machine
end

