-- ==== Sys2Proof/Machine/Dispatch.lean ====
section
/-!
DEFINITION. The effect of each command on everything but the queue: one arm per row of the operation table.
-/
namespace Sys2Proof.Machine

/-- The effect of a command. -/
def exec (i : Instr) (s : State) : Host.Outcome State Fault Refusal :=
  match i with
  | .add c w => Sys2Proof.Machine.execAdd c w s
  | .sub c w => Sys2Proof.Machine.execSub c w s
  | .and c w => Sys2Proof.Machine.execAnd c w s
  | .or c w => Sys2Proof.Machine.execOr c w s
  | .xor c w => Sys2Proof.Machine.execXor c w s
  | .shl c w => Sys2Proof.Machine.execShl c w s
  | .shr c w => Sys2Proof.Machine.execShr c w s
  | .sra c w => Sys2Proof.Machine.execSra c w s
  | .mul c w => Sys2Proof.Machine.execMul c w s
  | .slt c w => Sys2Proof.Machine.execSlt c w s
  | .addi c w => Sys2Proof.Machine.execAddi c w s
  | .li c w => Sys2Proof.Machine.execLi c w s
  | .ld c w => Sys2Proof.Machine.execLd c w s
  | .st c w => Sys2Proof.Machine.execSt c w s
  | .beq c w => Sys2Proof.Machine.execBeq c w s
  | .bne c w => Sys2Proof.Machine.execBne c w s
  | .blt c w => Sys2Proof.Machine.execBlt c w s
  | .bge c w => Sys2Proof.Machine.execBge c w s
  | .bltu c w => Sys2Proof.Machine.execBltu c w s
  | .bgeu c w => Sys2Proof.Machine.execBgeu c w s
  | .jal c w => Sys2Proof.Machine.execJal c w s
  | .jalr c w => Sys2Proof.Machine.execJalr c w s
  | .sumrd c w => Sys2Proof.Machine.execSumrd c w s
  | .wlread c w => Sys2Proof.Machine.execWlread c w s
  | .beatwait c w => Sys2Proof.Machine.execBeatwait c w s
  | .tokwait c w => Sys2Proof.Machine.execTokwait c w s
  | .ppoint c w => Sys2Proof.Machine.execPpoint c w s
  | .endStage c w => Sys2Proof.Machine.execEndStage c w s
  | .nop c w => Sys2Proof.Machine.execNop c w s
  | .brk c w => Sys2Proof.Machine.execBrk c w s
  | .mvfail c w => Sys2Proof.Machine.execMvfail c w s
  | .stlb c w => Sys2Proof.Machine.execStlb c w s
  | .strp c w => Sys2Proof.Machine.execStrp c w s
  | .reheatDecision c => Sys2Proof.Machine.execReheatDecision c s
  | .strd c w => Sys2Proof.Machine.execStrd c w s
  | .mma c w => Sys2Proof.Machine.execMma c w s
  | .mout c w => Sys2Proof.Machine.execMout c w s
  | .wordComplete c e => Sys2Proof.Machine.execWordComplete c e s
  | .tload c w => Sys2Proof.Machine.execTload c w s
  | .tstore c w => Sys2Proof.Machine.execTstore c w s
  | .mcopy c w => Sys2Proof.Machine.execMcopy c w s
  | .semsig c w => Sys2Proof.Machine.execSemsig c w s
  | .semwait c w => Sys2Proof.Machine.execSemwait c w s
  | .matom c w => Sys2Proof.Machine.execMatom c w s
  | .mfence c w => Sys2Proof.Machine.execMfence c w s
  | .transactionReply tag status data => Sys2Proof.Machine.execTransactionReply tag status data s
  | .transactionTimeout tag => Sys2Proof.Machine.execTransactionTimeout tag s
  | .vadd c w => Sys2Proof.Machine.execVadd c w s
  | .vsub c w => Sys2Proof.Machine.execVsub c w s
  | .vmul c w => Sys2Proof.Machine.execVmul c w s
  | .vfma c w => Sys2Proof.Machine.execVfma c w s
  | .vmax c w => Sys2Proof.Machine.execVmax c w s
  | .vmin c w => Sys2Proof.Machine.execVmin c w s
  | .vcmp c w => Sys2Proof.Machine.execVcmp c w s
  | .vmov c w => Sys2Proof.Machine.execVmov c w s
  | .vcvt c w => Sys2Proof.Machine.execVcvt c w s
  | .vfun c w => Sys2Proof.Machine.execVfun c w s
  | .vperm c w => Sys2Proof.Machine.execVperm c w s
  | .vshuf c w => Sys2Proof.Machine.execVshuf c w s
  | .vpack c w => Sys2Proof.Machine.execVpack c w s
  | .vunpack c w => Sys2Proof.Machine.execVunpack c w s
  | .vred c w => Sys2Proof.Machine.execVred c w s
  | .vsum c w => Sys2Proof.Machine.execVsum c w s
  | .vsmax c w => Sys2Proof.Machine.execVsmax c w s
  | .vmskSet c w => Sys2Proof.Machine.execVmskSet c w s
  | .vmskAnd c w => Sys2Proof.Machine.execVmskAnd c w s
  | .vmskOr c w => Sys2Proof.Machine.execVmskOr c w s
  | .vmskXor c w => Sys2Proof.Machine.execVmskXor c w s
  | .vmskAndn c w => Sys2Proof.Machine.execVmskAndn c w s
  | .vmskNot c w => Sys2Proof.Machine.execVmskNot c w s
  | .vmskFirst c w => Sys2Proof.Machine.execVmskFirst c w s
  | .scan c w ecc => Sys2Proof.Machine.execScan c w ecc s
  | .sshift c w ecc => Sys2Proof.Machine.execSshift c w ecc s
  | .shsave c w ecc => Sys2Proof.Machine.execShsave c w ecc s
  | .spzero c w ecc => Sys2Proof.Machine.execSpzero c w ecc s
  | .spload c w ecc => Sys2Proof.Machine.execSpload c w ecc s
  | .spstore c w ecc => Sys2Proof.Machine.execSpstore c w ecc s
  | .mirroredReadHoldRelease c region slot => Sys2Proof.Machine.execMirroredReadHoldRelease c region slot s
  | .stateDebugRead port vc p => Sys2Proof.Machine.execStateDebugRead port vc p s
  | .preemptionRequest c => Sys2Proof.Machine.execPreemptionRequest c s
  | .beSliceExpiry c => Sys2Proof.Machine.execBeSliceExpiry c s
  | .atomWaitExpiry c => Sys2Proof.Machine.execAtomWaitExpiry c s
  | .quench ctx cause => Sys2Proof.Machine.execQuench ctx cause s
  | .barBoundary => Sys2Proof.Machine.execBarBoundary s
  | .queueOutputCommit st copyStatus pushStatus => Sys2Proof.Machine.execQueueOutputCommit st copyStatus pushStatus s
  | .mirrorExport => Sys2Proof.Machine.execMirrorExport s
  | .parkRecordWrite st status => Sys2Proof.Machine.execParkRecordWrite st status s
  | .unparkRun st f => Sys2Proof.Machine.execUnparkRun st f s
  | .opPointChange => Sys2Proof.Machine.execOpPointChange s
  | .stageStartBeat e => Sys2Proof.Machine.execStageStartBeat e s
  | .cutoffBeat b => Sys2Proof.Machine.execCutoffBeat b s
  | .workListReady ctx => Sys2Proof.Machine.execWorkListReady ctx s
  | .statBeat e => Sys2Proof.Machine.execStatBeat e s
  | .swapBeat e => Sys2Proof.Machine.execSwapBeat e s
  | .mirrorBeat e => Sys2Proof.Machine.execMirrorBeat e s
  | .patternStart => Sys2Proof.Machine.execPatternStart s
  | .patternStop => Sys2Proof.Machine.execPatternStop s
  | .ptCtrlRun src run => Sys2Proof.Machine.execPtCtrlRun src run s
  | .switchReq src => Sys2Proof.Machine.execSwitchReq src s
  | .ptEntryWrite src k v => Sys2Proof.Machine.execPtEntryWrite src k v s
  | .ptEntrySelWrite src v => Sys2Proof.Machine.execPtEntrySelWrite src v s
  | .tbSet src v => Sys2Proof.Machine.execTbSet src v s
  | .tbHoldLimitExpiry => Sys2Proof.Machine.execTbHoldLimitExpiry s
  | .angTooth a falling widthNs => Sys2Proof.Machine.execAngTooth a falling widthNs s
  | .angIndex a widthNs => Sys2Proof.Machine.execAngIndex a widthNs s
  | .angTimeout a => Sys2Proof.Machine.execAngTimeout a s
  | .angHsCommit src a => Sys2Proof.Machine.execAngHsCommit src a s
  | .angSampleApply a => Sys2Proof.Machine.execAngSampleApply a s
  | .portEnable src p => Sys2Proof.Machine.execPortEnable src p s
  | .portClockStart p => Sys2Proof.Machine.execPortClockStart p s
  | .portOn p => Sys2Proof.Machine.execPortOn p s
  | .portDisable src p => Sys2Proof.Machine.execPortDisable src p s
  | .portStopDone p => Sys2Proof.Machine.execPortStopDone p s
  | .portBlockReset src p => Sys2Proof.Machine.execPortBlockReset src p s
  | .blockLand p stamp frames => Sys2Proof.Machine.execBlockLand p stamp frames s
  | .slotTake p ecc => Sys2Proof.Machine.execSlotTake p ecc s
  | .slotReadyMark p slot => Sys2Proof.Machine.execSlotReadyMark p slot s
  | .clkLoss p => Sys2Proof.Machine.execClkLoss p s
  | .clkReturn p => Sys2Proof.Machine.execClkReturn p s
  | .rateWindowEnd p edges first last => Sys2Proof.Machine.execRateWindowEnd p edges first last s
  | .gateTimeout p slot => Sys2Proof.Machine.execGateTimeout p slot s
  | .lineStuck g line => Sys2Proof.Machine.execLineStuck g line s
  | .modulatorReset h ch => Sys2Proof.Machine.execModulatorReset h ch s
  | .apMapApply p slot => Sys2Proof.Machine.execApMapApply p slot s
  | .standbyApply p => Sys2Proof.Machine.execStandbyApply p s
  | .ringShapeValid src r v => Sys2Proof.Machine.execRingShapeValid src r v s
  | .apllLock a => Sys2Proof.Machine.execApllLock a s
  | .apllLockLost a => Sys2Proof.Machine.execApllLockLost a s
  | .asrcLock b => Sys2Proof.Machine.execAsrcLock b s
  | .asrcOutOfRange b => Sys2Proof.Machine.execAsrcOutOfRange b s
  | .directPathEnable src => Sys2Proof.Machine.execDirectPathEnable src s
  | .directPathDisable src => Sys2Proof.Machine.execDirectPathDisable src s
  | .directPathBlockReset src => Sys2Proof.Machine.execDirectPathBlockReset src s
  | .pathFrame edge inputs ecc => Sys2Proof.Machine.execPathFrame edge inputs ecc s
  | .resyncDone o => Sys2Proof.Machine.execResyncDone o s
  | .dpLoadGo src => Sys2Proof.Machine.execDpLoadGo src s
  | .loadListDone t => Sys2Proof.Machine.execLoadListDone t s
  | .dramAccess q ecc => Sys2Proof.Machine.execDramAccess q ecc s
  | .patrolScrub ch ecc => Sys2Proof.Machine.execPatrolScrub ch ecc s
  | .refreshRateChange ch celsius => Sys2Proof.Machine.execRefreshRateChange ch celsius s
  | .dramRetrain ch => Sys2Proof.Machine.execDramRetrain ch s
  | .dramTrainingDone ch ok => Sys2Proof.Machine.execDramTrainingDone ch ok s
  | .cacheAccess q ecc => Sys2Proof.Machine.execCacheAccess q ecc s
  | .caMaint src v => Sys2Proof.Machine.execCaMaint src v s
  | .cachePassDone => Sys2Proof.Machine.execCachePassDone s
  | .prEnable src n v => Sys2Proof.Machine.execPrEnable src n v s
  | .prDisable src n v => Sys2Proof.Machine.execPrDisable src n v s
  | .ceJobGo src => Sys2Proof.Machine.execCeJobGo src s
  | .blockCode lane => Sys2Proof.Machine.execBlockCode lane s
  | .ceJobDone => Sys2Proof.Machine.execCeJobDone s
  | .linkEnable src port => Sys2Proof.Machine.execLinkEnable src port s
  | .linkDetectDone port => Sys2Proof.Machine.execLinkDetectDone port s
  | .linkTrainDone port fast laneSwap laneInv => Sys2Proof.Machine.execLinkTrainDone port fast laneSwap laneInv s
  | .linkAlignDone port => Sys2Proof.Machine.execLinkAlignDone port s
  | .exchange port f => Sys2Proof.Machine.execExchange port f s
  | .exchangeResend port => Sys2Proof.Machine.execExchangeResend port s
  | .keyOffer port p => Sys2Proof.Machine.execKeyOffer port p s
  | .keyConfirm port p => Sys2Proof.Machine.execKeyConfirm port p s
  | .keyingTimeout port => Sys2Proof.Machine.execKeyingTimeout port s
  | .linkDown port cause => Sys2Proof.Machine.execLinkDown port cause s
  | .lockLossTimeout port => Sys2Proof.Machine.execLockLossTimeout port s
  | .linkRestart port => Sys2Proof.Machine.execLinkRestart port s
  | .dataFlit port flit errs => Sys2Proof.Machine.execDataFlit port flit errs s
  | .nullFlit port flit errs => Sys2Proof.Machine.execNullFlit port flit errs s
  | .nak port f => Sys2Proof.Machine.execNak port f s
  | .linkReset port f => Sys2Proof.Machine.execLinkReset port f s
  | .replayTimeout port => Sys2Proof.Machine.execReplayTimeout port s
  | .rekey port => Sys2Proof.Machine.execRekey port s
  | .authFail port vc p => Sys2Proof.Machine.execAuthFail port vc p s
  | .packetForward port vc p => Sys2Proof.Machine.execPacketForward port vc p s
  | .read port vc p => Sys2Proof.Machine.execRead port vc p s
  | .write port vc p => Sys2Proof.Machine.execWrite port vc p s
  | .atomicAdd port vc p => Sys2Proof.Machine.execAtomicAdd port vc p s
  | .atomicCas port vc p => Sys2Proof.Machine.execAtomicCas port vc p s
  | .semSignal port vc p => Sys2Proof.Machine.execSemSignal port vc p s
  | .semWait port vc p => Sys2Proof.Machine.execSemWait port vc p s
  | .semCancel port vc p => Sys2Proof.Machine.execSemCancel port vc p s
  | .qpush port vc p => Sys2Proof.Machine.execQpush port vc p s
  | .readRsp port vc p => Sys2Proof.Machine.execReadRsp port vc p s
  | .ack port vc p => Sys2Proof.Machine.execAck port vc p s
  | .atomicRsp port vc p => Sys2Proof.Machine.execAtomicRsp port vc p s
  | .semRsp port vc p => Sys2Proof.Machine.execSemRsp port vc p s
  | .sync port vc p => Sys2Proof.Machine.execSync port vc p s
  | .syncSend => Sys2Proof.Machine.execSyncSend s
  | .pdelayPeriod port => Sys2Proof.Machine.execPdelayPeriod port s
  | .pdelayReq port vc p => Sys2Proof.Machine.execPdelayReq port vc p s
  | .pdelayRsp port vc p => Sys2Proof.Machine.execPdelayRsp port vc p s
  | .mirror port vc p => Sys2Proof.Machine.execMirror port vc p s
  | .toll port vc p => Sys2Proof.Machine.execToll port vc p s
  | .mgmtRead port vc p => Sys2Proof.Machine.execMgmtRead port vc p s
  | .mgmtWrite port vc p => Sys2Proof.Machine.execMgmtWrite port vc p s
  | .mgmtRsp port vc p => Sys2Proof.Machine.execMgmtRsp port vc p s
  | .peerLost port vc p => Sys2Proof.Machine.execPeerLost port vc p s
  | .nodeDown port vc p => Sys2Proof.Machine.execNodeDown port vc p s
  | .nodeUp port vc p => Sys2Proof.Machine.execNodeUp port vc p s
  | .hostSwitch port vc p => Sys2Proof.Machine.execHostSwitch port vc p s
  | .enum port vc p => Sys2Proof.Machine.execEnum port vc p s
  | .enumDone port vc p => Sys2Proof.Machine.execEnumDone port vc p s
  | .fbEnumStart src v => Sys2Proof.Machine.execFbEnumStart src v s
  | .doorbell src q v => Sys2Proof.Machine.execDoorbell src q v s
  | .commandFetch q f g => Sys2Proof.Machine.execCommandFetch q f g s
  | .completionWrite q => Sys2Proof.Machine.execCompletionWrite q s
  | .vectorFire q => Sys2Proof.Machine.execVectorFire q s
  | .coalesceTimeout q => Sys2Proof.Machine.execCoalesceTimeout q s
  | .vecUnmask src v => Sys2Proof.Machine.execVecUnmask src v s
  | .cmdNop c => Sys2Proof.Machine.execCmdNop c s
  | .regRead c => Sys2Proof.Machine.execRegRead c s
  | .regWrite c => Sys2Proof.Machine.execRegWrite c s
  | .queueCreate c => Sys2Proof.Machine.execQueueCreate c s
  | .queueDestroy c => Sys2Proof.Machine.execQueueDestroy c s
  | .imageLoad c f => Sys2Proof.Machine.execImageLoad c f s
  | .tableLoad c f => Sys2Proof.Machine.execTableLoad c f s
  | .ctxCreate c => Sys2Proof.Machine.execCtxCreate c s
  | .ctxStart c => Sys2Proof.Machine.execCtxStart c s
  | .ctxStop c => Sys2Proof.Machine.execCtxStop c s
  | .ctxQuench c => Sys2Proof.Machine.execCtxQuench c s
  | .ctxDestroy c => Sys2Proof.Machine.execCtxDestroy c s
  | .streamOpen c => Sys2Proof.Machine.execStreamOpen c s
  | .streamClose c => Sys2Proof.Machine.execStreamClose c s
  | .streamReset c => Sys2Proof.Machine.execStreamReset c s
  | .streamPark c => Sys2Proof.Machine.execStreamPark c s
  | .streamUnpark c => Sys2Proof.Machine.execStreamUnpark c s
  | .patternWrite c f => Sys2Proof.Machine.execPatternWrite c f s
  | .patternSwitch c => Sys2Proof.Machine.execPatternSwitch c s
  | .dump c => Sys2Proof.Machine.execDump c s
  | .qmAdminEnable src v => Sys2Proof.Machine.execQmAdminEnable src v s
  | .mrCtrlEnable src v => Sys2Proof.Machine.execMrCtrlEnable src v s
  | .mrBindInWrite src words => Sys2Proof.Machine.execMrBindInWrite src words s
  | .mrAuditIn src v => Sys2Proof.Machine.execMrAuditIn src v s
  | .tollSend => Sys2Proof.Machine.execTollSend s
  | .tollInPulse widthNs => Sys2Proof.Machine.execTollInPulse widthNs s
  | .tollWindowEnd => Sys2Proof.Machine.execTollWindowEnd s
  | .takeoverDrive edges => Sys2Proof.Machine.execTakeoverDrive edges s
  | .e2eCheck k => Sys2Proof.Machine.execE2eCheck k s
  | .configCompare k goodReg goodComp => Sys2Proof.Machine.execConfigCompare k goodReg goodComp s
  | .lftCycle failed => Sys2Proof.Machine.execLftCycle failed s
  | .mechanismRaise m ctx clk => Sys2Proof.Machine.execMechanismRaise m ctx clk s
  | .safeStateEntry => Sys2Proof.Machine.execSafeStateEntry s
  | .sfArm src => Sys2Proof.Machine.execSfArm src s
  | .hangExamine => Sys2Proof.Machine.execHangExamine s
  | .engineReset c e => Sys2Proof.Machine.execEngineReset c e s
  | .partitionReset p => Sys2Proof.Machine.execPartitionReset p s
  | .chipWarmReset source => Sys2Proof.Machine.execChipWarmReset source s
  | .resetEscalation => Sys2Proof.Machine.execResetEscalation s
  | .hgResetReqEngine src v => Sys2Proof.Machine.execHgResetReqEngine src v s
  | .hgResetReqPartition src v => Sys2Proof.Machine.execHgResetReqPartition src v s
  | .hgResetReqChip src v => Sys2Proof.Machine.execHgResetReqChip src v s
  | .replayStart => Sys2Proof.Machine.execReplayStart s
  | .dumpAccessTimeout unit => Sys2Proof.Machine.execDumpAccessTimeout unit s
  | .dumpDone => Sys2Proof.Machine.execDumpDone s
  | .poresetRise bootSrc bridgeEn o => Sys2Proof.Machine.execPoresetRise bootSrc bridgeEn o s
  | .wresetFall => Sys2Proof.Machine.execWresetFall s
  | .supplyFault e => Sys2Proof.Machine.execSupplyFault e s
  | .flashReadDone io container => Sys2Proof.Machine.execFlashReadDone io container s
  | .firmwareReady => Sys2Proof.Machine.execFirmwareReady s
  | .secBootGo src => Sys2Proof.Machine.execSecBootGo src s
  | .fuseRevoke src v => Sys2Proof.Machine.execFuseRevoke src v s
  | .fuseProgram src v => Sys2Proof.Machine.execFuseProgram src v s
  | .keyDerive src v => Sys2Proof.Machine.execKeyDerive src v s
  | .keyRandom src v => Sys2Proof.Machine.execKeyRandom src v s
  | .keyClear src v => Sys2Proof.Machine.execKeyClear src v s
  | .secDbgGo src => Sys2Proof.Machine.execSecDbgGo src s
  | .secDbgRelock src => Sys2Proof.Machine.execSecDbgRelock src s
  | .secAttGo src => Sys2Proof.Machine.execSecAttGo src s
  | .trngHealthFail => Sys2Proof.Machine.execTrngHealthFail s
  | .domainUp src d => Sys2Proof.Machine.execDomainUp src d s
  | .domainDown src d => Sys2Proof.Machine.execDomainDown src d s
  | .domainTransitionDone d => Sys2Proof.Machine.execDomainTransitionDone d s
  | .powerEstimate mw => Sys2Proof.Machine.execPowerEstimate mw s
  | .sensorUpdate readings => Sys2Proof.Machine.execSensorUpdate readings s
  | .throttleStep => Sys2Proof.Machine.execThrottleStep s
  | .blockEnable src page en => Sys2Proof.Machine.execBlockEnable src page en s
  | .linkBlockReset src port => Sys2Proof.Machine.execLinkBlockReset src port s
  | .pgLock src page => Sys2Proof.Machine.execPgLock src page s
  | .lockReq src page => Sys2Proof.Machine.execLockReq src page s
  | .pgIrqForce src page v => Sys2Proof.Machine.execPgIrqForce src page v s
  | .statCtrlLayerClear c => Sys2Proof.Machine.execStatCtrlLayerClear c s
  | .statCtrlTileClear c => Sys2Proof.Machine.execStatCtrlTileClear c s
  | .regionShapeValid src c n v => Sys2Proof.Machine.execRegionShapeValid src c n v s
  | .rcRead src page reg => Sys2Proof.Machine.execRcRead src page reg s
  | .registerWrite src page reg v => Sys2Proof.Machine.execRegisterWrite src page reg v s
  | .linkStateFail port => Sys2Proof.Machine.execLinkStateFail port s
  | .semWaitReissue tag => Sys2Proof.Machine.execSemWaitReissue tag s
  | .poresetFall => Sys2Proof.Machine.execPoresetFall s
  | .pwrgdRise => Sys2Proof.Machine.execPwrgdRise s
  | .wresetRise => Sys2Proof.Machine.execWresetRise s
  | .trngHealthRecovery => Sys2Proof.Machine.execTrngHealthRecovery s
  | .mclkInReturn rate => Sys2Proof.Machine.execMclkInReturn rate s
  | .linkControllerRelease => Sys2Proof.Machine.execLinkControllerRelease s
  | .checkpointRestoreDone => Sys2Proof.Machine.execCheckpointRestoreDone s
  | .dbgacc addr data write => Sys2Proof.Machine.execDbgacc addr data write s

end Sys2Proof.Machine
end

