-- ==== Sys2Proof/Machine/Tick.lean ====
section
/-!
DEFINITION. What one cycle of REFCLK_SYS does when no command waits (notes/assumptions/4.md): the timebase counts (R182), each
port sends one flit (R304–R310, R319, R326, R327), audio frames whose edge has come are sent (R228), a cache pass visits a set (R276), trace records reach memory (R469), TOLL_OUT falls (R366), completions of
accesses on this device return (R86), and engines and control cores that can go on do.
-/
namespace Sys2Proof.Machine

/-! ### The other work of a cycle -/

/-- The trace records that wait are written through SYS_WAYS (R469). -/
def State.writeTrace (s : State) : State :=
  s.hang.traceOut.foldl (fun s e => (s.writeSpan .sys (localOf e.1) e.2).2) { s with hang := { s.hang with traceOut := [] } }

/-- TOLL_OUT falls 10 µs after its toll instant (R366). -/
def State.tollFalls (s : State) : State :=
  let at_ := (s.pair.txK - 1) * msTb + s.side * usTb 500
  if s.safety.tollOut && decide (at_ + usTb 10 ≤ s.now.toNat) then
    { s with safety := { s.safety with tollOut := false } }
  else s

/-- One cycle of REFCLK_SYS without a command (R182); in power-on reset nothing runs (R459). -/
def State.tick (s : State) : State :=
  if !s.pins.poreset || s.pins.held then s else
  let s := s.tbCycle.sendAllDue.passStep.cePump
  let s := [0, 1, 2, 3].foldl (fun (s : State) (p : Nat) => s.portCycle p) s
  let s := s.writeTrace.tollFalls
  (s.cores.map (·.1)).foldl (fun s c => ((s.returnHere c 1).settle c).meetIllegal c) s

end Sys2Proof.Machine
end

