-- ==== Sys2Proof/Safety.lean ====
section
/-!
DEFINITION. What counts as a safe run: one in which every step answers a next state.
-/
namespace Sys2Proof.Safety

open Machine

/-- The step of `s` answers a next state. -/
def StepsOn (s : State) : Prop := ∃ t, step s = .next t

/-- The state after `n` steps that all answer a next state. -/
inductive Runs : Nat → State → State → Prop where
  /-- no step -/
  | zero (s : State) : Runs 0 s s
  /-- a step and the rest of the run -/
  | succ (n : Nat) (s t u : State) : step s = .next t → Runs n t u → Runs (n + 1) s u

/-- A run of `n` steps from `s` meets no fault and no refusal. -/
def SafeFor (n : Nat) (s : State) : Prop := ∃ t, Runs n s t

end Sys2Proof.Safety
end

