-- ==== Sys2Proof/WellFormed.lean ====
section
/-!
DEFINITION. Which commands are well formed: the shapes that no wire, slot or flit of the block can break. A field value that a
rule calls reserved or illegal is no matter of form: the command then has the effect that the rule gives it.
-/
namespace Sys2Proof

/-- A completion code that a device produces in a record, a packet or a register: R11 gives 0x00 to 0x13, and GEN_MISMATCH 0x0A
only to counters and event records. -/
def statusOk (b : Byte) : Bool := decide (b.toNat ≤ 0x13) && b != 0x0A

/-- A packet carries WLEN data bytes (R311). -/
def Packet.shapeOk (p : Packet) : Bool := decide (p.data.length = p.wlen.toNat)

/-- A packet of the transaction type of its row (R312), with a completion code for its STATUS (R11). -/
def Packet.isA (p : Packet) (t : Nat) : Bool := p.shapeOk && statusOk p.status && decide (p.ttype.toNat = t)

/-- A command slot has 56 argument bytes (R345). -/
def CmdSlot.shapeOk (c : CmdSlot) : Bool := decide (c.args.length = 56)

/-- A read that failed returned no bytes (R312), and its status is a completion code (R11). -/
def Fetched.shapeOk (f : Fetched) : Bool := statusOk f.status && (decide (f.status = 0) || f.bytes.isEmpty)

/-- A memory request lies in one 256-byte unit, and carries data exactly where it writes (R269, R275). -/
def MemReq.shapeOk (q : MemReq) : Bool :=
  decide (q.addr.toNat % 256 + q.len.val ≤ 256) && decide (q.data.length = if q.write then q.len.val else 0)

/-- Whether a command is well formed. -/
def Instr.wf (i : Instr) : Bool :=
  match i with
  | .add _ _ => true
  | .sub _ _ => true
  | .and _ _ => true
  | .or _ _ => true
  | .xor _ _ => true
  | .shl _ _ => true
  | .shr _ _ => true
  | .sra _ _ => true
  | .mul _ _ => true
  | .slt _ _ => true
  | .addi _ _ => true
  | .li _ _ => true
  | .ld _ _ => true
  | .st _ _ => true
  | .beq _ _ => true
  | .bne _ _ => true
  | .blt _ _ => true
  | .bge _ _ => true
  | .bltu _ _ => true
  | .bgeu _ _ => true
  | .jal _ _ => true
  | .jalr _ _ => true
  | .sumrd _ _ => true
  | .wlread _ _ => true
  | .beatwait _ _ => true
  | .tokwait _ _ => true
  | .ppoint _ _ => true
  | .endStage _ _ => true
  | .nop _ _ => true
  | .brk _ _ => true
  | .mvfail _ _ => true
  | .stlb _ _ => true
  | .strp _ _ => true
  | .reheatDecision _ => true
  | .strd _ _ => true
  | .mma _ _ => true
  | .mout _ _ => true
  | .wordComplete _ _ => true
  | .tload _ _ => true
  | .tstore _ _ => true
  | .mcopy _ _ => true
  | .semsig _ _ => true
  | .semwait _ _ => true
  | .matom _ _ => true
  | .mfence _ _ => true
  | .transactionReply _ status data => statusOk status && decide (data.length ≤ 256)
  | .transactionTimeout _ => true
  | .vadd _ _ => true
  | .vsub _ _ => true
  | .vmul _ _ => true
  | .vfma _ _ => true
  | .vmax _ _ => true
  | .vmin _ _ => true
  | .vcmp _ _ => true
  | .vmov _ _ => true
  | .vcvt _ _ => true
  | .vfun _ _ => true
  | .vperm _ _ => true
  | .vshuf _ _ => true
  | .vpack _ _ => true
  | .vunpack _ _ => true
  | .vred _ _ => true
  | .vsum _ _ => true
  | .vsmax _ _ => true
  | .vmskSet _ _ => true
  | .vmskAnd _ _ => true
  | .vmskOr _ _ => true
  | .vmskXor _ _ => true
  | .vmskAndn _ _ => true
  | .vmskNot _ _ => true
  | .vmskFirst _ _ => true
  | .scan _ _ _ => true
  | .sshift _ _ _ => true
  | .shsave _ _ _ => true
  | .spzero _ _ _ => true
  | .spload _ _ _ => true
  | .spstore _ _ _ => true
  | .mirroredReadHoldRelease _ _ _ => true
  | .stateDebugRead _ _ p => p.isA 0x10
  | .preemptionRequest _ => true
  | .beSliceExpiry _ => true
  | .atomWaitExpiry _ => true
  | .quench _ _ => true
  | .barBoundary => true
  | .queueOutputCommit _ copyStatus pushStatus => statusOk copyStatus && statusOk pushStatus
  | .mirrorExport => true
  | .parkRecordWrite _ status => statusOk status
  | .unparkRun _ f => f.shapeOk
  | .opPointChange => true
  | .stageStartBeat _ => true
  | .cutoffBeat _ => true
  | .workListReady _ => true
  | .statBeat _ => true
  | .swapBeat _ => true
  | .mirrorBeat _ => true
  | .patternStart => true
  | .patternStop => true
  | .ptCtrlRun _ _ => true
  | .switchReq _ => true
  | .ptEntryWrite _ _ _ => true
  | .ptEntrySelWrite _ _ => true
  | .tbSet _ _ => true
  | .tbHoldLimitExpiry => true
  | .angTooth _ _ _ => true
  | .angIndex _ _ => true
  | .angTimeout _ => true
  | .angHsCommit _ _ => true
  | .angSampleApply _ => true
  | .portEnable _ _ => true
  | .portClockStart _ => true
  | .portOn _ => true
  | .portDisable _ _ => true
  | .portStopDone _ => true
  | .portBlockReset _ _ => true
  | .blockLand _ _ frames => frames.all (fun (f : List (BitVec 128)) => decide (f.length ≤ 16))
  | .slotTake _ _ => true
  | .slotReadyMark _ _ => true
  | .clkLoss _ => true
  | .clkReturn _ => true
  | .rateWindowEnd _ _ _ _ => true
  | .gateTimeout _ _ => true
  | .lineStuck _ _ => true
  | .modulatorReset _ _ => true
  | .apMapApply _ _ => true
  | .standbyApply _ => true
  | .ringShapeValid _ _ _ => true
  | .apllLock _ => true
  | .apllLockLost _ => true
  | .asrcLock _ => true
  | .asrcOutOfRange _ => true
  | .directPathEnable _ => true
  | .directPathDisable _ => true
  | .directPathBlockReset _ => true
  | .pathFrame _ inputs _ => inputs.all (fun (f : PortFrame) => decide (f.port.val < 18) && decide (f.samples.length ≤ 16))
  | .resyncDone _ => true
  | .dpLoadGo _ => true
  | .loadListDone _ => true
  | .dramAccess q _ => q.shapeOk
  | .patrolScrub _ _ => true
  | .refreshRateChange _ _ => true
  | .dramRetrain _ => true
  | .dramTrainingDone _ _ => true
  | .cacheAccess q _ => q.shapeOk
  | .caMaint _ _ => true
  | .cachePassDone => true
  | .prEnable _ _ _ => true
  | .prDisable _ _ _ => true
  | .ceJobGo _ => true
  | .blockCode _ => true
  | .ceJobDone => true
  | .linkEnable _ _ => true
  | .linkDetectDone _ => true
  | .linkTrainDone _ _ _ _ => true
  | .linkAlignDone _ => true
  | .exchange _ f => decide (f.info.credits.length = 8)
  | .exchangeResend _ => true
  | .keyOffer _ p => p.isA 0x70
  | .keyConfirm _ p => p.isA 0x71
  | .keyingTimeout _ => true
  | .linkDown _ _ => true
  | .lockLossTimeout _ => true
  | .linkRestart _ => true
  | .dataFlit _ flit _ => decide (flit.length = 256)
  | .nullFlit _ flit _ => decide (flit.length = 256)
  | .nak _ _ => true
  | .linkReset _ _ => true
  | .replayTimeout _ => true
  | .rekey _ => true
  | .authFail _ _ p => p.shapeOk
  | .packetForward _ _ p => p.shapeOk
  | .read _ _ p => p.isA 0x10
  | .write _ _ p => p.isA 0x11
  | .atomicAdd _ _ p => p.isA 0x12
  | .atomicCas _ _ p => p.isA 0x13
  | .semSignal _ _ p => p.isA 0x14
  | .semWait _ _ p => p.isA 0x15
  | .semCancel _ _ p => p.isA 0x16
  | .qpush _ _ p => p.isA 0x17
  | .readRsp _ _ p => p.isA 0x20
  | .ack _ _ p => p.isA 0x21
  | .atomicRsp _ _ p => p.isA 0x22
  | .semRsp _ _ p => p.isA 0x23
  | .sync _ _ p => p.isA 0x30
  | .syncSend => true
  | .pdelayPeriod _ => true
  | .pdelayReq _ _ p => p.isA 0x31
  | .pdelayRsp _ _ p => p.isA 0x32
  | .mirror _ _ p => p.isA 0x40
  | .toll _ _ p => p.isA 0x41
  | .mgmtRead _ _ p => p.isA 0x50
  | .mgmtWrite _ _ p => p.isA 0x51
  | .mgmtRsp _ _ p => p.isA 0x52
  | .peerLost _ _ p => p.isA 0x53
  | .nodeDown _ _ p => p.isA 0x54
  | .nodeUp _ _ p => p.isA 0x55
  | .hostSwitch _ _ p => p.isA 0x56
  | .enum _ _ p => p.isA 0x60
  | .enumDone _ _ p => p.isA 0x61
  | .fbEnumStart _ _ => true
  | .doorbell _ _ _ => true
  | .commandFetch _ f g => f.shapeOk && g.shapeOk
  | .completionWrite _ => true
  | .vectorFire _ => true
  | .coalesceTimeout _ => true
  | .vecUnmask _ _ => true
  | .cmdNop c => c.shapeOk
  | .regRead c => c.shapeOk
  | .regWrite c => c.shapeOk
  | .queueCreate c => c.shapeOk
  | .queueDestroy c => c.shapeOk
  | .imageLoad c f => c.shapeOk && f.shapeOk
  | .tableLoad c f => c.shapeOk && f.shapeOk
  | .ctxCreate c => c.shapeOk
  | .ctxStart c => c.shapeOk
  | .ctxStop c => c.shapeOk
  | .ctxQuench c => c.shapeOk
  | .ctxDestroy c => c.shapeOk
  | .streamOpen c => c.shapeOk
  | .streamClose c => c.shapeOk
  | .streamReset c => c.shapeOk
  | .streamPark c => c.shapeOk
  | .streamUnpark c => c.shapeOk
  | .patternWrite c f => c.shapeOk && f.shapeOk
  | .patternSwitch c => c.shapeOk
  | .dump c => c.shapeOk
  | .qmAdminEnable _ _ => true
  | .mrCtrlEnable _ _ => true
  | .mrBindInWrite _ words => decide (0 < words.length ∧ words.length ≤ 16)
  | .mrAuditIn _ _ => true
  | .tollSend => true
  | .tollInPulse _ => true
  | .tollWindowEnd => true
  | .takeoverDrive _ => true
  | .e2eCheck _ => true
  | .configCompare _ _ _ => true
  | .lftCycle _ => true
  | .mechanismRaise _ _ _ => true
  | .safeStateEntry => true
  | .sfArm _ => true
  | .hangExamine => true
  | .engineReset _ _ => true
  | .partitionReset _ => true
  | .chipWarmReset _ => true
  | .resetEscalation => true
  | .hgResetReqEngine _ _ => true
  | .hgResetReqPartition _ _ => true
  | .hgResetReqChip _ _ => true
  | .replayStart => true
  | .dumpAccessTimeout _ => true
  | .dumpDone => true
  | .poresetRise _ _ _ => true
  | .wresetFall => true
  | .supplyFault _ => true
  | .flashReadDone _ _ => true
  | .firmwareReady => true
  | .secBootGo _ => true
  | .fuseRevoke _ _ => true
  | .fuseProgram _ _ => true
  | .keyDerive _ _ => true
  | .keyRandom _ _ => true
  | .keyClear _ _ => true
  | .secDbgGo _ => true
  | .secDbgRelock _ => true
  | .secAttGo _ => true
  | .trngHealthFail => true
  | .domainUp _ _ => true
  | .domainDown _ _ => true
  | .domainTransitionDone _ => true
  | .powerEstimate _ => true
  | .sensorUpdate readings => decide (readings.length = 16)
  | .throttleStep => true
  | .blockEnable _ _ _ => true
  | .linkBlockReset _ _ => true
  | .pgLock _ _ => true
  | .lockReq _ _ => true
  | .pgIrqForce _ _ _ => true
  | .statCtrlLayerClear _ => true
  | .statCtrlTileClear _ => true
  | .regionShapeValid _ _ _ _ => true
  | .rcRead _ _ _ => true
  | .registerWrite _ _ _ _ => true
  | .linkStateFail _ => true
  | .semWaitReissue _ => true
  | .poresetFall => true
  | .pwrgdRise => true
  | .wresetRise => true
  | .trngHealthRecovery => true
  | .mclkInReturn _ => true
  | .linkControllerRelease => true
  | .checkpointRestoreDone => true
  | .dbgacc _ _ _ => true

end Sys2Proof
end

