-- ==== Sys2Proof/Certificates/Slice0/Obligations.lean ====
section
/-!
DEFINITION. The statements for the provers, and the premises and results that they name. A completion statement gives the whole
next state: what it does not change is the frame.
-/

namespace Sys2Proof.Claims

open Machine

/-- Core Cc issues the word w for context n (R57–R62, R70): the context is RUNNING there and nothing holds the control core, the
fetch is clean, the fields are legal, the awaited tokens are there, and a word follows. -/
def Issues (s : State) (c : CoreId) (n : CtxId) (op : CtrlOp) (w : CtrlWord) : Prop :=
  s.issuer c.val = some n ∧ w.ecc = .clean ∧ ctrlCause op w = none ∧ (s.core c.val).waitMet w.wait = true ∧
  (s.core c.val).pc + 1 < 16384

/-- Issue before the word's own effect: the awaited tokens taken (R62), CTRL_ISSUE_COUNT advanced (R92), and the core's wait
records told that a word completed (R380). -/
def afterIssue (s : State) (c : CoreId) (n : CtxId) (w : CtrlWord) : State :=
  ((s.setCore c.val ((s.core c.val).takeTokens w.wait)).count (Page.ctrl c.val) Reg.CTRL_ISSUE_COUNT).waitProgress c.val n

/-- The state of core Cc changed by `f`, and its program counter at `pc`. -/
def coreTo (t : State) (c : CoreId) (pc : Nat) (f : Core → Core) : State :=
  t.setCore c.val { f (t.core c.val) with pc := pc }

/-- The command of a tile word. -/
def tileCommand (op : TileOp) (c : CoreId) (w : TileWord) (ecc : List Ecc) : Instr :=
  match op with
  | .mma => .mma c w | .mout => .mout c w
  | .vadd => .vadd c w | .vsub => .vsub c w | .vmul => .vmul c w | .vfma => .vfma c w | .vmax => .vmax c w
  | .vmin => .vmin c w | .vcmp => .vcmp c w | .vmov => .vmov c w | .vcvt => .vcvt c w | .vfun => .vfun c w
  | .vperm => .vperm c w | .vshuf => .vshuf c w | .vpack => .vpack c w | .vunpack => .vunpack c w
  | .vred => .vred c w | .vsum => .vsum c w | .vsmax => .vsmax c w | .vmskSet => .vmskSet c w
  | .vmskAnd => .vmskAnd c w | .vmskOr => .vmskOr c w | .vmskXor => .vmskXor c w | .vmskAndn => .vmskAndn c w
  | .vmskNot => .vmskNot c w | .vmskFirst => .vmskFirst c w
  | .scan => .scan c w ecc | .sshift => .sshift c w ecc | .shsave => .shsave c w ecc | .spzero => .spzero c w ecc
  | .spload => .spload c w ecc | .spstore => .spstore c w ecc
  | .tload => .tload c w | .tstore => .tstore c w | .mcopy => .mcopy c w | .semsig => .semsig c w
  | .semwait => .semwait c w | .matom => .matom c w | .mfence => .mfence c w

end Sys2Proof.Claims

open Sys2Proof Sys2Proof.Machine Sys2Proof.Claims

/-- The arithmetic and logic words (R71) write their result into rd and move to the next word; x0 ignores the write (R58).
Nothing else changes but what issue does.
Completes: add, sub, and, or, xor, shl, shr, sra, mul, slt, addi, li. -/
def Obligations.ArithmeticWordsWriteRd : Prop :=
  ∀ (s : State) (c : CoreId) (n : CtxId) (w : CtrlWord) (a b : W64),
    (s.core c.val).xGet w.rs1.toNat = a → (s.core c.val).xGet w.rs2.toNat = b →
    let t (v : W64) := coreTo (afterIssue s c n w) c ((s.core c.val).pc + 1) fun k => k.xSet w.rd.toNat v
    (Issues s c n .add w → exec (.add c w) s = .next (t (a + b))) ∧
    (Issues s c n .sub w → exec (.sub c w) s = .next (t (a - b))) ∧
    (Issues s c n .and w → exec (.and c w) s = .next (t (a &&& b))) ∧
    (Issues s c n .or w → exec (.or c w) s = .next (t (a ||| b))) ∧
    (Issues s c n .xor w → exec (.xor c w) s = .next (t (a ^^^ b))) ∧
    (Issues s c n .shl w → exec (.shl c w) s = .next (t (a <<< (b.setWidth 6).toNat))) ∧
    (Issues s c n .shr w → exec (.shr c w) s = .next (t (a >>> (b.setWidth 6).toNat))) ∧
    (Issues s c n .sra w → exec (.sra c w) s = .next (t (a.sshiftRight (b.setWidth 6).toNat))) ∧
    (Issues s c n .mul w → exec (.mul c w) s = .next (t (BitVec.ofNat 64 (a.toNat * b.toNat)))) ∧
    (Issues s c n .slt w → exec (.slt c w) s = .next (t (if a.toInt < b.toInt then 1 else 0))) ∧
    (Issues s c n .addi w → exec (.addi c w) s = .next (t (a + w.imm))) ∧
    (Issues s c n .li w → exec (.li c w) s = .next (t w.imm))

/-- The branches and jumps (R71): a branch whose condition holds moves to word pc + IMM64, any other to the next word; JAL and JALR
write the next word's index into rd and move to pc + IMM64 or rs1 + IMM64.
Completes: beq, bne, blt, bge, bltu, bgeu, jal, jalr. -/
def Obligations.TransferWordsMove : Prop :=
  (∀ (s : State) (c : CoreId) (n : CtxId) (w : CtrlWord) (a b : W64),
    (s.core c.val).xGet w.rs1.toNat = a → (s.core c.val).xGet w.rs2.toNat = b →
    let target := (BitVec.ofNat 64 (s.core c.val).pc + w.imm).toNat
    target < 16384 →
    let t (taken : Prop) [Decidable taken] :=
      coreTo (afterIssue s c n w) c (if taken then target else (s.core c.val).pc + 1) id
    (Issues s c n .beq w → exec (.beq c w) s = .next (t (a = b))) ∧
    (Issues s c n .bne w → exec (.bne c w) s = .next (t (a ≠ b))) ∧
    (Issues s c n .blt w → exec (.blt c w) s = .next (t (a.toInt < b.toInt))) ∧
    (Issues s c n .bge w → exec (.bge c w) s = .next (t (b.toInt ≤ a.toInt))) ∧
    (Issues s c n .bltu w → exec (.bltu c w) s = .next (t (a.toNat < b.toNat))) ∧
    (Issues s c n .bgeu w → exec (.bgeu c w) s = .next (t (b.toNat ≤ a.toNat)))) ∧
  (∀ (s : State) (c : CoreId) (n : CtxId) (w : CtrlWord) (target : Nat), target < 16384 →
    let t := coreTo (afterIssue s c n w) c target fun k => k.xSet w.rd.toNat (BitVec.ofNat 64 ((s.core c.val).pc + 1))
    (Issues s c n .jal w → (BitVec.ofNat 64 (s.core c.val).pc + w.imm).toNat = target → exec (.jal c w) s = .next t) ∧
    (Issues s c n .jalr w → ((s.core c.val).xGet w.rs1.toNat + w.imm).toNat = target → exec (.jalr c w) s = .next t))

/-- LD and ST (R71): 8 bytes at rs1 + IMM64, aligned and inside the 4 MiB scratchpad of the core; every other byte of the
scratchpad stays. The words that read another record of the core into rd: SUMRD (R116), WLREAD (R71), STRD (R83), and MVFAIL,
which also clears what it reads (R89). Beside a mover word that is not complete and writes the same bytes, LD, ST and WLREAD move
a value that nothing constrains (R61); so does STRD while a word that is not complete writes what it reads; SUMRD then reads the
old or the new value (R119). These are the model's forms of an unpredictable value.
Where the spec leaves it open it says what the model chose: notes/assumptions/90.md.
Completes: ld, st, sumrd, wlread, mvfail, strd. -/
def Obligations.ScratchpadAndRecordWordsAccess : Prop :=
  (∀ (s : State) (c : CoreId) (n : CtxId) (w : CtrlWord) (o : Nat),
    ((s.core c.val).xGet w.rs1.toNat + w.imm).toNat = o → o % 8 = 0 → o + 8 ≤ 0x400000 →
    let load (v : W64) := coreTo (afterIssue s c n w) c ((s.core c.val).pc + 1) fun k => k.xSet w.rd.toNat v
    (Issues s c n .ld w → s.moversAt c.val o 8 true = [] →
      exec (.ld c w) s = .next (load (BitVec.ofNat 64 (leNat (memGet (s.core c.val).scratch o 8))))) ∧
    (Issues s c n .ld w → s.moversAt c.val o 8 true ≠ [] → ∃ v, exec (.ld c w) s = .next { load v with free := s.free + 1 }) ∧
    (Issues s c n .st w → s.moversAt c.val o 8 false = [] →
      exec (.st c w) s = .next (coreTo (afterIssue s c n w) c ((s.core c.val).pc + 1) fun k =>
        { k with scratch := memPut k.scratch o (leBytes 8 ((s.core c.val).xGet w.rs2.toNat).toNat) }))) ∧
  (∀ (s : State) (c : CoreId) (n : CtxId) (w : CtrlWord),
    let k := s.core c.val
    let p := Page.stat c.val
    let t (v : W64) := coreTo (afterIssue s c n w) c (k.pc + 1) fun k => k.xSet w.rd.toNat v
    let sel := w.imm.toNat % 256
    let tile := w.imm.toNat / 256 % 64
    (Issues s c n .sumrd w → k.summaryWord sel = none →
      (sel < 16 → exec (.sumrd c w) s = .next (t (k.sum sel))) ∧
      (∀ i, i < 8 → sel = 16 + i → exec (.sumrd c w) s = .next (t ((k.mask i).setWidth 64)))) ∧
    (∀ e, Issues s c n .sumrd w → k.summaryWord sel = some e →
      let u : State := { afterIssue s c n w with free := s.free + 1 }
      ∃ v, exec (.sumrd c w) s = .next { t v with free := s.free + 1 } ∧
        (v = k.summary sel ∨ v = ((u.runVector c.val e.op e.w).core c.val).summary sel)) ∧
    (Issues s c n .strd w → k.recordBusy w.imm.toNat = true →
      ∃ v, exec (.strd c w) s = .next { t v with free := s.free + 1 }) ∧
    (Issues s c n .wlread w →
      (k.cur = none → exec (.wlread c w) s = .next (t 0)) ∧
      (∀ l, k.cur = some l →
        let o := s.wlOffset c.val l.slot l.bar + 8 * (w.imm.toNat % 65536)
        (s.moversAt c.val o 8 true = [] →
          exec (.wlread c w) s = .next (t (BitVec.ofNat 64 (leNat (memGet k.scratch o 8))))) ∧
        (s.moversAt c.val o 8 true ≠ [] → ∃ v, exec (.wlread c w) s = .next { t v with free := s.free + 1 }))) ∧
    (Issues s c n .strd w → k.recordBusy w.imm.toNat = false →
      (w.imm.toNat % 16 = 0 → exec (.strd c w) s = .next (t ((s.reg p Reg.LAYER_ABSMAX).setWidth 64))) ∧
      (w.imm.toNat % 16 = 1 → exec (.strd c w) s = .next (t ((s.reg p Reg.LAYER_SAT_COUNT).setWidth 64))) ∧
      (w.imm.toNat % 16 = 2 → exec (.strd c w) s = .next (t ((s.reg p Reg.LAYER_NAN_COUNT).setWidth 64))) ∧
      (w.imm.toNat % 16 = 3 → exec (.strd c w) s = .next (t ((s.reg p (Reg.TILE_ABSMAX + 8 * tile)).setWidth 64))) ∧
      (w.imm.toNat % 16 = 4 → exec (.strd c w) s = .next (t ((s.reg p (Reg.TILE_COUNT + 8 * tile)).setWidth 64)))) ∧
    (Issues s c n .mvfail w →
      exec (.mvfail c w) s = .next (coreTo (afterIssue s c n w) c (k.pc + 1) fun k =>
        { k with mvfail := SMap.set k.mvfail n.val 0 0 }.xSet w.rd.toNat ((SMap.get k.mvfail n.val 0).setWidth 64))))

/-- The words that only hold or move the control core (R71, R83, R167, R209): NOP and TOKWAIT move on; BRK halts; STRP blocks
until the decision; BEATWAIT blocks until a beat and its list, where none is there yet; STLB clears the layer record and
names the layer; PPOINT without a request and END with nothing outstanding go on, the latter reporting the stage.
Where the spec leaves it open it says what the model chose: notes/assumptions/9.md and 72.md.
Completes: beatwait, tokwait, ppoint, endStage, nop, brk, stlb, strp. -/
def Obligations.WaitingWordsBlock : Prop :=
  ∀ (s : State) (c : CoreId) (n : CtxId) (w : CtrlWord),
    let k := s.core c.val
    let goes (f : Core → Core) := coreTo (afterIssue s c n w) c (k.pc + 1) f
    (Issues s c n .nop w → exec (.nop c w) s = .next (goes id)) ∧
    (Issues s c n .tokwait w → exec (.tokwait c w) s = .next (goes id)) ∧
    (Issues s c n .brk w → exec (.brk c w) s = .next (goes fun k => { k with blocked := some .brk })) ∧
    (Issues s c n .strp w →
      exec (.strp c w) s = .next (goes fun k => { k with blocked := some (.reheat (w.imm.toNat % 256) w.rd) })) ∧
    (Issues s c n .beatwait w → (goes fun k => { k with blocked := some (.beatWait w.rd) }).bestReady c.val = none →
      exec (.beatwait c w) s = .next (goes fun k => { k with blocked := some (.beatWait w.rd) })) ∧
    (Issues s c n .beatwait w → (goes fun k => { k with blocked := some (.beatWait w.rd) }).bestReady c.val = some n.val →
      exec (.beatwait c w) s = .next ((goes fun k => { k with blocked := some (.beatWait w.rd), preempt := false }).resolveBeat
        c.val)) ∧
    (Issues s c n .stlb w →
      exec (.stlb c w) s = .next (coreTo (((afterIssue s c n w).layerClear c.val).setReg (Page.stat c.val) Reg.LAYER_ID
        (BitVec.ofNat 32 (w.imm.toNat % 256))) c (k.pc + 1) id)) ∧
    (Issues s c n .ppoint w → k.preempt = false → exec (.ppoint c w) s = .next (goes id)) ∧
    (Issues s c n .ppoint w → k.preempt = true → s.isBE n.val = true →
      exec (.ppoint c w) s = .next ((((goes fun k => { k with
        blocked := some (.point (w.imm.toNat % 65536) none), pointAt := s.now }).pointWithdraw c.val n.val k.pc).tryPoint
          c.val).pastEnd c.val)) ∧
    (Issues s c n .endStage w → k.idle n.val = true → exec (.endStage c w) s = .next ((goes id).reportEnd c.val)) ∧
    (Issues s c n .endStage w → k.idle n.val = false →
      exec (.endStage c w) s = .next (goes fun k => { k with blocked := some .endWait }))

namespace Sys2Proof.Claims

open Machine

/-- Core Cc issues the tile word w for context n into an engine that has room (R57–R60, R70, R140). -/
def IssuesTile (s : State) (c : CoreId) (n : CtxId) (op : TileOp) (w : TileWord) : Prop :=
  s.issuer c.val = some n ∧ w.ecc = .clean ∧ (s.tileFault c.val op w).1 = none ∧
  ((s.core c.val).queue op.engine).length < queueSize op.engine ∧ (s.core c.val).pc + 1 < 16384

/-- What the reads of the state store find, for the words of the scan queue; no other word reads it. -/
def storeEcc (op : TileOp) (ecc : List Ecc) : List Ecc := if op.engine = .scan then ecc else []

/-- The state in which the word has entered its queue (R59, R60): its entry holds the x registers read at issue, and
CTRL_ISSUE_COUNT has advanced; the engine is marked as used by the context in this bar (R385). -/
def queued (s : State) (c : CoreId) (n : CtxId) (op : TileOp) (w : TileWord) (ecc : List Ecc) : State :=
  let k := s.core c.val
  let mark := (engineCode op.engine, n.val)
  (((s.endWait 1 c.val 0 n).setCore c.val
    { k.setQueue op.engine (k.queue op.engine ++ [s.entryOf c.val n op w (storeEcc op ecc)]) with
      blocked := none, nextSeq := k.nextSeq + 1,
      issuedBar := if k.issuedBar.contains mark then k.issuedBar else k.issuedBar ++ [mark] })).count
        (Page.ctrl c.val) Reg.CTRL_ISSUE_COUNT

/-- The word can start at once: every queue of the core is empty and its tokens are there (R61, R62), no slot is withheld for a
mirror export or import (R143), and an MMA that continues a bank fits the bank's footprint (R75). -/
def StartsAtOnce (s : State) (c : CoreId) (op : TileOp) (w : TileWord) : Prop :=
  (∀ q, (s.core c.val).queue q = []) ∧ (s.core c.val).waitMet w.wait = true ∧
  s.pair.unread = [] ∧ s.pair.importing = [] ∧
  (op = .mma → ((s.core c.val).bank (w.f 32 2)).isOpen = true → w.b 34 = false →
    footprintBad ((s.core c.val).bank (w.f 32 2)) w = false)

/-- The word started (R61, R62): it has entered its queue, its tokens are taken, and it runs. -/
def started (s : State) (c : CoreId) (n : CtxId) (op : TileOp) (w : TileWord) (ecc : List Ecc) : State :=
  (queued s c n op w ecc).startEntry c.val op.engine (s.entryOf c.val n op w (storeEcc op ecc))

/-- The engine that runs it is busy with it from now on (R380). -/
def begun (s : State) (c : CoreId) (n : CtxId) (op : TileOp) (w : TileWord) (ecc : List Ecc) : State :=
  (started s c n op w ecc).beginWait 3 c.val (waitEngine op) n
    (BitVec.ofNat 64 (s.entryOf c.val n op w (storeEcc op ecc)).seq)

/-- What is left of a word that has done its work (R62): it leaves its queue, is counted and ends its wait record. -/
def wordDone (s : State) (c : CoreId) (q : EngineId) (e : QEntry) : State :=
  let t := (s.modCore c.val fun k => k.setQueue q ((k.queue q).filter fun x => x.seq != e.seq)).endWaits fun w =>
    w.kind == 3 && w.core == c.val && w.ctx == some e.ctx && w.obj == BitVec.ofNat 64 e.seq
  (t.countWord c.val e).waitProgress c.val e.ctx

end Sys2Proof.Claims

/-- Every tile word enters the queue of its engine at issue, whatever can start on the core does, and the program counter moves on
(R59, R61). A tile word that can start at once runs: the word of the matrix, vector or scan queue keeps its engine busy until
WORD_COMPLETE (R62, R380); a mover word with aligned operands issues its transactions in order (R84–R86), and a SEMWAIT is
recorded as a wait for its semaphore (R380).
Where the spec leaves it open it says what the model chose: notes/assumptions/11.md and 90.md.
Completes: mma, mout, vadd, vsub, vmul, vfma, vmax, vmin, vcmp, vmov, vcvt, vfun, vperm, vshuf, vpack, vunpack, vred, vsum, vsmax,
vmskSet, vmskAnd, vmskOr, vmskXor, vmskAndn, vmskNot, vmskFirst, scan, sshift, shsave, spzero, spload, spstore, tload, tstore,
mcopy, semsig, semwait, matom, mfence. -/
def Obligations.TileWordsQueueAndRun : Prop :=
  (∀ (s : State) (c : CoreId) (n : CtxId) (op : TileOp) (w : TileWord) (ecc : List Ecc), IssuesTile s c n op w →
    exec (tileCommand op c w ecc) s = .next (((queued s c n op w ecc).pump c.val).advance c.val)) ∧
  (∀ (s : State) (c : CoreId) (n : CtxId) (op : TileOp) (w : TileWord) (ecc : List Ecc), op.engine ≠ .mover →
    IssuesTile s c n op w → StartsAtOnce s c op w →
      exec (tileCommand op c w ecc) s = .next ((begun s c n op w ecc).advance c.val)) ∧
  (∀ (s : State) (c : CoreId) (n : CtxId) (op : TileOp) (w : TileWord), op.engine = .mover →
    IssuesTile s c n op w → StartsAtOnce s c op w →
      let e := s.entryOf c.val n op w []
      let t := started s c n op w []
      mvMisaligned e = false →
      exec (tileCommand op c w []) s =
        .next (((if op = .semwait then t.beginWait 2 c.val 5 n (mvAddr e) else t).mvIssueAll c.val e (mvTxns e)).advance c.val))

/-- The mask words write MDST (R105): SET the immediate, AND, OR, XOR and ANDN two registers, NOT one, FIRST the low lanes. -/
def Obligations.MaskWordsWriteMask : Prop :=
  ∀ (s : State) (c : Nat) (w : TileWord),
    let k := s.core c
    let a := k.mask (w.f 38 3)
    let b := k.mask (w.imm.toNat % 8)
    let t (v : W32) := s.setCore c (k.setMask (w.f 68 3) v)
    s.runVector c .vmskSet w = t w.imm ∧ s.runVector c .vmskAnd w = t (a &&& b) ∧ s.runVector c .vmskOr w = t (a ||| b) ∧
    s.runVector c .vmskXor w = t (a ^^^ b) ∧ s.runVector c .vmskAndn w = t (a &&& ~~~b) ∧
    s.runVector c .vmskNot w = t (~~~a) ∧
    ∀ m, m ≤ 32 → w.imm.toNat % 64 = m →
      ∀ j, j < 32 → (((s.runVector c .vmskFirst w).core c).mask (w.f 68 3)).getLsbD j = decide (j < m)

/-- VADD, VSUB, VMUL, VMAX and VMIN on FP32 tiles (R102): each active element of TA in the processed rows takes the result of
its operands, every other byte of the tile register file stays.
Where the spec leaves it open it says what the model chose: notes/assumptions/12.md and 90.md. -/
def Obligations.VectorArithmeticWritesElements : Prop :=
  ∀ (s : State) (c : Nat) (w : TileWord) (op : TileOp),
    op = .vadd ∨ op = .vsub ∨ op = .vmul ∨ op = .vmax ∨ op = .vmin →
    w.f 43 3 = 0 → w.f 46 3 = 0 → w.b 42 = false → w.ta.toNat + 4 ≤ 64 → w.f 51 5 + w.f 56 5 < 32 →
    let k := s.core c
    let k' := (s.runVector c op w).core c
    let result (a b : W32) : W32 :=
      match op with
      | .vadd => fpAdd a b | .vsub => fpSub a b | .vmul => fpMul a b | .vmax => fpMax2 a b | _ => fpMin2 a b
    (∀ i j, w.f 51 5 ≤ i → i ≤ w.f 51 5 + w.f 56 5 → j < 32 → laneOn k w j = true →
      leNat (k'.tileBytes (1024 * w.ta.toNat + 128 * i + 4 * j) 4) =
        (result (operandA k op w i j) (operandB k op w i j)).toNat) ∧
    (∀ o, o < 65536 →
      (∀ i j, w.f 51 5 ≤ i → i ≤ w.f 51 5 + w.f 56 5 → j < 32 → laneOn k w j = true →
        o < 1024 * w.ta.toNat + 128 * i + 4 * j ∨ 1024 * w.ta.toNat + 128 * i + 4 * j + 4 ≤ o) →
      k'.tileByte o = k.tileByte o)

/-- A START MMA of BC8 activations and weights in mode A (R26, R44, R73): each of the 1,024 sums is the exact dot product of its
row of activations and its column of weights, for 32 steps can never leave the 40 bits of the accumulator. -/
def Obligations.MmaAccumulatesDotProducts : Prop :=
  ∀ (k : Core) (owner draw : Nat) (w : TileWord), w.b 34 = true → w.b 35 = false → w.f 36 2 = 0 → w.b 38 = false →
    ∀ i j, i < 32 → j < 32 →
      (SMap.get (mmaResult k owner draw w).acc (32 * i + j) 0).toInt =
        ((List.range 32).map fun q => activationAt k 0 w.ta.toNat i q * weightAt k false w.tb.toNat q j).sum

/-- SPZERO (R139): each group from GROUP to GROUP + COUNT of the slot reads as 32 zero codes with a zero scale afterwards. -/
def Obligations.PortZeroesGroups : Prop :=
  ∀ (s : State) (c : Nat) (e : QEntry), e.op = .spzero →
    let r := s.region c (scanRegion e)
    scanGroup e + e.w.f 59 5 < r.ng →
    ∀ i, i ≤ e.w.f 59 5 →
      ((s.runPort c e).core c).group r (scanSlot e) (scanGroup e + i) = (List.replicate 32 0, 0)

/-- WORD_COMPLETE (R62): a started word whose transactions are over does its work, leaves its queue, is counted, ends its wait
record, signals its token where SIGV is set, and whatever waited for that goes on. MMA and MOUT multiply into their bank, or drain
it (R73, R78); every vector word does its operation on the tiles (R102–R115); every word of the scan queue does its operation on
the state store (R131–R139); a mover word has moved its data already (R84). A signal adds 1 to the token's count; with the count
at 15 it faults the context instead: TOKEN_OVERFLOW stands in CTRL_FAULT with the word and the context, and the context's quench
is requested (R62, R70, R92). That work is done as the word completes is the model's choice.
Where the spec leaves it open it says what the model chose: notes/assumptions/7.md and 90.md.
Completes: wordComplete. -/
def Obligations.CompletedWordSignalsToken : Prop :=
  (∀ (s : State) (c : CoreId) (q : EngineId) (e : QEntry),
    let u := if q = .mover then s.returnHere c.val (s.hereRounds c.val) else s
    u.completable c.val q = some e → e.raced = false →
    let ends (t : State) : State :=
      (if e.w.sigv then (wordDone t c q e).signalToken c.val e.ctx.val e.w.sig.toNat e.pc else wordDone t c q e).settle c.val
    (q = .matrix → e.op = .mma → exec (.wordComplete c q) s = .next (ends (s.runMma c.val e))) ∧
    (q = .matrix → e.op = .mout → exec (.wordComplete c q) s = .next (ends (s.runMout c.val e))) ∧
    (q = .vector → exec (.wordComplete c q) s = .next (ends (s.runVector c.val e.op e.w))) ∧
    (q = .scan → exec (.wordComplete c q) s = .next (ends (s.runScan c.val e))) ∧
    (q = .mover → exec (.wordComplete c q) s = .next (ends u))) ∧
  (∀ (s : State) (c t pc : Nat) (n : CtxId), (s.core c).ctx = some n →
    ((s.core c).tok t < 15 →
      s.signalToken c n.val t pc = s.setCore c ((s.core c).setTok t ((s.core c).tok t + 1)) ∧
      ((s.signalToken c n.val t pc).core c).tok t = (s.core c).tok t + 1) ∧
    ((s.core c).tok t = 15 →
      (s.signalToken c n.val t pc).core c = s.core c ∧
      (s.signalToken c n.val t pc).reg (Page.ctrl c) Reg.CTRL_FAULT =
        BitVec.ofNat 32 (0x05 + 256 * (pc % 16384) + 0x400000 * n.val) ∧
      ((s.ctx n.val).st = .running → ((s.signalToken c n.val t pc).ctx n.val).st = .quenching)))

/-- Replies, timeouts and re-issues of outstanding transactions (R89, R92, R193, R313): a reply before MV_TIMEOUT frees its tag and
lands or latches its status; one at MV_TIMEOUT or after it completes the transaction with TIMEOUT; at MV_TIMEOUT a transaction is
abandoned with status TIMEOUT, but never a semaphore wait; a wait answered BUSY keeps its tag and is put again. What waited on
the core goes on. The first failure since the last MVFAIL stays in the context's status, and MV_FAIL names the latest one and its
context.
Where the spec leaves it open it says what the model chose: notes/assumptions/28.md.
Completes: transactionReply, transactionTimeout, semWaitReissue. -/
def Obligations.TransactionsEnd : Prop :=
  (∀ (s : State) (tag : TagId) (x : Tag), s.tag tag.val = some x →
    let on (t : State) : State := match x.core with | some c => t.settle c.val | none => t
    (∀ (data : List Byte), x.kind ≠ .semWait → s.tooLate x = false →
      exec (.transactionReply tag 0 data) s =
        .next (on ((s.freeTag tag.val).replyLands x (BitVec.ofNat 64 (natAt data 0 8)) data))) ∧
    (∀ (status : Byte) (data : List Byte), status ≠ 0 → x.kind ≠ .semWait → s.tooLate x = false →
      exec (.transactionReply tag status data) s =
        .next (on ((s.freeTag tag.val).txnFailed x (completionCode status)))) ∧
    (∀ (status : Byte) (data : List Byte), x.kind ≠ .semWait → s.tooLate x = true →
      exec (.transactionReply tag status data) s = .next (on ((s.freeTag tag.val).txnFailed x 0x0B))) ∧
    (∀ (data : List Byte), x.kind = .semWait →
      exec (.transactionReply tag 0x10 data) s = .next (on (s.setTag tag.val (some { x with busy := true })))) ∧
    (x.kind = .semWait → exec (.transactionTimeout tag) s = .next s) ∧
    (x.kind ≠ .semWait → x.kind ≠ .here → x.core ≠ none →
      let u := s.reach (x.since + BitVec.ofNat 64 (256000 * s.mvTimeout x))
      exec (.transactionTimeout tag) s = .next (on ((u.abandonTag tag.val).txnFailed x 0x0B))) ∧
    (x.busy = true → exec (.semWaitReissue tag) s = .next (s.mvReissue tag.val x))) ∧
  (∀ (s : State) (c : Nat) (n : CtxId) (status : Nat), 0 < status → status < 256 →
    let t := s.latchFail c n.val status
    (SMap.get (s.core c).mvfail n.val 0 = 0 → SMap.get (t.core c).mvfail n.val 0 = BitVec.ofNat 8 status) ∧
    (SMap.get (s.core c).mvfail n.val 0 ≠ 0 → t.core c = s.core c) ∧
    (t.reg (Page.mover c) Reg.MV_FAIL).toNat = status + 256 * n.val)

/-- Events of the control core (R50, R143, R207, R213): a held read runs from when its slot is neither unread by the export nor
importing; a pre-emption request is a change of the highest-ranked ready context; the end of a best-effort slice puts its
context last in turn; ATOM_WAIT detaches the atomics that still wait at a point; a reheat point whose decision instant has
come decides. STAT_CTRL (R55): LAYER_CLEAR clears the layer record, TILE_CLEAR every tile record; nothing else changes. The
reheat decision (R50): a layer is reheated exactly where its entry is enabled, its saturations exceed the threshold and the
class budget still covers the cost, which is then charged; a reheat that the budget refuses is counted as denied.
Where the spec leaves it open it says what the model chose: notes/assumptions/9.md and 26.md.
Completes: reheatDecision, mirroredReadHoldRelease, preemptionRequest, beSliceExpiry, atomWaitExpiry, statCtrlLayerClear,
statCtrlTileClear. -/
def Obligations.CoreEventsAct : Prop :=
  (∀ (s : State) (c : CoreId),
    exec (.preemptionRequest c) s = .next (s.resched c.val) ∧
    (∀ (m n : CtxId), (s.core c.val).ctx = some m → s.isBE m.val = true →
      let t := s.modCore c.val fun k => { k with ready := k.ready.filter (· != m.val) ++ [m.val] }
      t.bestReady c.val = some n.val → n ≠ m → s.rank n.val = s.rank m.val → (s.core c.val).blocked = none →
      (s.core c.val).preempt = false →
      exec (.beSliceExpiry c) s = .next (t.modCore c.val fun k => { k with preempt := true, preemptAt := s.now })) ∧
    (∀ live resume, (s.core c.val).blocked = some (.point live resume) →
      let u := s.reach ((s.core c.val).pointAt + BitVec.ofNat 64 (256000 * s.atomWait c.val))
      exec (.atomWaitExpiry c) s = .next ((u.modCore c.val fun k => { k with
        atomWaited := true,
        moverQ := k.moverQ.map fun e => if e.op = .matom ∧ e.started then { e with detached := true } else e }).tryPoint c.val)) ∧
    (∀ (region : Fin 16) (slot : Fin 2048) (e : QEntry), (s.core c.val).held = [(region.val, slot.val, e)] →
      s.pair.unread.contains (c.val, region.val, slot.val) = false →
      s.pair.importing.contains (c.val, region.val, slot.val) = false →
      exec (.mirroredReadHoldRelease c region slot) s =
        .next (((s.modCore c.val fun k => { k with held := [] }).endWait 4 c.val (waitEngine e.op) e.ctx).beginWait 3 c.val
          (waitEngine e.op) e.ctx (BitVec.ofNat 64 e.seq))) ∧
    (∀ (n : CtxId) (i : Nat) (rd : BitVec 5), (s.core c.val).ctx = some n → (s.core c.val).blocked = some (.reheat i rd) →
      s.reheatDue c.val i = true →
      let d := s.reheatDecide c.val i (s.isBE n.val)
      exec (.reheatDecision c) s =
        .next (d.2.modCore c.val fun k => { k.xSet rd.toNat (if d.1 then 1 else 0) with blocked := none }))) ∧
  (∀ (s : State) (c : CoreId),
    let p := Page.stat c.val
    (exec (.statCtrlLayerClear c) s =
      .next (((s.setReg p Reg.LAYER_ABSMAX 0).setReg p Reg.LAYER_SAT_COUNT 0).setReg p Reg.LAYER_NAN_COUNT 0)) ∧
    (∃ t, exec (.statCtrlTileClear c) s = .next t ∧ t = { s with regs := t.regs } ∧
      (∀ i, i < 64 → t.reg p (Reg.TILE_ABSMAX + 8 * i) = 0 ∧ t.reg p (Reg.TILE_COUNT + 8 * i) = 0) ∧
      ∀ page off, off < 4096 →
        (∀ i, i < 64 → ¬ (page = p ∧ (off = Reg.TILE_ABSMAX + 8 * i ∨ off = Reg.TILE_COUNT + 8 * i))) →
        t.reg page off = s.reg page off)) ∧
  (∀ (s : State) (c i : Nat) (be : Bool), i < 256 →
    let p := Page.stat c
    let th := (s.reg p (Reg.REHEAT_THRESH + 8 * i)).toNat
    let cost := s.fld p (Reg.REHEAT_COST + 8 * i) 0 28
    let ro := if be then Reg.REHEAT_REMAIN_BE else Reg.REHEAT_REMAIN_RT
    let d := s.reheatDecide c i be
    let wants := bitOf th 31 = true ∧ bitsOf th 0 16 < (s.reg p Reg.LAYER_SAT_COUNT).toNat
    (d.1 = true ↔ wants ∧ cost ≤ s.fld p ro 0 28) ∧
    (d.1 = true → d.2.fld p ro 0 28 = s.fld p ro 0 28 - cost) ∧
    (wants → s.fld p ro 0 28 < cost → (s.reg p Reg.REHEAT_DENIED_COUNT).toNat < 0xFFFFFFFF →
      d.2.reg p Reg.REHEAT_DENIED_COUNT = s.reg p Reg.REHEAT_DENIED_COUNT + 1 ∧ d.2.fld p ro 0 28 = s.fld p ro 0 28))

/-- QUENCH (R216): a context that is RUNNING, STOPPED or QUENCHING is carried to QUENCHED with GEN advanced by 1, and no
core's queue holds a word of it any more; a FREE or QUENCHED context is left alone (R217).
Where the spec leaves it open it says what the model chose: notes/assumptions/7.md.
Completes: quench. -/
def Obligations.QuenchRemovesContext : Prop :=
  ∀ (s : State) (n : CtxId) (cause : QuenchCause),
    ((s.ctx n.val).st = .free ∨ (s.ctx n.val).st = .quenched → exec (.quench n cause) s = .next s) ∧
    ((s.ctx n.val).st = .running ∨ (s.ctx n.val).st = .stopped ∨ (s.ctx n.val).st = .quenching →
      ∃ t, exec (.quench n cause) s = .next t ∧ (t.ctx n.val).st = .quenched ∧
        (t.ctx n.val).gen = (s.ctx n.val).gen + 1 ∧
        ∀ c q, c < 32 → ((t.core c).queue q).all (fun e => e.ctx != n) = true)

/-- TB_SET (R185, R218): with the pattern engine stopped, the write of TB_SET_LO sets the timebase to the held high word and the
written low word; otherwise it is ignored and recorded as WRITE_REFUSED (R474). TB_HOLD_LIMIT_EXPIRY (R184): LOCKED ends in
HOLDOVER, the exit is counted and the run of good updates starts anew. The servo (R184, R185): an update never moves the
timebase itself while the pattern engine is not stopped or STEP_EN is 0; where it enters LOCKED it has seen 8 updates within
20 ns in a row; where it was LOCKED it stays so unless the offset exceeds 40 ns, and an exit is counted.
Where the spec leaves it open it says what the model chose: notes/assumptions/34.md and 35.md.
Completes: tbSet, tbHoldLimitExpiry. -/
def Obligations.TimebaseIsSetAndDisciplined : Prop :=
  (∀ (s : State) (src : NodeId) (v : W32),
    (s.pattern.run = false → s.pattern.running = false →
      exec (.tbSet src v) s = .next { s with time := { s.time with tb := s.time.setHi ++ v } }) ∧
    (s.pattern.run = true ∨ s.pattern.running = true →
      exec (.tbSet src v) s = .next (s.writeRefused Page.timebase Reg.TB_SET_LO src.val) ∧
      (s.writeRefused Page.timebase Reg.TB_SET_LO src.val).time = s.time ∧
      (s.writeRefused Page.timebase Reg.TB_SET_LO src.val).flag Page.timebase Reg.PG_ERR_STATUS 28 = true ∧
      (s.writeRefused Page.timebase Reg.TB_SET_LO src.val).reg Page.timebase Reg.PG_ERR_ADDR_LO = 0x06C ∧
      (s.writeRefused Page.timebase Reg.TB_SET_LO src.val).reg Page.timebase Reg.PG_ERR_ADDR_HI = BitVec.ofNat 32 src.val)) ∧
  (∀ (s : State), s.lock = 2 → (s.reg Page.timebase Reg.TB_LOCK_LOSS_COUNT).toNat < 0xFFFFFFFF →
    let u := s.reach (s.fab.syncAt + BitVec.ofNat 64 (256000000 * max 1 (s.fld Page.timebase Reg.TB_HOLD_LIMIT 0 16)))
    ∃ t, exec .tbHoldLimitExpiry s = .next t ∧ t.lock = 3 ∧ t.time = { u.time with good := 0 } ∧
      t.reg Page.timebase Reg.TB_LOCK_LOSS_COUNT = s.reg Page.timebase Reg.TB_LOCK_LOSS_COUNT + 1 ∧
      t = { s with regs := t.regs, time := t.time }) ∧
  (∀ (s : State) (off : Int),
    let t := s.servoUpdate off
    (s.patternStopped = false ∨ s.flag Page.timebase Reg.TB_CTRL 7 = false → t.now = s.now) ∧
    (s.lock ≠ 2 → t.lock = 2 → 7 ≤ s.time.good ∧ off.natAbs ≤ 20 * 256) ∧
    (s.lock = 2 → off.natAbs ≤ 40 * 256 → t.lock = 2) ∧
    (s.lock = 2 → 40 * 256 < off.natAbs → t.lock = 1 ∧
      ((s.reg Page.timebase Reg.TB_LOCK_LOSS_COUNT).toNat < 0xFFFFFFFF →
        t.reg Page.timebase Reg.TB_LOCK_LOSS_COUNT = s.reg Page.timebase Reg.TB_LOCK_LOSS_COUNT + 1)))

/-- The angle timebases (R187–R191): a tooth of the wrong polarity or shorter than the filter changes nothing; one that counts
stamps the timebase and, once position 0 is known, advances the angle by one position of N; an index edge after the last tooth
marks the next tooth as position 0; ANG_TIMEOUT after the last edge the angle is held at rate 0 as STOPPED. A commit of host samples (R190) takes the three sample registers
as the waiting sample, in place of any other; a sample not later than the one applied last is counted as stale instead. At its
time the sample takes effect, with the angle shown until then held.
Where the spec leaves it open it says what the model chose: notes/assumptions/37.md.
Completes: angTooth, angIndex, angTimeout, angHsCommit, angSampleApply. -/
def Obligations.AngleFollowsTeethAndSamples : Prop :=
  (∀ (s : State) (a : Fin 2) (falling : Bool) (widthNs : Nat),
    let x := s.angle a.val
    (falling ≠ bitOf (s.angCtrl a.val) 2 ∨ widthNs < s.angFilter a.val →
      exec (.angTooth a falling widthNs) s = .next s) ∧
    (s.angMode a.val = 1 → falling = bitOf (s.angCtrl a.val) 2 → s.angFilter a.val ≤ widthNs → x.st = 2 → x.seenZero = true →
      x.indexSeen = false → 0 < x.teeth →
      exec (.angTooth a falling widthNs) s = .next ((s.setAngle (a.val + 2) x).setAngle a.val { x with
        resuming := false, tTooth := s.now, period := (s.now - x.tTooth).toNat, span := 1,
        theta := x.theta - BitVec.ofNat 32 (toothAngle (s.angN a.val) x.pos)
          + BitVec.ofNat 32 (toothAngle (s.angN a.val) (x.pos + 1)),
        pos := x.pos + 1, counted := x.counted + 1, teeth := x.teeth + 1 })) ∧
    (s.angMode a.val = 1 → s.angFilter a.val ≤ widthNs → x.teeth = 0 ∨ x.tTooth ≠ s.now →
      exec (.angIndex a widthNs) s = .next (s.setAngle a.val { x with indexSeen := true })) ∧
    (x.st = 1 ∨ x.st = 2 →
      let u := s.reach (s.angLast a.val +
        BitVec.ofNat 64 (256000000 * max 1 (s.fld Page.angle (Reg.ANG_TIMEOUT + 0x40 * a.val) 0 16)))
      let t := (u.setAngle a.val { x with st := 3, held := u.angleNow a.val, resuming := false, period := 0 }).irq Page.angle a.val
      exec (.angTimeout a) s = .next t ∧ (t.angle a.val).st = 3 ∧ t.angleRate a.val = 0 ∧
      t.angleNow a.val = u.angleNow a.val ∧ t.flag Page.angle Reg.PG_IRQ_STATUS a.val = true)) ∧
  (∀ (s : State) (src : NodeId) (a : Fin 2), s.angMode a.val = 3 →
    let x := s.angle a.val
    let o := 0x40 * a.val
    let t := s.reg64 Page.angle (Reg.ANG_HS_T_LO + o) (Reg.ANG_HS_T_HI + o)
    let ang := s.reg Page.angle (Reg.ANG_HS_ANGLE + o)
    let rate := s.reg Page.angle (Reg.ANG_HS_RATE + o)
    (x.applied = none → exec (.angHsCommit src a) s = .next (s.setAngle a.val { x with waiting := some (t, ang, rate) })) ∧
    (∀ t0 a0 r0, x.applied = some (t0, a0, r0) → t0.toNat < t.toNat →
      exec (.angHsCommit src a) s = .next (s.setAngle a.val { x with waiting := some (t, ang, rate) })) ∧
    (∀ t0 a0 r0, x.applied = some (t0, a0, r0) → t.toNat ≤ t0.toNat →
      exec (.angHsCommit src a) s = .next (s.count Page.angle (Reg.ANG_STALE_COUNT + o))) ∧
    (∀ t1 a1 r1, x.waiting = some (t1, a1, r1) →
      let s1 := s.reach t1
      exec (.angSampleApply a) s = .next (s1.setAngle a.val
        { x with held := s1.angleNow a.val, st := 2, waiting := none, applied := some (t1, a1, r1) })))

/-- The pattern table is written through the selected entry of the inactive bank (R200): words 0 to 2 are held, word 3 stores all
four; an entry of the active bank, or of a bank whose switch is pending, is refused; a new selection clears the held words. A
switch request (R201): a bank whose entries pass the checks becomes pending; a bank that fails leaves the failure's code and
entry in PT_STATUS and nothing pending; a second request is ignored and recorded.
Completes: switchReq, ptEntryWrite, ptEntrySelWrite. -/
def Obligations.PatternTableIsCheckedWhole : Prop :=
  (∀ (s : State) (src : NodeId) (v : W32),
    let e := s.fld Page.pattern Reg.PT_ENTRY_SEL 0 9
    let b := s.flag Page.pattern Reg.PT_ENTRY_SEL 9
    let held (i : Nat) : W32 := SMap.get s.pattern.held i 0
    (b ≠ s.pattern.bank → s.pattern.pendingSwitch = false →
      (∀ i : Fin 4, i.val < 3 → exec (.ptEntryWrite src i v) s =
        .next { s with pattern := { s.pattern with held := SMap.set s.pattern.held i.val v 0 } }) ∧
      ∃ t, exec (.ptEntryWrite src 3 v) s = .next t ∧ t = { s with pattern := t.pattern } ∧
        t.ptEntry b e = [(held 0).toNat, (held 1).toNat, (held 2).toNat, v.toNat] ∧ t.pattern.held = [] ∧
        (∀ b' e', e' < 512 → (b', e') ≠ (b, e) → t.ptEntry b' e' = s.ptEntry b' e')) ∧
    (∀ i : Fin 4, b = s.pattern.bank ∨ s.pattern.pendingSwitch = true →
      exec (.ptEntryWrite src i v) s = .next (s.writeRefused Page.pattern (Reg.PT_ENTRY + 4 * i.val) src.val)) ∧
    (exec (.ptEntrySelWrite src v) s =
      .next { s.setFld Page.pattern Reg.PT_ENTRY_SEL 0 10 v.toNat with pattern := { s.pattern with held := [] } })) ∧
  (∀ (s : State) (src : NodeId),
    (s.pattern.pendingSwitch = false → s.bankCheck (!s.pattern.bank) 0 0 0 512 = none →
      exec (.switchReq src) s = .next { s with pattern := { s.pattern with pendingSwitch := true, switchT := s.now } }) ∧
    (∀ code e, code < 16 → e < 512 → s.pattern.pendingSwitch = false →
      s.bankCheck (!s.pattern.bank) 0 0 0 512 = some (code, e) →
      ∃ t, exec (.switchReq src) s = .next t ∧ t = { s with regs := t.regs } ∧
        t.fld Page.pattern Reg.PT_STATUS 3 4 = code ∧ t.fld Page.pattern Reg.PT_STATUS 7 9 = e) ∧
    (s.pattern.pendingSwitch = true → exec (.switchReq src) s = .next (s.writeRefused Page.pattern Reg.PT_CTRL src.val)))

/-- PT_CTRL.RUN (R194): RUN = 1 fixes the start at the first bar at least 10 µs ahead; RUN = 0 asks for a stop at the next
boundary. A bar boundary (R19, R193, R194, R201): the ending bar's steps come before the new bar's, the bar number advances by
one, and a switch requested before T takes effect with the new bar. A start ends no bar; a stop starts none.
Where the spec leaves it open it says what the model chose: notes/assumptions/36.md and 75.md.
Completes: barBoundary, patternStart, patternStop, ptCtrlRun. -/
def Obligations.BarsFollowInOrder : Prop :=
  (∀ (s : State) (src : NodeId),
    (s.pattern.run = false → s.pattern.running = false →
      exec (.ptCtrlRun src true) s = .next { s with pattern := { s.pattern with run := true, startBar := s.firstBar } }) ∧
    (s.pattern.run = false → s.pattern.running = true →
      exec (.ptCtrlRun src true) s = .next { s with pattern := { s.pattern with run := true } }) ∧
    (s.pattern.run = true →
      exec (.ptCtrlRun src false) s = .next { s with pattern := { s.pattern with run := false, stopT := s.now } }) ∧
    (0 < s.barUnits → s.now.toNat + 2560000 ≤
      (s.reg64 Page.pattern Reg.PT_EPOCH_LO Reg.PT_EPOCH_HI).toNat * 256 + s.firstBar * s.barUnits)) ∧
  (∀ (s : State),
    (s.pattern.running = true → s.lastBar = false →
      let b := s.pattern.bar + 1
      let T := s.barStart b
      let u := ((s.reach T).endBar s.pattern.bar T).boundaryWork T
      exec .barBoundary s = .next (u.startBar b) ∧ (u.startBar b).pattern.bar = b ∧ (u.startBar b).pattern.acted = 0 ∧
      (u.pattern.pendingSwitch = true → u.pattern.switchT.toNat < (u.barStart b).toNat →
        (u.startBar b).pattern.pendingSwitch = false ∧ (u.startBar b).pattern.bank = !u.pattern.bank) ∧
      (u.pattern.pendingSwitch = false ∨ (u.barStart b).toNat ≤ u.pattern.switchT.toNat →
        (u.startBar b).pattern.pendingSwitch = u.pattern.pendingSwitch ∧ (u.startBar b).pattern.bank = u.pattern.bank)) ∧
    (s.pattern.run = true → s.pattern.running = false →
      let T := s.barStart s.pattern.startBar
      let s1 := { s.reach T with pattern := { s.pattern with running := true } }
      exec .patternStart s = .next ((s1.boundaryWork T).startBar s.pattern.startBar) ∧
      ((s1.boundaryWork T).startBar s.pattern.startBar).pattern.bar = s.pattern.startBar) ∧
    (s.pattern.running = true → s.lastBar = true →
      let T := s.barStart (s.pattern.bar + 1)
      let u := ((s.reach T).endBar s.pattern.bar T).boundaryWork T
      exec .patternStop s = .next { u with pattern := { u.pattern with running := false } }))

/-- The beats of the active bank (R197–R202), each at T_n + OFFSET: STAGE_START latches the start on a core of the context's
partition that runs the stage, or counts an overrun where a latch is still there; CUTOFF admits the context's chunks; STAT
latches its beat; SWAP arms outputs; MIRROR enables the export of the bar's end.
Where the spec leaves it open it says what the model chose: notes/assumptions/4.md and 9.md.
Completes: stageStartBeat, cutoffBeat, statBeat, swapBeat, mirrorBeat. -/
def Obligations.BeatsAct : Prop :=
  ∀ (s : State) (e : Fin 512) (w : List Nat),
    let n := bitsOf (w.getD 1 0) 0 6
    let slot := bitsOf (w.getD 1 0) 6 2
    (∀ c, s.beat e.val 1 = some w →
      let t := s.beatAct e.val 1 n w
      (t.ctx n).st = .running → t.isBE n = false → coresOf (w.getD 2 0) = [c] → t.inPart n c = true →
      (t.stagesOn n c).any (fun x => x.slot == slot) = true →
      (SMap.get (t.core c).stageLatch (4 * n + slot) none = none →
        exec (.stageStartBeat e) s = .next ((t.modCore c fun k =>
          { k with
            stageLatch := SMap.set k.stageLatch (4 * n + slot) (some { t := s.beatTime w, bar := t.pattern.bar }) none }).resched
          c)) ∧
      (SMap.get (t.core c).stageLatch (4 * n + slot) none ≠ none →
        exec (.stageStartBeat e) s = .next (t.count Page.pattern Reg.PT_BEAT_OVERRUN_COUNT))) ∧
    (∀ ecc, s.beat e.val 2 = some w → ((s.beatAct e.val 2 n w).ctx n).st = .running →
      exec (.cutoffBeat { entry := e, ecc := ecc }) s = .next ((s.beatAct e.val 2 n w).cutoffOf n (s.beatTime w) ecc)) ∧
    (∀ c, s.beat e.val 3 = some w →
      let t := s.beatAct e.val 3 n w
      let i := bitsOf (w.getD 1 0) 8 8
      (t.ctx n).st = .running → coresOf (w.getD 2 0) = [c] → t.inPart n c = true →
      (t.core c).beatLatch.contains i = false →
      exec (.statBeat e) s = .next (t.modCore c fun k => { k with beatLatch := k.beatLatch ++ [i] })) ∧
    (s.beat e.val 4 = some w → s.pattern.dropAll = false →
      let t := s.beatAct e.val 4 0 w
      exec (.swapBeat e) s = .next { t with dp := { t.dp with armed := t.dp.armed ||| BitVec.ofNat 24 (w.getD 2 0) } }) ∧
    (s.beat e.val 5 = some w → s.pattern.dropAll = false →
      let t := s.beatAct e.val 5 0 w
      exec (.mirrorBeat e) s = .next { t with pattern := { t.pattern with mirror := some (bitOf (w.getD 1 0) 16) } }) ∧
    (s.now.toNat ≤ (s.beatTime w).toNat → (s.beatAct e.val 4 0 w).now = s.beatTime w)

namespace Sys2Proof.Claims

open Machine

/-- An audio port that is OFF: no clocks, no filling, its balls high-impedance (R245, R246). -/
def portOff (x : Port) : Port :=
  { x with
    st := 0, pend := false, clocks := false, clkPresent := false, filling := false, returning := false, lastBlock := false,
    driving := false, openSlots := [], queue := [], out := [] }

end Sys2Proof.Claims

/-- The start of an audio port (R226, R244): an enable of an OFF port that meets the limits starts it, one that does not leaves it
OFF with ENABLE clear and ENABLE_REFUSED recorded; an enable while it stops is remembered; the clocks of a master start when its
source is locked, and its balls carry zeros; after the pre-roll and AP_START_T the port goes ON with its counts at zero and
STATE_CHANGE raised. The stop (R245, R246): a disable takes an ON port to STOPPING, which lands its current input block, and a
STARTING port as well; I²S and PDM outputs send zeros from then on; the stop completes after the post-roll with the balls
high-impedance and STATE_CHANGE; BLOCK_RESET stops it at once.
Where the spec leaves it open it says what the model chose: notes/assumptions/38.md and 125.md.
Completes: portEnable, portClockStart, portOn, portDisable, portStopDone, portBlockReset. -/
def Obligations.PortsStartAndStop : Prop :=
  (∀ (s : State) (src : NodeId) (p : AudioPort),
    let pg := Page.audio p.val
    let x := s.port p.val
    (s.pageOn pg = true → x.st = 0 → s.portEnableOk p.val = true →
      let t := (s.setFlag pg Reg.PG_CTRL 0 true).portStart p.val
      exec (.portEnable src p) s = .next t ∧ (t.port p.val).st = 1 ∧ (t.port p.val).taken = 0 ∧
        (t.port p.val).clkPresent = false ∧ (t.port p.val).driving = false ∧ (t.port p.val).startT = none ∧
        ∀ q : AudioPort, q ≠ p → t.port q.val = s.port q.val) ∧
    (s.pageOn pg = true → x.st = 0 → s.portEnableOk p.val = false →
      ∃ t, exec (.portEnable src p) s = .next t ∧ t = { s with regs := t.regs } ∧ t.flag pg Reg.PG_CTRL 0 = false ∧
        t.flag pg Reg.PG_ERR_STATUS 27 = true ∧ t.flag pg Reg.PG_ERR_STATUS 1 = true) ∧
    (s.pageOn pg = true → x.st = 3 →
      exec (.portEnable src p) s = .next ((s.setFlag pg Reg.PG_CTRL 0 true).setPort p.val { x with pend := true })) ∧
    (x.st = 1 → s.portMaster p.val = true → x.clocks = false → s.sourceLocked p.val = true →
      let t := s.clocksRun p.val true
      exec (.portClockStart p) s = .next t ∧ (t.port p.val).st = 1 ∧ (t.port p.val).clocks = true ∧
        (t.port p.val).clkPresent = true ∧ (t.port p.val).clockT = s.now ∧
        ∀ q : AudioPort, q ≠ p → t.port q.val = s.port q.val) ∧
    (x.st = 1 → x.clkPresent = true →
      let T : W64 := BitVec.ofNat 64 (max (s.apStart p.val) (s.startReady p.val))
      ∃ t, exec (.portOn p) s = .next t ∧ (t.port p.val).st = 2 ∧ (t.port p.val).frames = 0 ∧ (t.port p.val).taken = 0 ∧
        t.now = (s.reach T).now ∧ (t.port p.val).startT = some t.now ∧ t.flag pg Reg.PG_IRQ_STATUS 0 = true ∧
        ∀ q : AudioPort, q ≠ p → t.port q.val = s.port q.val)) ∧
  (∀ (s : State) (src : NodeId) (p : AudioPort),
    let pg := Page.audio p.val
    let x := s.port p.val
    let cleared := (s.setFlag pg Reg.PG_STATE 2 false).setFlag pg Reg.PG_CTRL 0 false
    let ringValid := match inRing p.val with | some r => (s.ringShape r).valid | none => false
    let stop (last : Bool) := cleared.setPort p.val { x with st := 3, lastBlock := last, stopT := s.now }
    (x.st = 2 → exec (.portDisable src p) s = .next
      (if s.portTdm p.val then stop (s.portRx p.val && ringValid) else (stop (s.portRx p.val && ringValid)).sendZeros p.val)) ∧
    (x.st = 1 → exec (.portDisable src p) s = .next ((stop false).sendZeros p.val)) ∧
    (x.st = 3 → x.lastBlock = false → x.pend = false → x.openSlots = [] →
      ∃ t, exec (.portStopDone p) s = .next t ∧ t.port p.val = portOff x ∧ t.flag pg Reg.PG_IRQ_STATUS 0 = true ∧
        ∀ q : AudioPort, q ≠ p → t.port q.val = s.port q.val) ∧
    (s.pageOn pg = true →
      ∃ t, exec (.portBlockReset src p) s = .next t ∧ t.port p.val = portOff x ∧ t.flag pg Reg.PG_CTRL 0 = false ∧
        ∀ q : AudioPort, q ≠ p → t.port q.val = s.port q.val))

/-- Settings taken over at a frame boundary (R228, R240): STANDBY drives or releases the output balls of a running transmit port
outside safe state, and a written AP_MAP slot is applied. Clock loss and return of a slave port (R238, R244): a running port fills
or discards and raises CLK_LOSS; with its edges back a running port expects real frames from the next block, and a starting one
has its clocks. A rate window's end (R237): AP_RATE_MEAS takes (edges − 1) / span in 1/4096 Hz, 0 for fewer than two
edges, and RATE_CHANGE is raised where the port goes in or out of tolerance. Single-condition events (R229–R232, R235, R243,
R248): an APLL with an output of 80 to 125 MHz locks, or loses lock, is counted and holds the frequency that it had; MCLK_IN returns
with its measured rate; a converter bank locks after 20 ms or leaves its range and keeps its ratio; a gated slot opens at its
timeout; a PDM line sticks; a modulator is cleared and sends the zero-signal pattern.
Where the spec leaves it open it says what the model chose: notes/assumptions/38.md, 73.md, 74.md and 98.md.
Completes: clkLoss, clkReturn, rateWindowEnd, gateTimeout, lineStuck, modulatorReset, apMapApply, standbyApply, apllLock,
apllLockLost, asrcLock, asrcOutOfRange, mclkInReturn. -/
def Obligations.AudioEventsAct : Prop :=
  (∀ (s : State) (p : AudioPort) (slot : Fin 16),
    let pg := Page.audio p.val
    let x := s.port p.val
    let sb := s.flag pg Reg.AP_CTRL 0
    (exec (.standbyApply p) s = .next (s.setPort p.val { x with
      standby := sb,
      driving := !sb && s.portTx p.val && (x.st != 0 && (x.clocks || x.clkPresent)) && !s.safety.safe })) ∧
    (x.st ≠ 0 → exec (.apMapApply p slot) s = .next (s.setPort p.val { x with
      map := SMap.set x.map slot.val (s.reg pg (Reg.AP_MAP + 4 * slot.val)) 0 }))) ∧
  (∀ (s : State) (p : AudioPort),
    let pg := Page.audio p.val
    let x := s.port p.val
    s.portMaster p.val = false →
    (x.st = 2 → x.clkPresent = true → ∃ t, exec (.clkLoss p) s = .next t ∧
      t.port p.val = { x with clkPresent := false, filling := s.portRx p.val, returning := false, queue := [] } ∧
      t.flag pg Reg.PG_IRQ_STATUS 2 = true ∧ ∀ q : AudioPort, q ≠ p → t.port q.val = s.port q.val) ∧
    (x.st = 2 → x.clkPresent = false → s.fld Page.timebase Reg.TB_CTRL 0 2 ≠ 2 → exec (.clkReturn p) s =
      .next ((s.setPort p.val { x with
        clkPresent := true, contT := s.now, returning := s.portRx p.val, discontTx := true }).irq pg 3)) ∧
    (x.st = 1 → x.clkPresent = false → exec (.clkReturn p) s = .next (s.clocksRun p.val false))) ∧
  (∀ (s : State) (p : AudioPort) (edges : Nat) (first last : W64),
    let pg := Page.audio p.val
    let span := (last - first).toNat
    let rate := if edges < 2 then 0 else min ((edges - 1) * 4096 * 256000000000 / span) 0xFFFFFFFF
    ∃ t, exec (.rateWindowEnd p edges first last) s = .next t ∧
      t.reg pg Reg.AP_RATE_MEAS = BitVec.ofNat 32 rate ∧ (t.port p.val).rate = rate ∧
      ((t.port p.val).rateOk ≠ (s.port p.val).rateOk → t.flag pg Reg.PG_IRQ_STATUS 1 = true) ∧
      ∀ q : AudioPort, q ≠ p → t.port q.val = s.port q.val) ∧
  (∀ (s : State),
    (∀ a : Fin 2, (s.fld (Page.apll a.val) Reg.APLL_CTRL 0 2 = 1 → s.audio.mclkOk = true) →
      80000000 * (s.apllHz a.val).2 ≤ (s.apllHz a.val).1 → (s.apllHz a.val).1 ≤ 125000000 * (s.apllHz a.val).2 →
      exec (.apllLock a) s = .next (s.setApll a.val { s.apll a.val with locked := true, holdover := false })) ∧
    (∀ a : Fin 2, (s.apll a.val).locked = true →
      let v := BitVec.ofInt 32 (s.steerNow a.val)
      ∃ t, exec (.apllLockLost a) s = .next t ∧ t.apll a.val = { s.apll a.val with
          locked := false, holdover := true, phaseLocked := false, edges := 0, target := v, steer0 := v, steerT := s.now } ∧
        t.flag (Page.apll a.val) Reg.PG_IRQ_STATUS 0 = true ∧ t = { s with regs := t.regs, audio := t.audio } ∧
        ((s.reg (Page.apll a.val) Reg.APLL_LOCK_LOSS_COUNT).toNat < 0xFFFFFFFF →
          t.reg (Page.apll a.val) Reg.APLL_LOCK_LOSS_COUNT = s.reg (Page.apll a.val) Reg.APLL_LOCK_LOSS_COUNT + 1)) ∧
    (∀ rate, exec (.mclkInReturn rate) s = .next { s with audio := { s.audio with mclkOk := true, mclkRate := rate } }) ∧
    (∀ b : Fin 3, s.bankReady b.val = true →
      ∃ t, exec (.asrcLock b) s = .next t ∧ SMap.get t.audio.asrc b.val (false, false) = (true, false) ∧
        t.now = (s.reach ((s.port (s.bankPort b.val)).contT + BitVec.ofNat 64 5120000000)).now ∧
        t = { s with regs := t.regs, audio := t.audio, time := t.time }) ∧
    (∀ b : Fin 3, s.flag Page.asrc (Reg.ASRC_BANK + 16 * b.val) 5 = true →
      ∃ t, exec (.asrcOutOfRange b) s = .next t ∧ SMap.get t.audio.asrc b.val (false, false) = (false, true) ∧
        t.regs = s.regs ∧ t = { s with audio := t.audio }) ∧
    (∀ (p : AudioPort) (k : Fin 16), s.slotGated p.val k.val = true → s.portTx p.val = true → k.val < s.txSlots p.val →
      (s.port p.val).st = 2 → (s.port p.val).openSlots.contains k.val = false →
      let u := s.reach ((s.port p.val).startT.getD s.now +
        BitVec.ofNat 64 (gridAt (s.rateNom p.val) (max (s.fld (Page.audio p.val) Reg.AP_GATE 0 16) 1)))
      exec (.gateTimeout p k) s =
        .next (((u.setPort p.val { s.port p.val with openSlots := (s.port p.val).openSlots ++ [k.val] }).count
          (Page.audio p.val) Reg.AP_GATE_TO_COUNT).irq (Page.audio p.val) 6)) ∧
    (∀ (g : Fin 6) (line : Fin 4), (s.port (12 + g.val)).st ≠ 0 → exec (.lineStuck g line) s =
      .next ((s.setPort (12 + g.val) { s.port (12 + g.val) with lineStuck := true }).irq (Page.audio (12 + g.val)) 8)) ∧
    (∀ (h : Fin 2) (ch : Fin 8), (s.port (18 + h.val)).st ≠ 0 → exec (.modulatorReset h ch) s =
      .next ((s.setPort (18 + h.val) { s.port (18 + h.val) with
        mods := SMap.set (s.port (18 + h.val)).mods ch.val 0 0,
        out := SMap.set (s.port (18 + h.val)).out ch.val (some (s.pdmBits (18 + h.val) zeroPattern)) none }).count
          (Page.audio (18 + h.val)) Reg.AP_MOD_RESET_COUNT)))

/-- BLOCK_LAND (R223): a block of the ring's length that a running input port received advances its frames by the block and its
block sequence by one; the discontinuity mark goes with the first real block. SLOT_TAKE (R238, R239): a slot with its ready
mark is played and the mark consumed; one without it plays zeros, and is counted as an underrun where a commit was expected; a
slave in clock loss discards it. Each time the port goes on by one slot. SLOT_READY_MARK (R239): a slot with commits, not yet
passed and not yet marked, gets its mark; the largest time from the boundary is kept. RING_SHAPE (R222): a descriptor of a ring
whose port is OFF takes its fields, and VALID only where the checks pass; otherwise the write is recorded as refused.
Where the spec leaves it open it says what the model chose: notes/assumptions/19.md, 23.md, 39.md and 126.md.
Completes: blockLand, slotTake, slotReadyMark, ringShapeValid. -/
def Obligations.RingsCarryFrames : Prop :=
  (∀ (s : State) (p : AudioPort) (stamp : W64) (frames : List (List (BitVec 128))) (r : Nat), inRing p.val = some r →
    let x := s.port p.val
    let d := s.ringShape r
    x.st = 2 → s.portRx p.val = true → d.valid = true → frames.length = d.block → x.filling = false → s.bankOf r = none →
    ∃ t, exec (.blockLand p stamp frames) s = .next t ∧
      (t.port p.val).frames = x.frames + d.block ∧ (t.port p.val).blockSeq = x.blockSeq + 1 ∧
      (t.port p.val).discont = false ∧ (t.port p.val).st = 2) ∧
  (∀ (s : State) (p : AudioPort) (r : Nat) (ecc : List Ecc), outRing p.val = some r →
    let x := s.port p.val
    let d := s.ringShape r
    let j := x.taken / d.slot
    x.st = 2 → s.portTx p.val = true → d.valid = true → 0 < d.slot →
    ∃ t, exec (.slotTake p ecc) s = .next t ∧ (t.port p.val).taken = x.taken + d.slot ∧
      (t.ring r).ready.contains j = false ∧
      (x.clkPresent = true → (t.port p.val).unmarked = !(s.ring r).ready.contains j)) ∧
  (∀ (s : State) (p : AudioPort) (slot r : Nat), outRing p.val = some r →
    let g := s.ring r
    (g.commitCrc.any fun e => e.1 / 16 == slot) = true → s.slotPassed r slot = false → g.ready.contains slot = false →
    ∃ t, exec (.slotReadyMark p slot) s = .next t ∧ t.ring r = { g with ready := g.ready ++ [slot] } ∧
      (∀ q, q ≠ r → t.ring q = s.ring q) ∧
      s.fld Page.streams Reg.SM_COMMIT_TIME_MAX 0 20 ≤ t.fld Page.streams Reg.SM_COMMIT_TIME_MAX 0 20 ∧
      t = { s with regs := t.regs, audio := t.audio }) ∧
  (∀ (s : State) (src : NodeId) (r : Fin 32) (v : W32),
    let off := Reg.RING_SHAPE + 16 * r.val
    let held := s.setReg Page.audioBuf off (BitVec.ofNat 32 (v.toNat % 8192))
    (s.ringWritable r.val = false →
      exec (.ringShapeValid src r v) s = .next (s.pgErrAt Page.audioBuf off src.val [28, 0])) ∧
    (s.ringWritable r.val = true → v.getLsbD 13 = false → exec (.ringShapeValid src r v) s = .next held) ∧
    (s.ringWritable r.val = true → v.getLsbD 13 = true → held.ringCheck r.val = true →
      exec (.ringShapeValid src r v) s = .next (held.setFlag Page.audioBuf off 13 true)) ∧
    (s.ringWritable r.val = true → v.getLsbD 13 = true → held.ringCheck r.val = false →
      exec (.ringShapeValid src r v) s = .next (held.pgErrAt Page.audioBuf off src.val [28, 2])))

/-- The direct filter path starts and stops (R263, R444): an enable from OFF records the frame cost, starts where the checks pass,
with cleared banks and histories where DP_CTRL asks for them, and is refused otherwise; an enable while it stops is remembered;
a disable outputs zero and stops it two frames later; BLOCK_RESET stops it at once and keeps its banks. A path frame (R252, R253,
R256, R261, R264) of a new edge, with the frame port's clocks there, begins DP_PHASE after the edge: of a path that is ON it takes
errors met in bank words first, then the swaps that are due, then filters and adapts one frame on; a STOPPING path outputs +0.
Where the spec leaves it open it says what the model chose: notes/assumptions/43.md, 126.md and 127.md.
Completes: directPathEnable, directPathDisable, directPathBlockReset, pathFrame. -/
def Obligations.DirectPathRuns : Prop :=
  (∀ (s : State) (src : NodeId), s.pageOn Page.dpMain = true →
    let pg := Page.dpMain
    let costed := s.setFld pg Reg.DP_COST 0 24 s.dpCost
    let begun : DirectPath := { s.dp with st := 1, pend := false, edge := none, recent := [], pipe := [] }
    (s.dp.st = 0 → costed.dpEnableOk = true → s.flag pg Reg.DP_CTRL 13 = false →
      exec (.directPathEnable src) s = .next { costed.setFlag pg Reg.PG_CTRL 0 true with dp := begun }) ∧
    (s.dp.st = 0 → costed.dpEnableOk = true → s.flag pg Reg.DP_CTRL 13 = true →
      exec (.directPathEnable src) s = .next { costed.setFlag pg Reg.PG_CTRL 0 true with dp := { begun with
        coef0 := [], coef1 := [], sec0 := [], sec1 := [], mu0 := [], mu1 := [], lam0 := [], lam1 := [], bankFree := none,
        hist := [], fhist := [] } }) ∧
    (s.dp.st = 0 → costed.dpEnableOk = false →
      exec (.directPathEnable src) s = .next ((costed.setFlag pg Reg.PG_CTRL 0 false).enableRefused pg src.val)) ∧
    (s.dp.st = 3 → exec (.directPathEnable src) s =
      .next { s.setFlag pg Reg.PG_CTRL 0 true with dp := { s.dp with pend := true } }) ∧
    (s.dp.st = 2 → exec (.directPathDisable src) s =
      .next { (s.setFlag pg Reg.PG_STATE 2 false).setFlag pg Reg.PG_CTRL 0 false with dp := { s.dp with st := 3, stopIn := 2 } }) ∧
    (exec (.directPathBlockReset src) s =
      .next { s.setFlag pg Reg.PG_CTRL 0 false with dp := { s.dp with st := 0, pend := false, pipe := [], stopIn := 0 } })) ∧
  (∀ (s : State) (edge : W64) (inputs : List PortFrame) (ecc : List DpFault),
    (∀ e, s.dp.edge = some e → e.toNat < edge.toNat) → (s.port s.framePort).clkPresent = true →
    let u := s.dpReach edge inputs
    let ek := edge + BitVec.ofNat 64 (256 * s.fld Page.dpMain Reg.DP_PHASE 0 16)
    (s.dp.st = 2 → exec (.pathFrame edge inputs ecc) s = .next (u.dpRun edge ek ecc)) ∧
    (s.dp.st = 1 → (s.port s.framePort).st = 2 →
      exec (.pathFrame edge inputs ecc) s =
        .next ((State.lockPending { u with dp := { u.dp with st := 2, firstFrame := true } } Page.dpMain).dpRun edge ek ecc)) ∧
    (s.dp.st = 3 → exec (.pathFrame edge inputs ecc) s = .next (u.dpStopFrame edge)) ∧
    (0 < s.dp.stopIn → (s.dpStopFrame edge).dp =
      { s.dp with stopIn := s.dp.stopIn - 1, pipe := ((s.dpPlace edge, []) :: s.dp.pipe).take 4 }) ∧
    ((s.dpFrame edge ek).dp.frame = s.dp.frame + 1))

/-- Load lists and resync (R258–R261): DP_LOAD_GO queues the described list, or is refused and counted with 4 pending; a list whose
bytes are there and that runs to its end marks its outputs ready and leaves the queue; one that stops leaves its cause and record in
DP_LOAD_ERR and marks nothing; one that targets an output under resync waits; a finished resync makes the output's shadow words
equal to its active ones.
Where the spec leaves it open it says what the model chose: notes/assumptions/43.md.
Completes: resyncDone, dpLoadGo, loadListDone. -/
def Obligations.LoadListsRun : Prop :=
  ∀ (s : State) (src : NodeId),
    let w (k : Nat) : W32 := s.reg Page.dpMain (Reg.DP_LOAD_DESC + 4 * k)
    let x : LoadList := { serial := s.dp.nextList, addr := w 1 ++ w 0, bytes := (w 2).toNat, mask := (w 3).setWidth 24,
                          asked := false, data := [], left := 0, bad := none }
    let queued : State := { s with dp := { s.dp with loads := s.dp.loads ++ [x], nextList := s.dp.nextList + 1 } }
    (s.dp.loads.length < 4 → exec (.dpLoadGo src) s = .next queued.askList) ∧
    (s.dp.loads = [] → nodeOf x.addr = s.node → queued.askList = queued) ∧
    (4 ≤ s.dp.loads.length → exec (.dpLoadGo src) s = .next (s.count Page.dpMain Reg.DP_LOAD_REFUSED_COUNT)) ∧
    (∀ (x : LoadList) (rest : List LoadList), s.dp.loads = x :: rest → x.left = 0 →
      let got := s.loadBytes x
      let run := got.2.loadList got.1 got.1.length x.bytes 0 0 (x.bytes / 16 + 1)
      (∀ t, (run.1.any fun r => s.dp.resync.getLsbD r.owner) = true → exec (.loadListDone t) s = .next s) ∧
      (∀ t, (run.1.any fun r => s.dp.resync.getLsbD r.owner) = false →
        let u := (got.2.reach t).loadEnd x run.1 run.2
        exec (.loadListDone t) s = .next (State.askList { u with dp := { u.dp with loads := rest } }) ∧
        (run.2 = none → ∀ o, x.mask.getLsbD o = true → u.dp.ready.getLsbD o = true) ∧
        (∀ c n, run.2 = some (c, n) → u.fld Page.dpMain Reg.DP_LOAD_ERR 0 4 = c % 16 ∧
          u.fld Page.dpMain Reg.DP_LOAD_ERR 4 16 = n % 65536))) ∧
    (∀ o : Fin 24, s.dp.resync.getLsbD o.val = true →
      ∃ t, exec (.resyncDone o) s = .next t ∧ t.dp.resync.getLsbD o.val = false ∧ t = { s with dp := t.dp } ∧
        (∀ i ∈ s.dpOwned o.val, t.dp.word (!s.dpBank o.val) i = s.dp.word (s.dpBank o.val) i))

/-- A request to DRAM or to the cache is served through the cache (R269, R275–R277) and its status and bytes are answered.
Where the spec leaves it open it says what the model chose: notes/assumptions/29.md.
Completes: dramAccess, cacheAccess. -/
def Obligations.MemoryRequestsServed : Prop :=
  ∀ (s : State) (q : MemReq),
    let a := q.addr.toNat
    let len := if q.write then q.data.length else q.len.val
    let serve (t : State) := t.cacheServe q.who q.write a len q.data (t.allocMask q.who q.weight)
    let answered (r : Nat × List Byte × State) : State :=
      { r.2.2 with mem := { r.2.2.mem with answer := some (BitVec.ofNat 8 r.1, r.2.1) } }
    (exec (.dramAccess q .clean) s = .next (answered (serve s))) ∧
    (exec (.cacheAccess q .clean) s = .next (answered (serve s))) ∧
    (s.dramRefuses q.who a len = true → (serve s).1 = 0x0D ∧ (serve s).2.2 = s) ∧
    (s.dramRefuses q.who a len = false → s.hitWay (a / 256) = none →
      let t := s.correctedError (Page.dram (channelOf a)) Reg.DC_ECC
      exec (.dramAccess q .corrected) s = .next (answered (serve t))) ∧
    (∀ w, s.dramRefuses q.who a len = false → s.hitWay (a / 256) = some w →
      let t := s.correctedError Page.cache Reg.CA_ECC
      exec (.cacheAccess q .corrected) s = .next (answered (serve t)))

/-- What a write to DRAM leaves, a read finds (R269, R274, R275): whatever the cache holds and whichever way the allocation masks
take it, a write that is served is read back by the same requester, outside protected regions.
Where the spec leaves it open it says what the model chose: notes/assumptions/29.md and 30.md. -/
def Obligations.CacheReadsBackWrites : Prop :=
  ∀ (s : State) (who : Requester) (a len mask mask' : Nat) (data : List Byte),
    data.length = len → a % 256 + len ≤ 256 → s.prOf (256 * (a / 256)) = none →
    let w := s.cacheServe who true a len data mask
    w.1 = 0 → (w.2.2.cacheServe who false a len [] mask').1 = 0 ∧ (w.2.2.cacheServe who false a len [] mask').2.1 = data

/-- The scrubber, refresh, retraining and training of a DRAM channel (R271–R273): at its turn the scrubber reads the unit at
DC_SCRUB_POS and moves on; the refresh rate follows the stack temperature with 3 °C of hysteresis, and stays at 4× while the
stack's sensor has failed (R435); a trained channel retrains; training ends in a trained channel or a failed one, whose failure is
raised as a mechanism. Cache maintenance (R276): a write of CA_MAINT starts a pass over its ways, one during a pass is ignored and
recorded; a pass that completes clears BUSY, and with INV no line that it had still to visit is left in its ways.
Where the spec leaves it open it says what the model chose: notes/assumptions/31.md, 32.md and 130.md.
Completes: patrolScrub, refreshRateChange, dramRetrain, dramTrainingDone, caMaint, cachePassDone. -/
def Obligations.MemoryIsMaintained : Prop :=
  (∀ (s : State) (ch : Fin 16),
    let p := Page.dram ch.val
    let i := s.fld p Reg.DC_SCRUB_POS 0 21
    (s.flag p Reg.DC_SCRUB_CTRL 16 = true →
      let u := (s.scrubTurn ch.val).setFld p Reg.DC_SCRUB_POS 0 21 (i + 1)
      exec (.patrolScrub ch .corrected) s = .next (u.correctedError p Reg.DC_ECC) ∧
      (s.unitDamaged (ch.val / 4 * 2 ^ 23 + 4 * i + ch.val % 4) = false → exec (.patrolScrub ch .clean) s = .next u)) ∧
    (∀ celsius : Byte, ∃ t, exec (.refreshRateChange ch celsius) s = .next t ∧ t = { s with regs := t.regs } ∧
      t.fld p Reg.DC_TEMP 0 8 = celsius.toNat ∧
      (s.flag Page.thermal (Reg.TH_TEMP + 4 * (12 + ch.val / 4)) 9 = true → t.fld p Reg.DC_STATUS 2 2 = 2) ∧
      (s.flag Page.thermal (Reg.TH_TEMP + 4 * (12 + ch.val / 4)) 9 = false →
        (85 < celsius.toInt → celsius.toInt ≤ 105 → s.fld p Reg.DC_STATUS 2 2 ≤ 1 → t.fld p Reg.DC_STATUS 2 2 = 1) ∧
        (105 < celsius.toInt → s.fld p Reg.DC_STATUS 2 2 ≤ 2 → t.fld p Reg.DC_STATUS 2 2 = 2) ∧
        (celsius.toInt ≤ 82 → s.fld p Reg.DC_STATUS 2 2 ≤ 2 → t.fld p Reg.DC_STATUS 2 2 = 0) ∧
        (82 < celsius.toInt → celsius.toInt ≤ 85 → s.fld p Reg.DC_STATUS 2 2 = 1 → t.fld p Reg.DC_STATUS 2 2 = 1))) ∧
    (s.mem.trained.contains ch.val = true → (s.reg p Reg.DC_RETRAIN_COUNT).toNat < 0xFFFFFFFF →
      ∃ t d, exec (.dramRetrain ch) s = .next t ∧ t.reg p Reg.DC_RETRAIN_COUNT = s.reg p Reg.DC_RETRAIN_COUNT + 1 ∧
        1 ≤ d ∧ d ≤ 384 ∧ SMap.get t.mem.retrain ch.val none = some (t.now, t.now + BitVec.ofNat 64 d) ∧
        t = { s with regs := t.regs, time := t.time, free := t.free, mem := { s.mem with retrain := t.mem.retrain } }) ∧
    (s.mem.training.contains ch.val = true →
      (∃ t, exec (.dramTrainingDone ch true) s = .next t ∧ t.mem.trained.contains ch.val = true ∧
        t.mem.failed.contains ch.val = false ∧ t.mem.training.contains ch.val = false ∧ t.fld p Reg.DC_STATUS 0 2 = 1) ∧
      (∃ t, exec (.dramTrainingDone ch false) s = .next t ∧ t.mem.trained.contains ch.val = false ∧
        t.mem.failed.contains ch.val = true ∧ t.flag p Reg.DC_STATUS 4 = true ∧ t.flag Page.safety Reg.SF_FAULT 4 = true))) ∧
  (∀ (s : State) (src : NodeId) (v : W32),
    (s.mem.pass = none → exec (.caMaint src v) s =
      .next { s with mem := { s.mem with pass := some (v.setWidth 16, v.getLsbD 16, v.getLsbD 17, 0) } }) ∧
    (s.mem.pass.isSome = true → exec (.caMaint src v) s = .next (s.writeRefused Page.cache Reg.CA_MAINT src.val)) ∧
    (∀ ways wb from_, s.mem.pass = some (ways, wb, true, from_) →
      ∃ t, exec .cachePassDone s = .next t ∧ t.mem.pass = none ∧
        ∀ set w, from_ ≤ set → set < 8192 → w < 16 → ways.getLsbD w = true → t.line set w = none))

/-- Protected regions (R278–R281): an enable whose checks pass stores the fields, one whose checks fail is refused, leaves EN at 0 and
is recorded; an enabled region ignores further enables; a disable writes the range's lines back before EN clears; a locked page
refuses both.
Completes: prEnable, prDisable. -/
def Obligations.ProtectedRegionsEnable : Prop :=
  ∀ (s : State) (src : NodeId) (n : Fin 16) (v : W32),
    let off := Reg.PR_CTRL + 16 * n.val
    (s.locked Page.cache = true →
      exec (.prEnable src n v) s = .next (s.pgErrAt Page.cache off src.val [31]) ∧
      exec (.prDisable src n v) s = .next (s.pgErrAt Page.cache off src.val [31])) ∧
    (s.locked Page.cache = false → s.prOn n.val = false → s.prEnableOk n.val (v ||| 1) = true →
      exec (.prEnable src n v) s = .next (s.setReg Page.cache off (BitVec.ofNat 32 ((v ||| 1).toNat % 65536)))) ∧
    (s.locked Page.cache = false → s.prOn n.val = false → s.prEnableOk n.val (v ||| 1) = false →
      exec (.prEnable src n v) s = .next (s.writeRefused Page.cache off src.val) ∧
      (s.writeRefused Page.cache off src.val).prOn n.val = false) ∧
    (s.locked Page.cache = false → s.prOn n.val = true →
      exec (.prEnable src n v) s = .next s ∧
      exec (.prDisable src n v) s = .next ((s.prFlush n.val).setFlag Page.cache off 0 false) ∧
      ((s.prFlush n.val).setFlag Page.cache off 0 false).prOn n.val = false)

/-- Compression jobs (R292–R296): a described job of a live context queues and the engine goes on, the 65th is refused with status BUSY
and counted; a lane codes the block that it holds; a finished job whose writes are acknowledged reports and leaves the queue.
What a lane's block becomes: decoded by its header where the job decodes, encoded where it encodes, its result in the output queue
where there is room.
Where the spec leaves it open it says what the model chose: notes/assumptions/44.md, 45.md, 85.md and 131.md.
Completes: ceJobGo, blockCode, ceJobDone. -/
def Obligations.CompressionJobsRun : Prop :=
  ∀ (s : State) (src : NodeId),
    (∀ j ok, s.jobDesc = (j, ok) → (s.ctx j.ctx).st ≠ .free → s.gen j.ctx = j.gen → s.ce.jobs.length < 64 →
      exec (.ceJobGo src) s =
        .next (State.cePump { s with ce := { s.ce with jobs := s.ce.jobs ++ [j], next := s.ce.next + 1 } })) ∧
    (∀ j ok, s.jobDesc = (j, ok) → (s.ctx j.ctx).st ≠ .free → s.gen j.ctx = j.gen → 64 ≤ s.ce.jobs.length →
      exec (.ceJobGo src) s = .next
        ((s.count Page.compression Reg.CE_JOB_REFUSED_COUNT).jobReport { j with status := 0x10, finished := true })) ∧
    (∀ (lane : Fin 16) j rest b, s.ce.jobs = j :: rest → (s.ce.blocks.find? fun b => b.lane == some lane.val) = some b →
      exec (.blockCode lane) s = .next (s.blockCoded j b) ∧
      (∀ out code cycles, j.op = 0 → s.blockDecoded b = (out, code, cycles) → b.held = none →
        s.ce.outFill + out.length ≤ 262144 →
        s.blockCoded j b = ((s.count Page.compression Reg.CE_LANE_CYCLES cycles).modBlock
          { b with lane := none, out := some (out, code) }).cePump) ∧
      (∀ out code cycles, j.op ≠ 0 → blockEncoded b = (out, code, cycles, false) → b.held = none →
        s.ce.outFill + out.length ≤ 262144 →
        s.blockCoded j b = ((s.count Page.compression Reg.CE_LANE_CYCLES cycles).modBlock
          { b with lane := none, out := some (out, code) }).cePump)) ∧
    (∀ j rest, s.ce.jobs = j :: rest → j.finished = true → s.jobWaits j = false →
      exec .ceJobDone s = .next ((s.jobReport j).popJob).cePump) ∧
    (∀ j rest, s.ce.jobs = j :: rest → j.finished = true → s.jobWaits j = true → exec .ceJobDone s = .next s)

/-- Link bring-up (R300–R303, R338): an enable within the receive buffer starts a stopped port at DETECT with KL_CTRL as it stands;
each state is followed by the next; EXCHANGE learns the peer and goes on to KEYING or UP once the peer has seen this port's
flit; an enabled port that went DOWN starts again. Key agreement (R318–R320): an accepted offer is kept with its key and the
peer's identity registers, and answered by KEY_CONFIRM; a certificate that does not verify fails the agreement; a confirmation
whose signature verifies takes the port to UP with its session keys and both packet counters at 0; a timeout, or a wrong
signature, takes it DOWN and counts.
Where the spec leaves it open it says what the model chose: notes/assumptions/47.md and 51.md.
Completes: linkEnable, linkDetectDone, linkTrainDone, linkAlignDone, exchange, exchangeResend, keyOffer, keyConfirm,
keyingTimeout, linkRestart, linkControllerRelease. -/
def Obligations.LinksComeUp : Prop :=
  (∀ (s : State) (src : NodeId) (p : PortId),
    let pg := Page.link p.val
    let l := s.link p.val
    (s.pageOn pg = true → s.creditSum p.val ≤ 1024 → l.st = 0 →
      exec (.linkEnable src p) s = .next ((s.setLink p.val { l with enabled := true }).startDetect p.val) ∧
      ((s.setLink p.val { l with enabled := true }).startDetect p.val).link p.val = { l with
        enabled := true, st := 1, ctrl := s.reg pg Reg.KL_CTRL, peer := none, peerHeard := false, txSeq := 0, rxSeq := 0,
        rxAny := false, replay := [], upSince := s.now, since := s.now, rxPos := 0, rxBad := false, txFlit := [], txBytes := [],
        txNum := 0, txWord := [] }) ∧
    (s.pageOn pg = true → 1024 < s.creditSum p.val →
      exec (.linkEnable src p) s = .next (s.enableRefused pg src.val)) ∧
    (l.st = 1 → exec (.linkDetectDone p) s = .next (s.setLink p.val { l with st := 2, since := s.now })) ∧
    (∀ fast swap inv, l.st = 2 → (fast = true → l.coeffs = true ∧ bitOf l.ctrl.toNat 0 = true) →
      exec (.linkTrainDone p fast swap inv) s =
        .next (s.setLink p.val { l with st := 3, since := s.now, coeffs := true, laneSwap := swap, laneInv := inv })) ∧
    (l.st = 3 →
      let t := s.setLink p.val { l with st := 4, since := s.now, exchAt := s.now }
      exec (.linkAlignDone p) s = .next (t.control p.val 3 (t.exchangePayload p.val))) ∧
    (l.st = 4 →
      let t := s.reach (l.exchAt + 256000)
      let u := t.setLink p.val { l with exchAt := t.now }
      exec (.exchangeResend p) s = .next (u.control p.val 3 (u.exchangePayload p.val))) ∧
    (∀ (h : FlitHead) (x : ExchangeInfo), l.st = 4 → (s.fecFlit p.val h.errs).1 = false →
      exec (.exchange p { head := h, info := x }) s = .next (((s.fecFlit p.val h.errs).2.takeAck p.val h).exchangeTake p.val x)) ∧
    (∀ x : ExchangeInfo, l.st = 4 → (x.host = true → s.sec.bridgeEn = true) → (bitOf l.ctrl.toNat 2 = true → x.encOffer = true) →
      let credits := x.credits.zipIdx.foldl (fun (m : SMap Nat) e => SMap.set m e.2 e.1.toNat 0) []
      let t := s.setLink p.val { l with peer := some x, peerHeard := x.ackSeen, credits := credits }
      let u := if x.nodeId = 31 then t else t.setFld Page.fabric (Reg.FB_PEER + 4 * x.nodeId.toNat) 0 8 x.bgen.toNat
      (x.ackSeen = false → s.exchangeTake p.val x = u) ∧
      (x.ackSeen = true → (bitOf l.ctrl.toNat 1 = false ∨ x.encOffer = false) → s.exchangeTake p.val x = u.enterUp p.val) ∧
      (x.ackSeen = true → bitOf l.ctrl.toNat 1 = true → x.encOffer = true →
        s.exchangeTake p.val x = (u.modLink p.val fun l => { l with st := 5, since := u.now }).sendOffer p.val)) ∧
    (l.st = 8 → l.enabled = true → l.cause ≠ .hostRefused → s.pageOn pg = true →
      exec (.linkRestart p) s = .next ((s.reach (l.since + 2560000)).startDetect p.val)) ∧
    (s.sec.linksReleased = false →
      let t : State := { s with sec := { s.sec with linksReleased := true }, mem := { s.mem with training := List.range 16 } }
      exec .linkControllerRelease s = .next ((((t.linkEnable 0 0).linkEnable 0 1).linkEnable 0 2).linkEnable 0 3))) ∧
  (∀ (s : State) (port : PortId) (p : Packet),
    let i := port.val
    let l := s.link i
    let key := bytesAt (p.data.drop 96) 0x18 64
    l.st = 5 →
    (p.data.length = 256 → p.len = 256 → p.wlen = 256 → p.z = false →
      exec (.keyOffer port p) s = .next (if s.certOk (s.peerIsHost i) (p.data.drop 96) then
          (((s.setLink i { l with
            offer := some p.data, peerKey := key, peerId := BitVec.ofNat 64 (leNat ((sha256 key).take 8)) }).setReg
              (Page.linkSec i) Reg.KL_PEER_ID_LO (BitVec.ofNat 32 (leNat ((sha256 key).take 4)))).setReg
              (Page.linkSec i) Reg.KL_PEER_ID_HI (BitVec.ofNat 32 (leNat (((sha256 key).drop 4).take 4)))).sendConfirm i
        else s.keyFail i)) ∧
    (l.offer ≠ none → l.myOffer ≠ [] → p.data.length = 64 → p.len = 64 → p.wlen = 64 → p.z = false →
      exec (.keyConfirm port p) s = .next (if ecdsaVerify l.peerKey l.hash p.data then
          (s.setLink i { l with encOn := true, keys := some l.sessionKeys, txCount := 0, rxCount := 0 }).enterUp i
        else s.keyFail i)) ∧
    (exec (.keyingTimeout port) s = .next ((s.reach (l.since + 512000000)).keyFail i)) ∧
    (s.keyFail i = (s.count (Page.linkSec i) Reg.KL_KEY_FAIL).goDown i .keyFail))

/-- What takes a port DOWN (R301, R306, R307, R319, R321, R332, R444), each with its cause: the port is left in DOWN with the
cause, its retry buffer and keys gone, and KL_DOWN_COUNT advanced. A packet that fails its tag is counted and reported, and the
fourth within 1 ms takes the port down.
Where the spec leaves it open it says what the model chose: notes/assumptions/46.md and 48.md.
Completes: linkDown, lockLossTimeout, linkReset, rekey, authFail, linkBlockReset, linkStateFail. -/
def Obligations.PortsGoDownWithCause : Prop :=
  ∀ (s : State) (p : PortId),
    let l := s.link p.val
    (∀ cause, exec (.linkDown p cause) s = .next (s.goDown p.val cause)) ∧
    (l.st = 6 ∨ l.st = 7 → exec (.lockLossTimeout p) s = .next (s.goDown p.val .lock)) ∧
    (∀ st, 1 ≤ st → st ≤ 4 → l.st = st →
      let due := match st with
        | 1 => l.upSince + 256000000
        | 2 => l.upSince + 10240000000
        | 3 => l.since + 5120000
        | _ => l.since + 2560000
      exec (.linkStateFail p) s = .next ((s.reach due).goDown p.val .trainFail)) ∧
    (∀ h cause code, resetCode cause = some code → l.controls = true → (s.fecFlit p.val h.errs).1 = false →
      exec (.linkReset p { head := h, cause := cause }) s = .next (((s.fecFlit p.val h.errs).2.takeAck p.val h).goDown p.val cause)) ∧
    (∀ src, s.pageOn (Page.link p.val) = true → exec (.linkBlockReset src p) s =
      .next ((s.resetLink p.val .port).modLink p.val fun l => { l with enabled := false })) ∧
    (l.encOn = true → 2 ^ 48 ≤ l.txCount.toNat ∨ 2 ^ 48 ≤ l.rxCount.toNat →
      exec (.rekey p) s = .next (s.resetLink p.val .rekey)) ∧
    (∀ vc q, l.encOn = true →
      let fails := (l.authFails.filter fun t => decide (s.age t ≤ usTb 1000)) ++ [s.now]
      let t := (((s.count (Page.linkSec p.val) Reg.KL_AUTH_FAIL).setLink p.val
        { l with rxCount := l.rxCount + 1, authFails := fails }).raiseMech 14 none)
      (fails.length < 4 → exec (.authFail p vc q) s = .next t) ∧
      (4 ≤ fails.length → exec (.authFail p vc q) s = .next (t.goDown p.val .auth))) ∧
    (∀ cause, l.st ≠ 0 → l.st ≠ 8 →
      let d := (s.goDown p.val cause).link p.val
      d.st = 8 ∧ d.cause = cause ∧ d.replay = [] ∧ d.keys = none ∧ d.encOn = false ∧ d.credits = [] ∧ d.enabled = l.enabled ∧
      ((s.reg (Page.link p.val) Reg.KL_DOWN_COUNT).toNat < 0xFFFFFFFF →
        (s.goDown p.val cause).reg (Page.link p.val) Reg.KL_DOWN_COUNT = s.reg (Page.link p.val) Reg.KL_DOWN_COUNT + 1))

/-- Flits (R303–R306, R309): the flit in which a codeword begins tells whether it can be corrected: up to 15 symbol errors count, more
make its flits bad. Of the next DATA flit in order the ACK and the credit return are used and the payload joins its channel's
stream; a DATA flit that is bad or out of order is discarded and gives one NAK per gap; a good NULL flit gives its ACK and
credits; an ACK empties the retry buffer up to the flit it names; a NAK or a timeout sends the
retry buffer again from the named flit and counts, without the port going down before the 16th time.
Where the spec leaves it open it says what the model chose: notes/assumptions/50.md, 132.md and 133.md.
Completes: dataFlit, nullFlit, nak, replayTimeout. -/
def Obligations.FlitsAreRetried : Prop :=
  ∀ (s : State) (p : PortId) (f : List Byte) (errs : Nat),
    let l := s.link p.val
    let pg := Page.link p.val
    let g := s.fecFlit p.val errs
    let u := g.2
    l.carries = true →
    (l.rxPos = 0 → g.1 = decide (15 < errs) ∧
      u = (s.setLink p.val { l with rxPos := 1, rxBad := decide (15 < errs) }).count pg
        (if 15 < errs then Reg.KL_FEC_UNCORR else Reg.KL_FEC_CORR) (if 15 < errs then 1 else errs)) ∧
    (l.rxPos = 1 → g.1 = l.rxBad ∧ u = s.setLink p.val { l with rxPos := 2 }) ∧
    (g.1 = true → exec (.dataFlit p f errs) s = .next (u.nakOnce p.val) ∧ exec (.nullFlit p f errs) s = .next u) ∧
    (g.1 = false → flitCrcOk f = false →
      exec (.dataFlit p f errs) s = .next ((u.count pg Reg.KL_CRC_ERR).nakOnce p.val) ∧
      exec (.nullFlit p f errs) s = .next (u.count pg Reg.KL_CRC_ERR)) ∧
    (g.1 = false → flitCrcOk f = true → flitField f 0 4 = 1 →
      (flitField f 12 12 = l.rxSeq.toNat →
        exec (.dataFlit p f errs) s = .next ((u.takeAck p.val (headOf f errs)).takeData p f)) ∧
      (flitField f 12 12 ≠ l.rxSeq.toNat → exec (.dataFlit p f errs) s = .next (u.nakOnce p.val))) ∧
    (g.1 = false → flitCrcOk f = true → flitField f 0 4 = 0 →
      exec (.nullFlit p f errs) s = .next (u.takeAck p.val (headOf f errs))) ∧
    (s.nakOnce p.val = if l.nakSent then s else (s.setLink p.val { l with nakSent := true }).control p.val 1 l.rxSeq.toNat) ∧
    (∀ h : FlitHead, h.ackValid = false → s.takeAck p.val h = s.setLink p.val { l with
      credits := SMap.set l.credits h.creditVc.val (SMap.get l.credits h.creditVc.val 0 + h.creditCount.toNat) 0 }) ∧
    (∀ (h : FlitHead) (before after : List (BitVec 12 × List Byte)) (e : BitVec 12 × List Byte), h.ackValid = true → h.ack = e.1 →
      l.replay = before ++ e :: after → (∀ x ∈ before, x.1 ≠ e.1) →
      s.takeAck p.val h = s.setLink p.val { l with
        replay := after, replays := 0, ackAt := s.now,
        credits := SMap.set l.credits h.creditVc.val (SMap.get l.credits h.creditVc.val 0 + h.creditCount.toNat) 0 }) ∧
    (∀ h seq, (s.fecFlit p.val h.errs).1 = false →
      exec (.nak p { head := h, seq := seq }) s = .next (((s.fecFlit p.val h.errs).2.takeAck p.val h).replayFrom p.val seq)) ∧
    (∀ (before after : List (BitVec 12 × List Byte)) (e : BitVec 12 × List Byte),
      l.replay = before ++ e :: after → (∀ x ∈ before, x.1 ≠ e.1) →
      let n := if l.replays ≠ 0 ∧ l.replaySeq = e.1 then l.replays + 1 else 1
      let t := (((e :: after).foldl (fun (s : State) x => s.control p.val 4 x.1.toNat)
        (s.setLink p.val { l with replays := n, replaySeq := e.1, ackAt := s.now })).count pg Reg.KL_REPLAY_COUNT)
      (n < 16 → s.replayFrom p.val e.1 = t) ∧
      (16 ≤ n → s.replayFrom p.val e.1 = t.goDown p.val .replay) ∧
      (before = [] → exec (.replayTimeout p) s = .next ((s.reach (l.ackAt + 512000)).replayFrom p.val e.1)))

namespace Sys2Proof.Claims

open Machine

/-- A packet that port `port` may deliver or pass on (R315, R322, R324, R330): the port is UP without encryption, the packet is
well formed and of the current generations, its sender is known, and it has hops left. -/
def Passes (s : State) (port vc : Nat) (p : Packet) : Prop :=
  (s.link port).st = 6 ∧ (s.link port).encOn = false ∧ malformed vc p = false ∧ s.genMismatch p = false ∧
  (p.src = 31 ∨ s.fab.known.contains p.src.toNat = true) ∧ p.hops ≠ 31

/-- A packet for this device, which is READY (R322, R406). -/
def Delivered (s : State) (port vc : Nat) (p : Packet) : Prop :=
  Passes s port vc p ∧ hopOnly p.ttype.toNat = false ∧ p.dst ≠ 31 ∧ p.dst.toNat = s.node ∧ s.sec.boot = 4

/-- A broadcast that comes from the direction of its sender (R322). -/
def DeliveredToAll (s : State) (port vc : Nat) (p : Packet) : Prop :=
  Passes s port vc p ∧ hopOnly p.ttype.toNat = false ∧ responseType p.ttype.toNat = none ∧ p.dst = 31 ∧
  s.route p.src.toNat = port ∧ p.ttype ≠ 0x30

/-- A packet that goes from a port to its neighbour only, arrived (R318, R322). -/
def DeliveredByHop (s : State) (port vc : Nat) (p : Packet) : Prop :=
  Passes s port vc p ∧ hopOnly p.ttype.toNat = true

end Sys2Proof.Claims

/-- Packets on their way (R315, R322, R330): a malformed packet is counted, and answered BAD_COMMAND where it is a request for this
device; a packet of an old generation is counted and recorded; one at its hop limit, or without a route, is dropped and
counted; any other for another node goes out of the port of its route with HOPS advanced, a broadcast out of every other UP
port; a request that is answered, with DST 31, completes with ACCESS_DENIED (R316).
Where the spec leaves it open it says what the model chose: notes/assumptions/33.md and 52.md.
Completes: packetForward. -/
def Obligations.PacketsForwarded : Prop :=
  ∀ (s : State) (port : PortId) (vc : Fin 8) (p : Packet),
    ((s.link port.val).st = 6 → (s.link port.val).encOn = false → malformed vc.val p = true → p.dst.toNat ≠ s.node →
      exec (.packetForward port vc p) s = .next (s.count (Page.link port.val) Reg.KL_MALFORMED)) ∧
    ((s.link port.val).st = 6 → (s.link port.val).encOn = false → malformed vc.val p = true → p.dst.toNat = s.node →
      exec (.packetForward port vc p) s = .next ((s.count (Page.link port.val) Reg.KL_MALFORMED).refuse p 0x0E)) ∧
    ((s.link port.val).st = 6 → (s.link port.val).encOn = false → malformed vc.val p = false → s.genMismatch p = true →
      exec (.packetForward port vc p) s = .next (s.genDrop p)) ∧
    ((s.link port.val).st = 6 → (s.link port.val).encOn = false → malformed vc.val p = false → s.genMismatch p = false →
      s.fab.known.contains p.src.toNat = true → p.hops = 31 →
      exec (.packetForward port vc p) s = .next (s.count Page.fabric Reg.FB_ROUTE_DROP)) ∧
    (Passes s port.val vc.val p → hopOnly p.ttype.toNat = false → p.dst ≠ 31 → p.dst.toNat ≠ s.node →
      s.fab.enumerated = true → p.ttype ≠ 0x56 →
      let r := s.route p.dst.toNat
      (r < 4 ∧ s.linkUp r = true → exec (.packetForward port vc p) s = .next (s.emit r vc.val { p with hops := p.hops + 1 })) ∧
      (¬ (r < 4 ∧ s.linkUp r = true) → exec (.packetForward port vc p) s = .next ((s.count Page.fabric Reg.FB_ROUTE_DROP).refuse p 0x0D))) ∧
    (Passes s port.val vc.val p → hopOnly p.ttype.toNat = false → responseType p.ttype.toNat ≠ none → p.dst = 31 →
      exec (.packetForward port vc p) s = .next (s.refuse p 0x0D)) ∧
    (DeliveredToAll s port.val vc.val p →
      exec (.packetForward port vc p) s = .next (s.copyOn port.val vc.val p) ∧
      (s.copyOn port.val vc.val p).fab.out = s.fab.out ++
        ((List.range 4).filter fun k => decide (k ≠ port.val) && s.linkUp k).map fun k =>
          ⟨k, vc.val, { p with hops := p.hops + 1, enc := (s.link k).encOn }⟩)

/-- Reads, writes and atomics that arrive for this device (R312, R314, R317): the access is made for the requester and answered with
its status, the bytes read or the old value.
Where the spec leaves it open it says what the model chose: notes/assumptions/52.md.
Completes: stateDebugRead, read, write, atomicAdd, atomicCas, mgmtRead, mgmtWrite, mgmtRsp. -/
def Obligations.RequestsAnswered : Prop :=
  ∀ (s : State) (port : PortId) (vc : Fin 8) (p : Packet),
    let as (t : Byte) : Packet := { p with ttype := t }
    let who := requesterOf p
    let a := p.addr.toNat
    (Delivered s port.val vc.val (as 0x10) → vc.val ≠ 7 →
      let r := s.busRead who vc.val a p.operand.toNat
      exec (.read port vc p) s = .next (r.2.2.respond (as 0x10) 0x20 r.1 0 (if r.1 = 0 then r.2.1 else []))) ∧
    (let w : Packet := { p with ttype := 0x10, addr := BitVec.ofNat 64 (0x20000000000 + a % 0x8000000) };
      Delivered s port.val vc.val w → exec (.stateDebugRead port vc p) s = .next (s.answerRead vc.val w)) ∧
    (Delivered s port.val vc.val (as 0x11) →
      let r := s.serveWrite who vc.val p.src.toNat a p.data
      exec (.write port vc p) s = .next (r.2.respond (as 0x11) 0x21 r.1 0 [])) ∧
    (Delivered s port.val vc.val (as 0x12) →
      let r := s.busAtomic who a p.operand none
      exec (.atomicAdd port vc p) s = .next (r.2.2.respond (as 0x12) 0x22 r.1 r.2.1 [])) ∧
    (Delivered s port.val vc.val (as 0x13) →
      let r := s.busAtomic who a p.operand (some (BitVec.ofNat 64 (natAt p.data 0 8)))
      exec (.atomicCas port vc p) s = .next (r.2.2.respond (as 0x13) 0x22 r.1 r.2.1 [])) ∧
    (Delivered s port.val vc.val (as 0x50) → p.src = 0 →
      (∃ page off, regionOf a = .regs page off) →
      let r := s.busRead .host 0 a p.operand.toNat
      exec (.mgmtRead port vc p) s = .next (r.2.2.send 0 (r.2.2.response (as 0x50) 0x52 r.1 0 (if r.1 = 0 then r.2.1 else [])))) ∧
    (Delivered s port.val vc.val (as 0x51) → p.src = 0 →
      (∃ page off, regionOf a = .regs page off) →
      let r := s.busWrite .host true 0 a p.data
      exec (.mgmtWrite port vc p) s = .next (r.2.send 0 (r.2.response (as 0x51) 0x52 r.1 0 []))) ∧
    (Delivered s port.val vc.val (as 0x50) → p.src ≠ 0 →
      exec (.mgmtRead port vc p) s = .next (s.send 0 (s.response (as 0x50) 0x52 0x0D 0 []))) ∧
    (Delivered s port.val vc.val (as 0x52) → exec (.mgmtRsp port vc p) s = .next s)

/-- Grants never pass an older wait (R313): after a signal no wait of that semaphore that the count allows is left at the head of
its line, and each wait that is left was waiting before, in the same order. -/
def Obligations.GrantsKeepArrivalOrder : Prop :=
  ∀ (s : State) (n count : Nat) (who : Option (Nat × Nat)),
    let t := s.semSignal n count who
    t.fab.waits.Sublist s.fab.waits ∧
    (∀ w, (t.fab.waits.find? fun w => w.sem == n) = some w → (t.sem n).toNat < w.count)

/-- Semaphores over a link (R313): a signal adds its count and is acknowledged, a wait is granted where the count allows it and no
older wait stands in its way and queues otherwise, a withdrawal answers 0 where it removed the wait and 1 where it came too
late. A push answers with its status, and a damaged block of it with DAMAGED_BLOCK (R318, R343). Responses that arrive for an
outstanding transaction of the current generation complete it (R312, R330): its tag ends with the response's status, operand and
data, and what waited on its core goes on.
Where the spec leaves it open it says what the model chose: notes/assumptions/17.md and 89.md.
Completes: semSignal, semWait, semCancel, qpush, readRsp, ack, atomicRsp, semRsp. -/
def Obligations.SemaphoresPushesAndResponses : Prop :=
  (∀ (s : State) (port : PortId) (vc : Fin 8) (p : Packet) (n : Nat),
    let as (t : Byte) : Packet := { p with ttype := t }
    (regionOf p.addr.toNat = .sem n 0 →
      (Delivered s port.val vc.val (as 0x14) →
        exec (.semSignal port vc p) s = .next ((s.semSignal n p.operand.toNat
          (if p.cgv then some (p.src.toNat, p.ctx.toNat) else none)).respond (as 0x14) 0x21 0 0 [])) ∧
      (Delivered s port.val vc.val (as 0x15) →
        (p.operand.toNat ≤ (s.sem n).toNat → (s.fab.waits.any fun w => w.sem == n) = false →
          exec (.semWait port vc p) s = .next (s.grant ⟨n, p.operand.toNat, as 0x15⟩)) ∧
        ((s.fab.waits.any fun w => w.sem == n) = true → s.fab.waits.length < 4096 →
          exec (.semWait port vc p) s =
            .next { s with fab := { s.fab with waits := s.fab.waits ++ [⟨n, p.operand.toNat, as 0x15⟩] } })) ∧
      (Delivered s port.val vc.val (as 0x16) →
        let r := s.semCancel n p.src.toNat (p.operand.toNat % 8192)
        exec (.semCancel port vc p) s = .next (r.2.respond (as 0x16) 0x23 0 (BitVec.ofNat 64 r.1) []) ∧ r.1 ≤ 1)) ∧
    (Delivered s port.val vc.val (as 0x17) →
      (∀ l, pushedData (as 0x17) = some l →
        let r := s.pushFor p.addr.toNat p.src.toNat false l (some (as 0x17))
        (r.1 = none → exec (.qpush port vc p) s = .next r.2) ∧
        (∀ st, r.1 = some st → exec (.qpush port vc p) s = .next (r.2.respond (as 0x17) 0x21 st 0 []))) ∧
      (pushedData (as 0x17) = none →
        exec (.qpush port vc p) s = .next ((s.count Page.fabric Reg.FB_Z_DAMAGED).respond (as 0x17) 0x21 0x02 0 [])))) ∧
  (∀ (s : State) (port : PortId) (vc : Fin 8) (p : Packet) (x : Tag),
    let as (t : Byte) : Packet := { p with ttype := t }
    let ended := s.txnReply p.tag.toNat (completionCode p.status) p.operand p.data
    let t := match x.core with | some c => ended.settle c.val | none => ended
    s.tag p.tag.toNat = some x →
    (Delivered s port.val vc.val (as 0x20) → exec (.readRsp port vc p) s = .next t) ∧
    (Delivered s port.val vc.val (as 0x21) → exec (.ack port vc p) s = .next t) ∧
    (Delivered s port.val vc.val (as 0x22) → exec (.atomicRsp port vc p) s = .next t) ∧
    (Delivered s port.val vc.val (as 0x23) → exec (.semRsp port vc p) s = .next t))

/-- Enumeration (R323): a bridge that is enumerated already walks again; an ENUM gives this device its ID and starts the walk of its
other ports, or is answered at once by a device that has an ID, or with no ID left; an ENUM_DONE enters the IDs behind its port
into the routes and the walk goes on. What nodes tell of nodes (R325, R329, R332, R333, R367): a broadcast PEER_LOST, NODE_DOWN
or NODE_UP is sent on and acted on; a HOST_SWITCH on a standby port makes it the active host port, one from another bridge
moves the route to node 0. A node marked DOWN is DOWN in FB_PEER; one that comes up is UP with its new boot generation.
Where the spec leaves it open it says what the model chose: notes/assumptions/48.md and 49.md.
Completes: peerLost, nodeDown, nodeUp, hostSwitch, enum, enumDone, fbEnumStart. -/
def Obligations.NodesAreFoundAndLost : Prop :=
  (∀ (s : State) (port : PortId) (vc : Fin 8) (p : Packet),
    let as (t : Byte) : Packet := { p with ttype := t }
    (∀ (src : NodeId) (v : W32), v.getLsbD 0 = true → s.sec.bridgeEn = true → s.fab.walk = none → s.fab.enumerated = true →
      let first := if bitsOf v.toNat 1 5 = 0 then 2 else bitsOf v.toNat 1 5
      exec (.fbEnumStart src v) s = .next (State.walkStep
        { s with fab := { s.fab with enumDone := false, enumOver := false } }
        { next := first, port := 0, upstream := none, tag := 0, startId := first, overflow := false, keep := true })) ∧
    (DeliveredByHop s port.val vc.val (as 0x60) → s.fab.enumerated = true →
      let t := s.learnPeer port.val (as 0x60)
      exec (.enum port vc p) s = .next (t.emit port.val 0 { t.newPacket 0x61 p.src.toNat with
        tag := p.tag, operand := BitVec.ofNat 64 (p.operand.toNat % 32) })) ∧
    (DeliveredByHop s port.val vc.val (as 0x60) →
      exec (.enum port vc p) s = .next (s.enumTake port.val (as 0x60)) ∧
      (s.fab.enumerated = false → p.operand.toNat % 32 ≠ 31 →
        (s.enumTake port.val (as 0x60)).fab.nodeId = p.operand.toNat % 32 ∧
        (s.enumTake port.val (as 0x60)).fab.enumerated = true ∧
        (s.enumTake port.val (as 0x60)).fab.upstream = port.val)) ∧
    (DeliveredByHop s port.val vc.val (as 0x61) → ∀ w, s.fab.walk = some w → w.port = port.val → w.keep = true →
      exec (.enumDone port vc p) s = .next ((s.learnPeer port.val (as 0x61)).walkStep { w with
        next := p.operand.toNat % 32, port := port.val + 1, overflow := w.overflow || bitOf p.operand.toNat 5 }))) ∧
  (∀ (s : State) (port : PortId) (vc : Fin 8) (p : Packet),
    let as (t : Byte) : Packet := { p with ttype := t }
    let on (t : Byte) : State := s.copyOn port.val vc.val (as t)
    (DeliveredToAll s port.val vc.val (as 0x53) → exec (.peerLost port vc p) s =
      .next ((on 0x53).peerLostAct p.src.toNat (bitsOf p.operand.toNat 0 5) (bitsOf p.operand.toNat 5 3))) ∧
    (DeliveredToAll s port.val vc.val (as 0x54) → exec (.nodeDown port vc p) s =
      .next ((on 0x54).nodeDownAct (bitsOf p.operand.toNat 0 5))) ∧
    (DeliveredToAll s port.val vc.val (as 0x55) → exec (.nodeUp port vc p) s =
      .next ((on 0x55).nodeUpAct (bitsOf p.operand.toNat 0 5) p.bgen p.data)) ∧
    (DeliveredToAll s port.val vc.val (as 0x56) → s.peerIsHost port.val = false → s.fab.hostActive = false →
      let t := on 0x56
      exec (.hostSwitch port vc p) s =
        .next (State.setRoute { t with fab := { t.fab with hostActive := false } } 0 (t.fld Page.fabric Reg.FB_ROUTE 4 3))) ∧
    ((s.link port.val).st = 7 → (s.link port.val).encOn = false → malformed vc.val (as 0x56) = false →
      s.genMismatch (as 0x56) = false → s.fab.known.contains p.src.toNat = true → p.hops ≠ 31 → p.dst = 31 →
      s.fab.hostActive = false →
      ∃ t, exec (.hostSwitch port vc p) s = .next t ∧ t.fab.hostPort = port.val ∧ t.fab.hostActive = true ∧
        (t.link port.val).st = 6 ∧ t.route 0 = port.val) ∧
    (∀ n, n < 31 → n ≠ s.node → (s.nodeDownAct n).peerUp n = false) ∧
    (∀ n bgen data, n < 31 → (s.nodeUpAct n bgen data).peerUp n = true ∧ (s.nodeUpAct n bgen data).peerBgen n = bgen.toNat))

/-- Time over the links (R326, R327): a delay request leaves every UP port each period and is answered with its arrival time; an
answer's delay enters the average of the last 8; a SYNC with a new number is counted, sent on with this device's residence,
and gives the servo its offset where TB_CTRL.SRC takes links; one already accepted is dropped. SYNC_SEND is node 0's.
Where the spec leaves it open it says what the model chose: notes/assumptions/53.md.
Completes: sync, syncSend, pdelayPeriod, pdelayReq, pdelayRsp. -/
def Obligations.TimeSpreadsOverLinks : Prop :=
  ∀ (s : State) (port : PortId) (vc : Fin 8) (p : Packet),
    let as (t : Byte) : Packet := { p with ttype := t }
    let i := port.val
    let l := s.link i
    (exec .syncSend s = .next s) ∧
    (∀ x : ExchangeInfo, l.st = 6 → l.peer = some x → ∀ t : W64, l.pdelayAt = some t →
      let ms := max 1 (s.fld Page.tsync Reg.TS_PDELAY_PERIOD 0 16)
      let u := s.reach (t + BitVec.ofNat 64 (ms * 256000000))
      let u := u.setLink i { l with pdelayAt := some u.now }
      exec (.pdelayPeriod port) s = .next (u.emit i 1 { u.newPacket 0x31 31 with dst := x.nodeId })) ∧
    (∀ x : ExchangeInfo, l.st = 6 → l.peer = some x → l.pdelayAt = none →
      let u := s.setLink i { l with pdelayAt := some s.now }
      exec (.pdelayPeriod port) s = .next (u.emit i 1 { u.newPacket 0x31 31 with dst := x.nodeId })) ∧
    (DeliveredByHop s i vc.val (as 0x31) → exec (.pdelayReq port vc p) s =
      .next (s.emit i 1 { s.newPacket 0x32 p.src.toNat with tag := p.tag, epoch := p.epoch, addr := s.now })) ∧
    (DeliveredByHop s i vc.val (as 0x32) → ∀ t1, l.pdelayT1 = some t1 →
      let d : W32 := BitVec.ofInt 32 (((s.now - t1).toInt - (p.operand - p.addr).toInt) / 2)
      let ds := (d :: l.delays).take 8
      exec (.pdelayRsp port vc p) s = .next (s.setLink i { l with
        pdelayT1 := none, delays := ds, delay := BitVec.ofInt 32 ((ds.map fun x => x.toInt).sum / (ds.length : Int)) })) ∧
    (Passes s i vc.val (as 0x30) → p.dst = 31 → s.route p.src.toNat = i →
      (s.time.syncSeen.contains p.tag.toNat = true → exec (.sync port vc p) s = .next (s.count Page.tsync Reg.TS_SYNC_DROP)) ∧
      (s.time.syncSeen.contains p.tag.toNat = false → s.fld Page.timebase Reg.TB_CTRL 0 2 = 0 →
        ∃ t, exec (.sync port vc p) s = .next t ∧ t.time.syncSeen = (p.tag.toNat :: s.time.syncSeen).take 4096 ∧
          t.now = s.now ∧ t.fab.syncPort = i ∧ t.fab.lastOrigin = p.operand ∧ t.fab.syncAt = s.now ∧
          t = { s with regs := t.regs, time := t.time, fab := t.fab }))

/-- Queues (R339–R347, R354, R355): the admin enable allocates queues 0 and 1 as the admin registers describe them; a doorbell of a
COMMAND queue moves its PI, of a queue the host reads its CI, and one out of range is counted; a completion record is written
to its CQ and PI advances, or with the CQ full stays held; a queue with its count of entries, or its time, reached fires.
Completes: doorbell, completionWrite, vectorFire, coalesceTimeout, vecUnmask, qmAdminEnable. -/
def Obligations.QueuesKeepTheirIndices : Prop :=
  ∀ (s : State) (src : NodeId) (q : QueueId) (v : W64),
    let x := s.queue q.val
    let idx : W32 := v.setWidth 32
    (x.valid = true → (x.hostOnly = true → src.val = 0) → v.toNat < 2 ^ 32 → x.qtype = 0 →
      ((idx - x.pi).toNat ≤ x.entries → (idx - x.ci).toNat ≤ x.entries →
        exec (.doorbell src q v) s = .next (s.setQueue q.val { x with pi := idx })) ∧
      (x.entries < (idx - x.ci).toNat →
        exec (.doorbell src q v) s =
          .next ((s.count Page.queueMgr Reg.QM_DB_ERR_COUNT).setFlag Page.queueMgr Reg.QM_FLAGS 2 true))) ∧
    (x.valid = true → (x.hostOnly = true → src.val = 0) → v.toNat < 2 ^ 32 → x.qtype = 1 ∨ x.qtype = 3 ∨ x.qtype = 4 →
      (idx - x.ci).toNat ≤ x.entries → (x.pi - idx).toNat ≤ x.entries →
      exec (.doorbell src q v) s = .next (s.setQueue q.val { x with ci := idx })) ∧
    (x.valid = false → exec (.doorbell src q v) s = .next s) ∧
    (x.fires = true → exec (.vectorFire q) s = .next (s.fireQueue q.val) ∧ ((s.fireQueue q.val).queue q.val).unsig = 0) ∧
    (x.valid = true → x.irqEn = true → x.coalUs ≠ 0 → ∀ t : W64, x.firstUnsig = some t →
      exec (.coalesceTimeout q) s = .next ((s.reach (t + BitVec.ofNat 64 (x.coalUs * 256000))).fireQueue q.val)) ∧
    (∀ c, (s.qm.done.find? fun c => c.queue == q) = some c → (s.queue c.cq).valid = true →
      (s.noRoom c.cq = true → exec (.completionWrite q) s = .next (s.setFlag Page.queueMgr Reg.QM_FLAGS 0 true)) ∧
      (s.noRoom c.cq = false →
        let t : State := { s with qm := { s.qm with done := s.qm.done.erase c } }
        exec (.completionWrite q) s =
          .next (t.writeSlotOf c.cq false none fun i => completionBytes c ((s.queue c.cq).phase i)).2 ∧
        (s.slotsOut c.cq = 0 →
          nodeOf ((s.queue c.cq).slotAddr (s.queue c.cq).pi.toNat) = s.node →
          let y := s.queue c.cq
          let u := (t.writeSpan .sys (localOf (y.slotAddr y.pi.toNat)) (completionBytes c (y.phase y.pi.toNat))).2
          exec (.completionWrite q) s = .next ((u.modQueue c.cq fun y => { y with pi := y.pi + 1 }).noteEntry c.cq)))) ∧
    (∀ i : Fin 128, exec (.vecUnmask src i) s =
      .next (s.vecCtrlWrite i.val (BitVec.ofNat 32 (2 * b2n (s.flag Page.queueMgr (Reg.QM_VEC_CTRL + 16 * i.val) 1))))) ∧
    (∀ w : W32, s.flag Page.queueMgr Reg.QM_ADMIN_CTRL 0 = false → w.getLsbD 0 = true →
      let shape := (s.reg Page.queueMgr Reg.QM_ADMIN_SHAPE).toNat
      let sq := s.reg64 Page.queueMgr Reg.QM_ADMIN_SQ_LO Reg.QM_ADMIN_SQ_HI
      let cq := s.reg64 Page.queueMgr Reg.QM_ADMIN_CQ_LO Reg.QM_ADMIN_CQ_HI
      1 ≤ bitsOf shape 0 5 → bitsOf shape 0 5 ≤ 16 → 1 ≤ bitsOf shape 8 5 → bitsOf shape 8 5 ≤ 16 →
      s.ringOk 0 sq (64 * 2 ^ bitsOf shape 0 5) = true → s.ringOk 1 cq (32 * 2 ^ bitsOf shape 8 5) = true →
      ∃ t, exec (.qmAdminEnable src w) s = .next t ∧ t.flag Page.queueMgr Reg.QM_ADMIN_CTRL 0 = true ∧
        (t.queue 0).valid = true ∧ (t.queue 0).qtype = 0 ∧ (t.queue 0).log2 = bitsOf shape 0 5 ∧ (t.queue 0).ringAddr = sq ∧
        (t.queue 0).pi = 0 ∧ (t.queue 0).ci = 0 ∧ (t.queue 0).cq = 1 ∧
        (t.queue 1).valid = true ∧ (t.queue 1).qtype = 1 ∧ (t.queue 1).log2 = bitsOf shape 8 5 ∧ (t.queue 1).ringAddr = cq ∧
        (t.queue 1).vec = bitsOf shape 16 7 ∧ ∀ j, 2 ≤ j → t.queue j = s.queue j)

namespace Sys2Proof.Claims

open Machine

/-- The command in slot c can start, outside safe state, and keeps its reserved bytes zero (R345, R346, R348, R373). -/
def Starts (s : State) (c : CmdSlot) (used : List (Nat × Nat)) : Prop :=
  s.startable c = true ∧ s.safety.safe = false ∧ c.reserved used = false

/-- The command started and completed with a status and its results (R347). -/
def completed (s : State) (c : CmdSlot) (op status r0 r1 : Nat) : State := (s.flight c op).finish c op status r0 r1

/-- The context that a context command names, with its generation (R348). -/
def NamesCtx (s : State) (c : CmdSlot) (n : Nat) : Prop :=
  Starts s c [(0x08, 1), (0x09, 1)] ∧ c.nat 0x08 1 = n ∧ n < 64 ∧ c.nat 0x09 1 = (s.gen n).toNat ∧ (s.ctx n).st ≠ .free

end Sys2Proof.Claims

/-- Register commands (R345–R348, R373): NOP completes with OK; REG_READ with the words read, in ascending order; REG_WRITE writes by
the register's access codes on behalf of node 0. In safe state a NOP completes with SAFE_STATE; a command that cannot start
waits. A completion leaves flight, is counted and holds its record for the completion queue. Queue commands (R339, R346, R353):
QUEUE_CREATE allocates the queue it names, or the lowest free one, empty; QUEUE_DESTROY frees a queue that nothing is bound to.
A fetch takes the next slot of a COMMAND queue and starts its command.
Where the spec leaves it open it says what the model chose: notes/assumptions/65.md, 66.md and 67.md.
Completes: commandFetch, cmdNop, regRead, regWrite, queueCreate, queueDestroy. -/
def Obligations.RegisterAndQueueCommandsComplete : Prop :=
  (∀ (s : State) (c : CmdSlot),
    (Starts s c [] → exec (.cmdNop c) s = .next (completed s c 0 0 0 0)) ∧
    (s.startable c = true → s.safety.safe = true → exec (.cmdNop c) s = .next (completed s c 0 0x13 0 0)) ∧
    (s.startable c = true → s.safety.safe = false → c.reserved [] = true → exec (.cmdNop c) s = .next (completed s c 0 0x0E 0 0)) ∧
    (s.startable c = false → exec (.cmdNop c) s = .next s ∧ exec (.regRead c) s = .next s ∧ exec (.regWrite c) s = .next s) ∧
    (∀ page off, s.startable c = true → c.reserved [(0x08, 8), (0x10, 1)] = false →
      s.cmdReg (c.nat 0x08 8) (c.nat 0x10 1) = some (page, off) → 1 ≤ c.nat 0x10 1 → c.nat 0x10 1 ≤ 4 →
      let r := (s.flight c 1).regWords page off (c.nat 0x10 1)
      exec (.regRead c) s = .next (r.2.finish c 1 0 (natAt r.1 0 8) (natAt r.1 8 8))) ∧
    (∀ page off, Starts s c [(0x08, 8), (0x10, 4), (0x14, 4)] → s.cmdReg (c.nat 0x08 8) 1 = some (page, off) →
      s.regDenied false 0 page off 4 = false →
      let v := (s.flight c 2).maskedValue page off (BitVec.ofNat 32 (c.nat 0x10 4)) (BitVec.ofNat 32 (c.nat 0x14 4))
      exec (.regWrite c) s = .next (((s.flight c 2).regWriteAt 0 page off v).finish c 2 0 0 0)) ∧
    (∀ op status r0 r1, op < 256 → ∃ x, (completed s c op status r0 r1).qm.done = s.qm.done ++ [x] ∧
      x.queue = c.queue ∧ x.cmdId = c.cmdId ∧ x.opcode = BitVec.ofNat 8 op ∧ x.status = BitVec.ofNat 8 status ∧
      x.result0 = BitVec.ofNat 64 r0 ∧ x.result1 = BitVec.ofNat 64 r1 ∧ x.tDone = s.now ∧
      (completed s c op status r0 r1).qm.inFlight.length = s.qm.inFlight.length)) ∧
  (∀ (s : State) (c : CmdSlot),
    let create : List (Nat × Nat) := [(0x08, 2), (0x0A, 1), (0x0B, 1), (0x0C, 1), (0x0D, 1), (0x0E, 1), (0x0F, 1), (0x10, 8),
      (0x18, 2), (0x1A, 2)]
    (∀ q, Starts s c create → s.newQueueOk c = true → s.freeQueue ≠ 32768 →
      (c.nat 0x08 2 = q ∧ q < 32768 ∨ c.nat 0x08 2 = 0xFFFF ∧ q = s.freeQueue) → (s.queue q).valid = false →
      exec (.queueCreate c) s = .next (((s.flight c 0x10).setQueue q c.newQueue).finish c 0x10 0 q 0) ∧
      c.newQueue.pi = 0 ∧ c.newQueue.ci = 0) ∧
    (∀ q, Starts s c create → s.newQueueOk c = true → s.freeQueue ≠ 32768 → c.nat 0x08 2 = q → q < 32768 →
      (s.queue q).valid = true → exec (.queueCreate c) s = .next (completed s c 0x10 0x10 0 0)) ∧
    (∀ q, Starts s c [(0x08, 2)] → c.nat 0x08 2 = q → 2 ≤ q → q < 32768 → (s.queue q).valid = true →
      (s.queueBound q = false →
        exec (.queueDestroy c) s = .next (((s.flight c 0x11).setQueue q {}).finish c 0x11 0 0 0)) ∧
      (s.queueBound q = true → exec (.queueDestroy c) s = .next (completed s c 0x11 0x10 0 0))) ∧
    (∀ (q : QueueId) (f g : Fetched) (l : List Byte) (t : State),
      let x := s.queue q.val
      s.fetchTurn = some q.val →
      ({ s with qm := { s.qm with lastFetch := q.val } } : State).fetchBytes (x.slotAddr x.ci.toNat) 64 f = (0, l, t) →
      t.startable (slotOf q l) = true →
      exec (.commandFetch q f g) s =
        .next ((t.modQueue q.val fun x => { x with ci := x.ci + 1 }).runCommand (natAt l 0 1) (slotOf q l) g)))

/-- Context commands (R204–R206, R211, R216, R217, R348, R391): CTX_CREATE takes a FREE context and advances its generation;
CTX_START runs a stopped one; CTX_STOP with the pattern stopped and no stream active stops it; CTX_QUENCH requests the quench
and waits for it; CTX_DESTROY of an idle context without streams frees its number, which keeps its generation.
Where the spec leaves it open it says what the model chose: notes/assumptions/8.md, 65.md and 82.md.
Completes: ctxCreate, ctxStart, ctxStop, ctxQuench, ctxDestroy. -/
def Obligations.ContextCommandsComplete : Prop :=
  ∀ (s : State) (c : CmdSlot) (n : Nat),
    let x := s.ctx n
    (let id := c.nat 0x08 1;
      let sec := c.nat 0x09 1
      let cls := c.nat 0x0A 1
      let part := c.nat 0x0B 1
      let prio := c.nat 0x0C 1
      let off := c.nat 0x30 4
      Starts s c [(0x08, 1), (0x09, 1), (0x0A, 1), (0x0B, 1), (0x0C, 1), (0x10, 32), (0x30, 4)] →
      (id = n ∧ n < 64 ∨ id = 0xFF ∧ n = s.freeCtx ∧ n < 64) → cls ≤ 2 → part ≤ 7 → prio ≤ 3 → (cls ≠ 1 → prio = 0) →
      x.st = .free → s.qm.imageState = 2 → (s.section_ sec).isSome = true → s.classOk sec cls part = true →
      s.saveOk sec cls off = true →
      let u := (s.flight c 0x30).setCtx n {
        st := .stopped, section_ := sec, cls := cls, part := part, prio := prio, seed := BitVec.ofNat 256 (c.nat 0x10 32),
        saveOff := off, gen := x.gen + 1 }
      exec (.ctxCreate c) s = .next (State.finish { u with pattern := { u.pattern with dropAll := false } } c 0x30 0
        (n + 256 * (x.gen + 1).toNat) 0)) ∧
    (NamesCtx s c n → x.st = .stopped ∨ x.st = .quenched →
      exec (.ctxStart c) s = .next ((((s.flight c 0x31).clearSuspect n).runCtx n).finish c 0x31 0 (256 * x.gen.toNat) 0)) ∧
    (NamesCtx s c n → x.st = .running →
      exec (.ctxStart c) s = .next (completed s c 0x31 0 (256 * x.gen.toNat) 0)) ∧
    (NamesCtx s c n → (s.streamsOf n).all (fun i => (s.stream i).st == 2) = true → x.st = .running → s.patternStopped = true →
      exec (.ctxStop c) s = .next (((s.flight c 0x32).stopCtx n).finish c 0x32 0 0 0)) ∧
    (NamesCtx s c n → x.st = .running ∨ x.st = .stopped →
      exec (.ctxQuench c) s = .next ((s.flight c 0x33).setCtx n { x with
        st := .quenching, cause := 5, quenchReq := x.quenchReq ++ [(c.queue, c.cmdId, 0)] })) ∧
    (NamesCtx s c n → x.st = .quenched →
      exec (.ctxQuench c) s = .next (completed s c 0x33 0x0C (256 * x.gen.toNat) 0)) ∧
    (NamesCtx s c n → x.st = .stopped ∨ x.st = .quenched → s.streamsOf n = [] →
      ∃ t, exec (.ctxDestroy c) s = .next t ∧ (t.ctx n).st = .free ∧ (t.ctx n).gen = x.gen ∧
        ∀ m, m ≠ n → t.ctx m = s.ctx m) ∧
    (Starts s c [(0x08, 1), (0x09, 1)] → c.nat 0x09 1 ≠ (s.gen (c.nat 0x08 1)).toNat →
      exec (.ctxStart c) s = .next (completed s c 0x31 0x0E 0 0) ∧ exec (.ctxStop c) s = .next (completed s c 0x32 0x0E 0 0) ∧
      exec (.ctxQuench c) s = .next (completed s c 0x33 0x0E 0 0) ∧
      exec (.ctxDestroy c) s = .next (completed s c 0x34 0x0E 0 0))

/-- The image, the tables, the pattern and the dump as commands (R200, R201, R285, R351, R396, R408): a load reads its container,
installs it where every check passes; the entries of a PATTERN_WRITE go to the inactive bank;
PATTERN_SWITCH waits for its boundary; one dump runs at a time.
Where the spec leaves it open it says what the model chose: notes/assumptions/69.md and 70.md.
Completes: imageLoad, tableLoad, patternWrite, patternSwitch, dump. -/
def Obligations.LoadCommandsComplete : Prop :=
  ∀ (s : State) (c : CmdSlot) (f : Fetched),
    (∀ l u, Starts s c [(0x08, 8), (0x10, 8)] → s.qm.imageState = 0 → s.ctxs.all (fun e => e.2.st == .free) = true →
      let a : W64 := BitVec.ofNat 64 (c.nat 0x08 8)
      (s.flight c 0x20).fetchContainer a (c.nat 0x10 8) f = (0, l, u) →
      let r := u.loadImage (c.nat 0x10 8) l (if nodeOf a = u.node then localOf a else 0)
        (if nodeOf a = u.node then localOf a + c.nat 0x10 8 else 0)
      exec (.imageLoad c f) s = .next (r.2.2.finish c 0x20 r.1 0 r.2.1)) ∧
    (∀ h t l u, Starts s c [(0x08, 1), (0x09, 1), (0x10, 8)] → c.nat 0x08 1 ≤ 15 →
      let a : W64 := BitVec.ofNat 64 (c.nat 0x10 8)
      a.toNat % 16 = 0 → (s.flight c 0x21).fetchBytes a 16 f = (0, h, t) →
      t.fetchBytes a (16 + min (natAt h 2 2) 256 / 2) f = (0, l, u) →
      let r := u.loadTable (c.nat 0x08 1) (BitVec.ofNat 8 (c.nat 0x09 1)) l
      exec (.tableLoad c f) s = .next (r.2.finish c 0x21 r.1 0 0)) ∧
    (let first := c.nat 0x10 2;
      let n := c.nat 0x12 2
      Starts s c [(0x08, 8), (0x10, 2), (0x12, 2)] → 0 < n → first + n ≤ 512 → s.pattern.pendingSwitch = false →
      ∀ l u, (s.flight c 0x50).fetchBytes (BitVec.ofNat 64 (c.nat 0x08 8)) (16 * n) f = (0, l, u) →
        exec (.patternWrite c f) s = .next ((u.putEntries first l n).finish c 0x50 0 0 0) ∧
        ∀ e, e < 512 → (u.putEntries first l n).ptEntry u.pattern.bank e = u.ptEntry u.pattern.bank e) ∧
    (Starts s c [] → s.pattern.pendingSwitch = false → s.bankCheck (!s.pattern.bank) 0 0 0 512 = none →
      ∃ t, exec (.patternSwitch c) s = .next t ∧ t.pattern = { s.pattern with pendingSwitch := true, switchT := s.now } ∧
        t.qm.switchCmd = some (c.queue, c.cmdId)) ∧
    (s.startable c = true → c.reserved [(0x08, 8), (0x10, 8)] = false → c.nat 0x08 8 = 0 →
      (s.hang.dumping = none → exec (.dump c) s =
        .next ((s.flight c 0x60).dumpStart (some (c.queue, c.cmdId)) 0 (c.nat 0x10 8) 0)) ∧
      (s.hang.dumping.isSome = true → exec (.dump c) s = .next (completed s c 0x60 0x10 0 0)))

/-- Stream commands (R145, R146, R148, R154–R157): STREAM_OPEN takes the lowest FREE entry of this device's half, which opens at a
boundary, or says why not; close, park and unpark take their place among the commands of the stream; STREAM_RESET sets the
pending mark. What the stream manager does between commands (R145, R146, R167, R171, R362): the work lists of a context are
written once its inputs have arrived; a staged commit is copied out and its record pushed; a due park writes its record, and
releases the slots where the write succeeds; a due unpark without room is put back; the mirror export of a bar ends when its
pieces have left. A close waits for the staged commits of its stream and then frees the entry.
Where the spec leaves it open it says what the model chose: notes/assumptions/57.md, 68.md, 92.md and 104.md.
Completes: queueOutputCommit, mirrorExport, parkRecordWrite, unparkRun, workListReady, streamOpen, streamClose, streamReset,
streamPark, streamUnpark. -/
def Obligations.StreamCommandsAndEventsAct : Prop :=
  (∀ (s : State) (c : CmdSlot) (i : Nat),
    let x := s.stream i
    (Starts s c [(0x08, 48)] → c.openReserved = false →
      let r := (s.flight c 0x40).openStream c.openArgs
      exec (.streamOpen c) s = .next (r.2.2.finish c 0x40 r.1 r.2.1 0) ∧
      (r.1 = 0 → (s.stream r.2.1).st = 0 ∧ (r.2.2.stream r.2.1).st = 6 ∧ (r.2.2.stream r.2.1).firstChunk = true ∧
        (r.2.2.stream r.2.1).ctx = c.openArgs.ctx ∧ ∀ j, j ≠ r.2.1 → r.2.2.stream j = s.stream j)) ∧
    (c.nat 0x08 2 = i → i < 2048 → x.st ≠ 0 →
      (Starts s c [(0x08, 2)] → exec (.streamClose c) s = .next ((s.flight c 0x41).streamCmd i 0x41 c.queue c.cmdId 0)) ∧
      (Starts s c [(0x08, 2), (0x10, 8)] → c.nat 0x10 8 % 256 = 0 →
        exec (.streamPark c) s =
          .next ((s.flight c 0x43).streamCmd i 0x43 c.queue c.cmdId (BitVec.ofNat 64 (c.nat 0x10 8))) ∧
        exec (.streamUnpark c) s =
          .next ((s.flight c 0x44).streamCmd i 0x44 c.queue c.cmdId (BitVec.ofNat 64 (c.nat 0x10 8)))) ∧
      (Starts s c [(0x08, 2), (0x0A, 1), (0x0C, 2), (0x10, 8)] → c.nat 0x0A 1 = 0 → c.nat 0x0C 2 < x.recFrames →
        (x.resetPending = false →
          exec (.streamReset c) s = .next (((s.flight c 0x42).setStream i { x with
            resetPending := true, resetAt := if x.st = 2 ∨ x.st = 4 then 0 else c.nat 0x0C 2,
            tReset := BitVec.ofNat 64 (c.nat 0x10 8), resetBar := s.barNow }).finish c 0x42 0 0 0)) ∧
        (x.resetPending = true → exec (.streamReset c) s = .next (completed s c 0x42 0x10 0 0)))) ∧
    (Starts s c [(0x08, 2)] → c.nat 0x08 2 = i → x.st = 0 →
      exec (.streamClose c) s = .next (completed s c 0x41 0x0E 0 0))) ∧
  (∀ (s : State),
    (∀ (n : CtxId) (cut : W64), (s.ctx n.val).cutoff = some cut → (s.ctx n.val).listReady = none → s.readsOpen n.val = false →
      let u := (s.writeLists n.val s.pattern.bar cut).agentDone Page.streams (BitVec.ofNat 64 n.val)
      let u := u.modCtx n.val fun x => { x with listReady := some u.now }
      let u := u.setFld Page.streams Reg.SM_WL_TIME_MAX 0 20
        (max (u.fld Page.streams Reg.SM_WL_TIME_MAX 0 20) (min ((u.now - cut).toNat / 256) 0xFFFFF))
      u.isBE n.val = false → exec (.workListReady n) s = .next ((u.ctxCores n.val).foldl (fun s c => s.resched c) u)) ∧
    (∀ (i : StreamId) (w : StreamCmd) rest (status : Byte), (s.stream i.val).waiting = w :: rest → (s.stream i.val).st = 3 →
      (s.stream i.val).due = true → s.stepsDone (s.stream i.val) = true →
      let r := s.writeGlobal (.ctx (Fin.ofNat 64 (s.stream i.val).ctx)) 6 w.record (s.parkRecord i.val (s.stream i.val).dueT)
      let back (e : Nat) : State :=
        (r.2.setStream i.val { s.stream i.val with st := 1, due := false, activeInBar := true }).finishWait i.val 0x43 e
      (r.1 ≠ 0 → exec (.parkRecordWrite i status) s = .next (back r.1)) ∧
      (r.1 = 0 → nodeOf w.record ≠ r.2.node → status = 0x0D → exec (.parkRecordWrite i status) s = .next (back 0x0D)) ∧
      (r.1 = 0 → (nodeOf w.record = r.2.node ∨ status = 0) →
        let u := ((s.stream i.val).slots.foldl (fun (s : State) v =>
          s.xfer (v.1 / 16) (32 * (s.region (v.1 / 16) (v.1 % 16)).lines)) r.2).bindIfMirrored i.val 1
        exec (.parkRecordWrite i status) s = .next ((u.modStream i.val fun y => { y with
          st := 2, slots := [], due := false, activeInBar := false,
          resetAt := if y.resetPending then 0 else y.resetAt }).finishWait i.val 0x43 0))) ∧
    (∀ (i : StreamId) (w : StreamCmd) rest (f : Fetched), (s.stream i.val).waiting = w :: rest → (s.stream i.val).st = 4 →
      (s.stream i.val).due = true →
      let back (u : State) (e : Nat) : State := (u.modStream i.val fun y => { y with st := 2, due := false }).finishWait i.val 0x44 e
      (∀ e h u, e ≠ 0 → s.readRecord i.val w.record f 0 32 = (e, h, u) → exec (.unparkRun i f) s = .next (back u e)) ∧
      (∀ h0 u0 h u, s.readRecord i.val w.record f 0 32 = (0, h0, u0) →
        u0.readRecord i.val w.record f 0 (parkHeadBytes h0) = (0, h, u) →
        let ds := parkDescs h
        let free := u.allocIn (u.mirroredSection (s.stream i.val).section_) (ds.map fun d => (d.1, d.2.1)).eraseDups
        (free = none → exec (.unparkRun i f) s = .next (back u 0x06)) ∧
        (∀ m, free = some m → u.parkMatches i.val h = false → exec (.unparkRun i f) s = .next (back u 0x0E)) ∧
        (∀ m l v, free = some m → u.parkMatches i.val h = true →
          u.readRecord i.val w.record f (parkHeadBytes h) ((ds.map fun d => 32 * d.2.2.2.1).sum) = (0, l, v) →
          let put := ds.foldl (fun (s : State) d =>
            (s.putImage d.1 d.2.1 (SMap.get m (16 * d.1 + d.2.1) 0)
              (bytesAt l (d.2.2.2.2.2 - parkHeadBytes h) (32 * d.2.2.2.1))).xfer d.1 (32 * d.2.2.2.1)) v
          exec (.unparkRun i f) s = .next (((put.modStream i.val fun y => { y with
            st := 1, slots := m, due := false, activeInBar := true }).bindIfMirrored i.val 0).finishWait i.val 0x44 0)))) ∧
    (∀ (i : StreamId) (o : OutCommit) (copyStatus pushStatus : Byte), (s.stream i.val).outCommits = [o] → s.pair.st ≠ 2 →
      o.payload ≠ [] →
      let x := s.stream i.val
      let a := x.outBufBase + BitVec.ofNat 64 (x.outBufNext * x.outBufSize)
      nodeOf a = s.node → x.outNode = s.node →
      let u := (s.setStream i.val { x with outCommits := [] }).agentDone Page.streams (BitVec.ofNat 64 (4096 + i.val))
      let r := u.writeGlobal .sys 4 a o.payload
      let fail (t : State) : State := (t.count Page.streams Reg.SM_PUSH_FAIL_COUNT).setFlag Page.streams Reg.SM_FLAGS 5 true
      let record : ChunkRec :=
        { stream := i.val, status := if o.ok then 0 else 1, cause := o.cause, length := o.payload.length, tBar := o.tBar,
          tFirst := o.tFirst, buf := a }
      let p := r.2.push x.outQueue s.node true record.toBytes
      (r.1 ≠ 0 → exec (.queueOutputCommit i copyStatus pushStatus) s = .next ((fail r.2).closeAfter i.val)) ∧
      (r.1 = 0 → p.1 ≠ 0 → exec (.queueOutputCommit i copyStatus pushStatus) s = .next ((fail p.2).closeAfter i.val)) ∧
      (r.1 = 0 → p.1 = 0 → exec (.queueOutputCommit i copyStatus pushStatus) s =
        .next ((p.2.modStream i.val fun x =>
          { x with outBufNext := (x.outBufNext + 1) % (x.outBufCountM1 + 1) }).closeAfter i.val))) ∧
    (∀ bar, s.pattern.exportBar = some bar →
      ∃ t, exec .mirrorExport s = .next t ∧ t.pattern = { s.pattern with exportBar := none, exportZ := none } ∧
        t.pair.unread = [] ∧ t.pair.kept = [] ∧ t.pair.exporting = false ∧ t.pair.exportDone = true ∧ t.streams = s.streams))

/-- Pair configuration, binds and audits (R356, R357, R361, R365): a legal enable stores the configuration and, where pair operation
starts, leaves the partner UNKNOWN; an illegal one leaves EN at 0 and is recorded. The words of a bind record are held; its
last word queues it for the next boundary, or counts it where its index is this device's own. An audit report raises AUDIT.
Where the spec leaves it open it says what the model chose: notes/assumptions/40.md, 57.md and 58.md.
Completes: mrCtrlEnable, mrBindInWrite, mrAuditIn. -/
def Obligations.PairConfigurationActs : Prop :=
  ∀ (s : State) (src : NodeId),
    (∀ v : W32, s.locked Page.mirror = false → v.getLsbD 0 = true →
      let w := bitsOf v.toNat 0 7 + 256 * bitsOf v.toNat 8 11
      let legal := bitsOf w 2 5 ≠ 0 ∧ bitsOf w 2 5 ≠ 31 ∧ bitsOf w 2 5 ≠ s.node ∧ bitsOf w 8 11 ≠ 0
      (legal → s.pairOn = false → ∃ t, exec (.mrCtrlEnable src v) s = .next t ∧
        t.reg Page.mirror Reg.MR_CTRL = BitVec.ofNat 32 w ∧ t.pairOn = true ∧ t.partner = bitsOf w 2 5 ∧
        t.pair.st = 0 ∧ t.pair.missRun = 0 ∧ t.pair.sensing = false ∧ t = { s with regs := t.regs, pair := t.pair }) ∧
      (legal → s.pairOn = true →
        exec (.mrCtrlEnable src v) s = .next (s.setReg Page.mirror Reg.MR_CTRL (BitVec.ofNat 32 w))) ∧
      (¬ legal → ∃ t, exec (.mrCtrlEnable src v) s = .next t ∧ t.pairOn = false ∧
        t.flag Page.mirror Reg.PG_ERR_STATUS 28 = true ∧ t = { s with regs := t.regs })) ∧
    (∀ words : List W32, words.length = 16 →
      let i := bitsOf (words.getD 15 0).toNat 21 11
      ∃ t, exec (.mrBindInWrite src words) s = .next t ∧ (∀ k, k < 16 → SMap.get t.pair.bind k 0 = words.getD k 0) ∧
        (s.ownHalf.1 ≤ i → i < s.ownHalf.2 → t.pair.binds = s.pair.binds) ∧
        (¬ (s.ownHalf.1 ≤ i ∧ i < s.ownHalf.2) → t.pair.binds = s.pair.binds ++ [words])) ∧
    (∀ v : W32,
      let i := bitsOf v.toNat 0 11
      ((s.stream i).st = 0 → exec (.mrAuditIn src v) s = .next (s.raiseMech 10 none)) ∧
      ((s.stream i).st ≠ 0 → exec (.mrAuditIn src v) s =
        .next ((s.setStream i { s.stream i with auditBars := [] }).raiseMech 10 (some (s.stream i).ctx))))

/-- Tolls and the takeover (R312, R360, R366–R369): an armed device tolls at each of its instants; a toll of the open window counts
and makes an UNKNOWN partner ALIVE, a pulse in a later window's time counts for that window, and one shorter than 2 µs does
nothing; at the third window silent on both paths the partner is FAILED; edges on a ball that is sensed prevent the drive, and
without them the takeover ports are driven. A MIRROR piece is staged or discarded, and acknowledged.
Where the spec leaves it open it says what the model chose: notes/assumptions/55.md and 56.md.
Completes: mirror, toll, tollSend, tollInPulse, tollWindowEnd, takeoverDrive. -/
def Obligations.PartnerIsWatched : Prop :=
  ∀ (s : State) (port : PortId) (vc : Fin 8) (p : Packet),
    let as (t : Byte) : Packet := { p with ttype := t }
    (Delivered s port.val vc.val (as 0x40) →
      exec (.mirror port vc p) s = .next ((s.importPiece (as 0x40)).respond (as 0x40) 0x21 0 0 [])) ∧
    (Delivered s port.val vc.val (as 0x41) → s.pairOn = true → p.src.toNat = s.partner →
      let seq := bitsOf p.operand.toNat 0 32
      let status := bitsOf p.operand.toNat 32 32
      let u := s.trace 4 (eventBytes s.now 0x43 0x00F none 0 0 0 seq status)
      bitsOf status 8 8 = s.peerBgen s.partner → s.tollNow = s.pair.rxK → seq = s.pair.rxK % 2 ^ 32 →
      (bitOf status 1 = false → exec (.toll port vc p) s = .next
        { u with pair := { u.pair with linkToll := true, st := if s.pair.st = 0 then 1 else s.pair.st } }) ∧
      (bitOf status 1 = true → exec (.toll port vc p) s = .next u.declareFailed)) ∧
    (s.safety.armed = true → s.safety.safe = false →
      ∃ t, exec .tollSend s = .next t ∧ s.pair.txK + 1 ≤ t.pair.txK ∧ t.safety = { s.safety with tollOut := true } ∧
        s.now.toNat ≤ t.now.toNat) ∧
    (∀ ns, s.pairOn = true → 2000 ≤ ns →
      (s.tollNow = s.pair.rxK → exec (.tollInPulse ns) s =
        .next { s with pair := { s.pair with pinToll := true, st := if s.pair.st = 0 then 1 else s.pair.st } }) ∧
      (s.tollNow ≠ s.pair.rxK → exec (.tollInPulse ns) s =
        .next { s with pair := { s.pair with pinNext := s.tollNow + 1, st := if s.pair.st = 0 then 1 else s.pair.st } })) ∧
    (∀ ns, ns < 2000 → exec (.tollInPulse ns) s = .next s) ∧
    (s.pairOn = true → s.pair.pinToll = true → s.pair.linkToll = true →
      ∃ t, exec .tollWindowEnd s = .next t ∧ t.pair.missRun = 0 ∧ t.pair.st = s.pair.st ∧ s.pair.rxK < t.pair.rxK ∧
        t.pair.pinToll = (s.pair.pinNext == t.pair.rxK + 1) ∧ t.pair.linkToll = (s.pair.linkNext == t.pair.rxK + 1)) ∧
    (s.pairOn = true → s.pair.pinToll = false → s.pair.linkToll = false → 2 ≤ s.pair.missRun → s.pair.st ≠ 2 →
      ∃ t, exec .tollWindowEnd s = .next t ∧ t.pair.st = 2 ∧ t.pair.sensing = true ∧ t.flag Page.safety Reg.SF_FAULT 9 = true) ∧
    (s.pair.sensing = true →
      (s.senses = true →
        let u := s.reach s.driveAt
        exec (.takeoverDrive true) s =
          .next (State.raiseMech { u with pair := { u.pair with sensing := false, st := 1, missRun := 0 } } 15 none)) ∧
      ∀ edges, (edges && s.senses) = false → ∃ t, exec (.takeoverDrive edges) s = .next t ∧ t.pair.sensing = false ∧ t.pair.driven = true ∧
        ∀ b, b < 12 → bitOf (s.fld Page.mirror Reg.MR_TAKEOVER_PORTS 0 14) b = true →
          t.flag (Page.audio b) Reg.AP_CTRL 0 = false ∧ (t.port b).standby = false)

/-- The safety manager (R372–R376, R449): raising a mechanism sets its SF_FAULT bit and acts by its class; the entry into safe state
raises no output: FAULT_N falls, the outputs go high-impedance and no context stays RUNNING; arming starts tolling and
releases FAULT_N; a lost clock is recorded and counted; a failed end-to-end check, comparison or self-test raises its mechanism.
Where the spec leaves it open it says what the model chose: notes/assumptions/60.md and 100.md.
Completes: e2eCheck, configCompare, lftCycle, mechanismRaise, safeStateEntry, sfArm. -/
def Obligations.SafetyMechanismsAct : Prop :=
  ∀ (s : State),
    (∀ (m : Fin 16) (n : CtxId), ∃ t, exec (.mechanismRaise m (some n) none) s = .next t ∧
      t.flag Page.safety Reg.SF_FAULT m.val = true ∧
      (s.mechClass m.val = 2 → (s.ctx n.val).st = .running → (t.ctx n.val).st = .quenching) ∧
      (s.mechClass m.val = 3 → t.safety.safeDue = true) ∧
      (s.mechClass m.val = 0 → t.ctxs = s.ctxs ∧ t.safety.safeDue = s.safety.safeDue)) ∧
    (∀ k : Fin 9, k.val ≠ 8 → ∃ t, exec (.mechanismRaise 1 none (some k)) s = .next t ∧ t.power.clkLost.contains k.val = true ∧
      ((s.reg Page.clocks Reg.CK_LOSS_COUNT).toNat < 0xFFFFFFFF →
        t.reg Page.clocks Reg.CK_LOSS_COUNT = s.reg Page.clocks Reg.CK_LOSS_COUNT + 1)) ∧
    (s.safety.safeDue = true → s.safety.safe = false →
      ∃ t, exec .safeStateEntry s = .next t ∧ t.safety.safe = true ∧ t.safety.faultN = false ∧ t.safety.tollOut = false ∧
        (∀ p, p < 20 → (t.port p).driving = false) ∧
        ∀ n, n < 64 → (t.ctx n).st = .free ∨ (t.ctx n).st = .quenched) ∧
    (∀ src : NodeId, s.locked Page.safety = false → s.safety.armed = false → s.safety.safe = false →
      ∃ t, exec (.sfArm src) s = .next t ∧ t.safety = { s.safety with armed := true, faultN := true } ∧
        t.flag Page.safety Reg.SF_CTRL 0 = true ∧ t = { s with regs := t.regs, safety := t.safety }) ∧
    (∀ (k : Fin 16),
      let v := (s.reg Page.safety (Reg.SF_E2E + 8 * k.val)).toNat
      let r := bitsOf v 1 5
      let ch := bitsOf v 6 4
      let x := s.port (ringPort r)
      let slot := (s.ringShape r).slot
      let key := 16 * (x.taken / slot - 1) + ch
      bitOf v 0 = true → ringIsOut r = true → 0 < slot → slot ≤ x.taken → x.unmarked = false →
      ∀ a b, SMap.get (s.ring r).commitCrc key none = some a → SMap.get x.playCrc ch none = some b →
        (a = b → exec (.e2eCheck k) s = .next s) ∧
        (a ≠ b → exec (.e2eCheck k) s =
          .next ((s.count Page.safety (Reg.SF_E2E_COUNT + 8 * k.val)).raiseMech 6 none))) ∧
    (∀ k : Fin 20,
      let pg := (comparePair k.val).1
      let off := (comparePair k.val).2
      s.locked pg = true →
      (s.reg pg off = ~~~ s.reg pg (off + 0x800) → exec (.configCompare k true true) s = .next s) ∧
      (exec (.configCompare k true false) s =
        .next ((s.setReg pg (off + 0x800) (~~~ s.reg pg off)).count Page.safety Reg.SF_CFG_CORR_COUNT)) ∧
      (exec (.configCompare k false true) s =
        .next ((s.setReg pg off (~~~ s.reg pg (off + 0x800))).count Page.safety Reg.SF_CFG_CORR_COUNT)) ∧
      ∃ t, exec (.configCompare k false false) s = .next t ∧ t.flag Page.safety Reg.SF_FAULT 11 = true) ∧
    (let u := s.reach (s.safety.lftAt + BitVec.ofNat 64 (s.fld Page.safety Reg.SF_CTRL 16 10 * 256000000));
      exec (.lftCycle none) s = .next { u with safety := { s.safety with
        lftAt := u.now, lftPass := true, lftFailed := 0, lftCycles := min (s.safety.lftCycles + 1) 0xFFFF } }) ∧
    (∀ i : Fin 256, ∃ t, exec (.lftCycle (some i)) s = .next t ∧ t.safety.lftPass = false ∧
      t.safety.lftFailed = BitVec.ofNat 8 i.val ∧ t.flag Page.safety Reg.SF_FAULT 12 = true)

/-- Hangs and resets of engines and partitions (R382–R386): with detection on, an examination looks for a cycle and then at every
wait; a wait below its threshold changes nothing. An engine or partition reset empties the queues it covers and ends its level; a level that does not complete gives way to the next.
Replay and dump (R389, R396): at a boundary the lowest-numbered quenched suspect starts its replay, and runs again once its
slots are restored; an access of a dump that times out marks its unit dead, once; a dump that ends is counted, leaves its
length, and completes its command.
Where the spec leaves it open it says what the model chose: notes/assumptions/61.md, 62.md, 86.md and 103.md.
Completes: hangExamine, engineReset, partitionReset, resetEscalation, replayStart, dumpAccessTimeout, dumpDone,
checkpointRestoreDone. -/
def Obligations.HangsReplayAndDumpRun : Prop :=
  (∀ (s : State),
    (let u := s.reach (s.hang.examAt + 2560000);
      let v : State := { u with hang := { s.hang with examAt := u.now } }
      (s.flag Page.hang Reg.HG_CTRL 0 = true → exec .hangExamine s =
        .next (v.examineCycle.hang.waits.foldl (fun s w => s.examine w) v.examineCycle)) ∧
      (s.flag Page.hang Reg.HG_CTRL 0 = false → exec .hangExamine s = .next v)) ∧
    (∀ w, s.waitHung w = false → s.examine w = s) ∧
    (∀ (c : CoreId), s.hang.lastEngineReset = [] → s.hang.level = 1 → s.hang.more = [] →
      (s.hang.due = (c.val, 1) → ∃ t, exec (.engineReset c .matrix) s = .next t ∧ (t.core c.val).matrixQ = [] ∧
        (t.core c.val).banks = [] ∧ t.hang.level = 0) ∧
      (s.hang.due = (c.val, 2) → ∃ t, exec (.engineReset c .vector) s = .next t ∧ (t.core c.val).vectorQ = [] ∧ (t.core c.val).masks = [] ∧
        (t.core c.val).sums = [] ∧ t.hang.level = 0)) ∧
    (∀ p : Fin 8, s.hang.level = 2 → s.hang.due = (p.val, 0) → s.hang.more = [] →
      ∃ t, exec (.partitionReset p) s = .next t ∧ t.hang.level = 0 ∧
        ∀ c, c < 32 → bitOf (s.reg Page.pattern (Reg.PART_CORES + 16 * p.val)).toNat c = true →
          (∀ q, (t.core c).queue q = []) ∧ (t.core c).banks = [] ∧ (t.core c).tokens = [] ∧ (t.core c).tiles = []) ∧
    (let u := s.reach s.levelEnd;
      (∀ p, s.hang.level = 1 → s.hang.due.2 ≠ 6 → s.partOf s.hang.due.1 = some p →
        exec .resetEscalation s = .next (u.levelBecomes 2 p 0)) ∧
      (s.hang.level = 2 → s.flag Page.hang Reg.HG_CTRL 1 = true → exec .resetEscalation s = .next (u.levelBecomes 3 2 0)) ∧
      (s.hang.level = 2 → s.flag Page.hang Reg.HG_CTRL 1 = false → exec .resetEscalation s = .next (u.levelBecomes 0 0 0).enterSafe) ∧
      (s.hang.level = 3 → ∃ t, exec .resetEscalation s = .next t ∧ t.hang.powerCycleReq = true ∧ t.safety.safe = true)) ∧
    (∀ e, (s.hang.dueSince.find? fun e => e.1 == (s.hang.level, s.hang.due)) = some e →
      (s.hang.level = 1 → s.levelEnd = e.2 + 51200000) ∧ (s.hang.level = 2 → s.levelEnd = e.2 + 512000000) ∧
      (s.hang.level = 3 → s.levelEnd = e.2 + 384000000000))) ∧
  (∀ (s : State),
    (∀ n, s.replayTurn = true → n < 64 →
      s.hang.suspects.contains n = true → (s.ctx n).st = .quenched →
      (∀ m, m < n → s.hang.suspects.contains m = false ∨ (s.ctx m).st ≠ .quenched) →
      exec .replayStart s = .next (State.logEvent { s with hang := { s.hang with replaying := some (Fin.ofNat 64 n, false) } }
        0x18 0x009 (some n) (s.gen n).toNat 0 s.pattern.bar (s.ckptBar n))) ∧
    (∀ n : CtxId, s.hang.replaying = some (n, false) →
      let u := s.restoreCtx n.val
      let u := (u.streamsOf n.val).foldl (fun s i => s.returnRetained i) u
      exec .checkpointRestoreDone s = .next (State.runCtx { u with hang := { u.hang with replaying := some (n, true) } } n.val)) ∧
    (∀ (j : DumpJob) (unit : Fin 2048), s.hang.dumping = some j → ¬ (0x460 ≤ unit.val ∧ unit.val < 0x464) →
      (s.hang.deadUnits.contains unit.val = false → exec (.dumpAccessTimeout unit) s = .next
        (State.count { s with hang := { s.hang with deadUnits := s.hang.deadUnits ++ [unit.val] } } Page.dump Reg.DM_DEAD_COUNT)) ∧
      (s.hang.deadUnits.contains unit.val = true → exec (.dumpAccessTimeout unit) s = .next s)) ∧
    (∀ j : DumpJob, s.hang.dumping = some j →
      (j.sent = none → j.dest = 0 ∨ nodeOf j.dest = s.node → ∃ t, exec .dumpDone s = .next t ∧ t.hang.dumping = none ∧
        (j.dest = 0 → t.hang.dumpInBuf = true) ∧
        (∀ c, j.cmd = some c → ∃ x, t.qm.done.getLast? = some x ∧ x.queue = c.1 ∧ x.cmdId = c.2 ∧ x.opcode = 0x60 ∧ x.status = 0)) ∧
      (j.sent = none → j.dest ≠ 0 → nodeOf j.dest ≠ s.node → s.refuseRequest (nodeOf j.dest) = none →
        exec .dumpDone s = .next (s.dumpSend j)) ∧
      (∀ flags n, j.sent = some (flags, n, 0) → exec .dumpDone s = .next (s.dumpComplete j flags n)) ∧
      (∀ flags n k, j.sent = some (flags, n, k + 1) → exec .dumpDone s = .next s)))

/-- Reset pins and supplies (R387, R401, R402, R459): power-on reset ends with its pin once the supplies are good, and the ROM
starts with the straps as captured; its fall leaves only the fuses, the pins and the waiting commands; a warm reset advances
the boot generation and keeps the timebase and the fuses; WRESET_N low for 200 ns starts one, and holds the ROM until it
rises, while a fall in power-on reset does nothing; PWRGD low, or a supply out of its range for 200 ns, raises VOLTAGE while the device runs.
Where the spec leaves it open it says what the model chose: notes/assumptions/88.md.
Completes: chipWarmReset, poresetRise, wresetFall, supplyFault, poresetFall, pwrgdRise, wresetRise. -/
def Obligations.ResetPinsAct : Prop :=
  ∀ (s : State),
    (∀ (b : BitVec 2) (e : Bool) (o : RomObs), s.pins.poreset = false →
      let u : State := { s with sec := { s.sec with bootSrc := b, bridgeEn := e, obs := o },
                                pins := { s.pins with poreset := true, resetAt := s.now } }
      (s.pins.pwrgd = true → exec (.poresetRise b e o) s = .next u.powerOn ∧ u.powerOn.pins.held = false) ∧
      (s.pins.pwrgd = false → exec (.poresetRise b e o) s = .next { u with pins := { u.pins with held := true } })) ∧
    (s.pins.poreset = true → s.pins.held = true →
      exec .pwrgdRise s = .next (State.powerOn { s with pins := { s.pins with pwrgd := true } })) ∧
    (s.pins.held = false → exec .pwrgdRise s = .next { s with pins := { s.pins with pwrgd := true } }) ∧
    (∃ t, exec .poresetFall s = .next t ∧ t.sec.fuses = s.sec.fuses ∧ t.pins.poreset = false ∧ t.pending = s.pending ∧
      t.free = s.free ∧ t.regs = [] ∧ t.ctxs = [] ∧ t.cores = [] ∧ t.streams = [] ∧ t.fab = {} ∧ t.mem = {} ∧ t.qm = {} ∧
      t.safety = {} ∧ t.hang = {} ∧ t.time = {} ∧ t.sec = { fuses := s.sec.fuses }) ∧
    (s.pins.poreset = true → s.pins.wreset = true → ∀ (source : Fin 4), source.val ≠ 2 →
      ∃ t, exec (.chipWarmReset source) s = .next t ∧ t.fab.bgen = s.fab.bgen + 1 ∧ t.time = s.time ∧ t.ctxs = [] ∧
        t.qm.image = none ∧ t.sec.fuses = s.sec.fuses ∧ t.fab.nodeId = s.fab.nodeId ∧
        t.reg Page.device Reg.DV_RESET_CAUSE = BitVec.ofNat 32 (2 * source.val)) ∧
    (s.pins.poreset = false → ∀ source, exec (.chipWarmReset source) s = .next s) ∧
    (s.pins.poreset = true → s.pins.wreset = true →
      exec .wresetFall s = .next (State.chipReset { s with pins := { s.pins with wreset := false } } 0)) ∧
    (s.pins.poreset = false → exec .wresetFall s = .next s) ∧
    (s.pins.poreset = true → s.pins.wreset = false →
      exec .wresetRise s = .next (State.romStart { s with pins := { s.pins with wreset := true } } true)) ∧
    (s.pins.poreset = true → s.pins.held = false →
      (∀ k, exec (.supplyFault (.pwrgd k)) s = .next (State.raiseMech { s with pins := { s.pins with pwrgd := false } } 2 none)) ∧
      (∀ r mv ns, 200 ≤ ns → (mv < (railRange r).1 ∨ (railRange r).2 < mv) →
        exec (.supplyFault (.rail r mv ns)) s = .next (s.raiseMech 2 none))) ∧
    (∀ r mv ns, ns < 200 ∨ ((railRange r).1 ≤ mv ∧ mv ≤ (railRange r).2) → exec (.supplyFault (.rail r mv ns)) s = .next s)

/-- Boot (R401–R408): a container that verifies starts the firmware from its copy; a failure of copy A tries copy B, and one of copy
B opens the boot window to the host; SEC_BOOT_GO verifies the window's container while the ROM waits for it; with every
channel trained or failed the firmware arms the safety manager and the device is READY.
Where the spec leaves it open it says what the model chose: notes/assumptions/63.md.
Completes: flashReadDone, firmwareReady, secBootGo. -/
def Obligations.BootVerifies : Prop :=
  ∀ (s : State) (src : NodeId),
    (∀ (c : List Byte), s.sec.boot = 0 → s.sec.bootSrc.toNat < 2 → s.sec.trngStartup = true →
      let e := containerCause s.sec.fuses 1 1048576 c
      exec (.flashReadDone false c) s = .next { s with sec :=
        if e = 0 then { s.sec with
            boot := 3, source := s.sec.copy + 1, windowOpen := false, cause := 0, fwSigner := c.getD 7 0,
            fwHash := bytesAt c 0x20 32, fwSvn := natAt c 8 1, fwAdvance := bitOf (natAt c 9 1) 0 }
        else if s.sec.copy = 0 then { s.sec with aCause := e, copy := 1 }
        else if s.dramTrained then { s.sec with cause := e, boot := 1, windowOpen := true, await := 0 }
        else { s.sec with cause := e, boot := 5, windowOpen := false, await := 1 } }) ∧
    (∀ c, s.sec.boot = 0 → s.sec.bootSrc.toNat < 2 → s.sec.trngStartup = true → s.sec.copy = 0 →
      exec (.flashReadDone true c) s = .next { s with sec := { s.sec with aCause := 1, copy := 1 } }) ∧
    (s.sec.boot ≠ 1 → exec (.secBootGo src) s = .next (s.writeRefused Page.security Reg.SEC_BOOT_GO src.val)) ∧
    (s.sec.boot = 1 →
      let w := s.windowContainer
      let e := containerCause w.2.sec.fuses 1 1048576 w.1
      exec (.secBootGo src) s = .next (if e = 0 then w.2.bootFirmware 3 w.1
        else { w.2 with sec := { w.2.sec with cause := e, windowOpen := true } })) ∧
    (s.sec.boot = 3 → (∀ ch, ch < 16 → s.mem.trained.contains ch = true ∨ s.mem.failed.contains ch = true) →
      ∃ t, exec .firmwareReady s = .next t ∧ t.sec.boot = 4 ∧ s.sec.fuses.fwSvn ≤ t.sec.fuses.fwSvn ∧
        (s.locked Page.safety = false → s.safety.safe = false → t.safety.armed = true) ∧
        (s.sec.fwAdvance = false → t.sec.fuses = s.sec.fuses))

/-- Fuses, key slots, debug and attestation (R411, R412, R415, R417–R419, R423), for node 0 only: a revocation needs another signer
that may sign firmware; LIFECYCLE only advances; a derived or cleared slot holds its key or nothing, and one that an enabled
region names is refused; a debug token is checked and a new challenge drawn; relock ends the grant.
Where the spec leaves it open it says what the model chose: notes/assumptions/64.md.
Completes: fuseRevoke, fuseProgram, keyDerive, keyRandom, keyClear, secDbgGo, secDbgRelock, secAttGo, trngHealthFail,
trngHealthRecovery. -/
def Obligations.SecurityCommandsAct : Prop :=
  ∀ (s : State) (src : NodeId) (v : W32),
    let f := s.sec.fuses
    let withFuses (g : Fuses) : State := { s with sec := { s.sec with fuses := g, fuseRefused := false } }
    let refused : State := { s with sec := { s.sec with fuseRefused := true } }
    (src.val ≠ 0 → exec (.fuseRevoke src v) s = .next s ∧ exec (.fuseProgram src v) s = .next s ∧
      exec (.keyDerive src v) s = .next s ∧ exec (.keyRandom src v) s = .next s ∧ exec (.keyClear src v) s = .next s ∧
      exec (.secDbgGo src) s = .next s ∧ exec (.secDbgRelock src) s = .next s ∧ exec (.secAttGo src) s = .next s) ∧
    (src.val = 0 → bitsOf v.toNat 24 8 = 0x5A →
      (∀ k, bitsOf v.toNat 3 5 = k → k ≤ 3 → s.sec.fwSigner.toNat ≠ k →
        (∃ j, j < 4 ∧ j ≠ k ∧ f.revoked j = false ∧ bitOf (f.perm j) 0 = true) →
        exec (.fuseRevoke src v) s = .next (withFuses { f with revoke := f.revoke ||| BitVec.ofNat 4 (2 ^ k) })) ∧
      (bitsOf v.toNat 3 5 = s.sec.fwSigner.toNat → exec (.fuseRevoke src v) s = .next refused) ∧
      (bitsOf v.toNat 3 5 = 10 → bitsOf v.toNat 8 8 = f.lifecycle + 1 → f.lifecycle ≤ 1 →
        exec (.fuseProgram src v) s = .next (withFuses { f with lifecycle := f.lifecycle + 1 })) ∧
      (bitsOf v.toNat 3 5 = 10 → bitsOf v.toNat 8 8 ≠ f.lifecycle + 1 → exec (.fuseProgram src v) s = .next refused) ∧
      (bitsOf v.toNat 3 5 ≠ 10 → f.lifecycle ≠ 0 → exec (.fuseProgram src v) s = .next refused)) ∧
    (src.val = 0 →
      let k := bitsOf v.toNat 0 4
      (s.slotInUse k = false →
        exec (.keyClear src v) s = .next (s.setKey k none) ∧
        (f.lifecycle ≠ 2 → exec (.keyDerive src v) s =
          .next (s.setKey k (some (deriveSlot f.uds (s.rowBytes Page.security Reg.SEC_KEY_LABEL 32))))) ∧
        (s.sec.trngFail = false → ∃ x t, exec (.keyRandom src v) s = .next t ∧ SMap.get t.sec.keySlots k none = some x ∧
          (∀ j, j ≠ k → SMap.get t.sec.keySlots j none = SMap.get s.sec.keySlots j none) ∧
          t = { s with sec := t.sec, free := t.free })) ∧
      (s.slotInUse k = true →
        exec (.keyClear src v) s = .next (s.writeRefused Page.security Reg.SEC_KEY_CTRL src.val) ∧
        exec (.keyDerive src v) s = .next (s.writeRefused Page.security Reg.SEC_KEY_CTRL src.val) ∧
        exec (.keyRandom src v) s = .next (s.writeRefused Page.security Reg.SEC_KEY_CTRL src.val))) ∧
    (src.val = 0 → s.sec.dbgLocked = false →
      let token := s.rowBytes Page.security Reg.SEC_DBG_TOKEN 192
      let ok := s.tokenOk token
      ∃ t, exec (.secDbgGo src) s = .next t ∧
        t.sec.levels = (if ok then BitVec.ofNat 3 (natAt token 0x38 4) else s.sec.levels) ∧
        t.sec.dbgFails = (if ok then s.sec.dbgFails else min (s.sec.dbgFails + 1) 3) ∧
        t.sec.dbgLocked = (!ok && decide (2 ≤ s.sec.dbgFails)) ∧
        t.sec.keySlots = (if ok && bitOf (natAt token 0x38 4) 1 then [] else s.sec.keySlots)) ∧
    (src.val = 0 → exec (.secDbgRelock src) s = .next { s with sec := { s.sec with levels := 0 } }) ∧
    (src.val = 0 → exec (.secAttGo src) s = .next { s with sec := { s.sec with
      report := s.attReport (s.rowBytes Page.security Reg.SEC_ATT_NONCE 32), attDone := true } }) ∧
    (exec .trngHealthFail s =
      .next (State.count { s with sec := { s.sec with trngFail := true } } Page.security Reg.SEC_TRNG_FAIL_COUNT)) ∧
    (∃ t, exec .trngHealthRecovery s = .next t ∧ t.sec.trngFail = false ∧
      ((∀ p, p < 4 → (s.link p).st ≠ 5) → t = { s with sec := { s.sec with trngFail := false } }))

/-- Fuses only ever advance (R411, R412): whatever command takes effect, no revocation is undone, no anti-rollback number and no
life-cycle state goes back, and the device secret and the serial number stay. -/
def Obligations.FusesOnlyAdvance : Prop :=
  ∀ (s t : State) (c : Instr), exec c s = .next t →
    let f := s.sec.fuses
    let g := t.sec.fuses
    (∀ k, f.revoked k = true → g.revoked k = true) ∧ f.fwSvn ≤ g.fwSvn ∧ f.imgSvn ≤ g.imgSvn ∧ f.lifecycle ≤ g.lifecycle ∧
    g.uds = f.uds ∧ g.serial = f.serial

/-- Power domains and the operating point (R426–R433): an OFF domain starts, or waits while 4 start; an ON domain stops when its
conditions allow it and is refused otherwise; a transition that completes shows the new state and is signalled. The estimates
of a window are averaged at its end; the point moves to the one decided, counted where it differs; THROTTLE goes down by one.
Where the spec leaves it open it says what the model chose: notes/assumptions/78.md, 79.md, 80.md and 81.md.
Completes: opPointChange, domainUp, domainDown, domainTransitionDone, powerEstimate, sensorUpdate, throttleStep. -/
def Obligations.PowerDomainsFollow : Prop :=
  ∀ (s : State) (src : NodeId) (d : Fin 80),
    let off := Reg.PW_DOM_CTRL + 4 * d.val
    (s.domState d.val = 2 → exec (.domainUp src d) s = .next (s.setFlag Page.power off 0 true)) ∧
    (s.domState d.val = 0 → s.power.waiting.contains d.val = false →
      (s.startingCount < 4 → exec (.domainUp src d) s = .next ((s.setFlag Page.power off 0 true).setDom d.val 1)) ∧
      (4 ≤ s.startingCount → ∃ t, exec (.domainUp src d) s = .next t ∧ t.domState d.val = 0 ∧
        t.power.waiting.contains d.val = true ∧ ∀ e, e ∈ s.power.waiting → e ∈ t.power.waiting)) ∧
    (s.domState d.val = 2 → s.downRefused d.val = true → ∃ t, exec (.domainDown src d) s = .next t ∧
      t.domState d.val = 2 ∧ t.flag Page.power Reg.PG_ERR_STATUS 28 = true ∧
      t.fld Page.power Reg.PW_LAST_REFUSED 0 7 = d.val) ∧
    (s.domState d.val = 2 → s.downRefused d.val = false → ∃ t, exec (.domainDown src d) s = .next t ∧
      t.domState d.val = 3 ∧ ∀ e, e ≠ d.val → t.domState e = s.domState e) ∧
    (s.domState d.val = 1 → s.flag Page.power off 0 = true → s.power.waiting = [] →
      ∃ t, exec (.domainTransitionDone d) s = .next t ∧ t.domState d.val = 2 ∧ t.flag Page.power Reg.PG_IRQ_STATUS 2 = true) ∧
    (s.domState d.val = 3 → s.upPending d.val = false → (pagesOf d.val).all s.blockOff = true →
      ∃ t, exec (.domainTransitionDone d) s = .next t ∧ t.domState d.val = 0 ∧ t.flag Page.power Reg.PG_IRQ_STATUS 2 = true) ∧
    (∀ mw,
      let n := 10 * max 1 (s.fld Page.power Reg.PW_LIMIT 16 7)
      let l := s.power.est ++ [mw]
      let u := s.reach (s.power.estAt + 25600000)
      (l.length < n → exec (.powerEstimate mw) s = .next { u with power := { s.power with est := l, estAt := u.now } }) ∧
      (n ≤ l.length → ∃ t, exec (.powerEstimate mw) s = .next t ∧ t.power.est = [] ∧ t.power.estAt = u.now ∧
        t.fld Page.power Reg.PW_EST 0 16 = min (l.sum / l.length) 0xFFFF)) ∧
    (s.patternStopped = false →
      exec .opPointChange s = .next (s.setPoint s.power.target) ∧ (s.setPoint s.power.target).power.op = s.power.target) ∧
    (s.power.throttle = true → s.power.op < s.opFloor →
      let u := s.reach (s.power.stepAt + 256000000)
      exec .throttleStep s = .next (State.setPoint { u with power := { s.power with stepAt := u.now } } (s.power.op + 1)) ∧
      (u.setPoint (s.power.op + 1)).power.op = s.power.op + 1) ∧
    (∀ l : List SensorReading,
      let u := s.reach (s.power.sensorAt + 25600000)
      let v : State := { u with power := { s.power with sensorAt := u.now } }
      exec (.sensorUpdate l) s =
        .next (([0, 1, 2, 3].foldl (fun (s : State) q => s.stackUpdate q) (v.sensorsSet 0 l)).thermalLevels))

/-- The registers every page has, and accesses to any register (R8, R126, R428, R440, R445, R446, R452): a written scratch word reads
back; a read of the error count clears it; a forced event stands in PG_IRQ_STATUS; a lock stands at once where the page reads
ON and is then kept; a locked page refuses, and a legal region descriptor becomes VALID; ENABLE of a simple block shows in
PG_STATE; and a page whose domain is not ON keeps everything but its pending ENABLE. The TAP (R468): before READY, or for
another node, the access is denied; otherwise it is a debug request of node 0, and the register captures what it read and its
status.
Where the spec leaves it open it says what the model chose: notes/assumptions/71.md and 76.md.
Completes: blockEnable, pgLock, lockReq, pgIrqForce, regionShapeValid, rcRead, registerWrite, dbgacc. -/
def Obligations.PageAndTapAccessesAct : Prop :=
  (∀ (s : State) (src : NodeId) (page : PageId) (v : W32),
    let pg := page.val
    (pageKind pg ≠ none → s.pageOn pg = true → ∃ t, exec (.registerWrite src page ⟨Reg.PG_SCRATCH / 4, by decide⟩ v) s = .next t ∧
      t.reg pg Reg.PG_SCRATCH = v ∧ t.regView pg Reg.PG_SCRATCH = v) ∧
    (pageKind pg = none → exec (.registerWrite src page ⟨Reg.PG_SCRATCH / 4, by decide⟩ v) s = .next s) ∧
    (∀ reg, pageKind pg ≠ none → s.pageOn pg = false → 4 * reg.val ≠ Reg.PG_CTRL →
      exec (.registerWrite src page reg v) s = .next s ∧ exec (.rcRead src page reg) s = .next s) ∧
    (pageKind pg ≠ none → s.pageOn pg = true →
      ∃ t, exec (.rcRead src page ⟨Reg.PG_ERR_COUNT / 4, by decide⟩) s = .next t ∧ t.fld pg Reg.PG_ERR_COUNT 0 16 = 0 ∧
        t = { s with regs := t.regs } ∧ ∀ p o, o < 4096 → (p, o) ≠ (pg, Reg.PG_ERR_COUNT) → t.reg p o = s.reg p o) ∧
    (pageKind pg ≠ none → s.pageOn pg = true → pg ≠ Page.queueMgr →
      ∃ t, exec (.pgIrqForce src page v) s = .next t ∧
        t.fld pg Reg.PG_IRQ_STATUS 0 16 = (s.fld pg Reg.PG_IRQ_STATUS 0 16 ||| bitsOf v.toNat 0 16)) ∧
    (pageKind pg ≠ none → s.pageOn pg = true →
      exec (.pgLock src page) s = .next ((s.setFlag pg Reg.PG_LOCK 0 true).setFlag pg Reg.PG_CTRL 2 false) ∧
      ((s.setFlag pg Reg.PG_LOCK 0 true).setFlag pg Reg.PG_CTRL 2 false).locked pg = true) ∧
    (pageKind pg ≠ none → s.pageOn pg = true → s.locked pg = false → s.readsOn pg = true →
      ∃ t, exec (.lockReq src page) s = .next t ∧ t.locked pg = true ∧ t.flag pg Reg.PG_CTRL 2 = false) ∧
    (∀ (c : CoreId) (n : Fin 16) (x : W32), s.pageOn (Page.port c.val) = true →
      let off := Reg.ST_REGION_SHAPE + 16 * n.val
      let held := s.setReg (Page.port c.val) off (BitVec.ofNat 32 (bitsOf x.toNat 0 21))
      (s.locked (Page.port c.val) = true → exec (.regionShapeValid src c n x) s =
        .next (s.pgErrAt (Page.port c.val) off src.val [31])) ∧
      (s.locked (Page.port c.val) = false → held.regionLegal c.val n.val = true → exec (.regionShapeValid src c n x) s =
        .next (held.setFlag (Page.port c.val) off 21 true)) ∧
      (s.locked (Page.port c.val) = false → held.regionLegal c.val n.val = false → exec (.regionShapeValid src c n x) s =
        .next (held.writeRefused (Page.port c.val) off src.val))) ∧
    (∀ k, pageKind pg = some k → simpleBlock k = true → s.pageOn pg = true → s.flag pg Reg.PG_CTRL 2 = false →
      ∃ t, exec (.blockEnable src page true) s = .next t ∧ t.flag pg Reg.PG_CTRL 0 = true ∧ t.fld pg Reg.PG_STATE 0 2 = 2 ∧
        t = { s with regs := t.regs }) ∧
    (∀ k, pageKind pg = some k → alwaysOn k = false → s.pageOn pg = false →
      exec (.blockEnable src page true) s = .next (s.setFlag pg Reg.PG_STATE 2 true))) ∧
  (∀ (s : State) (addr : W64) (d : W32),
    (s.sec.boot ≠ 4 ∨ nodeOf addr ≠ s.node → ∀ w, exec (.dbgacc addr d w) s =
      .next { s with tap := { addr := addr, data := d, write := w, status := 0x0D } }) ∧
    (s.sec.boot = 4 → nodeOf addr = s.node →
      let r := s.serveRead .host 7 0 (localOf addr) 4
      let w := s.serveWrite .host 7 0 (localOf addr) (leBytes 4 d.toNat)
      let got := if r.1 = 0 then BitVec.ofNat 32 (natAt r.2.1 0 4) else d
      exec (.dbgacc addr d false) s =
        .next { r.2.2 with tap := { addr := addr, data := got, write := false, status := BitVec.ofNat 7 r.1 } } ∧
      exec (.dbgacc addr d true) s =
        .next { w.2 with tap := { addr := addr, data := d, write := true, status := BitVec.ofNat 7 w.1 } }))

/-- Debug needs its grant (R144, R419, R468): with no level granted, a debug access to anything but the SECURITY page leaves the
device as it is, and the register captures ACCESS_DENIED and none of the data.
Where the spec leaves it open it says what the model chose: notes/assumptions/71.md. -/
def Obligations.DebugNeedsGrant : Prop :=
  ∀ (s : State) (addr : W64) (d : W32) (w : Bool), s.sec.levels = 0 →
    (∀ off, regionOf (localOf addr) ≠ .regs Page.security off) →
    exec (.dbgacc addr d w) s = .next { s with tap := { addr := addr, data := d, write := w, status := 0x0D } }

namespace Sys2Proof.Claims

open Machine

/-- The reserved pages (R448): those that the page index of R447 does not list. -/
def ReservedPage (p : Nat) : Prop :=
  (0x014 ≤ p ∧ p ≤ 0x0FF) ∨ (∃ c k, c < 32 ∧ 7 ≤ k ∧ k ≤ 15 ∧ p = 0x100 + 16 * c + k) ∨ (0x305 ≤ p ∧ p ≤ 0x30F) ∨
  (0x300 ≤ p ∧ p ≤ 0x33F ∧ (∀ l, l < 4 → p ≠ 0x300 + 16 * l ∧ p ≠ 0x301 + 16 * l ∧ p ≠ 0x302 + 16 * l) ∧ p ≠ 0x303 ∧ p ≠ 0x304) ∨
  (∃ ch k, ch < 16 ∧ 1 ≤ k ∧ k ≤ 3 ∧ p = 0x340 + 4 * ch + k) ∨ (0x398 ≤ p ∧ p ≤ 0x3BF)

/-- The local address of byte `off` of page p (R447). -/
def pageAddr (p off : Nat) : Nat := 0x40000000000 + p * 0x1000 + off

/-- The blocks without a start or stop sequence of their own (R443). -/
def AlwaysStarted (k : PageKind) : Prop :=
  k ∈ [PageKind.device, .clocks, .timebase, .angle, .streams, .queueMgr, .semaphores, .safety, .hang, .dump, .power, .thermal,
    .security, .cache, .fabric, .tsync, .audioBuf, .coreCtrl, .coreMatrix, .coreVector, .coreScan, .corePort, .coreMover, .coreStat]

end Sys2Proof.Claims

/-- A reserved page reads as zero in every word; writes to it are ignored without report, and its transactions complete OK. Pages
above 0x3BF lie outside the register region and complete with ACCESS_DENIED (R448). -/
def Obligations.ReservedPagesReadZero : Prop :=
  ∀ (s : State) (who : Requester) (p off : Nat), off < 4096 →
    (ReservedPage p →
      s.regView p off = 0 ∧
      (∀ vc len, off + len ≤ 4096 → s.busRead who vc (pageAddr p off) len = (0, List.replicate len 0, s)) ∧
      (∀ data : List Byte, off + data.length ≤ 4096 → s.busWrite who true 0 (pageAddr p off) data = (0, s)) ∧
      (∀ (src : NodeId) (page : PageId) (reg : Fin 1024) (v : W32), page.val = p → exec (.registerWrite src page reg v) s = .next s)) ∧
    (0x3BF < p → p < 0x1000000 →
      (∀ vc len, s.busRead who vc (pageAddr p off) len = (0x0D, [], s)) ∧
      ∀ data : List Byte, s.busWrite who true 0 (pageAddr p off) data = (0x0D, s))

/-- A block without a start or stop sequence of its own reads ENABLE as 1 and PG_STATE as ON while its domain is ON, and it ignores
writes to ENABLE without report (R443). -/
def Obligations.BlocksWithoutSequenceStayOn : Prop :=
  ∀ (s : State) (src : NodeId) (page : PageId) (k : PageKind), pageKind page.val = some k → AlwaysStarted k →
    (s.pageOn page.val = true →
      (s.regView page.val Reg.PG_CTRL).getLsbD 0 = true ∧ (s.regView page.val Reg.PG_STATE).toNat % 4 = 2) ∧
    (∀ en, exec (.blockEnable src page en) s = .next s) ∧
    (∀ v : W32, v = 0 ∨ v = 1 → exec (.registerWrite src page ⟨Reg.PG_CTRL / 4, by decide⟩ v) s = .next s)

/-- A request for a reset level (R386): without CONFIRM it is ignored and recorded; with it LEVEL 1 makes the reset of its engine due,
LEVEL 2 that of its partition, LEVEL 3 a chip warm reset; a request for a level already running is ignored.
Where the spec leaves it open it says what the model chose: notes/assumptions/103.md.
Completes: hgResetReqEngine, hgResetReqPartition, hgResetReqChip. -/
def Obligations.ResetRequestsNeedConfirm : Prop :=
  ∀ (s : State) (src : NodeId) (v : W32),
    (bitsOf v.toNat 24 8 ≠ 0xA5 →
      exec (.hgResetReqEngine src v) s = .next (s.writeRefused Page.hang Reg.HG_RESET_REQ src.val) ∧
      exec (.hgResetReqPartition src v) s = .next (s.writeRefused Page.hang Reg.HG_RESET_REQ src.val) ∧
      exec (.hgResetReqChip src v) s = .next (s.writeRefused Page.hang Reg.HG_RESET_REQ src.val) ∧
      (s.writeRefused Page.hang Reg.HG_RESET_REQ src.val).flag Page.hang Reg.PG_ERR_STATUS 28 = true) ∧
    (bitsOf v.toNat 24 8 = 0xA5 → s.hang.level = 0 → s.hang.more = [] →
      exec (.hgResetReqEngine src v) s =
        .next { s with hang := { s.hang with level := 1, due := (bitsOf v.toNat 2 5, bitsOf v.toNat 7 3) } } ∧
      exec (.hgResetReqPartition src v) s =
        .next { s with hang := { s.hang with level := 2, due := (bitsOf v.toNat 10 3, 0) } } ∧
      exec (.hgResetReqChip src v) s = .next { s with hang := { s.hang with level := 3, due := (1, 0) } }) ∧
    (bitsOf v.toNat 24 8 = 0xA5 →
      (s.hang.level = 1 → exec (.hgResetReqEngine src v) s = .next s) ∧
      (s.hang.level = 2 → exec (.hgResetReqPartition src v) s = .next s) ∧
      (s.hang.level = 3 → exec (.hgResetReqChip src v) s = .next s))

namespace Sys2Proof.Claims

open Machine

/-- The fuse array holds a legal life-cycle state and legal anti-rollback numbers (R410). -/
def FusesLegal (s : State) : Prop :=
  s.sec.fuses.lifecycle ≤ 2 ∧ s.sec.fuses.fwSvn ≤ 32 ∧ s.sec.fuses.imgSvn ≤ 32

/-- What every step keeps: each byte memory in canonical form, and a legal fuse array. -/
def Inv (s : State) : Prop := s.memWf = true ∧ FusesLegal s

end Sys2Proof.Claims

/-- A step runs the command at the front of the queue on the state with the rest of the queue; on an empty queue it is one cycle of
REFCLK_SYS, the model's choice of an idle step (notes/assumptions/4.md), which in power-on reset changes nothing. -/
def Obligations.StepTakesTheFrontCommand : Prop :=
  (∀ (s : State) (c : Instr) (r : List Instr), step { s with pending := c :: r } = exec c { s with pending := r }) ∧
  (∀ s : State, s.pending = [] → step s = .next s.tick) ∧
  (∀ s : State, s.pending = [] → s.pins.poreset = false → step s = .next s)

/-- No command reaches into the queue, and every step of every state answers a next state: whatever the commands, the queue is served
first in, first out, and nothing stops the block. -/
def Obligations.QueueIsServedInOrder : Prop :=
  (∀ (s : State) (c : Instr), ∃ t, exec c s = .next t ∧ t.pending = s.pending) ∧
  (∀ (s : State) (c : Instr) (r : List Instr), s.pending = c :: r → ∃ t, step s = .next t ∧ t.pending = r)

/-- The reset state: power-on reset held, every register at the value its fields give, every memory and queue empty, and the
invariant of the steps holds of it. Memory contents and the fuses at zero are the model's choice (notes/assumptions/5.md). -/
def Obligations.ResetStateHoldsResetValues : Prop :=
  State.reset.pins.poreset = false ∧ State.reset.pending = [] ∧ Inv State.reset ∧
  (∀ page off, State.reset.reg page off = regReset page off) ∧
  (∀ n, (State.reset.ctx n).st = .free) ∧ (∀ i, (State.reset.stream i).st = 0) ∧ (∀ q, (State.reset.queue q).valid = false) ∧
  (∀ p, (State.reset.link p).st = 0) ∧ (∀ p, (State.reset.port p).st = 0) ∧ State.reset.now = 0 ∧
  State.reset.safety.faultN = false ∧ State.reset.safety.armed = false ∧ State.reset.node = 31

/-- Every step keeps the memories in canonical form and the fuse array legal, from whatever state, reachable or not. -/
def Obligations.EveryStepKeepsInvariant : Prop :=
  ∀ s t : State, Inv s → step s = .next t → Inv t
end

