-- ==== Sys2Proof/Laws/SMap.lean ====
section
/-!
SUPPORT. Laws of the sparse maps: what a key reads as after a write, and that every operation keeps the canonical form.
-/
namespace Sys2Proof.SMap

variable {α : Type}

@[simp] theorem get_nil (k : Nat) (d : α) : get ([] : SMap α) k d = d := rfl

theorem get_cons (k' : Nat) (v : α) (r : SMap α) (k : Nat) (d : α) :
    get ((k', v) :: r) k d = if k' = k then v else get r k d := rfl

theorem get_erase_same (m : SMap α) (k : Nat) (d : α) : get (erase m k) k d = d := by
  induction m with
  | nil => rfl
  | cons e r ih =>
    obtain ⟨k', v⟩ := e
    by_cases h : k' = k
    · simp [erase, h, ih]
    · simp [erase, h, get_cons, ih]

theorem get_erase_other (m : SMap α) (k j : Nat) (d : α) (h : j ≠ k) : get (erase m k) j d = get m j d := by
  induction m with
  | nil => rfl
  | cons e r ih =>
    obtain ⟨k', v⟩ := e
    by_cases h' : k' = k
    · subst h'
      simp [erase, ih, get_cons, Ne.symm h]
    · simp [erase, h', get_cons, ih]

theorem get_insert_same (m : SMap α) (k : Nat) (v d : α) (h : ∀ e ∈ m, e.1 ≠ k) : get (insert m k v) k d = v := by
  induction m with
  | nil => simp [insert, get]
  | cons e r ih =>
    obtain ⟨k', v'⟩ := e
    have hk : k' ≠ k := h (k', v') (by simp)
    have hr : ∀ e ∈ r, e.1 ≠ k := fun e he => h e (by simp [he])
    by_cases h' : k < k'
    · simp [insert, h', get_cons]
    · simp [insert, h', get_cons, hk, ih hr]

theorem get_insert_other (m : SMap α) (k j : Nat) (v d : α) (h : j ≠ k) : get (insert m k v) j d = get m j d := by
  induction m with
  | nil => simp [insert, get, Ne.symm h]
  | cons e r ih =>
    obtain ⟨k', v'⟩ := e
    by_cases h' : k < k'
    · simp [insert, h', get_cons, Ne.symm h]
    · simp [insert, h', get_cons, ih]

theorem not_mem_erase (m : SMap α) (k : Nat) : ∀ e ∈ erase m k, e.1 ≠ k := by
  induction m with
  | nil => simp [erase]
  | cons e r ih =>
    obtain ⟨k', v⟩ := e
    by_cases h : k' = k
    · simpa [erase, h] using ih
    · intro e he
      simp only [erase, h, if_false, List.mem_cons] at he
      rcases he with rfl | he
      · exact h
      · exact ih e he

variable [DecidableEq α]

@[simp] theorem get_set_same (m : SMap α) (k : Nat) (v d : α) : get (set m k v d) k d = v := by
  unfold set
  split
  · next h => rw [get_erase_same, h]
  · exact get_insert_same _ _ _ _ (not_mem_erase m k)

theorem get_set_other (m : SMap α) (k j : Nat) (v d d' : α) (h : j ≠ k) : get (set m k v d) j d' = get m j d' := by
  unfold set
  split
  · exact get_erase_other _ _ _ _ h
  · rw [get_insert_other _ _ _ _ _ h, get_erase_other _ _ _ _ h]

theorem get_set (m : SMap α) (k j : Nat) (v d : α) : get (set m k v d) j d = if j = k then v else get m j d := by
  split
  · next h => subst h; simp
  · next h => exact get_set_other _ _ _ _ _ _ h

/-- Two writes of one key are one. -/
theorem set_set (m : SMap α) (k : Nat) (v w d : α) :
    set (set m k v d) k w d = set m k w d := by
  have hi : ∀ (m : SMap α), (∀ e ∈ m, e.1 ≠ k) → erase (insert m k v) k = m := by
    intro m
    induction m with
    | nil => intro _; simp [insert, erase]
    | cons e r ih =>
      obtain ⟨k', v'⟩ := e
      intro h
      have hk : k' ≠ k := h (k', v') (by simp)
      have hr : ∀ e ∈ r, e.1 ≠ k := fun e he => h e (by simp [he])
      have he : erase r k = r := by
        clear ih h
        induction r with
        | nil => rfl
        | cons e r ih =>
          obtain ⟨k2, v2⟩ := e
          have h2 : k2 ≠ k := hr (k2, v2) (by simp)
          simp [erase, h2, ih fun e he => hr e (by simp [he])]
      by_cases h' : k < k'
      · simp [insert, h', erase, hk, he]
      · simp [insert, h', erase, hk, ih hr]
  have hee : ∀ (m : SMap α), erase (erase m k) k = erase m k := by
    intro m
    induction m with
    | nil => rfl
    | cons e r ih =>
      obtain ⟨k', v'⟩ := e
      by_cases h : k' = k
      · simp [erase, h, ih]
      · simp [erase, h, ih]
  have : erase (set m k v d) k = erase m k := by
    unfold set
    split
    · exact hee m
    · exact hi _ (not_mem_erase m k)
  unfold set at *
  rw [this]

/-! ### The canonical form -/

/-- The form as a proposition: keys rising from above `n`, and no entry that its key's unlisted value equals. -/
def Above (d : Nat → α) : Nat → SMap α → Prop
  | _, [] => True
  | n, (k, v) :: r => n ≤ k ∧ v ≠ d k ∧ Above d (k + 1) r

theorem wf_iff_above (d : Nat → α) (m : SMap α) : wf d m = true ↔ Above d 0 m := by
  have gen : ∀ (m : SMap α) (k : Nat) (v : α), wf d ((k, v) :: m) = true ↔ (v ≠ d k ∧ Above d (k + 1) m) := by
    intro m
    induction m with
    | nil => intro k v; simp [wf, Above]
    | cons e r ih =>
      obtain ⟨k', v'⟩ := e
      intro k v
      simp only [wf, Bool.and_eq_true, decide_eq_true_eq, Bool.not_eq_true', decide_eq_false_iff_not, ih, Above]
      exact ⟨fun ⟨⟨a, b⟩, c, e⟩ => ⟨b, a, c, e⟩, fun ⟨b, a, c, e⟩ => ⟨⟨a, b⟩, c, e⟩⟩
  cases m with
  | nil => simp [wf, Above]
  | cons e r => obtain ⟨k, v⟩ := e; rw [gen]; simp [Above]

omit [DecidableEq α] in
theorem Above.mono {d : Nat → α} {m : SMap α} {a b : Nat} (h : a ≤ b) (hm : Above d b m) : Above d a m := by
  cases m with
  | nil => trivial
  | cons e r => obtain ⟨k, v⟩ := e; exact ⟨Nat.le_trans h hm.1, hm.2⟩

omit [DecidableEq α] in
theorem Above.erase {d : Nat → α} {m : SMap α} {n k : Nat} (hm : Above d n m) : Above d n (erase m k) := by
  induction m generalizing n with
  | nil => trivial
  | cons e r ih =>
    obtain ⟨k', v⟩ := e
    obtain ⟨h1, h2, h3⟩ := hm
    by_cases h : k' = k
    · simp only [SMap.erase, h, if_true]; exact ih (h3.mono (by omega))
    · simp only [SMap.erase, h, if_false]; exact ⟨h1, h2, ih h3⟩

omit [DecidableEq α] in
theorem Above.insert {d : Nat → α} {m : SMap α} {n k : Nat} {v : α} (hm : Above d n m) (hk : n ≤ k) (hv : v ≠ d k)
    (hn : ∀ e ∈ m, e.1 ≠ k) : Above d n (insert m k v) := by
  induction m generalizing n with
  | nil => exact ⟨hk, hv, trivial⟩
  | cons e r ih =>
    obtain ⟨k', v'⟩ := e
    obtain ⟨h1, h2, h3⟩ := hm
    have hne : k' ≠ k := hn (k', v') (by simp)
    by_cases h : k < k'
    · simp only [SMap.insert, h, if_true]
      exact ⟨hk, hv, by omega, h2, h3⟩
    · simp only [SMap.insert, h, if_false]
      exact ⟨h1, h2, ih h3 (by omega) fun e he => hn e (by simp [he])⟩

/-- A write keeps the canonical form. -/
theorem wf_set {d : Nat → α} {m : SMap α} {k : Nat} {v : α} (hm : wf d m = true) : wf d (set m k v (d k)) = true := by
  rw [wf_iff_above] at *
  unfold set
  split
  · exact hm.erase
  · next h => exact hm.erase.insert (Nat.zero_le _) h (not_mem_erase m k)

/-- Erasing a key keeps the canonical form. -/
theorem wf_erase {d : Nat → α} {m : SMap α} {k : Nat} (hm : wf d m = true) : wf d (SMap.erase m k) = true := by
  rw [wf_iff_above] at *
  exact hm.erase

/-- Keeping some of the entries keeps the canonical form. -/
theorem wf_filter {d : Nat → α} {m : SMap α} (p : Nat × α → Bool) (hm : wf d m = true) : wf d (m.filter p) = true := by
  rw [wf_iff_above] at *
  suffices H : ∀ (m : SMap α) (n : Nat), Above d n m → Above d n (m.filter p) from H m 0 hm
  intro m
  induction m with
  | nil => intro n _; trivial
  | cons e r ih =>
    intro n h
    obtain ⟨k, v⟩ := e
    obtain ⟨h1, h2, h3⟩ := h
    by_cases hp : p (k, v)
    · simp only [List.filter_cons, hp, if_true]; exact ⟨h1, h2, ih _ h3⟩
    · simp only [List.filter_cons, hp]; exact ih _ (h3.mono (by omega))

@[simp] theorem wf_nil (d : Nat → α) : wf d ([] : SMap α) = true := rfl

end Sys2Proof.SMap
end

