-- ==== Sys2Proof/Laws/Bytes.lean ====
section
/-!
SUPPORT. Byte strings and sparse byte memories: little-endian round trips, a read after a write, and that every operation of a memory
keeps its canonical form.
-/
namespace Sys2Proof.Machine

/-! ### Little-endian numbers (R7) -/

@[simp] theorem leBytes_length (n v : Nat) : (leBytes n v).length = n := by
  induction n generalizing v with
  | zero => rfl
  | succ n ih => simp [leBytes, ih]

/-- The number of the `n` bytes of a number is the number modulo 256^n. -/
theorem leNat_leBytes (n v : Nat) : leNat (leBytes n v) = v % 256 ^ n := by
  induction n generalizing v with
  | zero => simp [leBytes, leNat, Nat.mod_one]
  | succ n ih =>
    have h8 : (BitVec.ofNat 8 v).toNat = v % 256 := BitVec.toNat_ofNat v 8
    rw [leBytes, leNat, ih, h8, Nat.pow_succ', Nat.mod_mul]

theorem leNat_lt (l : List Byte) : leNat l < 256 ^ l.length := by
  induction l with
  | nil => simp [leNat]
  | cons b r ih =>
    have := b.isLt
    simp only [leNat, List.length_cons, Nat.pow_succ']
    omega

@[simp] theorem bytesAt_length (l : List Byte) (o n : Nat) : (bytesAt l o n).length = n := by simp [bytesAt]

/-- The bytes behind a string's first part are those of its second part. -/
theorem bytesAt_append (a b : List Byte) : bytesAt (a ++ b) a.length b.length = b := by
  apply List.ext_getElem
  · simp
  · intro i h _
    simp only [bytesAt_length] at h
    simp [bytesAt, List.getD_eq_getElem?_getD, h]

/-- The number behind a string's first part. -/
theorem natAt_append_leBytes (a : List Byte) (n v : Nat) : natAt (a ++ leBytes n v) a.length n = v % 256 ^ n := by
  have h := bytesAt_append a (leBytes n v)
  rw [leBytes_length] at h
  rw [natAt, h, leNat_leBytes]

/-! ### Byte memories -/

/-- A byte outside what a write covers stays. -/
theorem memPut_get_outside (m : SMap Byte) (a : Nat) (l : List Byte) (x : Nat) (h : x < a ∨ a + l.length ≤ x) :
    SMap.get (memPut m a l) x 0 = SMap.get m x 0 := by
  induction l generalizing m a with
  | nil => rfl
  | cons b r ih =>
    simp only [List.length_cons] at h
    rw [memPut, ih _ _ (by omega), SMap.get_set_other _ _ _ _ _ _ (by omega)]

/-- A byte that a write covers reads as what it wrote. -/
theorem memPut_get_inside (m : SMap Byte) (a : Nat) (l : List Byte) (i : Nat) (h : i < l.length) :
    SMap.get (memPut m a l) (a + i) 0 = l[i] := by
  induction l generalizing m a i with
  | nil => simp at h
  | cons b r ih =>
    cases i with
    | zero => rw [memPut, memPut_get_outside _ _ _ _ (by omega)]; simp
    | succ i =>
      simp only [List.length_cons] at h
      have := ih (SMap.set m a b 0) (a + 1) i (by omega)
      rw [memPut, show a + (i + 1) = a + 1 + i by omega, this]
      simp

/-- A range reads back what was written to it. -/
theorem memGet_memPut (m : SMap Byte) (a : Nat) (l : List Byte) : memGet (memPut m a l) a l.length = l := by
  apply List.ext_getElem
  · simp [memGet]
  · intro i h _
    simp only [memGet, List.length_map, List.length_range] at h
    have hi := memPut_get_inside m a l i h
    simpa [memGet] using hi

theorem memPut_wf {m : SMap Byte} (a : Nat) (l : List Byte) (h : SMap.wf (fun _ => 0) m = true) :
    SMap.wf (fun _ => 0) (memPut m a l) = true := by
  induction l generalizing m a with
  | nil => exact h
  | cons b r ih => exact ih _ (SMap.wf_set (d := fun _ => (0 : Byte)) h)

theorem memZero_wf {m : SMap Byte} (a n : Nat) (h : SMap.wf (fun _ => 0) m = true) :
    SMap.wf (fun _ => 0) (memZero m a n) = true := SMap.wf_filter _ h

end Sys2Proof.Machine
end

