-- ==== Sys2Proof/Laws/State.lean ====
section
/-!
SUPPORT. What each named update of the state leaves as it was, one lemma per field and update, and what the numbered parts
read as after an update.
-/
namespace Sys2Proof.Machine

/-! ### Fields -/

@[simp] theorem State.setReg_time (s : State) (p o : Nat) (v : W32) : (s.setReg p o v).time = s.time := rfl
@[simp] theorem State.setReg_angles (s : State) (p o : Nat) (v : W32) : (s.setReg p o v).angles = s.angles := rfl
@[simp] theorem State.setReg_pattern (s : State) (p o : Nat) (v : W32) : (s.setReg p o v).pattern = s.pattern := rfl
@[simp] theorem State.setReg_cores (s : State) (p o : Nat) (v : W32) : (s.setReg p o v).cores = s.cores := rfl
@[simp] theorem State.setReg_ctxs (s : State) (p o : Nat) (v : W32) : (s.setReg p o v).ctxs = s.ctxs := rfl
@[simp] theorem State.setReg_streams (s : State) (p o : Nat) (v : W32) : (s.setReg p o v).streams = s.streams := rfl
@[simp] theorem State.setReg_qm (s : State) (p o : Nat) (v : W32) : (s.setReg p o v).qm = s.qm := rfl
@[simp] theorem State.setReg_audio (s : State) (p o : Nat) (v : W32) : (s.setReg p o v).audio = s.audio := rfl
@[simp] theorem State.setReg_dp (s : State) (p o : Nat) (v : W32) : (s.setReg p o v).dp = s.dp := rfl
@[simp] theorem State.setReg_mem (s : State) (p o : Nat) (v : W32) : (s.setReg p o v).mem = s.mem := rfl
@[simp] theorem State.setReg_ce (s : State) (p o : Nat) (v : W32) : (s.setReg p o v).ce = s.ce := rfl
@[simp] theorem State.setReg_fab (s : State) (p o : Nat) (v : W32) : (s.setReg p o v).fab = s.fab := rfl
@[simp] theorem State.setReg_pair (s : State) (p o : Nat) (v : W32) : (s.setReg p o v).pair = s.pair := rfl
@[simp] theorem State.setReg_safety (s : State) (p o : Nat) (v : W32) : (s.setReg p o v).safety = s.safety := rfl
@[simp] theorem State.setReg_hang (s : State) (p o : Nat) (v : W32) : (s.setReg p o v).hang = s.hang := rfl
@[simp] theorem State.setReg_sec (s : State) (p o : Nat) (v : W32) : (s.setReg p o v).sec = s.sec := rfl
@[simp] theorem State.setReg_pins (s : State) (p o : Nat) (v : W32) : (s.setReg p o v).pins = s.pins := rfl
@[simp] theorem State.setReg_tap (s : State) (p o : Nat) (v : W32) : (s.setReg p o v).tap = s.tap := rfl
@[simp] theorem State.setReg_power (s : State) (p o : Nat) (v : W32) : (s.setReg p o v).power = s.power := rfl
@[simp] theorem State.setReg_free (s : State) (p o : Nat) (v : W32) : (s.setReg p o v).free = s.free := rfl
@[simp] theorem State.setReg_pending (s : State) (p o : Nat) (v : W32) : (s.setReg p o v).pending = s.pending := rfl
@[simp] theorem State.setCore_regs (s : State) (c : Nat) (k : Core) : (s.setCore c k).regs = s.regs := rfl
@[simp] theorem State.setCore_time (s : State) (c : Nat) (k : Core) : (s.setCore c k).time = s.time := rfl
@[simp] theorem State.setCore_angles (s : State) (c : Nat) (k : Core) : (s.setCore c k).angles = s.angles := rfl
@[simp] theorem State.setCore_pattern (s : State) (c : Nat) (k : Core) : (s.setCore c k).pattern = s.pattern := rfl
@[simp] theorem State.setCore_ctxs (s : State) (c : Nat) (k : Core) : (s.setCore c k).ctxs = s.ctxs := rfl
@[simp] theorem State.setCore_streams (s : State) (c : Nat) (k : Core) : (s.setCore c k).streams = s.streams := rfl
@[simp] theorem State.setCore_qm (s : State) (c : Nat) (k : Core) : (s.setCore c k).qm = s.qm := rfl
@[simp] theorem State.setCore_audio (s : State) (c : Nat) (k : Core) : (s.setCore c k).audio = s.audio := rfl
@[simp] theorem State.setCore_dp (s : State) (c : Nat) (k : Core) : (s.setCore c k).dp = s.dp := rfl
@[simp] theorem State.setCore_mem (s : State) (c : Nat) (k : Core) : (s.setCore c k).mem = s.mem := rfl
@[simp] theorem State.setCore_ce (s : State) (c : Nat) (k : Core) : (s.setCore c k).ce = s.ce := rfl
@[simp] theorem State.setCore_fab (s : State) (c : Nat) (k : Core) : (s.setCore c k).fab = s.fab := rfl
@[simp] theorem State.setCore_pair (s : State) (c : Nat) (k : Core) : (s.setCore c k).pair = s.pair := rfl
@[simp] theorem State.setCore_safety (s : State) (c : Nat) (k : Core) : (s.setCore c k).safety = s.safety := rfl
@[simp] theorem State.setCore_hang (s : State) (c : Nat) (k : Core) : (s.setCore c k).hang = s.hang := rfl
@[simp] theorem State.setCore_sec (s : State) (c : Nat) (k : Core) : (s.setCore c k).sec = s.sec := rfl
@[simp] theorem State.setCore_pins (s : State) (c : Nat) (k : Core) : (s.setCore c k).pins = s.pins := rfl
@[simp] theorem State.setCore_tap (s : State) (c : Nat) (k : Core) : (s.setCore c k).tap = s.tap := rfl
@[simp] theorem State.setCore_power (s : State) (c : Nat) (k : Core) : (s.setCore c k).power = s.power := rfl
@[simp] theorem State.setCore_free (s : State) (c : Nat) (k : Core) : (s.setCore c k).free = s.free := rfl
@[simp] theorem State.setCore_pending (s : State) (c : Nat) (k : Core) : (s.setCore c k).pending = s.pending := rfl
@[simp] theorem State.setCtx_regs (s : State) (n : Nat) (x : Ctx) : (s.setCtx n x).regs = s.regs := rfl
@[simp] theorem State.setCtx_time (s : State) (n : Nat) (x : Ctx) : (s.setCtx n x).time = s.time := rfl
@[simp] theorem State.setCtx_angles (s : State) (n : Nat) (x : Ctx) : (s.setCtx n x).angles = s.angles := rfl
@[simp] theorem State.setCtx_pattern (s : State) (n : Nat) (x : Ctx) : (s.setCtx n x).pattern = s.pattern := rfl
@[simp] theorem State.setCtx_cores (s : State) (n : Nat) (x : Ctx) : (s.setCtx n x).cores = s.cores := rfl
@[simp] theorem State.setCtx_streams (s : State) (n : Nat) (x : Ctx) : (s.setCtx n x).streams = s.streams := rfl
@[simp] theorem State.setCtx_qm (s : State) (n : Nat) (x : Ctx) : (s.setCtx n x).qm = s.qm := rfl
@[simp] theorem State.setCtx_audio (s : State) (n : Nat) (x : Ctx) : (s.setCtx n x).audio = s.audio := rfl
@[simp] theorem State.setCtx_dp (s : State) (n : Nat) (x : Ctx) : (s.setCtx n x).dp = s.dp := rfl
@[simp] theorem State.setCtx_mem (s : State) (n : Nat) (x : Ctx) : (s.setCtx n x).mem = s.mem := rfl
@[simp] theorem State.setCtx_ce (s : State) (n : Nat) (x : Ctx) : (s.setCtx n x).ce = s.ce := rfl
@[simp] theorem State.setCtx_fab (s : State) (n : Nat) (x : Ctx) : (s.setCtx n x).fab = s.fab := rfl
@[simp] theorem State.setCtx_pair (s : State) (n : Nat) (x : Ctx) : (s.setCtx n x).pair = s.pair := rfl
@[simp] theorem State.setCtx_safety (s : State) (n : Nat) (x : Ctx) : (s.setCtx n x).safety = s.safety := rfl
@[simp] theorem State.setCtx_hang (s : State) (n : Nat) (x : Ctx) : (s.setCtx n x).hang = s.hang := rfl
@[simp] theorem State.setCtx_sec (s : State) (n : Nat) (x : Ctx) : (s.setCtx n x).sec = s.sec := rfl
@[simp] theorem State.setCtx_pins (s : State) (n : Nat) (x : Ctx) : (s.setCtx n x).pins = s.pins := rfl
@[simp] theorem State.setCtx_tap (s : State) (n : Nat) (x : Ctx) : (s.setCtx n x).tap = s.tap := rfl
@[simp] theorem State.setCtx_power (s : State) (n : Nat) (x : Ctx) : (s.setCtx n x).power = s.power := rfl
@[simp] theorem State.setCtx_free (s : State) (n : Nat) (x : Ctx) : (s.setCtx n x).free = s.free := rfl
@[simp] theorem State.setCtx_pending (s : State) (n : Nat) (x : Ctx) : (s.setCtx n x).pending = s.pending := rfl
@[simp] theorem State.setStream_regs (s : State) (n : Nat) (x : Stream) : (s.setStream n x).regs = s.regs := rfl
@[simp] theorem State.setStream_time (s : State) (n : Nat) (x : Stream) : (s.setStream n x).time = s.time := rfl
@[simp] theorem State.setStream_angles (s : State) (n : Nat) (x : Stream) : (s.setStream n x).angles = s.angles := rfl
@[simp] theorem State.setStream_pattern (s : State) (n : Nat) (x : Stream) : (s.setStream n x).pattern = s.pattern := rfl
@[simp] theorem State.setStream_cores (s : State) (n : Nat) (x : Stream) : (s.setStream n x).cores = s.cores := rfl
@[simp] theorem State.setStream_ctxs (s : State) (n : Nat) (x : Stream) : (s.setStream n x).ctxs = s.ctxs := rfl
@[simp] theorem State.setStream_qm (s : State) (n : Nat) (x : Stream) : (s.setStream n x).qm = s.qm := rfl
@[simp] theorem State.setStream_audio (s : State) (n : Nat) (x : Stream) : (s.setStream n x).audio = s.audio := rfl
@[simp] theorem State.setStream_dp (s : State) (n : Nat) (x : Stream) : (s.setStream n x).dp = s.dp := rfl
@[simp] theorem State.setStream_mem (s : State) (n : Nat) (x : Stream) : (s.setStream n x).mem = s.mem := rfl
@[simp] theorem State.setStream_ce (s : State) (n : Nat) (x : Stream) : (s.setStream n x).ce = s.ce := rfl
@[simp] theorem State.setStream_fab (s : State) (n : Nat) (x : Stream) : (s.setStream n x).fab = s.fab := rfl
@[simp] theorem State.setStream_pair (s : State) (n : Nat) (x : Stream) : (s.setStream n x).pair = s.pair := rfl
@[simp] theorem State.setStream_safety (s : State) (n : Nat) (x : Stream) : (s.setStream n x).safety = s.safety := rfl
@[simp] theorem State.setStream_hang (s : State) (n : Nat) (x : Stream) : (s.setStream n x).hang = s.hang := rfl
@[simp] theorem State.setStream_sec (s : State) (n : Nat) (x : Stream) : (s.setStream n x).sec = s.sec := rfl
@[simp] theorem State.setStream_pins (s : State) (n : Nat) (x : Stream) : (s.setStream n x).pins = s.pins := rfl
@[simp] theorem State.setStream_tap (s : State) (n : Nat) (x : Stream) : (s.setStream n x).tap = s.tap := rfl
@[simp] theorem State.setStream_power (s : State) (n : Nat) (x : Stream) : (s.setStream n x).power = s.power := rfl
@[simp] theorem State.setStream_free (s : State) (n : Nat) (x : Stream) : (s.setStream n x).free = s.free := rfl
@[simp] theorem State.setStream_pending (s : State) (n : Nat) (x : Stream) : (s.setStream n x).pending = s.pending := rfl
@[simp] theorem State.setQueue_regs (s : State) (q : Nat) (x : Queue) : (s.setQueue q x).regs = s.regs := rfl
@[simp] theorem State.setQueue_time (s : State) (q : Nat) (x : Queue) : (s.setQueue q x).time = s.time := rfl
@[simp] theorem State.setQueue_angles (s : State) (q : Nat) (x : Queue) : (s.setQueue q x).angles = s.angles := rfl
@[simp] theorem State.setQueue_pattern (s : State) (q : Nat) (x : Queue) : (s.setQueue q x).pattern = s.pattern := rfl
@[simp] theorem State.setQueue_cores (s : State) (q : Nat) (x : Queue) : (s.setQueue q x).cores = s.cores := rfl
@[simp] theorem State.setQueue_ctxs (s : State) (q : Nat) (x : Queue) : (s.setQueue q x).ctxs = s.ctxs := rfl
@[simp] theorem State.setQueue_streams (s : State) (q : Nat) (x : Queue) : (s.setQueue q x).streams = s.streams := rfl
@[simp] theorem State.setQueue_audio (s : State) (q : Nat) (x : Queue) : (s.setQueue q x).audio = s.audio := rfl
@[simp] theorem State.setQueue_dp (s : State) (q : Nat) (x : Queue) : (s.setQueue q x).dp = s.dp := rfl
@[simp] theorem State.setQueue_mem (s : State) (q : Nat) (x : Queue) : (s.setQueue q x).mem = s.mem := rfl
@[simp] theorem State.setQueue_ce (s : State) (q : Nat) (x : Queue) : (s.setQueue q x).ce = s.ce := rfl
@[simp] theorem State.setQueue_fab (s : State) (q : Nat) (x : Queue) : (s.setQueue q x).fab = s.fab := rfl
@[simp] theorem State.setQueue_pair (s : State) (q : Nat) (x : Queue) : (s.setQueue q x).pair = s.pair := rfl
@[simp] theorem State.setQueue_safety (s : State) (q : Nat) (x : Queue) : (s.setQueue q x).safety = s.safety := rfl
@[simp] theorem State.setQueue_hang (s : State) (q : Nat) (x : Queue) : (s.setQueue q x).hang = s.hang := rfl
@[simp] theorem State.setQueue_sec (s : State) (q : Nat) (x : Queue) : (s.setQueue q x).sec = s.sec := rfl
@[simp] theorem State.setQueue_pins (s : State) (q : Nat) (x : Queue) : (s.setQueue q x).pins = s.pins := rfl
@[simp] theorem State.setQueue_tap (s : State) (q : Nat) (x : Queue) : (s.setQueue q x).tap = s.tap := rfl
@[simp] theorem State.setQueue_power (s : State) (q : Nat) (x : Queue) : (s.setQueue q x).power = s.power := rfl
@[simp] theorem State.setQueue_free (s : State) (q : Nat) (x : Queue) : (s.setQueue q x).free = s.free := rfl
@[simp] theorem State.setQueue_pending (s : State) (q : Nat) (x : Queue) : (s.setQueue q x).pending = s.pending := rfl
@[simp] theorem State.setPort_regs (s : State) (p : Nat) (x : Port) : (s.setPort p x).regs = s.regs := rfl
@[simp] theorem State.setPort_time (s : State) (p : Nat) (x : Port) : (s.setPort p x).time = s.time := rfl
@[simp] theorem State.setPort_angles (s : State) (p : Nat) (x : Port) : (s.setPort p x).angles = s.angles := rfl
@[simp] theorem State.setPort_pattern (s : State) (p : Nat) (x : Port) : (s.setPort p x).pattern = s.pattern := rfl
@[simp] theorem State.setPort_cores (s : State) (p : Nat) (x : Port) : (s.setPort p x).cores = s.cores := rfl
@[simp] theorem State.setPort_ctxs (s : State) (p : Nat) (x : Port) : (s.setPort p x).ctxs = s.ctxs := rfl
@[simp] theorem State.setPort_streams (s : State) (p : Nat) (x : Port) : (s.setPort p x).streams = s.streams := rfl
@[simp] theorem State.setPort_qm (s : State) (p : Nat) (x : Port) : (s.setPort p x).qm = s.qm := rfl
@[simp] theorem State.setPort_dp (s : State) (p : Nat) (x : Port) : (s.setPort p x).dp = s.dp := rfl
@[simp] theorem State.setPort_mem (s : State) (p : Nat) (x : Port) : (s.setPort p x).mem = s.mem := rfl
@[simp] theorem State.setPort_ce (s : State) (p : Nat) (x : Port) : (s.setPort p x).ce = s.ce := rfl
@[simp] theorem State.setPort_fab (s : State) (p : Nat) (x : Port) : (s.setPort p x).fab = s.fab := rfl
@[simp] theorem State.setPort_pair (s : State) (p : Nat) (x : Port) : (s.setPort p x).pair = s.pair := rfl
@[simp] theorem State.setPort_safety (s : State) (p : Nat) (x : Port) : (s.setPort p x).safety = s.safety := rfl
@[simp] theorem State.setPort_hang (s : State) (p : Nat) (x : Port) : (s.setPort p x).hang = s.hang := rfl
@[simp] theorem State.setPort_sec (s : State) (p : Nat) (x : Port) : (s.setPort p x).sec = s.sec := rfl
@[simp] theorem State.setPort_pins (s : State) (p : Nat) (x : Port) : (s.setPort p x).pins = s.pins := rfl
@[simp] theorem State.setPort_tap (s : State) (p : Nat) (x : Port) : (s.setPort p x).tap = s.tap := rfl
@[simp] theorem State.setPort_power (s : State) (p : Nat) (x : Port) : (s.setPort p x).power = s.power := rfl
@[simp] theorem State.setPort_free (s : State) (p : Nat) (x : Port) : (s.setPort p x).free = s.free := rfl
@[simp] theorem State.setPort_pending (s : State) (p : Nat) (x : Port) : (s.setPort p x).pending = s.pending := rfl
@[simp] theorem State.setRing_regs (s : State) (r : Nat) (x : Ring) : (s.setRing r x).regs = s.regs := rfl
@[simp] theorem State.setRing_time (s : State) (r : Nat) (x : Ring) : (s.setRing r x).time = s.time := rfl
@[simp] theorem State.setRing_angles (s : State) (r : Nat) (x : Ring) : (s.setRing r x).angles = s.angles := rfl
@[simp] theorem State.setRing_pattern (s : State) (r : Nat) (x : Ring) : (s.setRing r x).pattern = s.pattern := rfl
@[simp] theorem State.setRing_cores (s : State) (r : Nat) (x : Ring) : (s.setRing r x).cores = s.cores := rfl
@[simp] theorem State.setRing_ctxs (s : State) (r : Nat) (x : Ring) : (s.setRing r x).ctxs = s.ctxs := rfl
@[simp] theorem State.setRing_streams (s : State) (r : Nat) (x : Ring) : (s.setRing r x).streams = s.streams := rfl
@[simp] theorem State.setRing_qm (s : State) (r : Nat) (x : Ring) : (s.setRing r x).qm = s.qm := rfl
@[simp] theorem State.setRing_dp (s : State) (r : Nat) (x : Ring) : (s.setRing r x).dp = s.dp := rfl
@[simp] theorem State.setRing_mem (s : State) (r : Nat) (x : Ring) : (s.setRing r x).mem = s.mem := rfl
@[simp] theorem State.setRing_ce (s : State) (r : Nat) (x : Ring) : (s.setRing r x).ce = s.ce := rfl
@[simp] theorem State.setRing_fab (s : State) (r : Nat) (x : Ring) : (s.setRing r x).fab = s.fab := rfl
@[simp] theorem State.setRing_pair (s : State) (r : Nat) (x : Ring) : (s.setRing r x).pair = s.pair := rfl
@[simp] theorem State.setRing_safety (s : State) (r : Nat) (x : Ring) : (s.setRing r x).safety = s.safety := rfl
@[simp] theorem State.setRing_hang (s : State) (r : Nat) (x : Ring) : (s.setRing r x).hang = s.hang := rfl
@[simp] theorem State.setRing_sec (s : State) (r : Nat) (x : Ring) : (s.setRing r x).sec = s.sec := rfl
@[simp] theorem State.setRing_pins (s : State) (r : Nat) (x : Ring) : (s.setRing r x).pins = s.pins := rfl
@[simp] theorem State.setRing_tap (s : State) (r : Nat) (x : Ring) : (s.setRing r x).tap = s.tap := rfl
@[simp] theorem State.setRing_power (s : State) (r : Nat) (x : Ring) : (s.setRing r x).power = s.power := rfl
@[simp] theorem State.setRing_free (s : State) (r : Nat) (x : Ring) : (s.setRing r x).free = s.free := rfl
@[simp] theorem State.setRing_pending (s : State) (r : Nat) (x : Ring) : (s.setRing r x).pending = s.pending := rfl
@[simp] theorem State.setApll_regs (s : State) (a : Nat) (x : Apll) : (s.setApll a x).regs = s.regs := rfl
@[simp] theorem State.setApll_time (s : State) (a : Nat) (x : Apll) : (s.setApll a x).time = s.time := rfl
@[simp] theorem State.setApll_angles (s : State) (a : Nat) (x : Apll) : (s.setApll a x).angles = s.angles := rfl
@[simp] theorem State.setApll_pattern (s : State) (a : Nat) (x : Apll) : (s.setApll a x).pattern = s.pattern := rfl
@[simp] theorem State.setApll_cores (s : State) (a : Nat) (x : Apll) : (s.setApll a x).cores = s.cores := rfl
@[simp] theorem State.setApll_ctxs (s : State) (a : Nat) (x : Apll) : (s.setApll a x).ctxs = s.ctxs := rfl
@[simp] theorem State.setApll_streams (s : State) (a : Nat) (x : Apll) : (s.setApll a x).streams = s.streams := rfl
@[simp] theorem State.setApll_qm (s : State) (a : Nat) (x : Apll) : (s.setApll a x).qm = s.qm := rfl
@[simp] theorem State.setApll_dp (s : State) (a : Nat) (x : Apll) : (s.setApll a x).dp = s.dp := rfl
@[simp] theorem State.setApll_mem (s : State) (a : Nat) (x : Apll) : (s.setApll a x).mem = s.mem := rfl
@[simp] theorem State.setApll_ce (s : State) (a : Nat) (x : Apll) : (s.setApll a x).ce = s.ce := rfl
@[simp] theorem State.setApll_fab (s : State) (a : Nat) (x : Apll) : (s.setApll a x).fab = s.fab := rfl
@[simp] theorem State.setApll_pair (s : State) (a : Nat) (x : Apll) : (s.setApll a x).pair = s.pair := rfl
@[simp] theorem State.setApll_safety (s : State) (a : Nat) (x : Apll) : (s.setApll a x).safety = s.safety := rfl
@[simp] theorem State.setApll_hang (s : State) (a : Nat) (x : Apll) : (s.setApll a x).hang = s.hang := rfl
@[simp] theorem State.setApll_sec (s : State) (a : Nat) (x : Apll) : (s.setApll a x).sec = s.sec := rfl
@[simp] theorem State.setApll_pins (s : State) (a : Nat) (x : Apll) : (s.setApll a x).pins = s.pins := rfl
@[simp] theorem State.setApll_tap (s : State) (a : Nat) (x : Apll) : (s.setApll a x).tap = s.tap := rfl
@[simp] theorem State.setApll_power (s : State) (a : Nat) (x : Apll) : (s.setApll a x).power = s.power := rfl
@[simp] theorem State.setApll_free (s : State) (a : Nat) (x : Apll) : (s.setApll a x).free = s.free := rfl
@[simp] theorem State.setApll_pending (s : State) (a : Nat) (x : Apll) : (s.setApll a x).pending = s.pending := rfl
@[simp] theorem State.setAngle_regs (s : State) (a : Nat) (x : Angle) : (s.setAngle a x).regs = s.regs := rfl
@[simp] theorem State.setAngle_time (s : State) (a : Nat) (x : Angle) : (s.setAngle a x).time = s.time := rfl
@[simp] theorem State.setAngle_pattern (s : State) (a : Nat) (x : Angle) : (s.setAngle a x).pattern = s.pattern := rfl
@[simp] theorem State.setAngle_cores (s : State) (a : Nat) (x : Angle) : (s.setAngle a x).cores = s.cores := rfl
@[simp] theorem State.setAngle_ctxs (s : State) (a : Nat) (x : Angle) : (s.setAngle a x).ctxs = s.ctxs := rfl
@[simp] theorem State.setAngle_streams (s : State) (a : Nat) (x : Angle) : (s.setAngle a x).streams = s.streams := rfl
@[simp] theorem State.setAngle_qm (s : State) (a : Nat) (x : Angle) : (s.setAngle a x).qm = s.qm := rfl
@[simp] theorem State.setAngle_audio (s : State) (a : Nat) (x : Angle) : (s.setAngle a x).audio = s.audio := rfl
@[simp] theorem State.setAngle_dp (s : State) (a : Nat) (x : Angle) : (s.setAngle a x).dp = s.dp := rfl
@[simp] theorem State.setAngle_mem (s : State) (a : Nat) (x : Angle) : (s.setAngle a x).mem = s.mem := rfl
@[simp] theorem State.setAngle_ce (s : State) (a : Nat) (x : Angle) : (s.setAngle a x).ce = s.ce := rfl
@[simp] theorem State.setAngle_fab (s : State) (a : Nat) (x : Angle) : (s.setAngle a x).fab = s.fab := rfl
@[simp] theorem State.setAngle_pair (s : State) (a : Nat) (x : Angle) : (s.setAngle a x).pair = s.pair := rfl
@[simp] theorem State.setAngle_safety (s : State) (a : Nat) (x : Angle) : (s.setAngle a x).safety = s.safety := rfl
@[simp] theorem State.setAngle_hang (s : State) (a : Nat) (x : Angle) : (s.setAngle a x).hang = s.hang := rfl
@[simp] theorem State.setAngle_sec (s : State) (a : Nat) (x : Angle) : (s.setAngle a x).sec = s.sec := rfl
@[simp] theorem State.setAngle_pins (s : State) (a : Nat) (x : Angle) : (s.setAngle a x).pins = s.pins := rfl
@[simp] theorem State.setAngle_tap (s : State) (a : Nat) (x : Angle) : (s.setAngle a x).tap = s.tap := rfl
@[simp] theorem State.setAngle_power (s : State) (a : Nat) (x : Angle) : (s.setAngle a x).power = s.power := rfl
@[simp] theorem State.setAngle_free (s : State) (a : Nat) (x : Angle) : (s.setAngle a x).free = s.free := rfl
@[simp] theorem State.setAngle_pending (s : State) (a : Nat) (x : Angle) : (s.setAngle a x).pending = s.pending := rfl
@[simp] theorem State.setLink_regs (s : State) (p : Nat) (x : Link) : (s.setLink p x).regs = s.regs := rfl
@[simp] theorem State.setLink_time (s : State) (p : Nat) (x : Link) : (s.setLink p x).time = s.time := rfl
@[simp] theorem State.setLink_angles (s : State) (p : Nat) (x : Link) : (s.setLink p x).angles = s.angles := rfl
@[simp] theorem State.setLink_pattern (s : State) (p : Nat) (x : Link) : (s.setLink p x).pattern = s.pattern := rfl
@[simp] theorem State.setLink_cores (s : State) (p : Nat) (x : Link) : (s.setLink p x).cores = s.cores := rfl
@[simp] theorem State.setLink_ctxs (s : State) (p : Nat) (x : Link) : (s.setLink p x).ctxs = s.ctxs := rfl
@[simp] theorem State.setLink_streams (s : State) (p : Nat) (x : Link) : (s.setLink p x).streams = s.streams := rfl
@[simp] theorem State.setLink_qm (s : State) (p : Nat) (x : Link) : (s.setLink p x).qm = s.qm := rfl
@[simp] theorem State.setLink_audio (s : State) (p : Nat) (x : Link) : (s.setLink p x).audio = s.audio := rfl
@[simp] theorem State.setLink_dp (s : State) (p : Nat) (x : Link) : (s.setLink p x).dp = s.dp := rfl
@[simp] theorem State.setLink_mem (s : State) (p : Nat) (x : Link) : (s.setLink p x).mem = s.mem := rfl
@[simp] theorem State.setLink_ce (s : State) (p : Nat) (x : Link) : (s.setLink p x).ce = s.ce := rfl
@[simp] theorem State.setLink_pair (s : State) (p : Nat) (x : Link) : (s.setLink p x).pair = s.pair := rfl
@[simp] theorem State.setLink_safety (s : State) (p : Nat) (x : Link) : (s.setLink p x).safety = s.safety := rfl
@[simp] theorem State.setLink_hang (s : State) (p : Nat) (x : Link) : (s.setLink p x).hang = s.hang := rfl
@[simp] theorem State.setLink_sec (s : State) (p : Nat) (x : Link) : (s.setLink p x).sec = s.sec := rfl
@[simp] theorem State.setLink_pins (s : State) (p : Nat) (x : Link) : (s.setLink p x).pins = s.pins := rfl
@[simp] theorem State.setLink_tap (s : State) (p : Nat) (x : Link) : (s.setLink p x).tap = s.tap := rfl
@[simp] theorem State.setLink_power (s : State) (p : Nat) (x : Link) : (s.setLink p x).power = s.power := rfl
@[simp] theorem State.setLink_free (s : State) (p : Nat) (x : Link) : (s.setLink p x).free = s.free := rfl
@[simp] theorem State.setLink_pending (s : State) (p : Nat) (x : Link) : (s.setLink p x).pending = s.pending := rfl
@[simp] theorem State.setTag_regs (s : State) (t : Nat) (x : Option Tag) : (s.setTag t x).regs = s.regs := rfl
@[simp] theorem State.setTag_time (s : State) (t : Nat) (x : Option Tag) : (s.setTag t x).time = s.time := rfl
@[simp] theorem State.setTag_angles (s : State) (t : Nat) (x : Option Tag) : (s.setTag t x).angles = s.angles := rfl
@[simp] theorem State.setTag_pattern (s : State) (t : Nat) (x : Option Tag) : (s.setTag t x).pattern = s.pattern := rfl
@[simp] theorem State.setTag_cores (s : State) (t : Nat) (x : Option Tag) : (s.setTag t x).cores = s.cores := rfl
@[simp] theorem State.setTag_ctxs (s : State) (t : Nat) (x : Option Tag) : (s.setTag t x).ctxs = s.ctxs := rfl
@[simp] theorem State.setTag_streams (s : State) (t : Nat) (x : Option Tag) : (s.setTag t x).streams = s.streams := rfl
@[simp] theorem State.setTag_qm (s : State) (t : Nat) (x : Option Tag) : (s.setTag t x).qm = s.qm := rfl
@[simp] theorem State.setTag_audio (s : State) (t : Nat) (x : Option Tag) : (s.setTag t x).audio = s.audio := rfl
@[simp] theorem State.setTag_dp (s : State) (t : Nat) (x : Option Tag) : (s.setTag t x).dp = s.dp := rfl
@[simp] theorem State.setTag_mem (s : State) (t : Nat) (x : Option Tag) : (s.setTag t x).mem = s.mem := rfl
@[simp] theorem State.setTag_ce (s : State) (t : Nat) (x : Option Tag) : (s.setTag t x).ce = s.ce := rfl
@[simp] theorem State.setTag_pair (s : State) (t : Nat) (x : Option Tag) : (s.setTag t x).pair = s.pair := rfl
@[simp] theorem State.setTag_safety (s : State) (t : Nat) (x : Option Tag) : (s.setTag t x).safety = s.safety := rfl
@[simp] theorem State.setTag_hang (s : State) (t : Nat) (x : Option Tag) : (s.setTag t x).hang = s.hang := rfl
@[simp] theorem State.setTag_sec (s : State) (t : Nat) (x : Option Tag) : (s.setTag t x).sec = s.sec := rfl
@[simp] theorem State.setTag_pins (s : State) (t : Nat) (x : Option Tag) : (s.setTag t x).pins = s.pins := rfl
@[simp] theorem State.setTag_tap (s : State) (t : Nat) (x : Option Tag) : (s.setTag t x).tap = s.tap := rfl
@[simp] theorem State.setTag_power (s : State) (t : Nat) (x : Option Tag) : (s.setTag t x).power = s.power := rfl
@[simp] theorem State.setTag_free (s : State) (t : Nat) (x : Option Tag) : (s.setTag t x).free = s.free := rfl
@[simp] theorem State.setTag_pending (s : State) (t : Nat) (x : Option Tag) : (s.setTag t x).pending = s.pending := rfl
@[simp] theorem State.setSem_regs (s : State) (n : Nat) (v : W32) : (s.setSem n v).regs = s.regs := rfl
@[simp] theorem State.setSem_time (s : State) (n : Nat) (v : W32) : (s.setSem n v).time = s.time := rfl
@[simp] theorem State.setSem_angles (s : State) (n : Nat) (v : W32) : (s.setSem n v).angles = s.angles := rfl
@[simp] theorem State.setSem_pattern (s : State) (n : Nat) (v : W32) : (s.setSem n v).pattern = s.pattern := rfl
@[simp] theorem State.setSem_cores (s : State) (n : Nat) (v : W32) : (s.setSem n v).cores = s.cores := rfl
@[simp] theorem State.setSem_ctxs (s : State) (n : Nat) (v : W32) : (s.setSem n v).ctxs = s.ctxs := rfl
@[simp] theorem State.setSem_streams (s : State) (n : Nat) (v : W32) : (s.setSem n v).streams = s.streams := rfl
@[simp] theorem State.setSem_qm (s : State) (n : Nat) (v : W32) : (s.setSem n v).qm = s.qm := rfl
@[simp] theorem State.setSem_audio (s : State) (n : Nat) (v : W32) : (s.setSem n v).audio = s.audio := rfl
@[simp] theorem State.setSem_dp (s : State) (n : Nat) (v : W32) : (s.setSem n v).dp = s.dp := rfl
@[simp] theorem State.setSem_mem (s : State) (n : Nat) (v : W32) : (s.setSem n v).mem = s.mem := rfl
@[simp] theorem State.setSem_ce (s : State) (n : Nat) (v : W32) : (s.setSem n v).ce = s.ce := rfl
@[simp] theorem State.setSem_pair (s : State) (n : Nat) (v : W32) : (s.setSem n v).pair = s.pair := rfl
@[simp] theorem State.setSem_safety (s : State) (n : Nat) (v : W32) : (s.setSem n v).safety = s.safety := rfl
@[simp] theorem State.setSem_hang (s : State) (n : Nat) (v : W32) : (s.setSem n v).hang = s.hang := rfl
@[simp] theorem State.setSem_sec (s : State) (n : Nat) (v : W32) : (s.setSem n v).sec = s.sec := rfl
@[simp] theorem State.setSem_pins (s : State) (n : Nat) (v : W32) : (s.setSem n v).pins = s.pins := rfl
@[simp] theorem State.setSem_tap (s : State) (n : Nat) (v : W32) : (s.setSem n v).tap = s.tap := rfl
@[simp] theorem State.setSem_power (s : State) (n : Nat) (v : W32) : (s.setSem n v).power = s.power := rfl
@[simp] theorem State.setSem_free (s : State) (n : Nat) (v : W32) : (s.setSem n v).free = s.free := rfl
@[simp] theorem State.setSem_pending (s : State) (n : Nat) (v : W32) : (s.setSem n v).pending = s.pending := rfl
@[simp] theorem State.setFld_time (s : State) (p o lo w x : Nat) : (s.setFld p o lo w x).time = s.time := rfl
@[simp] theorem State.setFld_angles (s : State) (p o lo w x : Nat) : (s.setFld p o lo w x).angles = s.angles := rfl
@[simp] theorem State.setFld_pattern (s : State) (p o lo w x : Nat) : (s.setFld p o lo w x).pattern = s.pattern := rfl
@[simp] theorem State.setFld_cores (s : State) (p o lo w x : Nat) : (s.setFld p o lo w x).cores = s.cores := rfl
@[simp] theorem State.setFld_ctxs (s : State) (p o lo w x : Nat) : (s.setFld p o lo w x).ctxs = s.ctxs := rfl
@[simp] theorem State.setFld_streams (s : State) (p o lo w x : Nat) : (s.setFld p o lo w x).streams = s.streams := rfl
@[simp] theorem State.setFld_qm (s : State) (p o lo w x : Nat) : (s.setFld p o lo w x).qm = s.qm := rfl
@[simp] theorem State.setFld_audio (s : State) (p o lo w x : Nat) : (s.setFld p o lo w x).audio = s.audio := rfl
@[simp] theorem State.setFld_dp (s : State) (p o lo w x : Nat) : (s.setFld p o lo w x).dp = s.dp := rfl
@[simp] theorem State.setFld_mem (s : State) (p o lo w x : Nat) : (s.setFld p o lo w x).mem = s.mem := rfl
@[simp] theorem State.setFld_ce (s : State) (p o lo w x : Nat) : (s.setFld p o lo w x).ce = s.ce := rfl
@[simp] theorem State.setFld_fab (s : State) (p o lo w x : Nat) : (s.setFld p o lo w x).fab = s.fab := rfl
@[simp] theorem State.setFld_pair (s : State) (p o lo w x : Nat) : (s.setFld p o lo w x).pair = s.pair := rfl
@[simp] theorem State.setFld_safety (s : State) (p o lo w x : Nat) : (s.setFld p o lo w x).safety = s.safety := rfl
@[simp] theorem State.setFld_hang (s : State) (p o lo w x : Nat) : (s.setFld p o lo w x).hang = s.hang := rfl
@[simp] theorem State.setFld_sec (s : State) (p o lo w x : Nat) : (s.setFld p o lo w x).sec = s.sec := rfl
@[simp] theorem State.setFld_pins (s : State) (p o lo w x : Nat) : (s.setFld p o lo w x).pins = s.pins := rfl
@[simp] theorem State.setFld_tap (s : State) (p o lo w x : Nat) : (s.setFld p o lo w x).tap = s.tap := rfl
@[simp] theorem State.setFld_power (s : State) (p o lo w x : Nat) : (s.setFld p o lo w x).power = s.power := rfl
@[simp] theorem State.setFld_free (s : State) (p o lo w x : Nat) : (s.setFld p o lo w x).free = s.free := rfl
@[simp] theorem State.setFld_pending (s : State) (p o lo w x : Nat) : (s.setFld p o lo w x).pending = s.pending := rfl
@[simp] theorem State.setFlag_time (s : State) (p o i : Nat) (b : Bool) : (s.setFlag p o i b).time = s.time := rfl
@[simp] theorem State.setFlag_angles (s : State) (p o i : Nat) (b : Bool) : (s.setFlag p o i b).angles = s.angles := rfl
@[simp] theorem State.setFlag_pattern (s : State) (p o i : Nat) (b : Bool) : (s.setFlag p o i b).pattern = s.pattern := rfl
@[simp] theorem State.setFlag_cores (s : State) (p o i : Nat) (b : Bool) : (s.setFlag p o i b).cores = s.cores := rfl
@[simp] theorem State.setFlag_ctxs (s : State) (p o i : Nat) (b : Bool) : (s.setFlag p o i b).ctxs = s.ctxs := rfl
@[simp] theorem State.setFlag_streams (s : State) (p o i : Nat) (b : Bool) : (s.setFlag p o i b).streams = s.streams := rfl
@[simp] theorem State.setFlag_qm (s : State) (p o i : Nat) (b : Bool) : (s.setFlag p o i b).qm = s.qm := rfl
@[simp] theorem State.setFlag_audio (s : State) (p o i : Nat) (b : Bool) : (s.setFlag p o i b).audio = s.audio := rfl
@[simp] theorem State.setFlag_dp (s : State) (p o i : Nat) (b : Bool) : (s.setFlag p o i b).dp = s.dp := rfl
@[simp] theorem State.setFlag_mem (s : State) (p o i : Nat) (b : Bool) : (s.setFlag p o i b).mem = s.mem := rfl
@[simp] theorem State.setFlag_ce (s : State) (p o i : Nat) (b : Bool) : (s.setFlag p o i b).ce = s.ce := rfl
@[simp] theorem State.setFlag_fab (s : State) (p o i : Nat) (b : Bool) : (s.setFlag p o i b).fab = s.fab := rfl
@[simp] theorem State.setFlag_pair (s : State) (p o i : Nat) (b : Bool) : (s.setFlag p o i b).pair = s.pair := rfl
@[simp] theorem State.setFlag_safety (s : State) (p o i : Nat) (b : Bool) : (s.setFlag p o i b).safety = s.safety := rfl
@[simp] theorem State.setFlag_hang (s : State) (p o i : Nat) (b : Bool) : (s.setFlag p o i b).hang = s.hang := rfl
@[simp] theorem State.setFlag_sec (s : State) (p o i : Nat) (b : Bool) : (s.setFlag p o i b).sec = s.sec := rfl
@[simp] theorem State.setFlag_pins (s : State) (p o i : Nat) (b : Bool) : (s.setFlag p o i b).pins = s.pins := rfl
@[simp] theorem State.setFlag_tap (s : State) (p o i : Nat) (b : Bool) : (s.setFlag p o i b).tap = s.tap := rfl
@[simp] theorem State.setFlag_power (s : State) (p o i : Nat) (b : Bool) : (s.setFlag p o i b).power = s.power := rfl
@[simp] theorem State.setFlag_free (s : State) (p o i : Nat) (b : Bool) : (s.setFlag p o i b).free = s.free := rfl
@[simp] theorem State.setFlag_pending (s : State) (p o i : Nat) (b : Bool) : (s.setFlag p o i b).pending = s.pending := rfl
@[simp] theorem State.countFld_time (s : State) (p o lo w n : Nat) : (s.countFld p o lo w n).time = s.time := rfl
@[simp] theorem State.countFld_angles (s : State) (p o lo w n : Nat) : (s.countFld p o lo w n).angles = s.angles := rfl
@[simp] theorem State.countFld_pattern (s : State) (p o lo w n : Nat) : (s.countFld p o lo w n).pattern = s.pattern := rfl
@[simp] theorem State.countFld_cores (s : State) (p o lo w n : Nat) : (s.countFld p o lo w n).cores = s.cores := rfl
@[simp] theorem State.countFld_ctxs (s : State) (p o lo w n : Nat) : (s.countFld p o lo w n).ctxs = s.ctxs := rfl
@[simp] theorem State.countFld_streams (s : State) (p o lo w n : Nat) : (s.countFld p o lo w n).streams = s.streams := rfl
@[simp] theorem State.countFld_qm (s : State) (p o lo w n : Nat) : (s.countFld p o lo w n).qm = s.qm := rfl
@[simp] theorem State.countFld_audio (s : State) (p o lo w n : Nat) : (s.countFld p o lo w n).audio = s.audio := rfl
@[simp] theorem State.countFld_dp (s : State) (p o lo w n : Nat) : (s.countFld p o lo w n).dp = s.dp := rfl
@[simp] theorem State.countFld_mem (s : State) (p o lo w n : Nat) : (s.countFld p o lo w n).mem = s.mem := rfl
@[simp] theorem State.countFld_ce (s : State) (p o lo w n : Nat) : (s.countFld p o lo w n).ce = s.ce := rfl
@[simp] theorem State.countFld_fab (s : State) (p o lo w n : Nat) : (s.countFld p o lo w n).fab = s.fab := rfl
@[simp] theorem State.countFld_pair (s : State) (p o lo w n : Nat) : (s.countFld p o lo w n).pair = s.pair := rfl
@[simp] theorem State.countFld_safety (s : State) (p o lo w n : Nat) : (s.countFld p o lo w n).safety = s.safety := rfl
@[simp] theorem State.countFld_hang (s : State) (p o lo w n : Nat) : (s.countFld p o lo w n).hang = s.hang := rfl
@[simp] theorem State.countFld_sec (s : State) (p o lo w n : Nat) : (s.countFld p o lo w n).sec = s.sec := rfl
@[simp] theorem State.countFld_pins (s : State) (p o lo w n : Nat) : (s.countFld p o lo w n).pins = s.pins := rfl
@[simp] theorem State.countFld_tap (s : State) (p o lo w n : Nat) : (s.countFld p o lo w n).tap = s.tap := rfl
@[simp] theorem State.countFld_power (s : State) (p o lo w n : Nat) : (s.countFld p o lo w n).power = s.power := rfl
@[simp] theorem State.countFld_free (s : State) (p o lo w n : Nat) : (s.countFld p o lo w n).free = s.free := rfl
@[simp] theorem State.countFld_pending (s : State) (p o lo w n : Nat) : (s.countFld p o lo w n).pending = s.pending := rfl
@[simp] theorem State.count_time (s : State) (p o n : Nat) : (s.count p o n).time = s.time := rfl
@[simp] theorem State.count_angles (s : State) (p o n : Nat) : (s.count p o n).angles = s.angles := rfl
@[simp] theorem State.count_pattern (s : State) (p o n : Nat) : (s.count p o n).pattern = s.pattern := rfl
@[simp] theorem State.count_cores (s : State) (p o n : Nat) : (s.count p o n).cores = s.cores := rfl
@[simp] theorem State.count_ctxs (s : State) (p o n : Nat) : (s.count p o n).ctxs = s.ctxs := rfl
@[simp] theorem State.count_streams (s : State) (p o n : Nat) : (s.count p o n).streams = s.streams := rfl
@[simp] theorem State.count_qm (s : State) (p o n : Nat) : (s.count p o n).qm = s.qm := rfl
@[simp] theorem State.count_audio (s : State) (p o n : Nat) : (s.count p o n).audio = s.audio := rfl
@[simp] theorem State.count_dp (s : State) (p o n : Nat) : (s.count p o n).dp = s.dp := rfl
@[simp] theorem State.count_mem (s : State) (p o n : Nat) : (s.count p o n).mem = s.mem := rfl
@[simp] theorem State.count_ce (s : State) (p o n : Nat) : (s.count p o n).ce = s.ce := rfl
@[simp] theorem State.count_fab (s : State) (p o n : Nat) : (s.count p o n).fab = s.fab := rfl
@[simp] theorem State.count_pair (s : State) (p o n : Nat) : (s.count p o n).pair = s.pair := rfl
@[simp] theorem State.count_safety (s : State) (p o n : Nat) : (s.count p o n).safety = s.safety := rfl
@[simp] theorem State.count_hang (s : State) (p o n : Nat) : (s.count p o n).hang = s.hang := rfl
@[simp] theorem State.count_sec (s : State) (p o n : Nat) : (s.count p o n).sec = s.sec := rfl
@[simp] theorem State.count_pins (s : State) (p o n : Nat) : (s.count p o n).pins = s.pins := rfl
@[simp] theorem State.count_tap (s : State) (p o n : Nat) : (s.count p o n).tap = s.tap := rfl
@[simp] theorem State.count_power (s : State) (p o n : Nat) : (s.count p o n).power = s.power := rfl
@[simp] theorem State.count_free (s : State) (p o n : Nat) : (s.count p o n).free = s.free := rfl
@[simp] theorem State.count_pending (s : State) (p o n : Nat) : (s.count p o n).pending = s.pending := rfl

/-! ### Numbered parts -/

@[simp] theorem State.core_setCore (s : State) (i j : Nat) (x : Core) :
    (s.setCore i x).core j = if j = i then x else s.core j := by
  simp [State.core, State.setCore, SMap.get_set]
@[simp] theorem State.core_setReg (s : State) (p o : Nat) (v : W32) (j : Nat) : (s.setReg p o v).core j = s.core j := rfl
@[simp] theorem State.core_setCtx (s : State) (n : Nat) (x : Ctx) (j : Nat) : (s.setCtx n x).core j = s.core j := rfl
@[simp] theorem State.core_setStream (s : State) (n : Nat) (x : Stream) (j : Nat) : (s.setStream n x).core j = s.core j := rfl
@[simp] theorem State.core_setQueue (s : State) (q : Nat) (x : Queue) (j : Nat) : (s.setQueue q x).core j = s.core j := rfl
@[simp] theorem State.core_setPort (s : State) (p : Nat) (x : Port) (j : Nat) : (s.setPort p x).core j = s.core j := rfl
@[simp] theorem State.core_setRing (s : State) (r : Nat) (x : Ring) (j : Nat) : (s.setRing r x).core j = s.core j := rfl
@[simp] theorem State.core_setApll (s : State) (a : Nat) (x : Apll) (j : Nat) : (s.setApll a x).core j = s.core j := rfl
@[simp] theorem State.core_setAngle (s : State) (a : Nat) (x : Angle) (j : Nat) : (s.setAngle a x).core j = s.core j := rfl
@[simp] theorem State.core_setLink (s : State) (p : Nat) (x : Link) (j : Nat) : (s.setLink p x).core j = s.core j := rfl
@[simp] theorem State.core_setTag (s : State) (t : Nat) (x : Option Tag) (j : Nat) : (s.setTag t x).core j = s.core j := rfl
@[simp] theorem State.core_setSem (s : State) (n : Nat) (v : W32) (j : Nat) : (s.setSem n v).core j = s.core j := rfl
@[simp] theorem State.core_countFld (s : State) (p o lo w n j : Nat) : (s.countFld p o lo w n).core j = s.core j := rfl
@[simp] theorem State.core_count (s : State) (p o n j : Nat) : (s.count p o n).core j = s.core j := rfl
@[simp] theorem State.core_setFlag (s : State) (p o i : Nat) (b : Bool) (j : Nat) : (s.setFlag p o i b).core j = s.core j := rfl
@[simp] theorem State.ctx_setCtx (s : State) (i j : Nat) (x : Ctx) :
    (s.setCtx i x).ctx j = if j = i then x else s.ctx j := by
  simp [State.ctx, State.setCtx, SMap.get_set]
@[simp] theorem State.ctx_setReg (s : State) (p o : Nat) (v : W32) (j : Nat) : (s.setReg p o v).ctx j = s.ctx j := rfl
@[simp] theorem State.ctx_setCore (s : State) (c : Nat) (k : Core) (j : Nat) : (s.setCore c k).ctx j = s.ctx j := rfl
@[simp] theorem State.ctx_setStream (s : State) (n : Nat) (x : Stream) (j : Nat) : (s.setStream n x).ctx j = s.ctx j := rfl
@[simp] theorem State.ctx_setQueue (s : State) (q : Nat) (x : Queue) (j : Nat) : (s.setQueue q x).ctx j = s.ctx j := rfl
@[simp] theorem State.ctx_setPort (s : State) (p : Nat) (x : Port) (j : Nat) : (s.setPort p x).ctx j = s.ctx j := rfl
@[simp] theorem State.ctx_setRing (s : State) (r : Nat) (x : Ring) (j : Nat) : (s.setRing r x).ctx j = s.ctx j := rfl
@[simp] theorem State.ctx_setApll (s : State) (a : Nat) (x : Apll) (j : Nat) : (s.setApll a x).ctx j = s.ctx j := rfl
@[simp] theorem State.ctx_setAngle (s : State) (a : Nat) (x : Angle) (j : Nat) : (s.setAngle a x).ctx j = s.ctx j := rfl
@[simp] theorem State.ctx_setLink (s : State) (p : Nat) (x : Link) (j : Nat) : (s.setLink p x).ctx j = s.ctx j := rfl
@[simp] theorem State.ctx_setTag (s : State) (t : Nat) (x : Option Tag) (j : Nat) : (s.setTag t x).ctx j = s.ctx j := rfl
@[simp] theorem State.ctx_setSem (s : State) (n : Nat) (v : W32) (j : Nat) : (s.setSem n v).ctx j = s.ctx j := rfl
@[simp] theorem State.ctx_countFld (s : State) (p o lo w n j : Nat) : (s.countFld p o lo w n).ctx j = s.ctx j := rfl
@[simp] theorem State.ctx_count (s : State) (p o n j : Nat) : (s.count p o n).ctx j = s.ctx j := rfl
@[simp] theorem State.ctx_setFlag (s : State) (p o i : Nat) (b : Bool) (j : Nat) : (s.setFlag p o i b).ctx j = s.ctx j := rfl
@[simp] theorem State.stream_setStream (s : State) (i j : Nat) (x : Stream) :
    (s.setStream i x).stream j = if j = i then x else s.stream j := by
  simp [State.stream, State.setStream, SMap.get_set]
@[simp] theorem State.stream_setReg (s : State) (p o : Nat) (v : W32) (j : Nat) : (s.setReg p o v).stream j = s.stream j := rfl
@[simp] theorem State.stream_setCore (s : State) (c : Nat) (k : Core) (j : Nat) : (s.setCore c k).stream j = s.stream j := rfl
@[simp] theorem State.stream_setCtx (s : State) (n : Nat) (x : Ctx) (j : Nat) : (s.setCtx n x).stream j = s.stream j := rfl
@[simp] theorem State.stream_setQueue (s : State) (q : Nat) (x : Queue) (j : Nat) : (s.setQueue q x).stream j = s.stream j := rfl
@[simp] theorem State.stream_setPort (s : State) (p : Nat) (x : Port) (j : Nat) : (s.setPort p x).stream j = s.stream j := rfl
@[simp] theorem State.stream_setRing (s : State) (r : Nat) (x : Ring) (j : Nat) : (s.setRing r x).stream j = s.stream j := rfl
@[simp] theorem State.stream_setApll (s : State) (a : Nat) (x : Apll) (j : Nat) : (s.setApll a x).stream j = s.stream j := rfl
@[simp] theorem State.stream_setAngle (s : State) (a : Nat) (x : Angle) (j : Nat) : (s.setAngle a x).stream j = s.stream j := rfl
@[simp] theorem State.stream_setLink (s : State) (p : Nat) (x : Link) (j : Nat) : (s.setLink p x).stream j = s.stream j := rfl
@[simp] theorem State.stream_setTag (s : State) (t : Nat) (x : Option Tag) (j : Nat) : (s.setTag t x).stream j = s.stream j := rfl
@[simp] theorem State.stream_setSem (s : State) (n : Nat) (v : W32) (j : Nat) : (s.setSem n v).stream j = s.stream j := rfl
@[simp] theorem State.stream_countFld (s : State) (p o lo w n j : Nat) : (s.countFld p o lo w n).stream j = s.stream j := rfl
@[simp] theorem State.stream_count (s : State) (p o n j : Nat) : (s.count p o n).stream j = s.stream j := rfl
@[simp] theorem State.stream_setFlag (s : State) (p o i : Nat) (b : Bool) (j : Nat) : (s.setFlag p o i b).stream j = s.stream j := rfl
@[simp] theorem State.queue_setQueue (s : State) (i j : Nat) (x : Queue) :
    (s.setQueue i x).queue j = if j = i then x else s.queue j := by
  simp [State.queue, State.setQueue, SMap.get_set]
@[simp] theorem State.queue_setReg (s : State) (p o : Nat) (v : W32) (j : Nat) : (s.setReg p o v).queue j = s.queue j := rfl
@[simp] theorem State.queue_setCore (s : State) (c : Nat) (k : Core) (j : Nat) : (s.setCore c k).queue j = s.queue j := rfl
@[simp] theorem State.queue_setCtx (s : State) (n : Nat) (x : Ctx) (j : Nat) : (s.setCtx n x).queue j = s.queue j := rfl
@[simp] theorem State.queue_setStream (s : State) (n : Nat) (x : Stream) (j : Nat) : (s.setStream n x).queue j = s.queue j := rfl
@[simp] theorem State.queue_setPort (s : State) (p : Nat) (x : Port) (j : Nat) : (s.setPort p x).queue j = s.queue j := rfl
@[simp] theorem State.queue_setRing (s : State) (r : Nat) (x : Ring) (j : Nat) : (s.setRing r x).queue j = s.queue j := rfl
@[simp] theorem State.queue_setApll (s : State) (a : Nat) (x : Apll) (j : Nat) : (s.setApll a x).queue j = s.queue j := rfl
@[simp] theorem State.queue_setAngle (s : State) (a : Nat) (x : Angle) (j : Nat) : (s.setAngle a x).queue j = s.queue j := rfl
@[simp] theorem State.queue_setLink (s : State) (p : Nat) (x : Link) (j : Nat) : (s.setLink p x).queue j = s.queue j := rfl
@[simp] theorem State.queue_setTag (s : State) (t : Nat) (x : Option Tag) (j : Nat) : (s.setTag t x).queue j = s.queue j := rfl
@[simp] theorem State.queue_setSem (s : State) (n : Nat) (v : W32) (j : Nat) : (s.setSem n v).queue j = s.queue j := rfl
@[simp] theorem State.queue_countFld (s : State) (p o lo w n j : Nat) : (s.countFld p o lo w n).queue j = s.queue j := rfl
@[simp] theorem State.queue_count (s : State) (p o n j : Nat) : (s.count p o n).queue j = s.queue j := rfl
@[simp] theorem State.queue_setFlag (s : State) (p o i : Nat) (b : Bool) (j : Nat) : (s.setFlag p o i b).queue j = s.queue j := rfl
@[simp] theorem State.port_setPort (s : State) (i j : Nat) (x : Port) :
    (s.setPort i x).port j = if j = i then x else s.port j := by
  simp [State.port, State.setPort, SMap.get_set]
@[simp] theorem State.port_setReg (s : State) (p o : Nat) (v : W32) (j : Nat) : (s.setReg p o v).port j = s.port j := rfl
@[simp] theorem State.port_setCore (s : State) (c : Nat) (k : Core) (j : Nat) : (s.setCore c k).port j = s.port j := rfl
@[simp] theorem State.port_setCtx (s : State) (n : Nat) (x : Ctx) (j : Nat) : (s.setCtx n x).port j = s.port j := rfl
@[simp] theorem State.port_setStream (s : State) (n : Nat) (x : Stream) (j : Nat) : (s.setStream n x).port j = s.port j := rfl
@[simp] theorem State.port_setQueue (s : State) (q : Nat) (x : Queue) (j : Nat) : (s.setQueue q x).port j = s.port j := rfl
@[simp] theorem State.port_setRing (s : State) (r : Nat) (x : Ring) (j : Nat) : (s.setRing r x).port j = s.port j := rfl
@[simp] theorem State.port_setApll (s : State) (a : Nat) (x : Apll) (j : Nat) : (s.setApll a x).port j = s.port j := rfl
@[simp] theorem State.port_setAngle (s : State) (a : Nat) (x : Angle) (j : Nat) : (s.setAngle a x).port j = s.port j := rfl
@[simp] theorem State.port_setLink (s : State) (p : Nat) (x : Link) (j : Nat) : (s.setLink p x).port j = s.port j := rfl
@[simp] theorem State.port_setTag (s : State) (t : Nat) (x : Option Tag) (j : Nat) : (s.setTag t x).port j = s.port j := rfl
@[simp] theorem State.port_setSem (s : State) (n : Nat) (v : W32) (j : Nat) : (s.setSem n v).port j = s.port j := rfl
@[simp] theorem State.port_countFld (s : State) (p o lo w n j : Nat) : (s.countFld p o lo w n).port j = s.port j := rfl
@[simp] theorem State.port_count (s : State) (p o n j : Nat) : (s.count p o n).port j = s.port j := rfl
@[simp] theorem State.port_setFlag (s : State) (p o i : Nat) (b : Bool) (j : Nat) : (s.setFlag p o i b).port j = s.port j := rfl
@[simp] theorem State.ring_setRing (s : State) (i j : Nat) (x : Ring) :
    (s.setRing i x).ring j = if j = i then x else s.ring j := by
  simp [State.ring, State.setRing, SMap.get_set]
@[simp] theorem State.ring_setReg (s : State) (p o : Nat) (v : W32) (j : Nat) : (s.setReg p o v).ring j = s.ring j := rfl
@[simp] theorem State.ring_setCore (s : State) (c : Nat) (k : Core) (j : Nat) : (s.setCore c k).ring j = s.ring j := rfl
@[simp] theorem State.ring_setCtx (s : State) (n : Nat) (x : Ctx) (j : Nat) : (s.setCtx n x).ring j = s.ring j := rfl
@[simp] theorem State.ring_setStream (s : State) (n : Nat) (x : Stream) (j : Nat) : (s.setStream n x).ring j = s.ring j := rfl
@[simp] theorem State.ring_setQueue (s : State) (q : Nat) (x : Queue) (j : Nat) : (s.setQueue q x).ring j = s.ring j := rfl
@[simp] theorem State.ring_setPort (s : State) (p : Nat) (x : Port) (j : Nat) : (s.setPort p x).ring j = s.ring j := rfl
@[simp] theorem State.ring_setApll (s : State) (a : Nat) (x : Apll) (j : Nat) : (s.setApll a x).ring j = s.ring j := rfl
@[simp] theorem State.ring_setAngle (s : State) (a : Nat) (x : Angle) (j : Nat) : (s.setAngle a x).ring j = s.ring j := rfl
@[simp] theorem State.ring_setLink (s : State) (p : Nat) (x : Link) (j : Nat) : (s.setLink p x).ring j = s.ring j := rfl
@[simp] theorem State.ring_setTag (s : State) (t : Nat) (x : Option Tag) (j : Nat) : (s.setTag t x).ring j = s.ring j := rfl
@[simp] theorem State.ring_setSem (s : State) (n : Nat) (v : W32) (j : Nat) : (s.setSem n v).ring j = s.ring j := rfl
@[simp] theorem State.ring_countFld (s : State) (p o lo w n j : Nat) : (s.countFld p o lo w n).ring j = s.ring j := rfl
@[simp] theorem State.ring_count (s : State) (p o n j : Nat) : (s.count p o n).ring j = s.ring j := rfl
@[simp] theorem State.ring_setFlag (s : State) (p o i : Nat) (b : Bool) (j : Nat) : (s.setFlag p o i b).ring j = s.ring j := rfl
@[simp] theorem State.apll_setApll (s : State) (i j : Nat) (x : Apll) :
    (s.setApll i x).apll j = if j = i then x else s.apll j := by
  simp [State.apll, State.setApll, SMap.get_set]
@[simp] theorem State.apll_setReg (s : State) (p o : Nat) (v : W32) (j : Nat) : (s.setReg p o v).apll j = s.apll j := rfl
@[simp] theorem State.apll_setCore (s : State) (c : Nat) (k : Core) (j : Nat) : (s.setCore c k).apll j = s.apll j := rfl
@[simp] theorem State.apll_setCtx (s : State) (n : Nat) (x : Ctx) (j : Nat) : (s.setCtx n x).apll j = s.apll j := rfl
@[simp] theorem State.apll_setStream (s : State) (n : Nat) (x : Stream) (j : Nat) : (s.setStream n x).apll j = s.apll j := rfl
@[simp] theorem State.apll_setQueue (s : State) (q : Nat) (x : Queue) (j : Nat) : (s.setQueue q x).apll j = s.apll j := rfl
@[simp] theorem State.apll_setPort (s : State) (p : Nat) (x : Port) (j : Nat) : (s.setPort p x).apll j = s.apll j := rfl
@[simp] theorem State.apll_setRing (s : State) (r : Nat) (x : Ring) (j : Nat) : (s.setRing r x).apll j = s.apll j := rfl
@[simp] theorem State.apll_setAngle (s : State) (a : Nat) (x : Angle) (j : Nat) : (s.setAngle a x).apll j = s.apll j := rfl
@[simp] theorem State.apll_setLink (s : State) (p : Nat) (x : Link) (j : Nat) : (s.setLink p x).apll j = s.apll j := rfl
@[simp] theorem State.apll_setTag (s : State) (t : Nat) (x : Option Tag) (j : Nat) : (s.setTag t x).apll j = s.apll j := rfl
@[simp] theorem State.apll_setSem (s : State) (n : Nat) (v : W32) (j : Nat) : (s.setSem n v).apll j = s.apll j := rfl
@[simp] theorem State.apll_countFld (s : State) (p o lo w n j : Nat) : (s.countFld p o lo w n).apll j = s.apll j := rfl
@[simp] theorem State.apll_count (s : State) (p o n j : Nat) : (s.count p o n).apll j = s.apll j := rfl
@[simp] theorem State.apll_setFlag (s : State) (p o i : Nat) (b : Bool) (j : Nat) : (s.setFlag p o i b).apll j = s.apll j := rfl
@[simp] theorem State.angle_setAngle (s : State) (i j : Nat) (x : Angle) :
    (s.setAngle i x).angle j = if j = i then x else s.angle j := by
  simp [State.angle, State.setAngle, SMap.get_set]
@[simp] theorem State.angle_setReg (s : State) (p o : Nat) (v : W32) (j : Nat) : (s.setReg p o v).angle j = s.angle j := rfl
@[simp] theorem State.angle_setCore (s : State) (c : Nat) (k : Core) (j : Nat) : (s.setCore c k).angle j = s.angle j := rfl
@[simp] theorem State.angle_setCtx (s : State) (n : Nat) (x : Ctx) (j : Nat) : (s.setCtx n x).angle j = s.angle j := rfl
@[simp] theorem State.angle_setStream (s : State) (n : Nat) (x : Stream) (j : Nat) : (s.setStream n x).angle j = s.angle j := rfl
@[simp] theorem State.angle_setQueue (s : State) (q : Nat) (x : Queue) (j : Nat) : (s.setQueue q x).angle j = s.angle j := rfl
@[simp] theorem State.angle_setPort (s : State) (p : Nat) (x : Port) (j : Nat) : (s.setPort p x).angle j = s.angle j := rfl
@[simp] theorem State.angle_setRing (s : State) (r : Nat) (x : Ring) (j : Nat) : (s.setRing r x).angle j = s.angle j := rfl
@[simp] theorem State.angle_setApll (s : State) (a : Nat) (x : Apll) (j : Nat) : (s.setApll a x).angle j = s.angle j := rfl
@[simp] theorem State.angle_setLink (s : State) (p : Nat) (x : Link) (j : Nat) : (s.setLink p x).angle j = s.angle j := rfl
@[simp] theorem State.angle_setTag (s : State) (t : Nat) (x : Option Tag) (j : Nat) : (s.setTag t x).angle j = s.angle j := rfl
@[simp] theorem State.angle_setSem (s : State) (n : Nat) (v : W32) (j : Nat) : (s.setSem n v).angle j = s.angle j := rfl
@[simp] theorem State.angle_countFld (s : State) (p o lo w n j : Nat) : (s.countFld p o lo w n).angle j = s.angle j := rfl
@[simp] theorem State.angle_count (s : State) (p o n j : Nat) : (s.count p o n).angle j = s.angle j := rfl
@[simp] theorem State.angle_setFlag (s : State) (p o i : Nat) (b : Bool) (j : Nat) : (s.setFlag p o i b).angle j = s.angle j := rfl
@[simp] theorem State.link_setLink (s : State) (i j : Nat) (x : Link) :
    (s.setLink i x).link j = if j = i then x else s.link j := by
  simp [State.link, State.setLink, SMap.get_set]
@[simp] theorem State.link_setReg (s : State) (p o : Nat) (v : W32) (j : Nat) : (s.setReg p o v).link j = s.link j := rfl
@[simp] theorem State.link_setCore (s : State) (c : Nat) (k : Core) (j : Nat) : (s.setCore c k).link j = s.link j := rfl
@[simp] theorem State.link_setCtx (s : State) (n : Nat) (x : Ctx) (j : Nat) : (s.setCtx n x).link j = s.link j := rfl
@[simp] theorem State.link_setStream (s : State) (n : Nat) (x : Stream) (j : Nat) : (s.setStream n x).link j = s.link j := rfl
@[simp] theorem State.link_setQueue (s : State) (q : Nat) (x : Queue) (j : Nat) : (s.setQueue q x).link j = s.link j := rfl
@[simp] theorem State.link_setPort (s : State) (p : Nat) (x : Port) (j : Nat) : (s.setPort p x).link j = s.link j := rfl
@[simp] theorem State.link_setRing (s : State) (r : Nat) (x : Ring) (j : Nat) : (s.setRing r x).link j = s.link j := rfl
@[simp] theorem State.link_setApll (s : State) (a : Nat) (x : Apll) (j : Nat) : (s.setApll a x).link j = s.link j := rfl
@[simp] theorem State.link_setAngle (s : State) (a : Nat) (x : Angle) (j : Nat) : (s.setAngle a x).link j = s.link j := rfl
@[simp] theorem State.link_setTag (s : State) (t : Nat) (x : Option Tag) (j : Nat) : (s.setTag t x).link j = s.link j := rfl
@[simp] theorem State.link_setSem (s : State) (n : Nat) (v : W32) (j : Nat) : (s.setSem n v).link j = s.link j := rfl
@[simp] theorem State.link_countFld (s : State) (p o lo w n j : Nat) : (s.countFld p o lo w n).link j = s.link j := rfl
@[simp] theorem State.link_count (s : State) (p o n j : Nat) : (s.count p o n).link j = s.link j := rfl
@[simp] theorem State.link_setFlag (s : State) (p o i : Nat) (b : Bool) (j : Nat) : (s.setFlag p o i b).link j = s.link j := rfl
@[simp] theorem State.tag_setTag (s : State) (i j : Nat) (x : Option Tag) :
    (s.setTag i x).tag j = if j = i then x else s.tag j := by
  simp [State.tag, State.setTag, SMap.get_set]
@[simp] theorem State.tag_setReg (s : State) (p o : Nat) (v : W32) (j : Nat) : (s.setReg p o v).tag j = s.tag j := rfl
@[simp] theorem State.tag_setCore (s : State) (c : Nat) (k : Core) (j : Nat) : (s.setCore c k).tag j = s.tag j := rfl
@[simp] theorem State.tag_setCtx (s : State) (n : Nat) (x : Ctx) (j : Nat) : (s.setCtx n x).tag j = s.tag j := rfl
@[simp] theorem State.tag_setStream (s : State) (n : Nat) (x : Stream) (j : Nat) : (s.setStream n x).tag j = s.tag j := rfl
@[simp] theorem State.tag_setQueue (s : State) (q : Nat) (x : Queue) (j : Nat) : (s.setQueue q x).tag j = s.tag j := rfl
@[simp] theorem State.tag_setPort (s : State) (p : Nat) (x : Port) (j : Nat) : (s.setPort p x).tag j = s.tag j := rfl
@[simp] theorem State.tag_setRing (s : State) (r : Nat) (x : Ring) (j : Nat) : (s.setRing r x).tag j = s.tag j := rfl
@[simp] theorem State.tag_setApll (s : State) (a : Nat) (x : Apll) (j : Nat) : (s.setApll a x).tag j = s.tag j := rfl
@[simp] theorem State.tag_setAngle (s : State) (a : Nat) (x : Angle) (j : Nat) : (s.setAngle a x).tag j = s.tag j := rfl
@[simp] theorem State.tag_setLink (s : State) (p : Nat) (x : Link) (j : Nat) : (s.setLink p x).tag j = s.tag j := rfl
@[simp] theorem State.tag_setSem (s : State) (n : Nat) (v : W32) (j : Nat) : (s.setSem n v).tag j = s.tag j := rfl
@[simp] theorem State.tag_countFld (s : State) (p o lo w n j : Nat) : (s.countFld p o lo w n).tag j = s.tag j := rfl
@[simp] theorem State.tag_count (s : State) (p o n j : Nat) : (s.count p o n).tag j = s.tag j := rfl
@[simp] theorem State.tag_setFlag (s : State) (p o i : Nat) (b : Bool) (j : Nat) : (s.setFlag p o i b).tag j = s.tag j := rfl
@[simp] theorem State.sem_setSem (s : State) (i j : Nat) (x : W32) :
    (s.setSem i x).sem j = if j = i then x else s.sem j := by
  simp [State.sem, State.setSem, SMap.get_set]
@[simp] theorem State.sem_setReg (s : State) (p o : Nat) (v : W32) (j : Nat) : (s.setReg p o v).sem j = s.sem j := rfl
@[simp] theorem State.sem_setCore (s : State) (c : Nat) (k : Core) (j : Nat) : (s.setCore c k).sem j = s.sem j := rfl
@[simp] theorem State.sem_setCtx (s : State) (n : Nat) (x : Ctx) (j : Nat) : (s.setCtx n x).sem j = s.sem j := rfl
@[simp] theorem State.sem_setStream (s : State) (n : Nat) (x : Stream) (j : Nat) : (s.setStream n x).sem j = s.sem j := rfl
@[simp] theorem State.sem_setQueue (s : State) (q : Nat) (x : Queue) (j : Nat) : (s.setQueue q x).sem j = s.sem j := rfl
@[simp] theorem State.sem_setPort (s : State) (p : Nat) (x : Port) (j : Nat) : (s.setPort p x).sem j = s.sem j := rfl
@[simp] theorem State.sem_setRing (s : State) (r : Nat) (x : Ring) (j : Nat) : (s.setRing r x).sem j = s.sem j := rfl
@[simp] theorem State.sem_setApll (s : State) (a : Nat) (x : Apll) (j : Nat) : (s.setApll a x).sem j = s.sem j := rfl
@[simp] theorem State.sem_setAngle (s : State) (a : Nat) (x : Angle) (j : Nat) : (s.setAngle a x).sem j = s.sem j := rfl
@[simp] theorem State.sem_setLink (s : State) (p : Nat) (x : Link) (j : Nat) : (s.setLink p x).sem j = s.sem j := rfl
@[simp] theorem State.sem_setTag (s : State) (t : Nat) (x : Option Tag) (j : Nat) : (s.setTag t x).sem j = s.sem j := rfl
@[simp] theorem State.sem_countFld (s : State) (p o lo w n j : Nat) : (s.countFld p o lo w n).sem j = s.sem j := rfl
@[simp] theorem State.sem_count (s : State) (p o n j : Nat) : (s.count p o n).sem j = s.sem j := rfl
@[simp] theorem State.sem_setFlag (s : State) (p o i : Nat) (b : Bool) (j : Nat) : (s.setFlag p o i b).sem j = s.sem j := rfl
@[simp] theorem State.reg_setCore (s : State) (c : Nat) (k : Core) (page off : Nat) : (s.setCore c k).reg page off = s.reg page off := rfl
@[simp] theorem State.reg_setCtx (s : State) (n : Nat) (x : Ctx) (page off : Nat) : (s.setCtx n x).reg page off = s.reg page off := rfl
@[simp] theorem State.reg_setStream (s : State) (n : Nat) (x : Stream) (page off : Nat) : (s.setStream n x).reg page off = s.reg page off := rfl
@[simp] theorem State.reg_setQueue (s : State) (q : Nat) (x : Queue) (page off : Nat) : (s.setQueue q x).reg page off = s.reg page off := rfl
@[simp] theorem State.reg_setPort (s : State) (p : Nat) (x : Port) (page off : Nat) : (s.setPort p x).reg page off = s.reg page off := rfl
@[simp] theorem State.reg_setRing (s : State) (r : Nat) (x : Ring) (page off : Nat) : (s.setRing r x).reg page off = s.reg page off := rfl
@[simp] theorem State.reg_setApll (s : State) (a : Nat) (x : Apll) (page off : Nat) : (s.setApll a x).reg page off = s.reg page off := rfl
@[simp] theorem State.reg_setAngle (s : State) (a : Nat) (x : Angle) (page off : Nat) : (s.setAngle a x).reg page off = s.reg page off := rfl
@[simp] theorem State.reg_setLink (s : State) (p : Nat) (x : Link) (page off : Nat) : (s.setLink p x).reg page off = s.reg page off := rfl
@[simp] theorem State.reg_setTag (s : State) (t : Nat) (x : Option Tag) (page off : Nat) : (s.setTag t x).reg page off = s.reg page off := rfl
@[simp] theorem State.reg_setSem (s : State) (n : Nat) (v : W32) (page off : Nat) : (s.setSem n v).reg page off = s.reg page off := rfl

/-! ### Registers -/

/-- A register read after a register was written: the places are 4,096 bytes a page (R440). -/
theorem State.reg_setReg (s : State) (p o page off : Nat) (v : W32) (h : o < 4096) (h' : off < 4096) :
    (s.setReg p o v).reg page off = if page = p ∧ off = o then v else s.reg page off := by
  unfold State.reg State.setReg
  by_cases hk : page = p ∧ off = o
  · obtain ⟨rfl, rfl⟩ := hk
    simp
  · rw [if_neg hk]
    exact SMap.get_set_other _ _ _ _ _ _ (by omega)

/-- The register written reads as what was written. -/
@[simp] theorem State.reg_setReg_same (s : State) (p o : Nat) (v : W32) : (s.setReg p o v).reg p o = v := by
  simp [State.reg, State.setReg]

/-- A change of one core in place. -/
@[simp] theorem State.modCore_core (s : State) (c : Nat) (f : Core → Core) : (s.modCore c f).core c = f (s.core c) := by
  simp [State.modCore]

/-- Two replacements of one core are one. -/
@[simp] theorem State.setCore_setCore (s : State) (c : Nat) (k k' : Core) :
    (s.setCore c k).setCore c k' = s.setCore c k' := by
  simp [State.setCore, SMap.set_set]

end Sys2Proof.Machine
end

