-- ==== Sys2Proof/Laws/Memory.lean ====
section
/-!
SUPPORT. The canonical form of the state's memories: which updates keep it, stated for whole states.
-/
namespace Sys2Proof.Machine

/-- Entries of a sparse map after a write: the written one, or an entry from before. -/
theorem SMap_mem_set {α : Type} [DecidableEq α] {m : SMap α} {k : Nat} {v d : α} {e : Nat × α} (h : e ∈ SMap.set m k v d) :
    e = (k, v) ∨ e ∈ m := by
  have herase : ∀ (m : SMap α) (e : Nat × α), e ∈ SMap.erase m k → e ∈ m := by
    intro m
    induction m with
    | nil => intro e h; simp [SMap.erase] at h
    | cons x r ih =>
      obtain ⟨k', v'⟩ := x
      intro e h
      by_cases hk : k' = k
      · rw [SMap.erase, if_pos hk] at h; exact List.mem_cons_of_mem _ (ih e h)
      · rw [SMap.erase, if_neg hk, List.mem_cons] at h
        rcases h with rfl | h
        · simp
        · exact List.mem_cons_of_mem _ (ih e h)
  have hins : ∀ (m : SMap α) (e : Nat × α), e ∈ SMap.insert m k v → e = (k, v) ∨ e ∈ m := by
    intro m
    induction m with
    | nil => intro e h; simpa [SMap.insert] using h
    | cons x r ih =>
      obtain ⟨k', v'⟩ := x
      intro e h
      by_cases hk : k < k'
      · simpa [SMap.insert, hk] using h
      · simp only [SMap.insert, hk, if_false, List.mem_cons] at h ⊢
        rcases h with h | h
        · exact .inr (.inl h)
        · exact (ih e h).imp_right .inr
  unfold SMap.set at h
  split at h
  · exact .inr (herase _ _ h)
  · exact (hins _ _ h).imp_right (herase _ _)

/-- A core read from a state in canonical form is in canonical form. -/
theorem State.memWf_core {s : State} (h : s.memWf = true) (c : Nat) : (s.core c).memWf = true := by
  simp only [State.memWf, Bool.and_eq_true, List.all_eq_true] at h
  have hall := h.2
  unfold State.core
  generalize s.cores = m at hall
  induction m with
  | nil => rfl
  | cons e r ih =>
    obtain ⟨k, v⟩ := e
    rw [SMap.get_cons]
    split
    · exact hall (k, v) (by simp)
    · exact ih fun x hx => hall x (by simp [hx])

/-- A core in canonical form put into a state in canonical form. -/
theorem State.memWf_setCore {s : State} {k : Core} (c : Nat) (h : s.memWf = true) (hk : k.memWf = true) :
    (s.setCore c k).memWf = true := by
  simp only [State.memWf, Bool.and_eq_true, List.all_eq_true] at h ⊢
  refine ⟨h.1, fun e he => ?_⟩
  rcases SMap_mem_set he with rfl | he
  · exact hk
  · exact h.2 e he

/-- Bytes written into a scratchpad keep the canonical form (R71). -/
theorem State.memWf_scratchPut {s : State} (c o : Nat) (l : List Byte) (h : s.memWf = true) :
    (s.scratchPut c o l).memWf = true := by
  have hk := State.memWf_core h c
  simp only [Core.memWf, Bool.and_eq_true] at hk
  exact State.memWf_setCore c h (by rw [Core.memWf, Bool.and_eq_true]; exact ⟨memPut_wf o l hk.1, hk.2⟩)

/-- A state with the same memories, dump buffer, audio buffer and cores is as canonical. -/
theorem State.memWf_congr {s t : State} (hm : t.mem = s.mem) (hb : t.hang.dumpBuf = s.hang.dumpBuf)
    (ha : t.audio = s.audio) (hc : t.cores = s.cores) : t.memWf = s.memWf := by
  have hd : t.audioDefault = s.audioDefault := by funext o; simp only [State.audioDefault, ha]
  simp only [State.memWf, hm, hb, ha, hc, hd]

/-- Registers written keep the canonical form of the memories. -/
@[simp] theorem State.memWf_setReg (s : State) (p o : Nat) (v : W32) : (s.setReg p o v).memWf = s.memWf := rfl

@[simp] theorem State.memWf_setFld (s : State) (p o lo w x : Nat) : (s.setFld p o lo w x).memWf = s.memWf := rfl
@[simp] theorem State.memWf_setFlag (s : State) (p o b : Nat) (v : Bool) : (s.setFlag p o b v).memWf = s.memWf := rfl
@[simp] theorem State.memWf_setReg64 (s : State) (p lo hi : Nat) (v : W64) : (s.setReg64 p lo hi v).memWf = s.memWf := rfl
@[simp] theorem State.memWf_countFld (s : State) (p o lo w n : Nat) : (s.countFld p o lo w n).memWf = s.memWf := rfl
@[simp] theorem State.memWf_count (s : State) (p o n : Nat) : (s.count p o n).memWf = s.memWf := rfl

/-! ### Operations beside the memories: packets, vectors, interrupts and mechanisms -/

@[simp] theorem State.memWf_emit (s : State) (port vc : Nat) (p : Packet) : (s.emit port vc p).memWf = s.memWf := rfl
@[simp] theorem State.memWf_send (s : State) (vc : Nat) (p : Packet) : (s.send vc p).memWf = s.memWf := by
  unfold State.send; dsimp only; split <;> rfl
@[simp] theorem State.memWf_issueRequest (s : State) (vc : Nat) (p : Packet) (t : Tag) :
    (s.issueRequest vc p t).memWf = s.memWf := by
  unfold State.issueRequest; dsimp only; rw [State.memWf_send]; rfl
@[simp] theorem State.memWf_request (s : State) (vc : Nat) (p : Packet) (t : Tag) : (s.request vc p t).memWf = s.memWf := by
  unfold State.request; dsimp only; split
  · rw [State.memWf_issueRequest]
  · rfl
@[simp] theorem State.memWf_writeRemote (s : State) (vc dst a : Nat) (l : List Byte) :
    (s.writeRemote vc dst a l).memWf = s.memWf := by
  unfold State.writeRemote; dsimp only
  split
  · rfl
  · rw [State.memWf_request]
@[simp] theorem State.memWf_fireVector (s : State) (v : Nat) : (s.fireVector v).memWf = s.memWf := by
  unfold State.fireVector; dsimp only
  split
  · rfl
  · split
    · rw [State.memWf_writeRemote]; rfl
    · rfl
@[simp] theorem State.memWf_summaryEdge (s t : State) (p : Nat) : (s.summaryEdge t p).memWf = t.memWf := by
  unfold State.summaryEdge; split
  · rw [State.memWf_fireVector]
  · rfl
/-- An event bit that is set (R440) leaves the memories' form. -/
@[simp] theorem State.memWf_irq (s : State) (p b : Nat) : (s.irq p b).memWf = s.memWf := by
  unfold State.irq; rw [State.memWf_summaryEdge, State.memWf_setFlag]
@[simp] theorem State.memWf_trace (s : State) (n : Nat) (l : List Byte) : (s.trace n l).memWf = s.memWf := by
  unfold State.trace; dsimp only
  split
  · rfl
  · split <;> rfl
@[simp] theorem State.memWf_requestQuench (s : State) (n c : Nat) : (s.requestQuench n c).memWf = s.memWf := by
  unfold State.requestQuench; split <;> rfl

/-! ### What writes a memory keeps its canonical form -/

/-- Bytes written into the dump buffer keep the canonical form (R388, R394). -/
theorem State.memWf_dumpPut {s : State} (o : Nat) (l : List Byte) (h : s.memWf = true) :
    ({ s with hang := { s.hang with dumpBuf := memPut s.hang.dumpBuf o l } } : State).memWf = true := by
  simp only [State.memWf, Bool.and_eq_true] at h ⊢
  exact ⟨⟨⟨h.1.1.1, memPut_wf o l h.1.1.2⟩, h.1.2⟩, h.2⟩

/-- An event record keeps the canonical form of the dump buffer that holds it (R394). -/
theorem State.memWf_logEvent {s : State} (code unit : Nat) (ctx : Option Nat) (gen status a0 a1 : Nat) (h : s.memWf = true) :
    (s.logEvent code unit ctx gen status a0 a1).memWf = true := by
  unfold State.logEvent; dsimp only
  split
  · exact State.memWf_dumpPut _ _ h
  · rw [State.memWf_irq, State.memWf_trace]
    exact State.memWf_dumpPut (s := s) _ _ h

/-- A raised mechanism keeps the canonical form (R372). -/
theorem State.memWf_raiseMech {s : State} (m : Nat) (ctx : Option Nat) (h : s.memWf = true) : (s.raiseMech m ctx).memWf = true := by
  have hl := State.memWf_logEvent (s := s.setFlag Page.safety Reg.SF_FAULT m true) 0x28 0x008 ctx
    (match ctx with | some n => ((s.setFlag Page.safety Reg.SF_FAULT m true).gen n).toNat | none => 0) 0 m 0 h
  unfold State.raiseMech
  extract_lets a b x c
  have hc : c.memWf = true := by
    show (if _ then _ else _ : State).memWf = true
    split <;> exact hl
  split
  · exact hc
  · exact hc
  · rw [State.memWf_requestQuench]; exact hc
  · rw [State.memWf_irq]; exact hc

/-- A state whose memory alone changes stays canonical when the new memory is. -/
theorem State.memWf_setMem {s : State} {m : Memory} (h : s.memWf = true) (hm : m.wf = true) :
    ({ s with mem := m } : State).memWf = true := by
  simp only [State.memWf, Bool.and_eq_true] at h ⊢
  exact ⟨⟨⟨hm, h.1.1.2⟩, h.1.2⟩, h.2⟩

/-- The memory of a canonical state. -/
theorem State.mem_wf {s : State} (h : s.memWf = true) : s.mem.wf = true := by
  simp only [State.memWf, Bool.and_eq_true] at h; exact h.1.1.1

/-- A DRAM byte string written keeps the canonical form (R269). -/
theorem Memory.wf_dramPut {m : Memory} (a : Nat) (l : List Byte) (h : m.wf = true) :
    ({ m with dram := memPut m.dram a l } : Memory).wf = true := by
  simp only [Memory.wf, Bool.and_eq_true] at h ⊢
  exact ⟨memPut_wf a l h.1, h.2⟩

/-- A cache line put or removed keeps the canonical form (R274). -/
theorem Memory.wf_cacheSet {m : Memory} (k : Nat) (x : Option Line) (h : m.wf = true) :
    ({ m with cache := SMap.set m.cache k x none } : Memory).wf = true := by
  simp only [Memory.wf, Bool.and_eq_true] at h ⊢
  exact ⟨h.1, SMap.wf_set (d := fun _ => (none : Option Line)) h.2⟩

/-- A DRAM unit written keeps the canonical form (R269, R278). -/
theorem State.memWf_unitWrite {s : State} (u : Nat) (l : List Byte) (h : s.memWf = true) : (s.unitWrite u l).memWf = true := by
  unfold State.unitWrite; dsimp only
  rw [State.memWf_count]
  exact State.memWf_setMem h (Memory.wf_dramPut _ _ (State.mem_wf h))

/-- A DRAM error met keeps the canonical form (R269). -/
theorem State.memWf_dramError {s : State} (a : Nat) (ctx : Option Nat) (h : s.memWf = true) : (s.dramError a ctx).memWf = true := by
  unfold State.dramError; exact State.memWf_raiseMech _ _ h

/-- A DRAM unit read keeps the canonical form (R269). -/
theorem State.memWf_unitRead {s : State} (u : Nat) (who : Requester) (h : s.memWf = true) : (s.unitRead u who).2.memWf = true := by
  unfold State.unitRead; dsimp only
  split
  · exact State.memWf_dramError _ _ h
  · exact h

/-- A cache way replaced keeps the canonical form (R274). -/
theorem State.memWf_setLine {s : State} (i w : Nat) (l : Option Line) (h : s.memWf = true) : (s.setLine i w l).memWf = true :=
  State.memWf_setMem h (Memory.wf_cacheSet _ _ (State.mem_wf h))

/-- A dirty line written back keeps the canonical form (R274). -/
theorem State.memWf_writeBack {s : State} (l : Line) (h : s.memWf = true) : (s.writeBack l).memWf = true :=
  State.memWf_unitWrite _ _ h

/-- A way emptied keeps the canonical form (R274, R276). -/
theorem State.memWf_evict {s : State} (i w : Nat) (h : s.memWf = true) : (s.evict i w).memWf = true := by
  unfold State.evict
  split
  · exact h
  · apply State.memWf_setLine
    split
    · exact State.memWf_writeBack _ h
    · exact h

/-- A line filled keeps the canonical form (R275). -/
theorem State.memWf_fillLine {s : State} (i w u : Nat) (d : Bool) (l : List Byte) (h : s.memWf = true) :
    (s.fillLine i w u d l).memWf = true := by
  unfold State.fillLine; dsimp only
  exact State.memWf_setLine _ _ _ (State.memWf_setMem (m := { s.mem with clock := s.mem.clock + 1 }) h (State.mem_wf h))

/-- One request served through the cache keeps the canonical form (R274–R277). -/
theorem State.memWf_cacheServe {s : State} (who : Requester) (wr : Bool) (a len : Nat) (l : List Byte) (mask : Nat)
    (h : s.memWf = true) : (s.cacheServe who wr a len l mask).2.2.memWf = true := by
  unfold State.cacheServe
  split
  · exact h
  · dsimp only
    split
    · split
      · exact h
      · split <;> exact State.memWf_fillLine _ _ _ _ _ h
    · have hr : (if wr && decide (l.length = 256) then (some l, s.count Page.cache Reg.CA_MISSES)
          else (s.count Page.cache Reg.CA_MISSES).unitRead (a / 256) who : Option (List Byte) × State).2.memWf = true := by
        split
        · exact h
        · exact State.memWf_unitRead _ _ h
      generalize (if wr && decide (l.length = 256) then (some l, s.count Page.cache Reg.CA_MISSES)
          else (s.count Page.cache Reg.CA_MISSES).unitRead (a / 256) who : Option (List Byte) × State) = r at hr ⊢
      obtain ⟨got, t⟩ := r
      cases got with
      | none => exact hr
      | some old =>
        dsimp only
        split
        · dsimp only; split
          · exact State.memWf_unitWrite _ _ hr
          · exact hr
        · exact State.memWf_fillLine _ _ _ _ _ (State.memWf_evict _ _ hr)

/-- A read of one transaction keeps the canonical form (R86). -/
theorem State.memWf_readPiece {s : State} (who : Requester) (w : Bool) (a len : Nat) (h : s.memWf = true) :
    (s.readPiece who w a len).2.2.memWf = true := by
  unfold State.readPiece
  split
  · exact State.memWf_cacheServe _ _ _ _ _ _ h
  · split <;> exact h
  · exact h
  · exact h

/-- A write of one transaction keeps the canonical form (R86). -/
theorem State.memWf_writePiece {s : State} (who : Requester) (a : Nat) (l : List Byte) (h : s.memWf = true) :
    (s.writePiece who a l).2.memWf = true := by
  unfold State.writePiece
  split
  · exact State.memWf_cacheServe _ _ _ _ _ _ h
  · split
    · exact State.memWf_scratchPut _ _ _ h
    · exact h
  · exact h

/-- A fold keeps what each of its steps keeps. -/
theorem foldl_keeps {α β : Type} (P : β → Prop) (f : β → α → β) (l : List α) {b : β} (hb : P b)
    (hf : ∀ b a, P b → P (f b a)) : P (l.foldl f b) := by
  induction l generalizing b with
  | nil => exact hb
  | cons a r ih => exact ih (hf b a hb)

/-- A read of any length keeps the canonical form. -/
theorem State.memWf_readSpan {s : State} (who : Requester) (a len : Nat) (h : s.memWf = true) :
    (s.readSpan who a len).2.2.memWf = true :=
  foldl_keeps (fun r : Nat × List Byte × State => r.2.2.memWf = true) _ _ h
    fun b _ hb => State.memWf_readPiece (s := b.2.2) _ _ _ _ hb

/-- A read that ends at its first failed transaction keeps the canonical form. -/
theorem State.memWf_readUntil {s : State} (who : Requester) (a len : Nat) (h : s.memWf = true) :
    (s.readUntil who a len).2.2.memWf = true :=
  foldl_keeps (fun r : Nat × List Byte × State => r.2.2.memWf = true) _ _ h fun b _ hb => by
    dsimp only; split
    · exact hb
    · exact State.memWf_readPiece (s := b.2.2) _ _ _ _ hb

/-- A write of any length keeps the canonical form. -/
theorem State.memWf_writeSpan {s : State} (who : Requester) (a : Nat) (l : List Byte) (h : s.memWf = true) :
    (s.writeSpan who a l).2.memWf = true :=
  foldl_keeps (fun r : Nat × State => r.2.memWf = true) _ _ h
    fun b _ hb => State.memWf_writePiece (s := b.2) _ _ _ hb

/-- A write to a global address keeps the canonical form. -/
theorem State.memWf_writeGlobal {s : State} (who : Requester) (vc : Nat) (a : W64) (l : List Byte) (h : s.memWf = true) :
    (s.writeGlobal who vc a l).2.memWf = true := by
  unfold State.writeGlobal
  split
  · exact State.memWf_writeSpan _ _ _ h
  · split
    · exact h
    · exact foldl_keeps (fun t : State => t.memWf = true) _ _ h fun b _ hb => by rw [State.memWf_writeRemote]; exact hb

/-- A maintenance pass keeps the canonical form (R276). -/
theorem State.memWf_cachePass {s : State} (ways lo hi : Nat) (wb inv : Bool) (h : s.memWf = true) :
    (s.cachePass ways lo hi wb inv).memWf = true :=
  foldl_keeps (fun t : State => t.memWf = true) _ _ h fun b e hb => by
    split
    · exact hb
    · rename_i l _
      have hw : (if wb && l.dirty then b.writeBack l else b).memWf = true := by
        split
        · exact State.memWf_writeBack _ hb
        · exact hb
      split
      · dsimp only
        split
        · exact State.memWf_setLine _ _ _ hw
        · split
          · exact State.memWf_setLine _ _ _ hw
          · exact hw
      · exact hb

/-- Lines lost keep the canonical form (R277). -/
theorem State.memWf_loseLines {s : State} (l : List Nat) (h : s.memWf = true) : (s.loseLines l).memWf = true :=
  foldl_keeps (fun t : State => t.memWf = true) _ _ h fun b _ hb => by
    dsimp only; split
    · exact hb
    · split
      · split
        · exact hb
        · exact State.memWf_raiseMech _ _ (State.memWf_setLine _ _ _ hb)
      · exact hb

/-- Finding flawed lines changes no memory. -/
theorem State.memWf_flawedLines {s : State} (ways lo hi : Nat) (h : s.memWf = true) : (s.flawedLines ways lo hi).2.memWf = true :=
  foldl_keeps (fun r : List Nat × State => r.2.memWf = true) _ _ h fun b _ hb => by
    dsimp only; split
    · split
      · exact hb
      · exact hb
    · exact hb

/-- Sets visited by a pass keep the canonical form (R276). -/
theorem State.memWf_visitSets {s : State} (ways lo hi : Nat) (wb inv : Bool) (h : s.memWf = true) :
    (s.visitSets ways lo hi wb inv).memWf = true := by
  unfold State.visitSets
  refine State.memWf_cachePass _ _ _ _ _ ?_
  split
  · exact State.memWf_loseLines _ (State.memWf_flawedLines _ _ _ h)
  · exact h

/-- A set visited by a pass keeps the canonical form (R276). -/
theorem State.memWf_passStep {s : State} (h : s.memWf = true) : s.passStep.memWf = true := by
  unfold State.passStep
  split
  · exact h
  · split
    · exact h
    · exact State.memWf_visitSets _ _ _ _ _ h

/-- A read by an agent of bytes of another node keeps the canonical form (R308). -/
theorem State.memWf_readRemote {s : State} (vc : Nat) (a : W64) (n : Nat) (f : Fetched) (h : s.memWf = true) :
    (s.readRemote vc a n f).2.2.memWf = true := by
  unfold State.readRemote
  split
  · exact h
  · exact foldl_keeps (fun t : State => t.memWf = true) _ _ h fun b _ hb => by rw [State.memWf_send]; exact hb

/-- A corrected error that is counted keeps the canonical form (R372). -/
theorem State.memWf_correctedError {s : State} (p off : Nat) (h : s.memWf = true) : (s.correctedError p off).memWf = true := by
  unfold State.correctedError; dsimp only
  split
  · exact h
  · exact State.memWf_raiseMech _ _ h

/-- A protected region's lines flushed keep the canonical form (R281). -/
theorem State.memWf_prFlush {s : State} (n : Nat) (h : s.memWf = true) : (s.prFlush n).memWf = true :=
  foldl_keeps (fun t : State => t.memWf = true) _ _ h fun b e hb => by
    split
    · exact hb
    · split
      · exact State.memWf_evict _ _ hb
      · exact hb

/-- A group written into a state store keeps its canonical form (R134). -/
theorem Core.memWf_putGroup {k : Core} (r : StRegion) (x g : Nat) (codes : List Byte) (sc8 : Byte) (h : k.memWf = true) :
    (k.putGroup r x g codes sc8).memWf = true := by
  simp only [Core.memWf, Core.putGroup, Bool.and_eq_true] at h ⊢
  exact ⟨h.1, memPut_wf _ _ (memPut_wf _ _ h.2)⟩

/-- A slot image copied into a slot keeps the canonical form (R145). -/
theorem State.memWf_putImage {s : State} (c r x : Nat) (l : List Byte) (h : s.memWf = true) : (s.putImage c r x l).memWf = true := by
  have hk := State.memWf_core h c
  simp only [Core.memWf, Bool.and_eq_true] at hk
  exact State.memWf_setCore c h (by rw [Core.memWf, Bool.and_eq_true]; exact ⟨hk.1, memPut_wf _ _ hk.2⟩)

/-- Bytes written into the audio buffer keep its canonical form (R220). -/
theorem State.memWf_audioPut {s : State} (o : Nat) (l : List Byte) (h : s.memWf = true) : (s.audioPut o l).memWf = true :=
  foldl_keeps (fun t : State => t.memWf = true) _ _ h fun b e hb => by
    simp only [State.memWf, Bool.and_eq_true] at hb ⊢
    exact ⟨⟨hb.1.1, SMap.wf_set (d := b.audioDefault) hb.1.2⟩, hb.2⟩

/-- A sample written into a ring keeps the canonical form (R221). -/
theorem State.memWf_putSample {s : State} (d : RingShape) (f c : Nat) (v : W32) (h : s.memWf = true) :
    (s.putSample d f c v).memWf = true := State.memWf_audioPut _ _ h

/-- The memories after power-on are in canonical form. -/
theorem memWf_reset : State.reset.memWf = true := rfl

end Sys2Proof.Machine
end

