-- ==== Sys2Proof/Machine/Balls.lean ====
section
/-!
DEFINITION. The balls: where each lies (R453–R455), its type (R456), what the device drives on it (R240, R344, R366, R373, R456), and
the order of the boundary register's cells (R468). A ball that carries a clock or data is shown as active; what it carries stands in
the state of its port.
-/
namespace Sys2Proof.Machine

/-- The name of row i, 1–42 (R453). -/
def rowName (i : Nat) : String :=
  ["", "A", "B", "C", "D", "E", "F", "G", "H", "J", "K", "L", "M", "N", "P", "T", "U", "V", "W", "Y", "AA", "AB", "AC", "AD", "AE", "AF",
   "AG", "AH", "AJ", "AK", "AL", "AM", "AN", "AP", "AT", "AU", "AV", "AW", "AY", "BA", "BB", "BC", "BD"].getD i ""

/-- The signals of the balls (R454). -/
inductive Signal where
  | klTxP (k : Nat) | klTxN (k : Nat) | klRxP (k : Nat) | klRxN (k : Nat)
  | refclkLinkP | refclkLinkN
  | xspiClk | xspiDs | xspiCsN | xspiResetN | xspiDq (i : Nat)
  | tck | tms | tdi | tdo | trstN
  | pdmiDat (j : Nat) | pdmiClk (g : Nat) | pdmoDat (j : Nat) | pdmoClk (h : Nat)
  | bootSrc (i : Nat) | bridgeEn | testEn
  | poresetN | wresetN | intN | faultN
  | pwrgdCore | pwrgdMem | pwrgdIo
  | angTooth (a : Nat) | angIndex (a : Nat)
  | tollOut | tollIn
  | refclkSys | mclkIn | mclkOut (a : Nat)
  | spDout (n : Nat) | spDin (n : Nat) | spFsync (n : Nat) | spBclk (n : Nat)
deriving DecidableEq, Repr

/-- What a ball is: a signal, a supply by its number in R457, or VSS. -/
inductive Ball where
  | signal (x : Signal)
  | supply (rail : Nat)
  | vss
deriving DecidableEq, Repr

/-- The signals of the first two columns, from row 1 on (R454). -/
def leftSignal (r c : Nat) : Option Signal :=
  if c = 1 then
    if r = 2 then some .xspiClk else if r = 3 then some .xspiDs else if r = 4 then some .xspiCsN else if r = 5 then some .xspiResetN
    else if 6 ≤ r ∧ r ≤ 13 then some (.xspiDq (r - 6))
    else if 15 ≤ r ∧ r ≤ 38 then some (.pdmiDat (r - 15))
    else none
  else if c = 2 then
    if r = 2 then some .tck else if r = 3 then some .tms else if r = 4 then some .tdi else if r = 5 then some .tdo
    else if r = 6 then some .trstN
    else if 16 ≤ r ∧ r ≤ 36 ∧ r % 4 = 0 then some (.pdmiClk ((r - 16) / 4))
    else none
  else none

/-- The signals of the last two columns (R454). -/
def rightSignal (r c : Nat) : Option Signal :=
  if c = 41 then
    [(8, Signal.bootSrc 0), (9, .bootSrc 1), (10, .bridgeEn), (11, .testEn), (16, .pdmoClk 0), (20, .pdmoClk 1)].lookup r
  else if c = 42 then
    if 15 ≤ r ∧ r ≤ 22 then some (.pdmoDat (r - 15))
    else
      [(8, Signal.poresetN), (9, .wresetN), (10, .intN), (11, .faultN), (12, .pwrgdCore), (13, .pwrgdMem), (14, .pwrgdIo),
       (25, .angTooth 0), (26, .angIndex 0), (27, .angTooth 1), (28, .angIndex 1), (30, .tollOut), (31, .tollIn), (35, .refclkSys),
       (36, .mclkIn), (37, .mclkOut 0), (38, .mclkOut 1)].lookup r
  else none

/-- The signals of rows B, D and F and of rows BA to BD (R454). -/
def rowSignal (r c : Nat) : Option Signal :=
  let k := (c - 3) / 5
  if (r = 2 ∨ r = 4) ∧ 3 ≤ c ∧ c ≤ 39 then
    if (c - 3) % 5 = 0 then some (if r = 2 then .klTxP k else .klRxP k)
    else if (c - 3) % 5 = 1 then some (if r = 2 then .klTxN k else .klRxN k)
    else none
  else if r = 6 then (if c = 20 then some .refclkLinkP else if c = 21 then some .refclkLinkN else none)
  else if 39 ≤ r ∧ 3 ≤ c ∧ c ≤ 36 ∧ c % 3 = 0 then
    let n := (c - 3) / 3
    some (if r = 39 then .spDout n else if r = 40 then .spDin n else if r = 41 then .spFsync n else .spBclk n)
  else none

/-- The signal at row r, column c (R454). -/
def signalAt (r c : Nat) : Option Signal :=
  if c ≤ 2 then leftSignal r c else if 41 ≤ c then rightSignal r c else rowSignal r c

/-- The supply at row r, column c where no signal lies (R455). -/
def supplyAt (r c : Nat) : Option Nat :=
  if 7 ≤ r ∧ r ≤ 38 ∧ 3 ≤ c ∧ c ≤ 40 then
    if (r + c) % 2 = 0 then none
    else if 35 ≤ r then some 1
    else if 11 ≤ r then some (if c ≤ 6 then 1 else if c ≤ 36 then 0 else 2)
    else some (if c ≤ 36 then 2 else 3)
  else if r = 5 ∧ 3 ≤ c ∧ c ≤ 40 then some 4
  else if r = 6 then (if [7, 12, 17, 22, 27, 32, 37, 40].contains c then some 5 else none)
  else if c = 2 then (if [7, 11, 15, 19, 23, 27, 31, 35].contains r then some 6 else none)
  else if c = 41 then
    (if [19, 27].contains r then some 6 else if [13, 14, 33, 34].contains r then some 7 else none)
  else if r = 39 then (if [5, 11, 17, 23, 29, 35].contains c then some 6 else none)
  else none

/-- The ball at row r, column c, each 1–42 (R454, R455). -/
def ballAt (r c : Nat) : Ball :=
  match signalAt r c with
  | some x => .signal x
  | none => match supplyAt r c with | some v => .supply v | none => .vss

/-- The types of a 1.8 V ball (R456). -/
inductive BallType where
  | input | output | openDrain | bidirectional
deriving DecidableEq, Repr

/-- The type of a signal's ball, its pull (some true: up, some false: down), and whether it is fail-safe; none for the link balls
(R456). -/
def ballType (x : Signal) : Option (BallType × Option Bool × Bool) :=
  match x with
  | .poresetN | .pwrgdCore | .pwrgdMem | .pwrgdIo | .refclkSys | .mclkIn => some (.input, none, true)
  | .wresetN => some (.input, some true, true)
  | .intN | .faultN => some (.openDrain, none, true)
  | .tollOut | .pdmiClk _ | .pdmoClk _ | .pdmoDat _ | .mclkOut _ => some (.output, none, true)
  | .tollIn | .angTooth _ | .angIndex _ | .bootSrc _ | .bridgeEn | .testEn | .spDin _ | .pdmiDat _ => some (.input, some false, true)
  | .spBclk _ | .spFsync _ | .spDout _ => some (.bidirectional, none, true)
  | .xspiClk | .xspiCsN | .xspiResetN | .tdo => some (.output, none, false)
  | .xspiDq _ => some (.bidirectional, some false, false)
  | .xspiDs | .tck | .trstN => some (.input, some false, false)
  | .tms | .tdi => some (.input, some true, false)
  | .klTxP _ | .klTxN _ | .klRxP _ | .klRxN _ | .refclkLinkP | .refclkLinkN => none

/-- What the device drives on a ball: nothing, a level, or a clock or data. -/
inductive BallDrive where
  | released | low | high | active
deriving DecidableEq, Repr

/-- The balls of an audio port that drives (R240): the data balls, and with `clock` the clock balls of a master. -/
def State.portBall (s : State) (p : Nat) (clock : Bool) : BallDrive :=
  if (s.port p).driving && (!clock || s.portMaster p) then .active else .released

/-- Whether the ROM reads flash (R401 step 5, R403). -/
def State.readsFlash (s : State) : Bool :=
  s.pins.poreset && !s.pins.held && s.sec.boot == 0 && s.sec.trngStartup && decide (s.sec.bootSrc.toNat < 2)

/-- What the device drives on a signal's ball (R240, R344, R366, R373, R403, R456). -/
def State.ballDrive (s : State) (x : Signal) : BallDrive :=
  match x with
  | .intN => if s.intN then .low else .released
  | .faultN => if s.safety.faultN then .released else .low
  | .tollOut => if s.safety.tollOut then .high else .low
  | .spDout n => s.portBall n false
  | .spFsync n | .spBclk n => s.portBall n true
  | .pdmoDat j => s.portBall (18 + j / 4) false
  | .pdmoClk h => s.portBall (18 + h) true
  | .pdmiClk g => if (s.port (12 + g)).clocks then .active else .released
  | .mclkOut a => if (s.mclkOut a).isSome then .active else .low
  | .xspiClk => if s.readsFlash then .active else .low
  | .xspiCsN => if s.readsFlash then .active else .high
  | .xspiDq _ => if s.readsFlash then .active else .released
  | .xspiResetN => if s.pins.poreset && !s.pins.held && decide (usTb 100 ≤ s.age s.pins.resetAt) then .high else .low
  | .klTxP k | .klTxN k => if (s.link (k / 2)).st = 0 then .released else .active
  | _ => .released

/-- Whether a signal's ball has cells in the boundary register: the single-ended balls other than those of the TAP (R468). -/
def inBoundary (x : Signal) : Bool :=
  match x with
  | .tck | .tms | .tdi | .tdo | .trstN => false
  | _ => (ballType x).isSome

/-- The balls of the boundary register in the order of its cells: ascending row, then column; each has three cells, input, output and
output enable (R468). -/
def boundaryBalls : List Signal :=
  ((List.range 42).map fun r => (List.range 42).filterMap fun c =>
    match signalAt (r + 1) (c + 1) with
    | some x => if inBoundary x then some x else none
    | none => none).flatten

end Sys2Proof.Machine
end

