-- ==== Sys2Proof/Tests/Slice0.lean ====
section
/-!
SUPPORT. Tests: ill-formed commands that the check refuses, one step of small states with results worked out from the rules, and for
each statement with premises a state that meets them. Where a premise has a range, its ends are taken.
-/
namespace Sys2Proof.Tests

open Sys2Proof.Machine Sys2Proof.Claims

set_option Elab.async false

/-! ### Small words, packets and states -/

/-- A control word with no field set. -/
def cw : CtrlWord :=
  { engine := 0, wait := 0, sig := 0, sigv := false, rd := 0, rs1 := 0, rs2 := 0, rsvd := 0, imm := 0, ecc := .clean }

/-- A tile word of an engine with no field set. -/
def tw (engine : BitVec 2) : TileWord :=
  { engine := engine, wait := 0, sig := 0, sigv := false, ta := 0, tb := 0, tc := 0, td := 0, ctl := 0, imm := 0, ecc := .clean }

/-- A packet from node 2 to node 1 with no data. -/
def pk (ttype : Byte) : Packet :=
  { ttype := ttype, dst := 1, src := 2, hops := 0, tag := 0, epoch := 0, bgen := 0, rbgen := 0, ctx := 0, cgv := false, cgen := 0,
    status := 0, z := false, enc := false, last := false, len := 0, wlen := 0, addr := 0, operand := 0, data := [] }

/-- A slot of queue 0 with the arguments that begin with `l`. -/
def slot (l : List Byte) : CmdSlot :=
  { queue := 0, cmdId := 7, flags := 0, rsvd := 0, args := l ++ List.replicate (56 - l.length) 0 }

/-- Nothing returned by a remote read. -/
def none_ : Fetched := { status := 0, bytes := [] }

/-- A state whose core C0 is `k` and runs CTX0. -/
def runs (k : Core) : State :=
  { pins := { poreset := true }, ctxs := [(0, { st := .running })], cores := [(0, { k with ctx := some 0 })] }

/-- What an UP device's EXCHANGE says that has seen this port's flit. -/
def peerInfo : ExchangeInfo :=
  { host := false, bridge := false, encOffer := false, encReq := false, ackSeen := true, nodeId := 2, bgen := 5, port := 0,
    credits := List.replicate 8 64 }

/-- A state with these registers: page, offset, value. -/
def withRegs (l : List (Nat × Nat × W32)) : State := l.foldl (fun (s : State) e => s.setReg e.1 e.2.1 e.2.2) {}

/-- A queue entry of CTX0. -/
def entry (op : TileOp) (w : TileWord) : QEntry :=
  { op := op, w := w, ecc := [], ctx := 0, seq := 0, xa := 0, xb := 0, xc := 0, xd := 0, pc := 0, started := true, txn := 0,
    detached := false, raced := false }

/-- The head of a flit that carries nothing but its own content. -/
def fh : FlitHead := { ackValid := false, ack := 0, creditVc := 0, creditCount := 0, errs := 0 }
/-! ### Well-formedness: one refused term for each check -/

theorem test_wf_packet_shape : Instr.wf (.packetForward 0 0 { pk 0x10 with wlen := 8 }) = false := by decide
theorem test_wf_packet_kind : Instr.wf (.read 0 0 (pk 0x11)) = false := by decide
theorem test_wf_slot : Instr.wf (.cmdNop { slot [] with args := [] }) = false := by decide
theorem test_wf_fetched : Instr.wf (.unparkRun 0 { status := 2, bytes := [0] }) = false := by decide
theorem test_wf_request_unit : Instr.wf (.dramAccess
    { who := .sys, write := false, addr := 255, len := 2, data := [], weight := false } .clean) = false := by decide
theorem test_wf_request_data : Instr.wf (.cacheAccess
    { who := .sys, write := true, addr := 0, len := 2, data := [0], weight := false } .clean) = false := by decide
theorem test_wf_reply : Instr.wf (.transactionReply 0 0 (List.replicate 257 0)) = false := by decide +kernel
theorem test_wf_block : Instr.wf (.blockLand 0 0 [List.replicate 17 0]) = false := by decide
theorem test_wf_path_port : Instr.wf (.pathFrame 0 [{ port := 18, stamp := 0, samples := [] }] []) = false := by decide
theorem test_wf_path_samples : Instr.wf (.pathFrame 0 [{ port := 0, stamp := 0, samples := List.replicate 17 0 }] []) = false := by
  decide
theorem test_wf_exchange : Instr.wf (.exchange 0 { head := fh, info := { peerInfo with credits := [] } }) = false := by decide
theorem test_wf_data_flit : Instr.wf (.dataFlit 0 [] 0) = false := by decide
theorem test_wf_null_flit : Instr.wf (.nullFlit 0 [0] 0) = false := by decide
theorem test_wf_status_range : Instr.wf (.parkRecordWrite 0 0x14) = false := by decide
theorem test_wf_status_gen : Instr.wf (.transactionReply 0 0x0A []) = false ∧ Instr.wf (.queueOutputCommit 0 0 0x0A) = false := by
  decide
theorem test_wf_packet_status : Instr.wf (.readRsp 0 0 { pk 0x20 with status := 0xFF }) = false := by decide
theorem test_wf_bind_none : Instr.wf (.mrBindInWrite 0 []) = false := by decide
theorem test_wf_bind_many : Instr.wf (.mrBindInWrite 0 (List.replicate 17 0)) = false := by decide
theorem test_wf_sensors : Instr.wf (.sensorUpdate []) = false := by decide
theorem test_wf_legal : Instr.wf (.read 0 0 (pk 0x10)) = true ∧ Instr.wf (.cmdNop (slot [])) = true := by decide

/-! ### Premises: core words -/

theorem test_ArithmeticWordsWriteRd :
    (∀ op ∈ [CtrlOp.add, .sub, .and, .or, .xor, .shl, .shr, .sra, .mul, .slt],
      Issues (runs { pc := 16382 }) 0 0 op { cw with rd := 31, rs1 := 1, rs2 := 2 }) ∧
    Issues (runs {}) 0 0 .addi { cw with rd := 0, rs1 := 31, imm := 0xFFFFFFFFFFFFFFFF } ∧
    Issues (runs {}) 0 0 .li { cw with rd := 1, imm := 5 } := by
  unfold Issues; dsimp only; and_intros <;> decide +kernel

theorem test_TransferWordsMove :
    (∀ op ∈ [CtrlOp.beq, .bne, .blt, .bge, .bltu, .bgeu], Issues (runs { pc := 5 }) 0 0 op { cw with rs1 := 1, rs2 := 2, imm := -5 }) ∧
    (BitVec.ofNat 64 5 + (-5 : W64)).toNat < 16384 ∧
    Issues (runs { pc := 0 }) 0 0 .jal { cw with rd := 1, imm := 16383 } ∧ (BitVec.ofNat 64 0 + (16383 : W64)).toNat < 16384 ∧
    Issues (runs { x := [(2, 16383)] }) 0 0 .jalr { cw with rd := 1, rs1 := 2 } ∧
    (((runs { x := [(2, 16383)] }).core 0).xGet 2 + (0 : W64)).toNat < 16384 := by
  unfold Issues; dsimp only; and_intros <;> decide +kernel

/-- A core C0 that runs CTX0 with a copy of 8 bytes from scratchpad offset 0 to 64 under way. -/
def copying : State :=
  runs { x := [(1, 64)], moverQ :=
    [{ entry .mcopy (tw 3) with xa := 0xF800010000000000, xb := 0xF800010000000040, xc := 32 }] }

theorem test_ScratchpadAndRecordWordsAccess_bytes :
    (Issues (runs { x := [(1, 4194296)] }) 0 0 .ld { cw with rd := 2, rs1 := 1 } ∧ 4194296 % 8 = 0 ∧ 4194296 + 8 ≤ 0x400000 ∧
      (runs { x := [(1, 4194296)] }).moversAt 0 4194296 8 true = []) ∧
    (Issues copying 0 0 .ld { cw with rd := 2, rs1 := 1 } ∧ copying.moversAt 0 64 8 true ≠ []) ∧
    (Issues (runs { x := [(1, 0)] }) 0 0 .st { cw with rs1 := 1, rs2 := 3 } ∧ (runs { x := [(1, 0)] }).moversAt 0 0 8 false = []) := by
  unfold Issues; dsimp only; and_intros <;> decide +kernel

theorem test_ScratchpadAndRecordWordsAccess_records :
    (∀ sel ∈ [0, 15, 16, 23], Issues (runs {}) 0 0 .sumrd { cw with rd := 1, imm := BitVec.ofNat 64 sel } ∧
      ((runs {}).core 0).summaryWord sel = none) ∧
    (let s := runs { vectorQ := [entry .vsum (tw 1)] };
      Issues s 0 0 .sumrd { cw with rd := 1 } ∧ (s.core 0).summaryWord 0 = some (entry .vsum (tw 1))) ∧
    (let s := runs { matrixQ := [entry .mout (tw 0)] };
      Issues s 0 0 .strd { cw with rd := 1, imm := 3 } ∧ (s.core 0).recordBusy 3 = true) ∧
    (∀ imm ∈ [0, 1, 2, 3, 0x3F03, 4, 0x3F04], Issues (runs {}) 0 0 .strd { cw with rd := 1, imm := BitVec.ofNat 64 imm } ∧
      ((runs {}).core 0).recordBusy imm = false) ∧
    (Issues (runs {}) 0 0 .wlread { cw with rd := 1, imm := 65535 } ∧ ((runs {}).core 0).cur = none) ∧
    (let s := runs { cur := some { ctx := 0, slot := 3, bar := 1 } };
      Issues s 0 0 .wlread { cw with rd := 1 } ∧ (s.core 0).cur = some { ctx := 0, slot := 3, bar := 1 } ∧
      s.moversAt 0 (s.wlOffset 0 3 1) 8 true = []) ∧
    Issues (runs { mvfail := [(0, 0x0B)] }) 0 0 .mvfail { cw with rd := 1 } := by
  unfold Issues; dsimp only; and_intros <;> decide +kernel

theorem test_WaitingWordsBlock :
    (∀ op ∈ [CtrlOp.nop, .tokwait, .brk, .strp, .beatwait, .stlb, .ppoint, .endStage], Issues (runs {}) 0 0 op cw) ∧
    Issues (runs { tokens := [(7, 1)] }) 0 0 .tokwait { cw with wait := 0x80 } ∧
    (coreTo (afterIssue (runs {}) 0 0 cw) 0 1 fun k => { k with blocked := some (.beatWait 0) }).bestReady 0 = none ∧
    (let s := runs { ready := [0], stageLatch := [(0, some { t := 5, bar := 0 })] };
      Issues s 0 0 .beatwait cw ∧
      (coreTo (afterIssue s 0 0 cw) 0 1 fun k => { k with blocked := some (.beatWait 0) }).bestReady 0 = some 0) ∧
    ((runs {}).core 0).preempt = false ∧
    (let s := { runs { preempt := true } with ctxs := [(0, { st := .running, cls := 1 })] };
      Issues s 0 0 .ppoint { cw with imm := 64 } ∧ (s.core 0).preempt = true ∧ s.isBE 0 = true) ∧
    ((runs {}).core 0).idle 0 = true ∧
    (let s := runs { moverQ := [entry .mcopy (tw 3)] }; Issues s 0 0 .endStage cw ∧ (s.core 0).idle 0 = false) := by
  unfold Issues; dsimp only; and_intros <;> decide +kernel

/-! ### Premises: tile words, completions and core events -/

/-- A core C0 that runs CTX0, whose state store has a region 0 of the kind with one slot, one group and depth 1. -/
def withRegion (kind : Nat) : State :=
  ((runs {}).setReg (Page.port 0) Reg.ST_REGION_SHAPE (BitVec.ofNat 32 (1 + kind * 2 ^ 13 + 2 ^ 15 + 2 ^ 21))).setReg (Page.port 0)
    Reg.ST_REGION_SLOTS 1

theorem test_TileWordsQueueAndRun_starts :
    StartsAtOnce (runs {}) 0 .vadd (tw 1) ∧ StartsAtOnce (runs { tokens := [(0, 1), (7, 15)] }) 0 .mout { tw 0 with wait := 0x81 } ∧
    StartsAtOnce (runs { banks := [(0, { isOpen := true })] }) 0 .mma (tw 0) ∧ StartsAtOnce (withRegion 0) 0 .scan (tw 2) ∧
    StartsAtOnce (withRegion 1) 0 .sshift { tw 2 with ctl := 2 ^ 35 } ∧ StartsAtOnce (runs {}) 0 .tload (tw 3) := by
  unfold StartsAtOnce
  refine ⟨⟨?_, ?_⟩, ⟨?_, ?_⟩, ⟨?_, ?_⟩, ⟨?_, ?_⟩, ⟨?_, ?_⟩, ⟨?_, ?_⟩⟩ <;> first | (intro q; cases q <;> rfl) | decide +kernel

theorem test_TileWordsQueueAndRun_issues :
    (∀ op ∈ [TileOp.mma, .mout], IssuesTile (runs { pc := 16382 }) 0 0 op (tw 0)) ∧
    (∀ op ∈ [TileOp.vadd, .vsub, .vmul, .vfma, .vmax, .vmin, .vcmp, .vmov, .vcvt, .vfun, .vshuf, .vpack, .vunpack, .vred, .vsum,
      .vsmax, .vmskSet, .vmskAnd, .vmskOr, .vmskXor, .vmskAndn, .vmskNot, .vmskFirst], IssuesTile (runs {}) 0 0 op (tw 1)) ∧
    IssuesTile (runs {}) 0 0 .vperm { tw 1 with td := 4 } ∧
    IssuesTile (withRegion 0) 0 0 .scan (tw 2) ∧ IssuesTile (withRegion 1) 0 0 .sshift { tw 2 with ctl := 2 ^ 35 } ∧
    IssuesTile (withRegion 1) 0 0 .shsave (tw 2) ∧
    (∀ op ∈ [TileOp.spzero, .spload, .spstore], IssuesTile (withRegion 2) 0 0 op (tw 2)) ∧
    (∀ op ∈ [TileOp.tload, .tstore, .mcopy, .semsig, .semwait, .matom, .mfence], IssuesTile (runs {}) 0 0 op (tw 3) ∧
      mvMisaligned ((runs {}).entryOf 0 0 op (tw 3) []) = false) := by
  unfold IssuesTile; and_intros <;> decide +kernel

theorem test_MaskWordsWriteMask : (32 ≤ 32 ∧ ({ tw 1 with imm := 32 } : TileWord).imm.toNat % 64 = 32) ∧
    (0 ≤ 32 ∧ (tw 1).imm.toNat % 64 = 0) := by decide

/-- An FP32 vector word on rows 0 to 31 of T60 to T63. -/
def allRows : TileWord := { tw 1 with ta := 60, ctl := 31 <<< 24 }

theorem test_VectorArithmeticWritesElements :
    allRows.f 43 3 = 0 ∧ allRows.f 46 3 = 0 ∧ allRows.b 42 = false ∧ allRows.ta.toNat + 4 ≤ 64 ∧
    allRows.f 51 5 + allRows.f 56 5 < 32 ∧ laneOn {} allRows 31 = true ∧ allRows.f 51 5 ≤ 31 ∧
    31 ≤ allRows.f 51 5 + allRows.f 56 5 := by decide +kernel

theorem test_MmaAccumulatesDotProducts : ({ tw 0 with ctl := 4 } : TileWord).b 34 = true ∧ ({ tw 0 with ctl := 4 } : TileWord).b 35 = false ∧
    ({ tw 0 with ctl := 4 } : TileWord).f 36 2 = 0 ∧ ({ tw 0 with ctl := 4 } : TileWord).b 38 = false := by decide +kernel

theorem test_PortZeroesGroups : (entry .spzero (tw 2)).op = .spzero ∧
    scanGroup (entry .spzero (tw 2)) + (entry .spzero (tw 2)).w.f 59 5 < ((withRegion 2).region 0 0).ng := by decide +kernel

theorem test_CompletedWordSignalsToken :
    (∀ op ∈ [TileOp.mma, .mout], (runs { matrixQ := [entry op (tw 0)] }).completable 0 .matrix = some (entry op (tw 0)) ∧
      (entry op (tw 0)).raced = false) ∧
    (runs { vectorQ := [entry .vadd (tw 1)] }).completable 0 .vector = some (entry .vadd (tw 1)) ∧
    (runs { scanQ := [entry .scan (tw 2)] }).completable 0 .scan = some (entry .scan (tw 2)) ∧
    (let s := runs { moverQ := [entry .mfence (tw 3)] }
     (s.returnHere 0 (s.hereRounds 0)).completable 0 .mover = some (entry .mfence (tw 3))) ∧
    ((runs { tokens := [(3, 14)] }).core 0).ctx = some 0 ∧ ((runs { tokens := [(3, 14)] }).core 0).tok 3 < 15 ∧
    ((runs { tokens := [(3, 15)] }).core 0).ctx = some 0 ∧ ((runs { tokens := [(3, 15)] }).core 0).tok 3 = 15 ∧
    ((runs { tokens := [(3, 15)] }).ctx 0).st = .running := by
  dsimp only; and_intros <;> decide +kernel

/-- A transaction of CTX0 on core C0, issued at 0. -/
def txn (kind : TagKind) (busy : Bool) : Tag := { plainTag with core := some 0, ctx := some 0, kind := kind, busy := busy }

/-- It is outstanding under tag 8191 while the timebase shows `now`, and MV_TIMEOUT is 3 µs. -/
def tagged (x : Tag) (now : W64) : State :=
  { (runs {}).setTag 8191 (some x) with
    time := { tb := now }, regs := (withRegs [(Page.mover 0, Reg.MV_TIMEOUT, 3)]).regs }

theorem test_TransactionsEnd :
    ((tagged (txn .ack false) 0).tag 8191 = some (txn .ack false) ∧ (txn .ack false).kind ≠ .semWait ∧ (txn .ack false).kind ≠ .here ∧
      (txn .ack false).core ≠ none) ∧
    ((tagged (txn .ack false) 767999).tooLate (txn .ack false) = false ∧
      (tagged (txn .ack false) 768000).tooLate (txn .ack false) = true) ∧
    ((tagged (txn .semWait true) 0).tag 8191 = some (txn .semWait true) ∧ (txn .semWait true).kind = .semWait ∧
      (txn .semWait true).busy = true) ∧
    (0 < 1 ∧ 1 < 256) ∧ (0 < 255 ∧ 255 < 256) ∧ SMap.get ((runs {}).core 0).mvfail 0 0 = 0 ∧
    SMap.get ((runs { mvfail := [(0, 0x0B)] }).core 0).mvfail 0 0 ≠ 0 := by
  and_intros <;> decide +kernel

/-- Two best-effort contexts that take turns on core C0, CTX0 running. -/
def turns : State :=
  { runs { ready := [0, 1] } with ctxs := [(0, { st := .running, cls := 1 }), (1, { st := .running, cls := 1 })] }

theorem test_CoreEventsAct_turns :
    (turns.core 0).ctx = some 0 ∧ turns.isBE 0 = true ∧
    (turns.modCore 0 fun k => { k with ready := k.ready.filter (· != 0) ++ [0] }).bestReady 0 = some 1 ∧
    turns.rank 1 = turns.rank 0 ∧ (turns.core 0).blocked = none ∧ (turns.core 0).preempt = false := by
  and_intros <;> decide +kernel

theorem test_CoreEventsAct_holds :
    ((runs { blocked := some (.point 64 none) }).core 0).blocked = some (.point 64 none) ∧
    ((runs { held := [(15, 2047, entry .scan (tw 2))] }).core 0).held = [(15, 2047, entry .scan (tw 2))] ∧
    (runs {}).pair.unread.contains (0, 15, 2047) = false ∧ (runs {}).pair.importing.contains (0, 15, 2047) = false := by
  and_intros <;> decide +kernel

/-- Core C0 at the reheat point of entry 255, its statistics beat latched: 2 saturations where 1 is allowed, a cost of 7 and a
budget of `budget`. -/
def reheats (budget : W32) : State :=
  let p := Page.stat 0
  ((((runs { blocked := some (.reheat 255 1), beatLatch := [255] }).setReg p (Reg.REHEAT_THRESH + 8 * 255) 0x80000001).setReg p
    Reg.LAYER_SAT_COUNT 2).setReg p (Reg.REHEAT_COST + 8 * 255) 7).setReg p Reg.REHEAT_REMAIN_RT budget

theorem test_CoreEventsAct_reheat :
    ((reheats 7).core 0).ctx = some 0 ∧ ((reheats 7).core 0).blocked = some (.reheat 255 1) ∧ (reheats 7).reheatDue 0 255 = true ∧
    255 < 256 ∧ ((reheats 7).reheatDecide 0 255 false).1 = true ∧
    bitOf ((reheats 6).reg (Page.stat 0) (Reg.REHEAT_THRESH + 8 * 255)).toNat 31 = true ∧
    bitsOf ((reheats 6).reg (Page.stat 0) (Reg.REHEAT_THRESH + 8 * 255)).toNat 0 16 <
      ((reheats 6).reg (Page.stat 0) Reg.LAYER_SAT_COUNT).toNat ∧
    (reheats 6).fld (Page.stat 0) Reg.REHEAT_REMAIN_RT 0 28 < (reheats 6).fld (Page.stat 0) (Reg.REHEAT_COST + 8 * 255) 0 28 ∧
    ((reheats 6).reg (Page.stat 0) Reg.REHEAT_DENIED_COUNT).toNat < 0xFFFFFFFF := by
  and_intros <;> decide +kernel

/-- Context CTX63 in a state. -/
def inState (st : CtxState) : State := { ctxs := [(63, { st := st })] }

theorem test_QuenchRemovesContext :
    ((inState .free).ctx 63).st = .free ∧ ((inState .quenched).ctx 63).st = .quenched ∧ ((inState .running).ctx 63).st = .running ∧
    ((inState .stopped).ctx 63).st = .stopped ∧ ((inState .quenching).ctx 63).st = .quenching := by decide

/-! ### Premises: time, the pattern and the audio ports -/

theorem test_TimebaseIsSetAndDisciplined :
    ({} : State).pattern.run = false ∧ ({} : State).pattern.running = false ∧ ({ pattern := { run := true } } : State).pattern.run = true ∧
    ({ pattern := { running := true } } : State).pattern.running = true ∧
    (withRegs [(Page.timebase, Reg.TB_STATUS, 2)]).lock = 2 ∧
    ((withRegs [(Page.timebase, Reg.TB_STATUS, 2), (Page.timebase, Reg.TB_LOCK_LOSS_COUNT, 0xFFFFFFFE)]).reg Page.timebase
      Reg.TB_LOCK_LOSS_COUNT).toNat < 0xFFFFFFFF ∧
    ({ pattern := { run := true } } : State).patternStopped = false ∧
    (withRegs [(Page.timebase, Reg.TB_CTRL, 0)]).flag Page.timebase Reg.TB_CTRL 7 = false ∧ ({} : State).lock ≠ 2 ∧
    (State.servoUpdate { withRegs [(Page.timebase, Reg.TB_STEP_THRESH, 0)] with time := { good := 7 } } (20 * 256)).lock = 2 ∧ (40 * 256 : Int).natAbs ≤ 40 * 256 ∧
    40 * 256 < (-(40 * 256 + 1) : Int).natAbs := by
  and_intros <;> decide +kernel

/-- Angle timebase 0 in tooth mode, TRACKING with position 0 known. -/
def tracking : State :=
  { withRegs [(Page.angle, Reg.ANG_CTRL, 1 + 3 * 2 ^ 3 + 2 ^ 15)] with
    angles := [(0, { st := 2, seenZero := true, teeth := 1, pos := 3, counted := 3 })] }

/-- Angle timebase 1 in host-sample mode with an applied sample of instant 5 and one of instant 9 waiting. -/
def sampled : State :=
  { withRegs [(Page.angle, Reg.ANG_CTRL + 0x40, 3), (Page.angle, Reg.ANG_HS_T_LO + 0x40, 6)] with
    angles := [(1, { st := 2, applied := some (5, 0, 0), waiting := some (9, 1, 1) })] }

theorem test_AngleFollowsTeethAndSamples_teeth :
    true ≠ bitOf (tracking.angCtrl 0) 2 ∧ 9 < tracking.angFilter 0 ∧ tracking.angFilter 0 ≤ 10 ∧ tracking.angMode 0 = 1 ∧
    false = bitOf (tracking.angCtrl 0) 2 ∧ (tracking.angle 0).st = 2 ∧ (tracking.angle 0).seenZero = true ∧
    (tracking.angle 0).indexSeen = false ∧ 0 < (tracking.angle 0).teeth ∧
    ({ tracking with time := { tb := 5 } }.angle 0).tTooth ≠ ({ tracking with time := { tb := 5 } } : State).now ∧
    (({} : State).angle 0).teeth = 0 ∧
    (({ angles := [(0, { st := 1 })] } : State).angle 0).st = 1 := by
  and_intros <;> decide +kernel

theorem test_AngleFollowsTeethAndSamples_samples :
    sampled.angMode 1 = 3 ∧ (sampled.angle 1).applied = some (5, 0, 0) ∧
    (5 : W64).toNat < (sampled.reg64 Page.angle (Reg.ANG_HS_T_LO + 0x40) (Reg.ANG_HS_T_HI + 0x40)).toNat ∧
    (sampled.angle 1).waiting = some (9, 1, 1) ∧ sampled.now.toNat < (9 : W64).toNat ∧
    ((sampled.setReg Page.angle (Reg.ANG_HS_T_LO + 0x40) 5).reg64 Page.angle (Reg.ANG_HS_T_LO + 0x40) (Reg.ANG_HS_T_HI + 0x40)).toNat ≤
      (5 : W64).toNat ∧
    ((withRegs [(Page.angle, Reg.ANG_CTRL, 3)]).angle 0).applied = none := by
  and_intros <;> decide +kernel

/-- A pattern whose inactive bank B is selected at entry 511. -/
def selected : State := withRegs [(Page.pattern, Reg.PT_ENTRY_SEL, 1023)]

theorem test_PatternTableIsCheckedWhole :
    selected.flag Page.pattern Reg.PT_ENTRY_SEL 9 ≠ selected.pattern.bank ∧ selected.pattern.pendingSwitch = false ∧
    ({} : State).flag Page.pattern Reg.PT_ENTRY_SEL 9 = ({} : State).pattern.bank ∧
    ({ pattern := { pendingSwitch := true } } : State).pattern.pendingSwitch = true ∧
    ({} : State).bankCheck true 0 0 0 512 = none ∧
    (({} : State).ptPut true 0 0 0x13D09000).bankCheck true 0 0 0 512 = some (2, 0) ∧ 2 < 16 ∧ 0 < 512 := by
  and_intros <;> decide +kernel

theorem test_BarsFollowInOrder :
    ({} : State).pattern.run = false ∧ ({} : State).pattern.running = false ∧ 0 < ({} : State).barUnits ∧
    (let s : State := { pattern := { run := true, running := true } }; s.pattern.running = true ∧ s.pattern.run = true ∧ s.lastBar = false) ∧
    (let s : State := { pattern := { running := true } }; s.pattern.running = true ∧ s.pattern.run = false ∧ s.lastBar = true) ∧
    (let s : State := { pattern := { running := true, stopT := ({} : State).nextT } }; s.lastBar = false) ∧
    ({ pattern := { run := true } } : State).pattern.running = false := by
  decide +kernel

/-- A switch requested in the bar before, just before T and at T. -/
theorem test_BarsFollowInOrder_switch :
    (let u : State := { pattern := { running := true, pendingSwitch := true, switchT := ({} : State).barStart 1 - 1 } }
     u.pattern.pendingSwitch = true ∧ u.pattern.switchT.toNat < (u.barStart 1).toNat) ∧
    (let u : State := { pattern := { running := true, pendingSwitch := true, switchT := ({} : State).barStart 1 } }
     (u.barStart 1).toNat ≤ u.pattern.switchT.toNat) := by
  dsimp only; and_intros <;> decide +kernel

/-- Stage slot 0 of section 0 on core C0. -/
def stage0 : Stage :=
  { section_ := 0, slot := 0, stage := 0, cores := 1, batchMax := 1, final := true, streamed := false, maxStreams := 1,
    regions := [], inBase := 0, inStride := 0, outBase := 0, outStride := 0 }

/-- A running pattern whose entry 0 of bank A is a beat of the type with these words 1 and 2; CTX0 runs on C0, section 0 has
stage slot 0 there, and partition 0 holds C0. -/
def beats (type : Nat) (w1 w2 : W32) (k : Core) : State :=
  { runs k with
    pattern := { running := true, run := true, table := [(0, BitVec.ofNat 32 (type * 2 ^ 28)), (1, w1), (2, w2)] },
    regs := (withRegs [(Page.pattern, Reg.PART_CORES, 1)]).regs,
    qm := { image := some { stages := [stage0] } } }

/-- The words of entry 0 of a state made by `beats`. -/
def words (type w1 w2 : Nat) : List Nat := [type * 2 ^ 28, w1, w2, 0]

theorem test_BeatsAct_start :
    (beats 1 0 1 {}).beat 0 1 = some (words 1 0 1) ∧
    (((beats 1 0 1 {}).beatAct 0 1 0 (words 1 0 1)).ctx 0).st = .running ∧
    ((beats 1 0 1 {}).beatAct 0 1 0 (words 1 0 1)).isBE 0 = false ∧ coresOf ((words 1 0 1).getD 2 0) = [0] ∧
    ((beats 1 0 1 {}).beatAct 0 1 0 (words 1 0 1)).inPart 0 0 = true ∧
    (((beats 1 0 1 {}).beatAct 0 1 0 (words 1 0 1)).stagesOn 0 0).any (fun x => x.slot == 0) = true ∧
    SMap.get (((beats 1 0 1 {}).beatAct 0 1 0 (words 1 0 1)).core 0).stageLatch 0 none = none := by
  and_intros <;> decide +kernel

theorem test_BeatsAct_others :
    (let k : Core := { stageLatch := [(0, some { t := 0, bar := 0 })] };
      (beats 1 0 1 k).beat 0 1 = some (words 1 0 1) ∧
      SMap.get (((beats 1 0 1 k).beatAct 0 1 0 (words 1 0 1)).core 0).stageLatch 0 none ≠ none) ∧
    (beats 2 0 0 {}).beat 0 2 = some (words 2 0 0) ∧ (((beats 2 0 0 {}).beatAct 0 2 0 (words 2 0 0)).ctx 0).st = .running ∧
    (beats 3 0xFF00 1 {}).beat 0 3 = some (words 3 0xFF00 1) ∧
    (((beats 3 0xFF00 1 {}).beatAct 0 3 0 (words 3 0xFF00 1)).core 0).beatLatch.contains 255 = false ∧
    (beats 4 0 0xFFFFFF {}).beat 0 4 = some (words 4 0 0xFFFFFF) ∧ (beats 4 0 0 {}).pattern.dropAll = false ∧ (beats 5 0 0 {}).beat 0 5 = some (words 5 0 0) ∧
    (beats 4 0 1 {}).now.toNat ≤ ((beats 4 0 1 {}).beatTime (words 4 0 1)).toNat := by
  dsimp only; and_intros <;> decide +kernel

/-! ### Premises: audio, direct path, memory and compression -/

/-- Audio port p in this condition. -/
def withPort (p : Nat) (x : Port) : State := { audio := { ports := [(p, x)] } }

theorem test_PortsStartAndStop :
    ({} : State).pageOn (Page.audio 19) = true ∧ (({} : State).port 0).st = 0 ∧ ({} : State).portEnableOk 0 = true ∧
    (withRegs [(Page.audio 0, Reg.AP_RATE_NOM, 7999)]).portEnableOk 0 = false ∧ ((withPort 19 { st := 3, pend := true }).port 19).st = 3 ∧
    ((withPort 19 { st := 1 }).port 19).st = 1 ∧ (withPort 19 { st := 1 }).portMaster 19 = true ∧
    ((withPort 19 { st := 1 }).port 19).clocks = false ∧
    ({ audio := { ports := [(19, { st := 1 })], aplls := [(0, { locked := true })] } } : State).sourceLocked 19 = true ∧
    (let x := (withPort 0 { st := 1, clkPresent := true }).port 0; x.st = 1 ∧ x.clkPresent = true) ∧
    ((withPort 0 { st := 2 }).port 0).st = 2 ∧
    (let x := (withPort 0 { st := 3 }).port 0; x.st = 3 ∧ x.lastBlock = false ∧ x.pend = false ∧ x.openSlots = []) := by
  dsimp only; and_intros <;> decide +kernel

/-- APLL 1 of 38.4 MHz / 16 times MULT / 2^22, locked. -/
def withMult (mult : W32) : State :=
  { withRegs [(Page.apll 1, Reg.APLL_CTRL, 16 * 4), (Page.apll 1, Reg.APLL_MULT, mult)] with
    audio := { aplls := [(1, { locked := true })] } }

/-- The lowest and the highest multiplier of 80 to 125 MHz, and those outside. -/
theorem test_AudioEventsAct_aplls :
    (withMult 139810134).fld (Page.apll 1) Reg.APLL_CTRL 0 2 = 0 ∧
    80000000 * ((withMult 139810134).apllHz 1).2 ≤ ((withMult 139810134).apllHz 1).1 ∧
    ((withMult 139810134).apllHz 1).1 ≤ 125000000 * ((withMult 139810134).apllHz 1).2 ∧
    80000000 * ((withMult 218453333).apllHz 1).2 ≤ ((withMult 218453333).apllHz 1).1 ∧
    ((withMult 218453333).apllHz 1).1 ≤ 125000000 * ((withMult 218453333).apllHz 1).2 ∧
    ¬ 80000000 * ((withMult 139810133).apllHz 1).2 ≤ ((withMult 139810133).apllHz 1).1 ∧
    ¬ ((withMult 218453334).apllHz 1).1 ≤ 125000000 * ((withMult 218453334).apllHz 1).2 ∧ ((withMult 0).apll 1).locked = true := by
  and_intros <;> decide +kernel

/-- TDM port 11 that transmits 16 slots, the last one gated. -/
def gated : State :=
  { withRegs [(Page.audio 11, Reg.AP_FMT, 1 + 15 * 2 + 2 ^ 15)] with audio := { ports := [(11, { st := 2, map := [(15, 256)] })] } }

/-- Converter bank 2 on input ring 0, its port at `hz`. -/
def banked (hz : W32) : State :=
  { withRegs [(Page.asrc, Reg.ASRC_BANK + 32, 32 + 48000 * 64), (Page.audio 0, Reg.AP_RATE_NOM, hz)] with
    audio := { ports := [(0, { st := 2, clkPresent := true })] } }

theorem test_AudioEventsAct :
    ((withPort 0 { st := 2 }).port 0).st ≠ 0 ∧ (withPort 0 { st := 2 }).portMaster 0 = false ∧
    (withPort 0 { st := 2 }).fld Page.timebase Reg.TB_CTRL 0 2 ≠ 2 ∧ ((withPort 0 { st := 2, clkPresent := true }).port 0).clkPresent = true ∧
    ((withPort 0 { st := 2, filling := true }).port 0).clkPresent = false ∧
    (let x := (withPort 0 { st := 1 }).port 0; x.st = 1 ∧ x.clkPresent = false) ∧
    (banked 12000).bankReady 2 = true ∧ (banked 192000).bankReady 2 = true ∧ (banked 11999).bankReady 2 = false ∧
    (banked 48000).flag Page.asrc (Reg.ASRC_BANK + 32) 5 = true ∧
    (gated.slotGated 11 15 = true ∧ gated.portTx 11 = true ∧ 15 < gated.txSlots 11 ∧ (gated.port 11).st = 2 ∧
      (gated.port 11).openSlots.contains 15 = false) ∧
    ((withPort 17 { st := 1 }).port (12 + 5)).st ≠ 0 ∧ ((withPort 19 { st := 1 }).port (18 + 1)).st ≠ 0 := by
  dsimp only; and_intros <;> decide +kernel

/-- Rings of serial port 0: a valid input ring of 2 frames a block, and a valid output ring of 4 frames a slot. -/
def rings (x : Port) : State :=
  { withRegs [(Page.audio 0, Reg.AP_FMT, 3 * 2 ^ 14), (Page.audioBuf, Reg.RING_SHAPE, 2 * 2 ^ 4 + 2 ^ 13),
      (Page.audioBuf, Reg.RING_SHAPE + 16 * 12, 2 ^ 4 + 2 ^ 13), (Page.audioBuf, Reg.RING_SLOT + 16 * 12, 4)] with
    audio := { ports := [(0, x)], rings := [(12, { commitCrc := [(112, some 0)] })] } }

theorem test_RingsCarryFrames_blocks :
    inRing 0 = some 0 ∧ ((rings { st := 2 }).port 0).st = 2 ∧ (rings { st := 2 }).portRx 0 = true ∧
    ((rings { st := 2 }).ringShape 0).valid = true ∧ [[], [(1 : W32)]].length = ((rings { st := 2 }).ringShape 0).block ∧
    ((rings { st := 2 }).port 0).filling = false ∧ (rings { st := 2 }).bankOf 0 = none := by
  and_intros <;> decide +kernel

theorem test_RingsCarryFrames_slots :
    outRing 0 = some 12 ∧ (rings { st := 2, clkPresent := true }).portTx 0 = true ∧
    ((rings { st := 2, clkPresent := true }).ringShape 12).valid = true ∧
    0 < ((rings { st := 2, clkPresent := true }).ringShape 12).slot ∧ ((rings { st := 2, clkPresent := true }).port 0).clkPresent = true ∧
    (((rings { taken := 28 }).ring 12).commitCrc.any fun e => e.1 / 16 == 7) = true ∧ (rings { taken := 28 }).slotPassed 12 7 = false ∧
    ((rings { taken := 28 }).ring 12).ready.contains 7 = false := by
  and_intros <;> decide +kernel

theorem test_RingsCarryFrames_shapes :
    (withPort 7 { st := 1 }).ringWritable 31 = true ∧ (withPort 19 { st := 1 }).ringWritable 31 = false ∧
    (0 : W32).getLsbD 13 = false ∧ (0x2010 : W32).getLsbD 13 = true ∧
    ((withRegs [(Page.audioBuf, Reg.RING_FRAMES, 65536)]).setReg Page.audioBuf Reg.RING_SHAPE (BitVec.ofNat 32 (0x2010 % 8192))).ringCheck 0
      = true ∧
    ((withRegs [(Page.audioBuf, Reg.RING_FRAMES, 65537)]).setReg Page.audioBuf Reg.RING_SHAPE (BitVec.ofNat 32 (0x2010 % 8192))).ringCheck 0
      = false := by
  and_intros <;> decide +kernel

/-- The direct path in this condition. -/
def path (d : DirectPath) : State := { dp := d }

theorem test_DirectPathRuns :
    (path {}).pageOn Page.dpMain = true ∧ (path {}).dp.st = 0 ∧
    ((path {}).setFld Page.dpMain Reg.DP_COST 0 24 (path {}).dpCost).dpEnableOk = true ∧ (path {}).flag Page.dpMain Reg.DP_CTRL 13 = false ∧
    ((path {}).setFlag Page.dpMain Reg.DP_CTRL 13 true).flag Page.dpMain Reg.DP_CTRL 13 = true ∧
    (((path {}).setFlag Page.dpMain Reg.DP_CTRL 13 true).setFld Page.dpMain Reg.DP_COST 0 24
      ((path {}).setFlag Page.dpMain Reg.DP_CTRL 13 true).dpCost).dpEnableOk = true ∧
    ((withRegs [(Page.dpMain, Reg.DP_PHASE, 99)]).setFld Page.dpMain Reg.DP_COST 0 24
      (withRegs [(Page.dpMain, Reg.DP_PHASE, 99)]).dpCost).dpEnableOk = false ∧ (path { st := 2 }).dp.st = 2 := by
  and_intros <;> decide +kernel

theorem test_DirectPathRuns_frames :
    (path {}).dp.edge = none ∧ (path { edge := some 5 }).dp.edge = some 5 ∧ (5 : W64).toNat < (6 : W64).toNat ∧
    (∀ st ∈ [1, 2, 3],
      let s : State := { dp := { st := st, stopIn := 1 }, audio := { ports := [(0, { st := 2, clkPresent := true })] } }
      s.dp.st = st ∧ 0 < s.dp.stopIn ∧ (s.port s.framePort).clkPresent = true ∧ (s.port s.framePort).st = 2) := by
  dsimp only; and_intros <;> decide +kernel

/-- A pending list of `bytes` bytes at address 0 of `node`. -/
def list (node : Nat) (bytes : Nat) : LoadList :=
  { serial := 0, addr := BitVec.ofNat 64 (2 ^ 59 * node), bytes := bytes, mask := 0x800001, asked := true, data := [], left := 0, bad := none }

/-- A device whose output 23 owns pair 0 of 4 taps, with these pending lists and resyncs. -/
def loading (x : LoadList) (resync : BitVec 24) : State := { dp := { loads := [x], resync := resync } }

/-- One record of this kind for index `index` of one word, zero. -/
def rec1 (kind index : Nat) : List Byte := [BitVec.ofNat 8 kind, 0] ++ leBytes 2 index ++ [0, 0, 1, 0] ++ List.replicate 24 0

theorem test_LoadListsRun :
    (loading (list 31 0) 0).dp.loads.length < 4 ∧ (path {}).dp.loads = [] ∧ nodeOf (list 31 0).addr = (path {}).node ∧
    4 ≤ (path { loads := List.replicate 4 (list 1 0) }).dp.loads.length ∧
    (loading (list 31 0) 0).dp.loads = list 31 0 :: [] ∧ (list 31 0).left = 0 ∧
    (let s := loading { list 1 32 with data := rec1 4 23 } 0x800000
     let got := s.loadBytes { list 1 32 with data := rec1 4 23 }
     ((got.2.loadList got.1 got.1.length 32 0 0 3).1.any fun r => s.dp.resync.getLsbD r.owner) = true) ∧
    (let s := loading { list 1 32 with data := rec1 4 23 } 0x400000
     let got := s.loadBytes { list 1 32 with data := rec1 4 23 }
     let run := got.2.loadList got.1 got.1.length 32 0 0 3
     (run.1.any fun r => s.dp.resync.getLsbD r.owner) = false ∧ run.2 = none ∧ (list 1 32).mask.getLsbD 23 = true) ∧
    (let s := loading { list 1 32 with data := rec1 5 0 } 0
     let got := s.loadBytes { list 1 32 with data := rec1 5 0 }
     (got.2.loadList got.1 got.1.length 32 0 0 3).2 = some (1, 0)) ∧
    (path { resync := 0x800000 }).dp.resync.getLsbD 23 = true := by
  dsimp only; and_intros <;> decide +kernel

theorem test_MemoryRequestsServed :
    ({ mem := { failed := [0] } } : State).dramRefuses .sys 0 256 = true ∧ ({} : State).dramRefuses .sys 0 256 = false ∧
    ({} : State).hitWay 0 = none ∧
    ({ mem := { cache := [(15, some { unit := 0, dirty := false, data := [], used := 0 })] } } : State).hitWay 0 = some 15 := by
  and_intros <;> decide +kernel

theorem test_CacheReadsBackWrites :
    [(1 : Byte), 2].length = 2 ∧ 254 % 256 + 2 ≤ 256 ∧ ({} : State).prOf (256 * (254 / 256)) = none ∧
    (({} : State).cacheServe .sys true 254 2 [1, 2] 0xFFFF).1 = 0 := by
  and_intros <;> decide +kernel

theorem test_MemoryIsMaintained :
    (withRegs [(Page.dram 15, Reg.DC_SCRUB_CTRL, 65536)]).flag (Page.dram 15) Reg.DC_SCRUB_CTRL 16 = true ∧
    ({} : State).unitDamaged 0 = false ∧
    (85 < (86 : Byte).toInt ∧ (86 : Byte).toInt ≤ 105) ∧ 105 < (106 : Byte).toInt ∧ (82 : Byte).toInt ≤ 82 ∧
    (82 < (85 : Byte).toInt ∧ (85 : Byte).toInt ≤ 85) ∧ ({} : State).fld (Page.dram 0) Reg.DC_STATUS 2 2 ≤ 1 ∧
    ({} : State).flag Page.thermal (Reg.TH_TEMP + 4 * (12 + 15 / 4)) 9 = false ∧
    (withRegs [(Page.thermal, Reg.TH_TEMP + 60, 512)]).flag Page.thermal (Reg.TH_TEMP + 4 * (12 + 15 / 4)) 9 = true ∧
    (withRegs [(Page.dram 0, Reg.DC_STATUS, 4)]).fld (Page.dram 0) Reg.DC_STATUS 2 2 = 1 ∧
    ({ mem := { trained := [15] } } : State).mem.trained.contains 15 = true ∧
    ((withRegs [(Page.dram 15, Reg.DC_RETRAIN_COUNT, 0xFFFFFFFE)]).reg (Page.dram 15) Reg.DC_RETRAIN_COUNT).toNat < 0xFFFFFFFF ∧
    ({ mem := { training := [15] } } : State).mem.training.contains 15 = true ∧ ({} : State).mem.pass = none ∧
    ({ mem := { pass := some (0x8000, true, true, 8191) } } : State).mem.pass = some (0x8000, true, true, 8191) ∧
    (8191 ≤ 8191 ∧ 8191 < 8192 ∧ 15 < 16 ∧ (0x8000 : BitVec 16).getLsbD 15 = true) := by
  and_intros <;> decide +kernel

/-- Protected region 15 of 4 KiB, with key slot 1 valid. -/
def region15 (ctrl : W32) : State :=
  { withRegs [(Page.cache, Reg.PR_CTRL + 240, ctrl), (Page.cache, Reg.PR_END + 240, 1)] with sec := { keySlots := [(1, some 0)] } }

theorem test_ProtectedRegionsEnable :
    (withRegs [(Page.cache, Reg.PG_LOCK, 1)]).locked Page.cache = true ∧ (region15 0).locked Page.cache = false ∧
    (region15 0).prOn 15 = false ∧ (region15 0).prEnableOk 15 (2 ||| 1) = true ∧ (region15 0).prEnableOk 15 (0 ||| 1) = false ∧
    (region15 3).prOn 15 = true := by
  and_intros <;> decide +kernel

/-- A compression job of CTX0. -/
def job (op : Byte) (finished : Bool) : CeJob :=
  { op := op, kind := 3, ctx := 0, gen := 0, count := 1, src := 0, dst := 0, statusAddr := 0, semAddr := 0, serial := 0, started := true,
    srcLen := 0, dstLen := 0, queued := 1, block := 0, inPos := 0, outPos := 0, nbad := 0, firstBad := 0, status := 0,
    finished := finished, quench := false }

/-- Its one block on lane 15, with these bytes. -/
def block (data : List Byte) : CeBlock :=
  { job := 0, index := 0, pos := 0, data := data, left := 0, st := 0, known := true, held := none, lane := some 15, out := none }

/-- CTX0 running with these jobs, and that block. -/
def jobs (l : List CeJob) (data : List Byte) : State :=
  { ctxs := [(0, { st := .running })], ce := { jobs := l, blocks := [block data] } }

theorem test_CompressionJobsRun :
    (∀ n ∈ [0, 63, 64], ((jobs (List.replicate n (job 0 false)) []).ctx (jobs (List.replicate n (job 0 false)) []).jobDesc.1.ctx).st ≠ .free ∧
      (jobs (List.replicate n (job 0 false)) []).gen (jobs (List.replicate n (job 0 false)) []).jobDesc.1.ctx =
        (jobs (List.replicate n (job 0 false)) []).jobDesc.1.gen) ∧
    (jobs (List.replicate 63 (job 0 false)) []).ce.jobs.length < 64 ∧ 64 ≤ (jobs (List.replicate 64 (job 0 false)) []).ce.jobs.length ∧
    (jobs [job 0 true] []).ce.jobs = job 0 true :: [] ∧ (job 0 true).finished = true ∧ (jobs [job 0 true] []).jobWaits (job 0 true) = false ∧
    ((jobs [job 1 true] []).setTag 0 (some { plainTag with kind := .ceWrite 0 })).jobWaits (job 1 true) = true := by
  and_intros <;> decide +kernel

theorem test_CompressionJobsRun_lanes :
    (∀ op ∈ [0, 1], (jobs [job op false] []).ce.jobs = job op false :: [] ∧
      (jobs [job op false] []).ce.blocks.find? (fun b => b.lane == some 15) = some (block [])) ∧
    (job 0 false).op = 0 ∧ (job 1 false).op ≠ 0 ∧ (block []).held = none ∧
    (let r := (jobs [job 0 false] []).blockDecoded (block []); (jobs [job 0 false] []).ce.outFill + r.1.length ≤ 262144) ∧
    (let d := List.replicate 32 0; (blockEncoded (block d)).2.2.2 = false ∧
      (jobs [job 1 false] d).ce.outFill + (blockEncoded (block d)).1.length ≤ 262144) := by
  dsimp only; and_intros <;> decide +kernel

/-! ### Premises: links, packets and the fabric -/

/-- READY device 1 that knows node 2, with link port 3 in this condition and the route to node 2 through it. -/
def linked (l : Link) : State :=
  { withRegs [(Page.fabric, Reg.FB_ROUTE + 8, 3), (Page.fabric, Reg.FB_PEER, 256), (Page.fabric, Reg.FB_PEER + 8, 256)] with
    fab := { links := [(3, l)], nodeId := 1, enumerated := true, known := [2, 0] }, sec := { boot := 4 } }

/-- The same device with link port 3 UP and a transaction outstanding under tag 8191. -/
def answering : State :=
  (linked { st := 6 }).setTag 8191 (some { plainTag with core := some 0, ctx := some 0, kind := .ack })

/-- The 248 bytes of a flit of this type and SEQ before its CRC. -/
def flitBody (type seq : Nat) : List Byte := leBytes 8 (type + seq * 2 ^ 12) ++ List.replicate 240 0

/-- That flit, with this much added to its CRC. -/
def flit (type seq : Nat) (wrong : W64) : List Byte :=
  flitBody type seq ++ leBytes 8 (crc64 (flitBody type seq) + wrong).toNat

theorem flitBody_length (type seq : Nat) : (flitBody type seq).length = 248 := by
  rw [flitBody, List.length_append, leBytes_length, List.length_replicate]

theorem flit_crc (type seq : Nat) (wrong : W64) : flitCrcOk (flit type seq wrong) = decide (wrong = 0) := by
  have hn : natAt (flit type seq wrong) 248 8 = (crc64 (flitBody type seq) + wrong).toNat := by
    have h := natAt_append_leBytes (flitBody type seq) 8 (crc64 (flitBody type seq) + wrong).toNat
    rw [flitBody_length] at h
    exact h.trans (Nat.mod_eq_of_lt (BitVec.isLt _))
  have ht : (flit type seq wrong).take 248 = flitBody type seq := by
    rw [← flitBody_length type seq]; exact List.take_left' rfl
  have hl : (flit type seq wrong).length = 256 := by rw [flit, List.length_append, flitBody_length, leBytes_length]
  rw [flitCrcOk, hn, ht, hl, Bool.eq_iff_iff]
  simp only [decide_true, Bool.true_and, beq_iff_eq, decide_eq_true_eq, BitVec.toNat_inj]
  constructor
  · intro h; simpa using h.symm
  · rintro rfl; simp

theorem test_LinksComeUp_states :
    (linked {}).pageOn (Page.link 3) = true ∧ (linked {}).creditSum 3 ≤ 1024 ∧ ((linked {}).link 3).st = 0 ∧
    1024 < ((linked {}).setFld (Page.linkVc 3) Reg.KL_VC_CREDIT 0 11 1024).creditSum 3 ∧
    (∀ n ∈ [1, 2, 3, 4, 5], ((linked { st := n }).link 3).st = n) ∧
    (peerInfo.host = true → (linked { st := 4 }).sec.bridgeEn = true) ∧
    (bitOf ((linked { st := 4 }).link 3).ctrl.toNat 2 = true → peerInfo.encOffer = true) ∧
    ((linked { st := 8, enabled := true, cause := .retrain }).link 3).enabled = true ∧
    ((linked { st := 8, enabled := true, cause := .retrain }).link 3).cause ≠ .hostRefused := by
  and_intros <;> decide +kernel

theorem test_LinksComeUp_exchange :
    peerInfo.ackSeen = true ∧ ({ peerInfo with ackSeen := false } : ExchangeInfo).ackSeen = false ∧
    bitOf ((linked { st := 4 }).link 3).ctrl.toNat 1 = false ∧ bitOf ((linked { st := 4, ctrl := 2 }).link 3).ctrl.toNat 1 = true ∧
    ({ peerInfo with encOffer := true } : ExchangeInfo).encOffer = true ∧ (List.replicate 256 (0 : Byte)).length = 256 ∧
    ((linked { st := 5, offer := some [], myOffer := [1] }).link 3).offer ≠ none ∧
    ((linked { st := 5, offer := some [], myOffer := [1] }).link 3).myOffer ≠ [] := by
  and_intros <;> decide +kernel

theorem test_LinksComeUp_flits :
    ((linked { st := 2, coeffs := true, ctrl := 1 }).link 3).coeffs = true ∧ bitOf ((linked { st := 2, ctrl := 1 }).link 3).ctrl.toNat 0 = true ∧
    ((linked { st := 4 }).fecFlit 3 15).1 = false ∧ (linked {}).sec.linksReleased = false ∧
    (pk 0x70).z = false ∧ (let p : Packet := { pk 0x70 with data := List.replicate 256 0, len := 256, wlen := 256 };
      p.data.length = 256 ∧ p.len = 256 ∧ p.wlen = 256) ∧
    (let p : Packet := { pk 0x71 with data := List.replicate 64 0, len := 64, wlen := 64 };
      p.data.length = 64 ∧ p.len = 64 ∧ p.wlen = 64) ∧ ((linked { st := 5 }).link 3).st = 5 := by
  dsimp only; and_intros <;> decide +kernel

theorem test_PortsGoDownWithCause :
    ((linked { st := 6 }).link 3).st = 6 ∧ ((linked { st := 7 }).link 3).st = 7 ∧ 1 ≤ ((linked { st := 1 }).link 3).st ∧
    ((linked { st := 4 }).link 3).st ≤ 4 ∧ resetCode .chip = some 1 ∧ ((linked { st := 4 }).link 3).controls = true ∧
    ((linked { st := 7 }).link 3).controls = true ∧ ((linked { st := 4 }).fecFlit 3 0).1 = false ∧
    (linked {}).pageOn (Page.link 3) = true ∧ ((linked { encOn := true, txCount := 2 ^ 48 }).link 3).encOn = true ∧
    2 ^ 48 ≤ ((linked { encOn := true, txCount := 2 ^ 48 }).link 3).txCount.toNat ∧
    ((((linked { authFails := [0, 0] }).link 3).authFails.filter fun t => decide ((linked {}).age t ≤ usTb 1000)) ++ [(0 : W64)]).length < 4 ∧
    4 ≤ ((((linked { authFails := [0, 0, 0] }).link 3).authFails.filter fun t => decide ((linked {}).age t ≤ usTb 1000)) ++ [(0 : W64)]).length ∧
    ((linked { st := 6 }).link 3).st ≠ 0 ∧ ((linked { st := 6 }).link 3).st ≠ 8 ∧
    ((linked {}).reg (Page.link 3) Reg.KL_DOWN_COUNT).toNat < 0xFFFFFFFF := by
  and_intros <;> decide +kernel

theorem test_FlitsAreRetried_flits :
    ((linked { st := 6, rxSeq := 4095 }).link 3).carries = true ∧ flitCrcOk (flit 1 4095 0) = true ∧
    flitField (flit 1 4095 0) 0 4 = 1 ∧ flitField (flit 1 4095 0) 12 12 = ((linked { st := 6, rxSeq := 4095 }).link 3).rxSeq.toNat ∧
    flitField (flit 1 4095 0) 36 1 = 0 ∧ flitCrcOk (flit 1 4095 1) = false ∧
    ((linked { st := 6, rxSeq := 4095 }).link 3).nakSent = false ∧ ((linked { st := 7, nakSent := true }).link 3).nakSent = true ∧
    flitCrcOk (flit 0 0 0) = true ∧ flitField (flit 0 0 0) 0 4 = 0 := by
  and_intros <;> first | (rw [flit_crc]; decide) | decide +kernel

/-- A first flit of 15 and of 16 wrong symbols, one that begins in a bad codeword, and the third, half of it in each. -/
theorem test_FlitsAreRetried_codewords :
    ((linked { st := 6 }).link 3).rxPos = 0 ∧ ((linked { st := 6 }).fecFlit 3 15).1 = false ∧ ((linked { st := 6 }).fecFlit 3 16).1 = true ∧
    ((linked { st := 6, rxPos := 1, rxBad := true }).link 3).rxPos = 1 ∧ ((linked { st := 6, rxPos := 1, rxBad := true }).fecFlit 3 0).1 = true ∧
    ((linked { st := 6, rxPos := 2, rxBad := true }).fecFlit 3 0).1 = true ∧ fh.ackValid = false ∧
    (let h : FlitHead := { fh with ackValid := true, ack := 4095 }; h.ackValid = true ∧ h.ack = 4095) := by
  dsimp only; and_intros <;> decide +kernel

theorem test_FlitsAreRetried_replay :
    ((linked { st := 6, replay := [(4094, []), (4095, [])] }).link 3).replay = [(4094, [])] ++ (4095, []) :: [] ∧
    (∀ x ∈ [((4094 : BitVec 12), ([] : List Byte))], x.1 ≠ 4095) ∧
    (14 ≠ 0 ∧ ((linked { st := 6, replay := [(7, [])], replays := 14, replaySeq := 7 }).link 3).replaySeq = 7 ∧ 14 + 1 < 16) ∧
    (15 ≠ 0 ∧ ((linked { st := 6, replay := [(7, [])], replays := 15, replaySeq := 7 }).link 3).replaySeq = 7 ∧ 16 ≤ 15 + 1) := by
  and_intros <;> decide +kernel

theorem test_PacketsForwarded :
    ((linked { st := 6 }).link 3).encOn = false ∧ malformed 2 { pk 0x10 with len := 1, dst := 3 } = true ∧
    ({ pk 0x10 with dst := 3 } : Packet).dst.toNat ≠ (linked { st := 6 }).node ∧
    malformed 2 { pk 0x10 with len := 1 } = true ∧ (pk 0x10).dst.toNat = (linked { st := 6 }).node ∧
    malformed 2 { pk 0x10 with bgen := 1, operand := 4 } = false ∧ (linked { st := 6 }).genMismatch { pk 0x10 with bgen := 1, operand := 4 } = true ∧
    malformed 2 { pk 0x10 with hops := 31, dst := 3, operand := 256 } = false ∧ (linked { st := 6 }).genMismatch { pk 0x10 with hops := 31, dst := 3, operand := 256 } = false ∧
    (linked { st := 6 }).fab.known.contains 2 = true := by
  and_intros <;> decide +kernel

theorem test_PacketsForwarded_routes :
    Passes (linked { st := 6 }) 3 2 { pk 0x10 with dst := 2, hops := 30, operand := 1 } ∧ hopOnly 0x10 = false ∧
    ((linked { st := 6 }).route 2 < 4 ∧ (linked { st := 6 }).linkUp ((linked { st := 6 }).route 2) = true) ∧
    Passes (linked { st := 6 }) 3 2 { pk 0x10 with dst := 30, operand := 1 } ∧
    ¬ ((linked { st := 6 }).route 30 < 4 ∧ (linked { st := 6 }).linkUp ((linked { st := 6 }).route 30) = true) ∧
    Passes (linked { st := 6 }) 3 2 { pk 0x10 with dst := 31, operand := 256 } ∧ responseType 0x10 ≠ none ∧
    DeliveredToAll (linked { st := 6 }) 3 0 { pk 0x55 with dst := 31, len := 4, wlen := 4, data := [0, 0, 0, 0] } := by
  unfold DeliveredToAll Passes; and_intros <;> decide +kernel

theorem test_RequestsAnswered :
    Delivered (linked { st := 6 }) 3 2 { pk 0x10 with operand := 256 } ∧
    2 ≠ 7 ∧ Delivered (linked { st := 6 }) 3 7 { pk 0x10 with addr := BitVec.ofNat 64 (0x20000000000 + 0x27FFFFE0 % 0x8000000), operand := 32 } ∧
    Delivered (linked { st := 6 }) 3 2 { pk 0x11 with len := 1, wlen := 1, data := [0xFF] } ∧
    Delivered (linked { st := 6 }) 3 2 (pk 0x12) ∧
    Delivered (linked { st := 6 }) 3 2 { pk 0x13 with len := 8, wlen := 8, data := List.replicate 8 0 } ∧
    Delivered (linked { st := 6 }) 3 0 { pk 0x50 with src := 0, addr := 0x40000000000, operand := 4 } ∧
    regionOf 0x40000000000 = .regs 0 0 ∧
    Delivered (linked { st := 6 }) 3 0 { pk 0x51 with src := 0, len := 4, wlen := 4, data := [0, 0, 0, 0], addr := 0x40000000000 } ∧
    Delivered (linked { st := 6 }) 3 0 { pk 0x50 with operand := 256 } ∧ Delivered answering 3 0 { pk 0x52 with tag := 8191 } := by
  unfold Delivered Passes; and_intros <;> decide +kernel

theorem test_SemaphoresPushesAndResponses_semaphores :
    regionOf 0x42000000008 = .sem 1 0 ∧ Delivered (linked { st := 6 }) 3 2 (pk 0x14) ∧ Delivered (linked { st := 6 }) 3 2 (pk 0x15) ∧
    (pk 0x15).operand.toNat ≤ ((linked { st := 6 }).sem 1).toNat ∧ ((linked { st := 6 }).fab.waits.any fun w => w.sem == 1) = false ∧
    ([⟨1, 1, pk 0x15⟩].any fun (w : SemWaiter) => w.sem == 1) = true ∧
    (List.replicate 4095 (⟨1, 1, pk 0x15⟩ : SemWaiter)).length < 4096 ∧ Delivered (linked { st := 6 }) 3 2 (pk 0x16) := by
  unfold Delivered Passes; and_intros <;> decide +kernel

theorem test_SemaphoresPushesAndResponses_others :
    Delivered (linked { st := 6 }) 3 4 { pk 0x17 with len := 4, wlen := 4, data := [1, 2, 3, 4] } ∧
    pushedData { pk 0x17 with len := 4, wlen := 4, data := [1, 2, 3, 4] } = some [1, 2, 3, 4] ∧
    Delivered (linked { st := 6 }) 3 4 { pk 0x17 with z := true, len := 8, wlen := 4, data := [0, 0, 0, 0] } ∧
    pushedData { pk 0x17 with z := true, len := 8, wlen := 4, data := [0, 0, 0, 0] } = none ∧
    answering.tag 8191 = some { plainTag with core := some 0, ctx := some 0, kind := .ack } ∧
    (∀ t ∈ [32, 33, 34, 35], Delivered answering 3 3 { pk (BitVec.ofNat 8 t) with tag := 8191 }) := by
  unfold Delivered Passes; and_intros <;> decide +kernel

theorem test_NodesAreFoundAndLost_walks :
    (1 : W32).getLsbD 0 = true ∧ ({ linked { st := 6 } with sec := { boot := 4, bridgeEn := true } } : State).sec.bridgeEn = true ∧
    (linked { st := 6 }).fab.walk = none ∧ (linked { st := 6 }).fab.enumerated = true ∧
    DeliveredByHop (linked { st := 6 }) 3 0 (pk 0x60) ∧ DeliveredByHop { linked { st := 6 } with fab := { (linked { st := 6 }).fab with
      enumerated := false } } 3 0 { pk 0x60 with operand := 30 } ∧ ({ pk 0x60 with operand := 30 } : Packet).operand.toNat % 32 ≠ 31 ∧
    DeliveredByHop (linked { st := 6 }) 3 0 (pk 0x61) := by
  unfold DeliveredByHop Passes; and_intros <;> decide +kernel

/-- A walk of its own port 3 that an ENUM_DONE ends. -/
def walk3 : Walk := { next := 2, port := 3, upstream := none, tag := 0, startId := 2, overflow := false, keep := true }

theorem test_NodesAreFoundAndLost_done :
    (let s : State := { linked { st := 6 } with fab := { (linked { st := 6 }).fab with walk := some walk3 } }
     DeliveredByHop s 3 0 (pk 0x61) ∧ s.fab.walk = some walk3 ∧ walk3.port = 3 ∧ walk3.keep = true) := by
  unfold DeliveredByHop Passes; dsimp only; and_intros <;> decide +kernel

theorem test_NodesAreFoundAndLost_broadcasts :
    (∀ t ∈ [83, 84, 86], DeliveredToAll (linked { st := 6 }) 3 0 { pk (BitVec.ofNat 8 t) with dst := 31 }) ∧
    DeliveredToAll (linked { st := 6 }) 3 0 { pk 0x55 with dst := 31, len := 4, wlen := 4, data := [0, 0, 0, 0] } ∧
    (linked { st := 6 }).peerIsHost 3 = false ∧ (linked { st := 6 }).fab.hostActive = false ∧ ((linked { st := 7 }).link 3).st = 7 ∧
    malformed 0 { pk 0x56 with dst := 31 } = false ∧ (linked { st := 7 }).genMismatch { pk 0x56 with dst := 31 } = false ∧
    (0 < 31 ∧ 0 ≠ (linked {}).node) ∧ (30 < 31 ∧ 30 ≠ (linked {}).node) := by
  unfold DeliveredToAll Passes; and_intros <;> decide +kernel

theorem test_TimeSpreadsOverLinks :
    ((linked { st := 6, peer := some peerInfo }).link 3).peer = some peerInfo ∧
    ((linked { st := 6, peer := some peerInfo }).link 3).pdelayAt = none ∧
    ((linked { st := 6, peer := some peerInfo, pdelayAt := some 9 }).link 3).pdelayAt = some 9 ∧
    DeliveredByHop (linked { st := 6 }) 3 1 (pk 0x31) ∧ DeliveredByHop (linked { st := 6, pdelayT1 := some 0 }) 3 1 (pk 0x32) ∧
    ((linked { st := 6, pdelayT1 := some 0 }).link 3).pdelayT1 = some 0 ∧ Passes (linked { st := 6 }) 3 1 { pk 0x30 with dst := 31 } ∧
    (linked { st := 6 }).route 2 = 3 ∧ (linked { st := 6 }).time.syncSeen.contains 0 = false ∧
    (linked { st := 6 }).fld Page.timebase Reg.TB_CTRL 0 2 = 0 ∧
    ({ linked { st := 6 } with time := { syncSeen := [0] } } : State).time.syncSeen.contains 0 = true := by
  unfold DeliveredByHop Passes; and_intros <;> decide +kernel

/-! ### Premises: queues, commands and streams -/

/-- Device 1 with these queues. -/
def queues (l : SMap Queue) : State := { fab := { nodeId := 1 }, qm := { queues := l } }

theorem test_QueuesKeepTheirIndices_doorbells :
    ((queues [(32767, { valid := true, log2 := 1 })]).queue 32767).valid = true ∧ (2 ^ 32 - 1 : W64).toNat < 2 ^ 32 ∧
    (((2 : W64).setWidth 32 : W32) - 0).toNat ≤ ((queues [(32767, { valid := true, log2 := 1 })]).queue 32767).entries ∧
    ((queues [(32767, { valid := true, log2 := 1 })]).queue 32767).entries < (((3 : W64).setWidth 32 : W32) - 0).toNat ∧
    ((queues [(5, { valid := true, qtype := 4, log2 := 1, pi := 2 })]).queue 5).qtype = 4 ∧
    ((2 : W32) - 0).toNat ≤ ((queues [(5, { valid := true, qtype := 4, log2 := 1, pi := 2 })]).queue 5).entries ∧
    ((queues []).queue 0).valid = false := by
  and_intros <;> decide +kernel

theorem test_QueuesKeepTheirIndices_fires :
    (({ valid := true, irqEn := true, unsig := 1 } : Queue)).fires = true ∧
    (let x : Queue := { valid := true, irqEn := true, coalUs := 1, firstUnsig := some 9 };
      x.valid = true ∧ x.irqEn = true ∧ x.coalUs ≠ 0 ∧ x.firstUnsig = some 9) := by
  dsimp only; and_intros <;> decide +kernel

/-- A completion of queue 0 for completion queue 1. -/
def done : Completion :=
  { cq := 1, queue := 0, cmdId := 7, opcode := 0, status := 0, result0 := 0, result1 := 0, tDone := 0 }

theorem test_QueuesKeepTheirIndices_completions :
    (({ queues [(1, { valid := true })] with qm := { done := [done] } } : State).qm.done.find? fun c => c.queue == 0) = some done ∧
    done.cq = 1 ∧ ((queues [(1, { valid := true, qtype := 1, log2 := 1, ringAddr := 2 ^ 59 })]).queue 1).valid = true ∧
    (queues [(1, { valid := true, qtype := 1, log2 := 1, pi := 2 })]).noRoom 1 = true ∧
    (queues [(1, { valid := true, qtype := 1, log2 := 1, pi := 1 })]).noRoom 1 = false ∧
    (let s := queues [(1, { valid := true, qtype := 1, log2 := 1, pi := 1, ringAddr := 2 ^ 59 })];
      s.slotsOut 1 = 0 ∧ nodeOf ((s.queue 1).slotAddr (s.queue 1).pi.toNat) = s.node) := by
  dsimp only; and_intros <;> decide +kernel

theorem test_QueuesKeepTheirIndices_admin :
    (withRegs [(Page.queueMgr, Reg.QM_ADMIN_SHAPE, 0x1001)]).flag Page.queueMgr Reg.QM_ADMIN_CTRL 0 = false ∧ (1 : W32).getLsbD 0 = true ∧
    1 ≤ bitsOf 0x1001 0 5 ∧ bitsOf 0x1001 0 5 ≤ 16 ∧ 1 ≤ bitsOf 0x1001 8 5 ∧ bitsOf 0x1001 8 5 ≤ 16 ∧
    (withRegs [(Page.queueMgr, Reg.QM_ADMIN_SHAPE, 0x1001)]).ringOk 0 0 (64 * 2 ^ 1) = true ∧
    (withRegs [(Page.queueMgr, Reg.QM_ADMIN_SHAPE, 0x1001)]).ringOk 1 256 (32 * 2 ^ 16) = true := by
  and_intros <;> decide +kernel

theorem test_RegisterAndQueueCommandsComplete_registers :
    Starts {} (slot []) [] ∧ State.startable {} (slot []) = true ∧ ({ safety := { safe := true } } : State).safety.safe = true ∧
    (slot [1]).reserved [] = true ∧
    State.startable { qm := { inFlight := List.replicate 256 { queue := 0, cmdId := 0, opcode := 0, cq := 1 } } } (slot []) = false ∧
    (slot (leBytes 8 0x40000000000 ++ [4])).reserved [(0x08, 8), (0x10, 1)] = false ∧
    (queues []).cmdReg ((slot (leBytes 8 (2 ^ 59 + 0x40000000FF0) ++ [4])).nat 0x08 8)
      ((slot (leBytes 8 (2 ^ 59 + 0x40000000FF0) ++ [4])).nat 0x10 1) = some (0, 0xFF0) ∧
    (1 ≤ (slot (leBytes 8 0 ++ [1])).nat 0x10 1 ∧ (slot (leBytes 8 0 ++ [4])).nat 0x10 1 ≤ 4) ∧
    Starts (queues []) (slot (leBytes 8 (2 ^ 59 + 0x40000000FFC) ++ leBytes 8 5)) [(0x08, 8), (0x10, 4), (0x14, 4)] ∧
    (queues []).cmdReg ((slot (leBytes 8 (2 ^ 59 + 0x40000000FFC))).nat 0x08 8) 1 = some (0, 0xFFC) ∧
    (queues []).regDenied false 0 0 0xFFC 4 = false := by
  unfold Starts; and_intros <;> decide +kernel

/-- QUEUE_CREATE of queue `q`: a completion queue of 2 entries at address 0 of device 1. -/
def createCq (q : Nat) : CmdSlot := slot (leBytes 2 q ++ [1, 1, 1, 0, 0, 0] ++ leBytes 8 (2 ^ 59))

theorem test_RegisterAndQueueCommandsComplete_queues :
    Starts (queues []) (createCq 32767) [(0x08, 2), (0x0A, 1), (0x0B, 1), (0x0C, 1), (0x0D, 1), (0x0E, 1), (0x0F, 1), (0x10, 8),
      (0x18, 2), (0x1A, 2)] ∧ (createCq 32767).nat 0x08 2 = 32767 ∧ (createCq 0xFFFF).nat 0x08 2 = 0xFFFF ∧
    (queues []).freeQueue = 0 ∧ (queues []).freeQueue ≠ 32768 ∧ ((queues []).queue 32767).valid = false ∧
    ((queues [(2, { valid := true })]).queue 2).valid = true ∧ Starts (queues [(2, { valid := true })]) (slot [2]) [(0x08, 2)] ∧
    (queues [(2, { valid := true })]).queueBound 2 = false ∧
    (queues [(2, { valid := true, qtype := 1 }), (3, { valid := true, cq := 2 })]).queueBound 2 = true := by
  unfold Starts; and_intros <;> decide +kernel

theorem test_RegisterAndQueueCommandsComplete_create : (queues []).newQueueOk (createCq 32767) = true := by decide +kernel

theorem test_RegisterAndQueueCommandsComplete_fetch :
    (let s := queues [(32767, { valid := true, log2 := 1, pi := 1, cq := 1, ringAddr := 2 ^ 59 })]
     let r := State.fetchBytes { s with qm := { s.qm with lastFetch := 32767 } } ((s.queue 32767).slotAddr 0) 64 none_
     s.fetchTurn = some 32767 ∧ r.1 = 0 ∧ r.2.2.startable (slotOf 32767 r.2.1) = true) ∧
    (let s := queues [(3, { valid := true, log2 := 1, pi := 1, cq := 1 }), (5, { valid := true, log2 := 1, pi := 1, cq := 1 })]
     State.fetchTurn { s with qm := { s.qm with lastFetch := 3 } } = some 5 ∧
     State.fetchTurn { s with qm := { s.qm with lastFetch := 5 } } = some 3) := by
  dsimp only; and_intros <;> decide +kernel

/-- Context CTX63 in a state, with generation 5. -/
def ctx63 (st : CtxState) : State := { ctxs := [(63, { st := st, gen := 5 })] }

theorem test_ContextCommandsComplete :
    Starts (ctx63 .free) (slot ([63, 0, 2, 7, 0] ++ List.replicate 35 0)) [(0x08, 1), (0x09, 1), (0x0A, 1), (0x0B, 1), (0x0C, 1),
      (0x10, 32), (0x30, 4)] ∧
    ((slot [63, 0, 2, 7]).nat 0x08 1 = 63 ∧ (slot [63, 0, 2, 7]).nat 0x0A 1 ≤ 2 ∧ (slot [63, 0, 2, 7]).nat 0x0B 1 ≤ 7) ∧
    ((slot [0xFF, 0, 1, 7, 3]).nat 0x08 1 = 0xFF ∧ (slot [0xFF, 0, 1, 7, 3]).nat 0x0C 1 ≤ 3 ∧ (ctx63 .free).freeCtx < 64) ∧
    ((ctx63 .free).ctx 63).st = .free ∧
    (let s : State := { qm := { imageState := 2, image := some { sections := [{ section_ := 0, cores := 1, entry := [0] }] } } }
     s.qm.imageState = 2 ∧ (s.section_ 0).isSome = true ∧ s.classOk 0 2 7 = true ∧ s.saveOk 0 2 4193280 = true) := by
  unfold Starts; dsimp only; and_intros <;> decide +kernel

theorem test_ContextCommandsComplete_named :
    NamesCtx (ctx63 .stopped) (slot [63, 5]) 63 ∧ ((ctx63 .stopped).ctx 63).st = .stopped ∧ NamesCtx (ctx63 .quenched) (slot [63, 5]) 63 ∧
    ((ctx63 .quenched).ctx 63).st = .quenched ∧ NamesCtx (ctx63 .running) (slot [63, 5]) 63 ∧ ((ctx63 .running).ctx 63).st = .running ∧
    (((ctx63 .running).streamsOf 63).all fun i => ((ctx63 .running).stream i).st == 2) = true ∧ (ctx63 .running).patternStopped = true ∧
    (ctx63 .stopped).streamsOf 63 = [] ∧
    Starts (ctx63 .stopped) (slot [63, 4]) [(0x08, 1), (0x09, 1)] ∧
    (slot [63, 4]).nat 0x09 1 ≠ ((ctx63 .stopped).gen ((slot [63, 4]).nat 0x08 1)).toNat := by
  unfold NamesCtx Starts; and_intros <;> decide +kernel

theorem test_LoadCommandsComplete :
    Starts {} (slot (leBytes 8 0 ++ leBytes 8 256)) [(0x08, 8), (0x10, 8)] ∧ ({} : State).qm.imageState = 0 ∧
    ({} : State).ctxs.all (fun e => e.2.st == .free) = true ∧
    Starts {} (slot [15, 255]) [(0x08, 1), (0x09, 1), (0x10, 8)] ∧ (slot [15, 255]).nat 0x08 1 ≤ 15 ∧
    (BitVec.ofNat 64 ((slot [15, 255]).nat 0x10 8)).toNat % 16 = 0 ∧
    ((linked { st := 6 }).fetchContainer (2 ^ 60) 256 none_).1 = 0 ∧ ((linked { st := 6 }).fetchBytes (2 ^ 60) 16 none_).1 = 0 ∧
    (((linked { st := 6 }).fetchBytes (2 ^ 60) 16 none_).2.2.fetchBytes (2 ^ 60) 16 none_).1 = 0 ∧
    Starts {} (slot (leBytes 8 0 ++ leBytes 2 511 ++ leBytes 2 1)) [(0x08, 8), (0x10, 2), (0x12, 2)] ∧ 0 < 1 ∧ 511 + 1 ≤ 512 ∧
    ({} : State).pattern.pendingSwitch = false ∧ ((linked { st := 6 }).fetchBytes (2 ^ 60) (16 * 1) none_).1 = 0 ∧ Starts {} (slot []) [] ∧
    ({} : State).bankCheck (!({} : State).pattern.bank) 0 0 0 512 = none ∧ (slot []).reserved [(0x08, 8), (0x10, 8)] = false ∧
    (slot []).nat 0x08 8 = 0 ∧ ({} : State).hang.dumping = none := by
  unfold Starts; and_intros <;> decide +kernel

/-- Stream S2047 in this condition. -/
def stream2047 (x : Stream) : State := { streams := [(2047, x)] }

/-- A waiting command of a stream, for a record at address 256 of a node. -/
def waits (op node : Nat) : StreamCmd :=
  { op := op, queue := 0, cmdId := 7, record := BitVec.ofNat 64 (2 ^ 59 * node + 256), mark := 0, bar := 0 }

/-- An open for CTX0 of a stream whose two ends are queues, with one frame a chunk. -/
def open0 : CmdSlot := slot (leBytes 4 0 ++ leBytes 4 0x10000 ++ leBytes 4 0x10000 ++ leBytes 4 0 ++ leBytes 4 0x10001)

theorem test_StreamCommandsAndEventsAct_commands :
    Starts (ctx63 .stopped) open0 [(0x08, 48)] ∧ open0.openReserved = false ∧
    (State.openStream { ctxs := [(0, { st := .stopped })] } open0.openArgs).1 = 0 ∧
    (slot (leBytes 2 2047)).nat 0x08 2 = 2047 ∧ ((stream2047 { st := 1 }).stream 2047).st ≠ 0 ∧
    Starts (stream2047 { st := 1 }) (slot (leBytes 2 2047)) [(0x08, 2)] ∧
    Starts (stream2047 { st := 1 }) (slot (leBytes 2 2047 ++ List.replicate 6 0 ++ leBytes 8 256)) [(0x08, 2), (0x10, 8)] ∧
    (slot (leBytes 2 2047 ++ List.replicate 6 0 ++ leBytes 8 256)).nat 0x10 8 % 256 = 0 ∧
    Starts (stream2047 { st := 1, chunkFrames := 2, hopFrames := 1 }) (slot (leBytes 2 2047 ++ [0, 0, 1, 0]))
      [(0x08, 2), (0x0A, 1), (0x0C, 2), (0x10, 8)] ∧
    (slot (leBytes 2 2047 ++ [0, 0, 1, 0])).nat 0x0A 1 = 0 ∧
    (slot (leBytes 2 2047 ++ [0, 0, 1, 0])).nat 0x0C 2 < ((stream2047 { chunkFrames := 2, hopFrames := 1 }).stream 2047).recFrames ∧
    ((stream2047 { st := 1 }).stream 2047).resetPending = false ∧ ((stream2047 { resetPending := true }).stream 2047).resetPending = true ∧
    ((stream2047 {}).stream 2047).st = 0 := by
  unfold Starts; and_intros <;> decide +kernel

theorem test_StreamCommandsAndEventsAct_lists :
    (({ ctxs := [(63, { st := .running, cutoff := some 5 })] } : State).ctx 63).cutoff = some 5 ∧
    (({ ctxs := [(63, { st := .running, cutoff := some 5 })] } : State).ctx 63).listReady = none ∧
    ({ ctxs := [(63, { st := .running, cutoff := some 5 })] } : State).readsOpen 63 = false ∧
    (State.agentDone (State.writeLists { ctxs := [(63, { st := .running, cutoff := some 5 })] } 63 0 5) Page.streams 63).isBE 63 = false ∧
    ({ pattern := { exportBar := some 0 } } : State).pattern.exportBar = some 0 := by
  and_intros <;> decide +kernel

/-- S2047 with a due park, its record for this node, in the first channel group that partition 0 may use. -/
def parks : State :=
  { withRegs [(Page.pattern, Reg.PART_MEM, 1)] with streams := [(2047, { st := 3, due := true, waiting := [waits 0x43 31] })] }

theorem test_StreamCommandsAndEventsAct_parks :
    (parks.stream 2047).waiting = waits 0x43 31 :: [] ∧ (parks.stream 2047).st = 3 ∧ (parks.stream 2047).due = true ∧
    parks.stepsDone (parks.stream 2047) = true ∧
    (parks.writeGlobal (.ctx 0) 6 (waits 0x43 31).record (parks.parkRecord 2047 0)).1 = 0 ∧ nodeOf (waits 0x43 31).record = parks.node ∧
    (let s := stream2047 { st := 3, due := true, waiting := [waits 0x43 2] }
     (s.writeGlobal (.ctx 0) 6 (waits 0x43 2).record (s.parkRecord 2047 0)).1 ≠ 0) ∧
    (let s : State := { linked { st := 6 } with streams := [(2047, { st := 3, due := true, waiting := [waits 0x43 2] })] }
     let r := s.writeGlobal (.ctx 0) 6 (waits 0x43 2).record (s.parkRecord 2047 0)
     (s.stream 2047).waiting = waits 0x43 2 :: [] ∧ r.1 = 0 ∧ nodeOf (waits 0x43 2).record ≠ r.2.node) := by
  dsimp only; and_intros <;> decide +kernel

/-- S2047 with a due unpark from node 2, and a record of it without slots. -/
def unparks : State := { linked { st := 6 } with streams := [(2047, { st := 4, due := true, waiting := [waits 0x44 2] })] }

/-- A park record's head of stream `i`. -/
def record0 (i : Nat) : Fetched := { status := 0, bytes := leBytes 2 1 ++ leBytes 2 i ++ List.replicate 28 0 }

theorem test_StreamCommandsAndEventsAct_unparks :
    (unparks.stream 2047).waiting = waits 0x44 2 :: [] ∧ (unparks.stream 2047).st = 4 ∧ (unparks.stream 2047).due = true ∧
    (unparks.readRecord 2047 (waits 0x44 2).record { status := 2, bytes := [] } 0 32).1 ≠ 0 ∧
    (∀ i ∈ [2046, 2047],
      let r := unparks.readRecord 2047 (waits 0x44 2).record (record0 i) 0 32
      let q := r.2.2.readRecord 2047 (waits 0x44 2).record (record0 i) 0 (parkHeadBytes r.2.1)
      r.1 = 0 ∧ q.1 = 0 ∧ (q.2.2.allocIn (q.2.2.mirroredSection 0) ((parkDescs q.2.1).map fun d => (d.1, d.2.1)).eraseDups) = some [] ∧
      q.2.2.parkMatches 2047 q.2.1 = (i == 2047) ∧
      (q.2.2.readRecord 2047 (waits 0x44 2).record (record0 i) (parkHeadBytes q.2.1) 0).1 = 0) ∧
    unparks.allocIn false [(31, 15)] = none := by
  dsimp only; and_intros <;> decide +kernel

theorem test_StreamCommandsAndEventsAct_outputs :
    (let o : OutCommit := { ok := true, cause := 0, tBar := 0, tFirst := 0, payload := [1] }
     let s := stream2047 { outNode := 31, outBufBase := 31 * 2 ^ 59, outCommits := [o] }
     (s.stream 2047).outCommits = [o] ∧ (s.stream 2047).outNode = s.node ∧ nodeOf (31 * 2 ^ 59) = s.node ∧ s.pair.st ≠ 2 ∧ o.payload ≠ []) := by
  dsimp only; and_intros <;> decide +kernel

/-! ### Premises: pair, safety, resets, boot, security, power, pages -/

theorem test_PairConfigurationActs :
    (withRegs []).locked Page.mirror = false ∧ (0x101 : W32).getLsbD 0 = true ∧
    (let w := bitsOf (0x7FF79 : W32).toNat 0 7 + 256 * bitsOf (0x7FF79 : W32).toNat 8 11
     (0x7FF79 : W32).getLsbD 0 = true ∧ bitsOf w 2 5 = 30 ∧ (withRegs []).node = 31 ∧ bitsOf w 8 11 = 2047) ∧
    (withRegs []).pairOn = false ∧ (withRegs [(Page.mirror, Reg.MR_CTRL, 0x7FF79)]).pairOn = true ∧
    (let w := bitsOf (0x7D : W32).toNat 0 7 + 256 * bitsOf (0x7D : W32).toNat 8 11
     bitsOf w 2 5 = 31) ∧
    (List.replicate 16 (0xFFFFFFFF : W32)).length = 16 ∧
    (withRegs []).ownHalf.1 ≤ bitsOf (0x7FE00000 : W32).toNat 21 11 ∧ bitsOf (0x7FE00000 : W32).toNat 21 11 < (withRegs []).ownHalf.2 ∧
    ¬ ((withRegs [(Page.mirror, Reg.MR_CTRL, 0x7FF79)]).ownHalf.1 ≤ bitsOf (0xFFE00000 : W32).toNat 21 11 ∧
      bitsOf (0xFFE00000 : W32).toNat 21 11 < (withRegs [(Page.mirror, Reg.MR_CTRL, 0x7FF79)]).ownHalf.2) ∧
    ((withRegs []).stream (bitsOf (2047 : W32).toNat 0 11)).st = 0 ∧
    ((stream2047 { st := 2 }).stream (bitsOf (2047 : W32).toNat 0 11)).st ≠ 0 := by
  dsimp only; and_intros <;> decide +kernel

/-- An enabled pair with node 2, in this condition. -/
def paired (x : Pair) : State := { withRegs [(Page.mirror, Reg.MR_CTRL, 0x109), (Page.fabric, Reg.FB_ROUTE + 8, 3), (Page.fabric, Reg.FB_PEER + 8, 256)] with
    pair := x, fab := (linked { st := 6 }).fab, sec := { boot := 4 } }

theorem test_PartnerIsWatched :
    Delivered (paired {}) 3 5 { pk 0x40 with len := 4096, wlen := 1, z := true, data := [0] } ∧ Delivered (paired {}) 3 5 (pk 0x41) ∧ (paired {}).pairOn = true ∧
    (pk 0x41).src.toNat = (paired {}).partner ∧ bitsOf (bitsOf (pk 0x41).operand.toNat 32 32) 8 8 = (paired {}).peerBgen (paired {}).partner ∧
    bitsOf (pk 0x41).operand.toNat 0 32 = (paired {}).pair.rxK % 2 ^ 32 ∧ bitOf (bitsOf (pk 0x41).operand.toNat 32 32) 1 = false ∧
    (let p : Packet := { pk 0x41 with operand := 2 ^ 33 }; bitOf (bitsOf p.operand.toNat 32 32) 1 = true) ∧
    ({ safety := { armed := true } } : State).safety.armed = true ∧ ({ safety := { armed := true } } : State).safety.safe = false ∧
    (paired { pinToll := true, linkToll := true }).pair.linkToll = true ∧ (paired { missRun := 2 }).pair.missRun = 2 ∧
    (paired { missRun := 2 }).pair.pinToll = false ∧ (paired { missRun := 2 }).pair.linkToll = false ∧
    (paired { missRun := 2 }).pair.st ≠ 2 ∧ (paired { sensing := true }).pair.sensing = true ∧
    bitOf ((withRegs [(Page.mirror, Reg.MR_TAKEOVER_PORTS, 0x800)]).fld Page.mirror Reg.MR_TAKEOVER_PORTS 0 14) 11 = true := by
  unfold Delivered Passes; dsimp only; and_intros <;> decide +kernel

theorem test_PartnerIsWatched_windows :
    (paired {}).tollNow = (paired {}).pair.rxK ∧ ({ paired {} with time := { tb := 2560000000 } } : State).tollNow ≠ 0 ∧ 2000 ≤ 2000 ∧
    1999 < 2000 ∧
    (let s : State := { withRegs [(Page.mirror, Reg.MR_TAKEOVER_PORTS, 1), (Page.audio 0, Reg.AP_CLK, 1)] with pair := { sensing := true } }
     s.pair.sensing = true ∧ s.senses = true) ∧ (true && (paired { sensing := true }).senses) = false := by
  dsimp only; and_intros <;> decide +kernel

theorem test_SafetyMechanismsAct :
    (withRegs [(Page.safety, Reg.SF_CLASS, 2 * 2 ^ 30)]).mechClass 15 = 2 ∧ (runs {}).mechClass 0 = 3 ∧
    (withRegs [(Page.safety, Reg.SF_CLASS, 0)]).mechClass 15 = 0 ∧ ((runs {}).ctx 0).st = .running ∧ (7 : Fin 9).val ≠ 8 ∧
    ((withRegs [(Page.clocks, Reg.CK_LOSS_COUNT, 0xFFFFFFFE)]).reg Page.clocks Reg.CK_LOSS_COUNT).toNat < 0xFFFFFFFF ∧
    ({ safety := { safeDue := true } } : State).safety.safeDue = true ∧ ({ safety := { safeDue := true } } : State).safety.safe = false ∧
    ({} : State).locked Page.safety = false ∧ ({} : State).safety.armed = false := by
  and_intros <;> decide +kernel

/-- Ring 12 with a committed and a played check value for slot 7 of channel 15, watched by pair 15 of SF_E2E. -/
def watched (a b : W32) : State :=
  { withRegs [(Page.safety, Reg.SF_E2E + 120, 1 + 2 * 12 + 64 * 15), (Page.audioBuf, Reg.RING_SHAPE + 192, 2 ^ 4 + 2 ^ 13),
      (Page.audioBuf, Reg.RING_SLOT + 192, 4)] with
    audio := { ports := [(0, { taken := 32, playCrc := [(15, some b)] })], rings := [(12, { commitCrc := [(127, some a)] })] } }

theorem test_SafetyMechanismsAct_paths :
    (let s := watched 5 5
     let v := (s.reg Page.safety (Reg.SF_E2E + 8 * 15)).toNat
     bitOf v 0 = true ∧ bitsOf v 1 5 = 12 ∧ bitsOf v 6 4 = 15 ∧ ringIsOut 12 = true ∧ 0 < (s.ringShape 12).slot ∧ (s.ringShape 12).slot ≤ (s.port (ringPort 12)).taken ∧
     (s.port (ringPort 12)).taken = 32 ∧ (s.port (ringPort 12)).unmarked = false ∧
     SMap.get (s.ring 12).commitCrc (16 * (32 / 4 - 1) + 15) none = some 5 ∧ SMap.get (s.port (ringPort 12)).playCrc 15 none = some 5) ∧
    SMap.get ((watched 5 6).port (ringPort 12)).playCrc 15 none = some 6 := by
  dsimp only; and_intros <;> decide +kernel

theorem test_SafetyMechanismsAct_copies :
    (let s := withRegs [(Page.safety, Reg.PG_LOCK, 1), (Page.safety, Reg.SF_E2E + 120 + 0x800, 0xFFFFFFFF)]
     s.locked (comparePair 19).1 = true ∧ s.reg (comparePair 19).1 (comparePair 19).2 = ~~~ s.reg (comparePair 19).1 ((comparePair 19).2 + 0x800)) := by
  dsimp only; and_intros <;> decide +kernel

/-- Hang monitoring in this condition, with HG_CTRL at `v`. -/
def hung (v : W32) (h : Hang) : State := { withRegs [(Page.hang, Reg.HG_CTRL, v)] with hang := h }

theorem test_HangsReplayAndDumpRun_resets :
    (hung 1 {}).flag Page.hang Reg.HG_CTRL 0 = true ∧ (hung 0 {}).flag Page.hang Reg.HG_CTRL 0 = false ∧
    (hung 1 {}).waitHung { kind := 5, core := 0, engine := 0, ctx := none, start := 0, prog := 0, obj := 0 } = false ∧
    (hung 0 { level := 1, due := (31, 2) }).hang.lastEngineReset = [] ∧ (hung 0 { level := 1, due := (31, 2) }).hang.level = 1 ∧
    (hung 0 { level := 1, due := (31, 2) }).hang.due = ((31 : CoreId).val, 2) ∧ (hung 0 { level := 1, due := (31, 2) }).hang.more = [] ∧
    (hung 0 { level := 1, due := (31, 1) }).hang.due = ((31 : CoreId).val, 1) ∧
    (hung 2 { level := 2, due := (7, 0) }).hang.due = ((7 : Fin 8).val, 0) ∧ (hung 2 { level := 2, due := (7, 0) }).hang.more = [] ∧
    (hung 2 { level := 2 }).hang.level = 2 ∧ (hung 2 { level := 2 }).flag Page.hang Reg.HG_CTRL 1 = true ∧
    (hung 0 { level := 2 }).flag Page.hang Reg.HG_CTRL 1 = false ∧ (hung 0 { level := 3 }).hang.level = 3 ∧
    (let s : State := { withRegs [(Page.pattern, Reg.PART_CORES + 112, 0x80000000)] with hang := { level := 1, due := (31, 2) } }
     s.hang.due.2 ≠ 6 ∧ s.partOf s.hang.due.1 = some 7 ∧ bitOf (s.reg Page.pattern (Reg.PART_CORES + 16 * 7)).toNat 31 = true) ∧
    (let h : Hang := { level := 3, due := (1, 0), dueSince := [((3, 1, 0), 5)] }
     (h.dueSince.find? fun e => e.1 == (h.level, h.due)) = some ((3, 1, 0), 5)) := by
  dsimp only; and_intros <;> decide +kernel

/-- A dump for DEST with these writes under way. -/
def dump (dest : W64) (sent : Option (Nat × Nat × Nat)) : DumpJob :=
  { cmd := some (5, 9), dest := dest, limit := 0, start := 0, sel := 0, destFailed := false, trigger := 0, serial := 0, sent := sent }

theorem test_HangsReplayAndDumpRun_replay :
    (let s : State := { hung 4 { suspects := [63] } with ctxs := [(63, { st := .quenched })], pattern := { run := true, running := true } }
     s.replayTurn = true ∧ s.hang.suspects.contains 63 = true ∧
     (s.ctx 63).st = .quenched ∧ ∀ m, m < 63 → s.hang.suspects.contains m = false ∨ (s.ctx m).st ≠ .quenched) ∧
    (hung 0 { replaying := some (63, false) }).hang.replaying = some (63, false) := by
  dsimp only; and_intros <;> decide +kernel

theorem test_HangsReplayAndDumpRun_dumps :
    (hung 0 { dumping := some (dump 0 none) }).hang.dumping = some (dump 0 none) ∧ (dump 0 none).sent = none ∧ (dump 0 none).dest = 0 ∧
    nodeOf (dump (2 ^ 60) none).dest ≠ (linked { st := 6 }).node ∧ (linked { st := 6 }).refuseRequest (nodeOf (dump (2 ^ 60) none).dest) = none ∧
    (dump 0 (some (3, 64, 0))).sent = some (3, 64, 0) ∧ (dump 0 (some (3, 64, 1))).sent = some (3, 64, 0 + 1) ∧
    ¬ (0x460 ≤ 0x464 ∧ 0x464 < 0x464) ∧ (hung 0 {}).hang.deadUnits.contains 0x464 = false ∧
    (hung 0 { deadUnits := [0x464] }).hang.deadUnits.contains 0x464 = true := by
  and_intros <;> decide +kernel

theorem test_ResetPinsAct :
    ({} : State).pins.poreset = false ∧ ({ pins := { pwrgd := true } } : State).pins.pwrgd = true ∧ ({ pins := { pwrgd := false } } : State).pins.pwrgd = false ∧
    ({ pins := { poreset := true, held := true } } : State).pins.held = true ∧ ({} : State).pins.held = false ∧
    ({ pins := { poreset := true, wreset := true } } : State).pins.wreset = true ∧ (3 : Fin 4).val ≠ 2 ∧
    ({ pins := { poreset := true, wreset := false } } : State).pins.wreset = false ∧
    (∀ k : Fin 8, (railRange k).1 - 1 < (railRange k).1 ∧ (railRange k).2 < (railRange k).2 + 1 ∧ (railRange k).1 ≤ (railRange k).2) := by
  and_intros <;> decide +kernel

theorem test_BootVerifies :
    ({ sec := { trngStartup := true, bootSrc := 1 } } : State).sec.boot = 0 ∧
    ({ sec := { trngStartup := true, bootSrc := 1 } } : State).sec.bootSrc.toNat < 2 ∧
    ({ sec := { trngStartup := true, bootSrc := 1 } } : State).sec.copy = 0 ∧
    ({ sec := { trngStartup := true, bootSrc := 1 } } : State).sec.trngStartup = true ∧ ({ sec := { boot := 1 } } : State).sec.boot = 1 ∧
    ({} : State).sec.boot ≠ 1 ∧
    (let s : State := { sec := { boot := 3 }, mem := { trained := List.range 8, failed := (List.range 8).map (· + 8) } }
     s.sec.boot = 3 ∧ (∀ ch, ch < 16 → s.mem.trained.contains ch = true ∨ s.mem.failed.contains ch = true) ∧
     s.locked Page.safety = false ∧ s.safety.safe = false ∧ s.sec.fwAdvance = false) := by
  dsimp only; and_intros <;> decide +kernel

/-- A device with these fuses. -/
def fused (f : Fuses) : State := { sec := { fuses := f } }

theorem test_SecurityCommandsAct_fuses :
    (1 : NodeId).val ≠ 0 ∧ bitsOf (0x5A000018 : W32).toNat 24 8 = 0x5A ∧ bitsOf (0x5A000018 : W32).toNat 3 5 = 3 ∧
    (fused { signerPerm := [(0, 1)] }).sec.fwSigner.toNat ≠ 3 ∧
    (∃ j, j < 4 ∧ j ≠ 3 ∧ (fused { signerPerm := [(0, 1)] }).sec.fuses.revoked j = false ∧
      bitOf ((fused { signerPerm := [(0, 1)] }).sec.fuses.perm j) 0 = true) ∧
    bitsOf (0x5A000018 : W32).toNat 3 5 = ({ sec := { fwSigner := 3 } } : State).sec.fwSigner.toNat ∧
    bitsOf (0x5A000250 : W32).toNat 3 5 = 10 ∧ bitsOf (0x5A000250 : W32).toNat 8 8 = (fused { lifecycle := 1 }).sec.fuses.lifecycle + 1 ∧
    (fused { lifecycle := 1 }).sec.fuses.lifecycle ≤ 1 ∧ bitsOf (0x5A000350 : W32).toNat 8 8 ≠ (fused { lifecycle := 1 }).sec.fuses.lifecycle + 1 ∧
    bitsOf (0x5A000000 : W32).toNat 3 5 ≠ 10 ∧ (fused { lifecycle := 1 }).sec.fuses.lifecycle ≠ 0 := by
  refine ⟨?_, ?_, ?_, ?_, ⟨0, ?_⟩, ?_⟩ <;> and_intros <;> decide +kernel

theorem test_SecurityCommandsAct_keys :
    ({} : State).slotInUse (bitsOf (15 : W32).toNat 0 4) = false ∧ (fused {}).sec.fuses.lifecycle ≠ 2 ∧ ({} : State).sec.trngFail = false ∧
    (withRegs [(Page.cache, Reg.PR_CTRL + 240, 1 + 2 * 15)]).slotInUse (bitsOf (15 : W32).toNat 0 4) = true ∧
    ({} : State).sec.dbgLocked = false ∧ (∀ p, p < 4 → (({} : State).link p).st ≠ 5) := by
  and_intros <;> decide +kernel

theorem test_FusesOnlyAdvance :
    exec (.fuseProgram 0 0x5A000150) (fused {}) = .next (fused { lifecycle := 1 }) := by rfl

/-- Power domain `d` in this state, of a device with these other domain states. -/
def domain (d st : Nat) : State := { power := { dom := [(d, st)] } }

theorem test_PowerDomainsFollow_domains :
    (domain 79 2).domState 79 = 2 ∧ (domain 79 0).domState 79 = 0 ∧ (domain 79 0).power.waiting.contains 79 = false ∧
    (domain 79 0).startingCount < 4 ∧
    ({ power := { dom := [(0, 1), (1, 1), (2, 1), (3, 1), (79, 0)] } } : State).startingCount = 4 ∧
    State.downRefused { withRegs [(Page.pattern, Reg.PART_CORES, 1)] with ctxs := [(0, { st := .stopped })] } 0 = true ∧
    ({} : State).downRefused 0 = false ∧ (domain 79 1).domState 79 = 1 ∧
    (State.setFlag (domain 79 1) Page.power (Reg.PW_DOM_CTRL + 4 * 79) 0 true).flag Page.power (Reg.PW_DOM_CTRL + 4 * 79) 0 = true ∧
    (domain 79 1).power.waiting = [] ∧ (domain 79 3).domState 79 = 3 ∧ (domain 79 3).upPending 79 = false ∧
    (pagesOf 79).all (domain 79 3).blockOff = true := by
  and_intros <;> decide +kernel

theorem test_PowerDomainsFollow_points :
    [1, 2, 3, 4, 5, 6, 7, 8, 9].length < 10 * max 1 (({} : State).fld Page.power Reg.PW_LIMIT 16 7) ∧
    10 * max 1 ((withRegs [(Page.power, Reg.PW_LIMIT, 0)]).fld Page.power Reg.PW_LIMIT 16 7) ≤ [1, 2, 3, 4, 5, 6, 7, 8, 9, 10].length ∧
    ({ pattern := { running := true } } : State).patternStopped = false ∧
    (let s : State := { power := { throttle := true, op := 4 } }; s.power.throttle = true ∧ s.power.op < s.opFloor) := by
  dsimp only; and_intros <;> decide +kernel

theorem test_PageAndTapAccessesAct_page :
    pageKind 0x3BF = none ∧ pageKind Page.mirror ≠ none ∧ ({} : State).pageOn Page.mirror = true ∧
    ({} : State).locked Page.mirror = false ∧ Page.mirror ≠ Page.queueMgr ∧ (({} : State).readsOn Page.timebase) = true := by
  and_intros <;> decide +kernel

theorem test_PageAndTapAccessesAct_descriptors :
    ({} : State).pageOn (Page.port 31) = true ∧ ({} : State).locked (Page.port 31) = false ∧
    ((withRegs [(Page.port 31, Reg.PG_LOCK, 1)]).locked (Page.port 31)) = true ∧
    (withRegs [(Page.port 31, Reg.ST_REGION_SHAPE + 240, 4096)]).regionLegal 31 15 = true ∧ ((withRegs [(Page.port 31, Reg.ST_REGION_SHAPE + 240, 0x1FFFFF)]).regionLegal 31 15 = false) ∧
    (∃ k, pageKind Page.pattern = some k ∧ simpleBlock k = true ∧ ({} : State).pageOn Page.pattern = true ∧
      ({} : State).flag Page.pattern Reg.PG_CTRL 2 = false) ∧
    (∃ k, pageKind Page.pattern = some k ∧ alwaysOn k = false) ∧ (domain 0 0).pageOn (Page.ctrl 0) = false := by
  refine ⟨?_, ?_, ?_, ?_, ?_, ⟨.pattern, ?_⟩, ⟨.pattern, ?_⟩, ?_⟩ <;> and_intros <;> decide +kernel

theorem test_PageAndTapAccessesAct_tap :
    ({} : State).sec.boot ≠ 4 ∧ nodeOf 0 ≠ (fused {}).node ∧ (linked {}).sec.boot = 4 ∧ nodeOf (2 ^ 59) = (linked {}).node := by
  and_intros <;> decide +kernel

theorem test_DebugNeedsGrant : ({} : State).sec.levels = 0 ∧ ∀ off, regionOf (localOf 0x40000FFFFFC) ≠ .regs Page.security off := by
  refine ⟨rfl, fun off h => ?_⟩
  have e : regionOf (localOf 0x40000FFFFFC) = .none := by decide +kernel
  rw [e] at h; cases h

theorem test_ReservedPagesReadZero :
    ReservedPage 0x014 ∧ ReservedPage 0x0FF ∧ ReservedPage (0x100 + 16 * 31 + 15) ∧ ReservedPage 0x398 ∧ ReservedPage 0x3BF ∧
    ¬ 0x3BF < 0x3BF ∧ 0x3BF < 0x3C0 ∧ 0x3C0 < 0x1000000 ∧ 4095 < 4096 ∧ (4092 + [0, 0, 0, (0 : Byte)].length ≤ 4096) := by
  unfold ReservedPage
  refine ⟨.inl ?_, .inl ?_, .inr (.inl ⟨31, 15, ?_⟩), .inr (.inr (.inr (.inr (.inr ?_)))), .inr (.inr (.inr (.inr (.inr ?_)))), ?_⟩ <;>
    and_intros <;> decide

theorem test_BlocksWithoutSequenceStayOn :
    pageKind Page.power = some .power ∧ AlwaysStarted .power ∧ ({} : State).pageOn Page.power = true ∧
    pageKind (Page.port 31) = some .corePort ∧ AlwaysStarted .corePort := by
  unfold AlwaysStarted; and_intros <;> decide +kernel

theorem test_ResetRequestsNeedConfirm :
    bitsOf (0xA4000000 : W32).toNat 24 8 ≠ 0xA5 ∧ bitsOf (0xA5000000 : W32).toNat 24 8 = 0xA5 ∧ (hung 0 {}).hang.level = 0 ∧
    (hung 0 {}).hang.more = [] ∧
    (hung 0 { level := 1 }).hang.level = 1 ∧ (hung 0 { level := 2 }).hang.level = 2 ∧ (hung 0 { level := 3 }).hang.level = 3 := by
  and_intros <;> decide +kernel

theorem test_StepTakesTheFrontCommand : step { State.reset with pending := [.domainTransitionDone 5] } = .next State.reset := by rfl

theorem test_QueueIsServedInOrder : ({ pending := [.poresetFall, .wresetRise] } : State).pending = .poresetFall :: [.wresetRise] := rfl

theorem test_EveryStepKeepsInvariant : Claims.Inv State.reset ∧ step State.reset = .next State.reset := by
  refine ⟨?_, rfl⟩
  unfold Claims.Inv FusesLegal; and_intros <;> decide +kernel

/-! ### Worked examples of the spec -/

/-- The codes that a draw just below f8 and f8 itself give. -/
def codes (f : Nat → Conv) (f8 : Nat) : Nat × Nat := ((f (f8 - 1)).code, (f f8).code)

/-- Four conversions (the worked example after R39). -/
theorem test_conversions :
    codes (toBc8 0xBE9EF9DB (sc8Val 0x68)) 223 = (0xF4, 0xF3) ∧ codes (toBc8 0x3C240000 (sc8Val 0x68)) 128 = (0x25, 0x24) ∧
    codes (toBc4 0x3E8A3D71 (sc8Val 0x70)) 139 = (6, 5) ∧ codes (toU8z 0xBF83D70A (sc8Val 0x58) 128) 133 = (112, 111) ∧
    freshScale 0x40466666 fpOne 1024 1984 = 0x7D := by
  and_intros <;> decide +kernel

/-- A BC8 value at the largest magnitude saturates whatever the draw; NaN gives the zero code (R37, R39). -/
theorem test_conversion_edges :
    toBc8 (fpOfInt 2) fpOne 255 = { code := 0x7F, sat := true } ∧ toBc8 0xFFC00001 fpOne 0 = { code := 0, nan := true } ∧
    toU8z (fpOfInt (-1)) fpOne 0 7 = { code := 0, sat := true } ∧ toBc4 fpOne 0 7 = { code := 0, zscale := true } := by
  and_intros <;> decide +kernel

/-- Mode G with a zero point (the worked example after R47). -/
theorem test_mode_g :
    (((⟨0, 0, 0, 0, false⟩ : Cell).closeG (fpOfInt 1100000) 0x70).closeG (fpOfInt (-118000)) 0x68).facc = fpOfInt 520500 ∧
    fpMul (fpMul (fpOfInt 520500) (fpMul 0x3E000000 (twoNeg 10))) (fpMul (sc8Val 0x58) fpOne) = 0x407E2680 := by
  and_intros <;> decide +kernel

/-- A mode A sum that would leave its span saturates at the nearer end (R47). -/
theorem test_mode_a_saturates :
    (({ acc := 2 ^ 39 - 1, facc := 0, part := 0, fpart := 0, sat := false } : Cell).addA 1).acc = 2 ^ 39 - 1 ∧
    (({ acc := -(2 ^ 39), facc := 0, part := 0, fpart := 0, sat := false } : Cell).addA (-1)).sat = true := by
  and_intros <;> decide +kernel

/-- A 24-frame chunk with a reset at frame 9 (the worked example of R131). -/
theorem test_scan_chunk :
    (let h := scanLane false (List.replicate 24 (0x3F000000, 0)) (List.replicate 24 (0x3F800000, 0)) 0x200 (0x3F000000, 0)
     (h.map (·.1)).getD 0 0 = 0x3FA00000 ∧ (h.map (·.1)).getD 1 0 = 0x3FD00000 ∧ (h.map (·.1)).getD 8 0 = 0x3FFFA000 ∧
     (h.map (·.1)).getD 9 0 = 0x3F800000 ∧ (h.map (·.1)).getD 10 0 = 0x3FC00000 ∧ (h.map (·.1)).getD 23 0 = 0x3FFFFE00) ∧
    freshScale 0x3FFFFE00 fpOne 1024 1984 = 0x79 ∧ codes (toBc8 0x3FFFFE00 (sc8Val 0x79)) 113 = (0x7D, 0x7C) := by
  dsimp only; and_intros <;> decide +kernel

/-- The rows of the soft maximum of R112 with masked, NaN and infinite entries, in T48 to T51, and mask m1. -/
def softMax : Core :=
  { masks := [(1, 0xDF)], tiles :=
    ([[(0x3F000000 : W32), 0x3FC00000, 0xBF800000, 0x40200000, 0x7FC00000, 0x40800000, 0, 0xFF800000],
      [0x7F800000, 0x40400000, 0x7F800000, 0xC0000000, 0x7FC00000, 0x3F800000, 0x3F000000, 0xFF800000],
      [0xFF800000, 0xFF800000, 0xFF800000, 0xFF800000, 0x7FC00000, 0x40E00000, 0xFF800000, 0xFF800000]].zipIdx.foldl
      (fun (m : SMap Byte) r => (r.1.zipIdx.foldl (fun m x => memPut m (49152 + 128 * r.2 + 4 * x.2) (leBytes 4 x.1.toNat)) m)) []) }

/-- VSMAX over T48 with VL = 8, MASKEN = 1 and MREG = 1, FP32 to FP32. -/
def softWord : TileWord := { tw 1 with ta := 52, tb := 48, ctl := 8 + 2 ^ 6 + 2 ^ 9 }

theorem test_soft_maximum :
    lanesOn softMax softWord = [0, 1, 2, 3, 4, 6, 7] ∧
    smaxRow softMax softWord 1 = ([0x3F000000, 0, 0x3F000000] ++ List.replicate 29 0, false, 1) ∧
    smaxRow softMax softWord 2 = (List.replicate 32 0, true, 1) := by
  and_intros <;> decide +kernel

/-! ### One step of a command -/

/-- What an exec leaves of the state. -/
def after (o : Host.Outcome State Fault Refusal) : State := match o with | .next t => t | _ => {}

/-- The value of register `r` of core C0 after a word on these registers. -/
def xAfter (i : Instr) (x : SMap W64) (r : Nat) : W64 := ((after (step { runs { x := x } with pending := [i] })).core 0).xGet r

theorem test_add_wraps : xAfter (.add 0 { cw with rd := 3, rs1 := 1, rs2 := 2 }) [(1, -1), (2, 1)] 3 = 0 := by decide +kernel
theorem test_add_x0 : xAfter (.add 0 { cw with rs1 := 1, rs2 := 2 }) [(1, 5), (2, 1)] 0 = 0 := by decide +kernel
theorem test_sub_order : xAfter (.sub 0 { cw with rd := 3, rs1 := 1, rs2 := 2 }) [(1, 5), (2, 7)] 3 = -2 := by decide +kernel
theorem test_and_own_source : xAfter (.and 0 { cw with rd := 1, rs1 := 1, rs2 := 2 }) [(1, 12), (2, 10)] 1 = 8 := by decide +kernel
theorem test_or_bits : xAfter (.or 0 { cw with rd := 1, rs1 := 1, rs2 := 2 }) [(1, 12), (2, 10)] 1 = 14 := by decide +kernel
theorem test_xor_bits : xAfter (.xor 0 { cw with rd := 1, rs1 := 1, rs2 := 2 }) [(1, 12), (2, 10)] 1 = 6 := by decide +kernel
theorem test_shl_amount : xAfter (.shl 0 { cw with rd := 3, rs1 := 1, rs2 := 2 }) [(1, 3), (2, 65)] 3 = 6 := by decide +kernel
theorem test_shr_zero : xAfter (.shr 0 { cw with rd := 3, rs1 := 1, rs2 := 2 }) [(1, -1), (2, 63)] 3 = 1 := by decide +kernel
theorem test_sra_sign : xAfter (.sra 0 { cw with rd := 3, rs1 := 1, rs2 := 2 }) [(1, -8), (2, 1)] 3 = -4 := by decide +kernel
theorem test_mul_low : xAfter (.mul 0 { cw with rd := 3, rs1 := 1, rs2 := 2 }) [(1, 2 ^ 63 + 3), (2, 2)] 3 = 6 := by decide +kernel
theorem test_slt_signed : xAfter (.slt 0 { cw with rd := 3, rs1 := 1, rs2 := 2 }) [(1, -1), (2, 0)] 3 = 1 := by decide +kernel
theorem test_addi_sign : xAfter (.addi 0 { cw with rd := 3, rs1 := 1, imm := -3 }) [(1, 2)] 3 = -1 := by decide +kernel
theorem test_jal_link : xAfter (.jal 0 { cw with rd := 3, imm := 100 }) [] 3 = 1 := by decide +kernel

/-- A store and then a load of its bytes, little-endian (R71). -/
theorem test_st_bytes :
    (let t := after (exec (.st 0 { cw with rs1 := 1, rs2 := 2 }) (runs { x := [(1, 8), (2, 0x0102030405060708)] }))
     memGet (t.core 0).scratch 8 8 = [8, 7, 6, 5, 4, 3, 2, 1] ∧
     ((after (exec (.ld 0 { cw with rd := 4, rs1 := 1 }) t)).core 0).xGet 4 = 0x0102030405060708) := by
  dsimp only; and_intros <;> decide +kernel

theorem test_vmsk_first_all : maskResult {} .vmskFirst { tw 1 with imm := 32 } = 0xFFFFFFFF := by decide +kernel
theorem test_vmsk_andn : maskResult { masks := [(1, 12), (2, 10)] } .vmskAndn { tw 1 with ctl := 2 ^ 6, imm := 2 } = 4 := by
  decide +kernel

/-- FP32 addition rounds to nearest even, and an overflow is infinite (R32). -/
theorem test_fp_rounds :
    fpAdd (fpOfInt 16777216) (fpOfInt 1) = fpOfInt 16777216 ∧ fpAdd (fpOfInt 16777218) (fpOfInt 1) = fpOfInt 16777220 ∧
    fpAdd 0x7F7FFFFF 0x7F7FFFFF = fpInf ∧ fpMul 0x00800000 0x3F000000 = 0 := by
  and_intros <;> decide +kernel

/-! ### Balls and zero scales -/

/-- The balls that satisfy a test, of the 42 × 42. -/
def ballCount (f : Ball → Bool) : Nat :=
  ((List.range 42).map fun r => ((List.range 42).filter fun c => f (ballAt (r + 1) (c + 1))).length).sum

/-- 160 signal balls, 930 of VSS, and the balls of each supply in the order of R457 (R454, R455). -/
theorem test_ball_counts :
    ballCount (fun b => match b with | .signal _ => true | _ => false) = 160 ∧ ballCount (· == .vss) = 930 ∧
    (List.range 8).map (fun v => ballCount (· == .supply v)) = [360, 124, 116, 8, 38, 8, 16, 4] := by
  and_intros <;> decide +kernel

/-- Corners of the ball map: XSPI_CLK at B1, PDMI_DAT[23] in row 38, SP_BCLK[11] at BD36, TOLL_OUT at AL42 (R454). -/
theorem test_ball_places :
    rowName 2 = "B" ∧ rowName 42 = "BD" ∧ ballAt 2 1 = .signal .xspiClk ∧ ballAt 38 1 = .signal (.pdmiDat 23) ∧
    ballAt 42 36 = .signal (.spBclk 11) ∧ rowName 30 = "AL" ∧ ballAt 30 42 = .signal .tollOut := by
  and_intros <;> decide +kernel

/-- A negative code with a zero scale decodes to +0 (R39). -/
theorem test_zero_scale_decodes : bc8Val 0xFF 0 = 0 ∧ scaled (fpOfInt (-5)) 0 = 0 := by and_intros <;> decide +kernel

end Sys2Proof.Tests
end

namespace Sys2Proof.Claims

open Machine

/-- A level that becomes due while none runs or waits is recorded with its instant, from which its time bound runs (R383). -/
theorem levelDue_idle_dueSince {s : State} {level a b : Nat} (hLevel : s.hang.level = 0) (hMore : s.hang.more = [])
    (h : level ≠ 0) :
    (s.levelDue level a b).hang.dueSince = (s.hang.dueSince.filter fun e => e.1 != (level, a, b)) ++ [((level, a, b), s.now)] := by
  simp [State.levelDue, hLevel, hMore, h]

/-- Refutes O56: a confirmed request does more than set the running level and what it resets. The model also records the instant of
the request, from which R383 counts the time bound, so the hang state is not the old one with `level` and `due` alone changed. The
counterexample is an engine reset of core 0, engine 0, requested of a device on which no level was ever due. -/
theorem not_resetRequestsNeedConfirm : ¬ Obligations.ResetRequestsNeedConfirm := by
  intro h
  obtain ⟨-, hConfirmed, -⟩ := h {} 0 0xA5000000
  obtain ⟨hEngine, -, -⟩ := hConfirmed (by decide) rfl rfl
  have hDue : exec (.hgResetReqEngine 0 0xA5000000) {} = .next (({} : State).levelDue 1 0 0) := by rfl
  rw [hDue, Host.Outcome.next.injEq] at hEngine
  have hSince : (({} : State).levelDue 1 0 0).hang.dueSince = [] := by rw [hEngine]
  rw [levelDue_idle_dueSince rfl rfl (by decide)] at hSince
  simp at hSince

end Sys2Proof.Claims

namespace Sys2Proof.Claims

open Machine

/-! ### Reserved pages (R448) -/

/-- Every reserved page lies in the register region. -/
theorem ReservedPage.lt_regionEnd {p : Nat} (h : ReservedPage p) : p < 0x3C0 := by
  obtain h | ⟨c, k, _, _, _, rfl⟩ | h | h | ⟨ch, k, _, _, _, rfl⟩ | h := h <;> omega

/-- Between the pages of the whole device and those of the cores, and above the AUDIO_BUF page, R447 lists none. -/
theorem pageKind_unlisted_none {p : Nat} (hLo : 0x14 ≤ p) (hGap : p ≤ 0xFF ∨ 0x398 ≤ p) : pageKind p = none := by
  unfold pageKind
  rw [if_neg (by omega), if_neg (by omega), if_neg (by omega), if_neg (by omega), if_neg (by omega), if_neg (by omega),
    if_neg (by omega), if_neg (by omega), if_neg (by omega), if_neg (by omega)]

/-- No page of a core follows its statistics page (R447). -/
theorem pageKind_core_none {c k : Nat} (hc : c < 32) (hLo : 7 ≤ k) (hHi : k ≤ 15) : pageKind (0x100 + 16 * c + k) = none := by
  have hSlot : (0x100 + 16 * c + k) % 16 = k := by omega
  unfold pageKind
  rw [if_neg (by omega), if_pos (by omega), hSlot]
  exact List.getElem?_eq_none hLo

/-- Of the pages of the links and the fabric only those that R447 lists have a kind. -/
theorem pageKind_link_none {p : Nat} (hLo : 0x300 ≤ p) (hHi : p ≤ 0x33F) (hSlot : 3 ≤ p % 16) (hFabric : p ≠ 0x303)
    (hTsync : p ≠ 0x304) : pageKind p = none := by
  unfold pageKind
  rw [if_neg (by omega), if_neg (by omega), if_pos (by omega), if_neg (by omega), if_neg (by omega), if_neg (by omega),
    if_neg hFabric, if_neg hTsync]

/-- A DRAM channel has one page, the first of its four places. -/
theorem pageKind_dram_none {ch k : Nat} (hch : ch < 16) (hLo : 1 ≤ k) (hHi : k ≤ 3) : pageKind (0x340 + 4 * ch + k) = none := by
  unfold pageKind
  rw [if_neg (by omega), if_neg (by omega), if_neg (by omega), if_pos (by omega), if_neg (by omega)]

/-- The page index of R447 gives a reserved page no kind. -/
theorem ReservedPage.pageKind_eq_none {p : Nat} (h : ReservedPage p) : pageKind p = none := by
  obtain ⟨hLo, hHi⟩ | ⟨c, k, hc, hk, hk', rfl⟩ | ⟨hLo, hHi⟩ | ⟨hLo, hHi, hLinks, hFabric, hTsync⟩ | ⟨ch, k, hch, hk, hk', rfl⟩ |
    ⟨hLo, hHi⟩ := h
  · exact pageKind_unlisted_none hLo (.inl hHi)
  · exact pageKind_core_none hc hk hk'
  · exact pageKind_link_none (by omega) (by omega) (by omega) (by omega) (by omega)
  · have hLink := hLinks ((p - 0x300) / 16) (by omega)
    exact pageKind_link_none hLo hHi (by omega) hFabric hTsync
  · exact pageKind_dram_none hch hk hk'
  · exact pageKind_unlisted_none (by omega) (.inr hLo)

section PageWithoutKind

variable {p : Nat} (hKind : pageKind p = none) (s : State) (src off : Nat)
include hKind

/-- A page without a kind has no registers. -/
theorem regAt_of_pageKind_none : regAt p off = none := by simp [regAt, hKind]

/-- A page without a kind belongs to the main domain, which is always ON. -/
theorem pageOn_of_pageKind_none : s.pageOn p = true := by simp [State.pageOn, pageDomain, hKind]

theorem regView_of_pageKind_none : s.regView p off = 0 := by
  simp [State.regView, pageOn_of_pageKind_none hKind, hKind]

theorem regReadAt_of_pageKind_none : s.regReadAt p off = (0, s) := by
  simp [State.regReadAt, pageOn_of_pageKind_none hKind, regView_of_pageKind_none hKind, regAt_of_pageKind_none hKind]

theorem regWriteAt_of_pageKind_none (v : W32) : s.regWriteAt src p off v = s := by simp [State.regWriteAt, hKind]

/-- Words read from a page without a kind are zero, and the reads change nothing. -/
theorem regWords_of_pageKind_none (n : Nat) : s.regWords p off n = (List.replicate (4 * n) 0, s) := by
  induction n generalizing off with
  | zero => rfl
  | succ n ih =>
    have hWord : leBytes 4 (0 : W32).toNat = List.replicate 4 (0 : Byte) := by decide
    simp only [State.regWords, regReadAt_of_pageKind_none hKind, ih]
    rw [hWord, List.replicate_append_replicate, Nat.mul_succ, Nat.add_comm]

theorem regWriteWords_of_pageKind_none (l : List Byte) (n : Nat) : s.regWriteWords src p off l n = s := by
  induction n generalizing off l with
  | zero => rfl
  | succ n ih => rw [State.regWriteWords, regWriteAt_of_pageKind_none hKind, ih]

/-- A read of a page without a kind gives zeros, whatever its width, and no WIDTH error. -/
theorem busReadRegs_of_pageKind_none (len : Nat) : s.busReadRegs p off len = (List.replicate len 0, s) := by
  unfold State.busReadRegs
  by_cases hWidth : widthBad off len = true
  · simp [hWidth, hKind]
  · have hLen : 4 * (len / 4) = len := by
      simp only [widthBad, Bool.or_eq_true, bne_iff_ne, not_or, not_not] at hWidth
      omega
    rw [if_neg hWidth, regWords_of_pageKind_none hKind, hLen]

/-- Node 0 is denied no write of a page without a kind: it may write over a link, and the page is not the DEBUG page. -/
theorem regDenied_of_pageKind_none (len : Nat) : s.regDenied true 0 p off len = false := by
  have hDebug : p ≠ Page.debug := by rintro rfl; exact absurd hKind (by decide)
  simp [State.regDenied, hDebug]

/-- A write of a page without a kind by node 0 completes OK and is ignored, whatever its width, with no WIDTH error. -/
theorem busWriteRegs_of_pageKind_none (l : List Byte) : s.busWriteRegs true 0 p off l = (0, s) := by
  simp [State.busWriteRegs, regDenied_of_pageKind_none hKind, hKind, regWriteWords_of_pageKind_none hKind]

end PageWithoutKind

/-- A page up to 0x3BF lies in the register region (R447). -/
theorem regionOf_pageAddr {p off : Nat} (hp : p < 0x3C0) (hoff : off < 4096) : regionOf (pageAddr p off) = .regs p off := by
  have hPage : (pageAddr p off - 0x40000000000) / 0x1000 = p := by unfold pageAddr; omega
  have hByte : pageAddr p off % 0x1000 = off := by unfold pageAddr; omega
  have hLo : 0x40000000000 ≤ pageAddr p off := by unfold pageAddr; omega
  have hHi : pageAddr p off < 0x40000000000 + 0x3C0 * 0x1000 := by unfold pageAddr; omega
  unfold regionOf
  rw [if_neg (by omega), if_neg (by omega), if_neg (by omega), if_pos ⟨hLo, hHi⟩, hPage, hByte]

/-- Between the register region and the doorbells the local map has no region (R316). -/
theorem regionOf_pageAddr_above {p off : Nat} (hLo : 0x3BF < p) (hHi : p < 0x1000000) (hoff : off < 4096) :
    regionOf (pageAddr p off) = .none := by
  have hAbove : 0x40000000000 + 0x3C0 * 0x1000 ≤ pageAddr p off := by unfold pageAddr; omega
  have hBelow : pageAddr p off < 0x41000000000 := by unfold pageAddr; omega
  unfold regionOf
  rw [if_neg (by omega), if_neg (by omega), if_neg (by omega), if_neg (by omega), if_neg (by omega), if_neg (by omega),
    if_neg (by omega)]

/-- Settles O54: the page index gives a reserved page no kind, so that no read, write or width check of it finds a register or
touches the state; an address above page 0x3BF is in no region of the local map. -/
theorem reservedPagesReadZero : Obligations.ReservedPagesReadZero := by
  intro s who p off hoff
  constructor
  · intro hReserved
    have hKind := hReserved.pageKind_eq_none
    have hRegion := regionOf_pageAddr hReserved.lt_regionEnd hoff
    refine ⟨regView_of_pageKind_none hKind s off, ?_, ?_, ?_⟩
    · intro vc len _
      simp [State.busRead, hRegion, busReadRegs_of_pageKind_none hKind]
    · intro data _
      simp [State.busWrite, hRegion, busWriteRegs_of_pageKind_none hKind]
    · rintro src page reg v rfl
      exact congrArg Host.Outcome.next (regWriteAt_of_pageKind_none hKind s src.val (4 * reg.val) v)
  · intro hLo hHi
    have hRegion := regionOf_pageAddr_above hLo hHi hoff
    exact ⟨fun vc len => by simp [State.busRead, hRegion], fun data => by simp [State.busWrite, hRegion]⟩

/-! ### Blocks that are always started (R443) -/

/-- The blocks that R443 lists are those that the model takes as always ON. -/
theorem alwaysStarted_iff_alwaysOn (k : PageKind) : AlwaysStarted k ↔ alwaysOn k = true := by
  cases k <;> simp [AlwaysStarted, alwaysOn]

/-- A register of the header reads, on a page whose domain is ON, what the block shows in it (R440). -/
theorem regView_header {s : State} {page off v : Nat} {k : PageKind} {fields : List Field} (hKind : pageKind page = some k)
    (hOn : s.pageOn page = true) (hOff : off < 0x40) (hReg : findReg regsHeader off = some (⟨off, 4, 1, fields⟩, 0))
    (hView : s.viewHeader page k off = some v) : s.regView page off = regMasked fields (BitVec.ofNat 32 v) := by
  simp [State.regView, hOn, hKind, regAt, hOff, hReg, State.viewOf, hView]

section AlwaysOn

variable {page : Nat} {k : PageKind} (hKind : pageKind page = some k) (hStarted : alwaysOn k = true) (s : State)
include hKind hStarted

/-- PG_CTRL of an always started block reads ENABLE as 1. -/
theorem regView_pgCtrl_enable (hOn : s.pageOn page = true) : (s.regView page Reg.PG_CTRL).getLsbD 0 = true := by
  have hView : s.viewHeader page k Reg.PG_CTRL = some (lay [(1, 0), (b2n (s.flag page Reg.PG_CTRL 2), 2)]) := by
    simp [State.viewHeader, State.viewCtrl, hStarted, b2n, Reg.PG_CTRL, Reg.PG_ID]
  rw [regView_header hKind hOn (by decide) rfl hView]
  cases s.flag page Reg.PG_CTRL 2 <;> rfl

/-- PG_STATE of an always started block reads ON, with no ENABLE_PENDING. -/
theorem regView_pgState_on (hOn : s.pageOn page = true) : s.regView page Reg.PG_STATE = 2 := by
  have hView : s.viewHeader page k Reg.PG_STATE = some 2 := by
    simp [State.viewHeader, State.viewState, hStarted, Reg.PG_STATE, Reg.PG_CTRL, Reg.PG_ID]
  rw [regView_header hKind hOn (by decide) rfl hView]
  rfl

theorem blockEnable_of_alwaysOn (src : Nat) (en : Bool) : s.blockEnable src page en = s := by
  simp [State.blockEnable, hKind, hStarted]

/-- A write of PG_CTRL with neither BLOCK_RESET nor LOCK_REQ set leaves an always started block as it is. -/
theorem pgCtrlWrite_of_alwaysOn (src : Nat) (v : W32) (hReset : bitOf v.toNat 1 = false) (hLock : bitOf v.toNat 2 = false) :
    s.pgCtrlWrite src page v = s := by
  simp [State.pgCtrlWrite, hReset, hLock, blockEnable_of_alwaysOn hKind hStarted]

end AlwaysOn

/-- A write of register PG_CTRL of a page with a kind is a write of PG_CTRL (R440). -/
theorem regWriteAt_pgCtrl {page : Nat} {k : PageKind} (hKind : pageKind page = some k) (s : State) (src : Nat) (v : W32) :
    s.regWriteAt src page Reg.PG_CTRL v = s.pgCtrlWrite src page v := by
  have hReg : regAt page Reg.PG_CTRL = some (⟨Reg.PG_CTRL, 4, 1, [⟨0, 1, .rw, 0x0⟩, ⟨1, 1, .wo, 0x0⟩, ⟨2, 1, .w1s, 0x0⟩]⟩, 0) := by
    simp only [regAt, hKind]; rfl
  simp [State.regWriteAt, hKind, hReg]

/-- Settles O55: the header of an always started block shows ENABLE and ON in place of the stored content, and a write of ENABLE
reaches nothing. -/
theorem blocksWithoutSequenceStayOn : Obligations.BlocksWithoutSequenceStayOn := by
  intro s src page k hKind hListed
  have hStarted := (alwaysStarted_iff_alwaysOn k).mp hListed
  refine ⟨fun hOn => ⟨regView_pgCtrl_enable hKind hStarted s hOn, ?_⟩, ?_, ?_⟩
  · rw [regView_pgState_on hKind hStarted s hOn]
    rfl
  · intro en
    exact congrArg Host.Outcome.next (blockEnable_of_alwaysOn hKind hStarted s src.val en)
  · intro v hv
    obtain ⟨hReset, hLock⟩ : bitOf v.toNat 1 = false ∧ bitOf v.toNat 2 = false := by
      obtain rfl | rfl := hv <;> decide
    have hWrite : s.regWriteAt src.val page.val Reg.PG_CTRL v = s := by
      rw [regWriteAt_pgCtrl hKind, pgCtrlWrite_of_alwaysOn hKind hStarted s src.val v hReset hLock]
    exact congrArg Host.Outcome.next hWrite

end Sys2Proof.Claims

namespace Sys2Proof.Machine

/-- What a fuse array may become (R411, R412): revocations, anti-rollback numbers and the life-cycle state only advance, within the
legal ranges of R410; the device secret and the serial number stay. -/
structure FusesAdvance (f g : Fuses) : Prop where
  revoked : ∀ k, f.revoked k = true → g.revoked k = true
  fwSvn : f.fwSvn ≤ g.fwSvn
  imgSvn : f.imgSvn ≤ g.imgSvn
  lifecycle : f.lifecycle ≤ g.lifecycle
  uds : g.uds = f.uds
  serial : g.serial = f.serial
  legal : f.lifecycle ≤ 2 ∧ f.fwSvn ≤ 32 ∧ f.imgSvn ≤ 32 → g.lifecycle ≤ 2 ∧ g.fwSvn ≤ 32 ∧ g.imgSvn ≤ 32

theorem FusesAdvance.refl (f : Fuses) : FusesAdvance f f :=
  ⟨fun _ h => h, le_rfl, le_rfl, le_rfl, rfl, rfl, id⟩

theorem FusesAdvance.trans {f g h : Fuses} (a : FusesAdvance f g) (b : FusesAdvance g h) : FusesAdvance f h :=
  ⟨fun k e => b.revoked k (a.revoked k e), a.fwSvn.trans b.fwSvn, a.imgSvn.trans b.imgSvn, a.lifecycle.trans b.lifecycle,
    b.uds.trans a.uds, b.serial.trans a.serial, fun e => b.legal (a.legal e)⟩

/-- What no operation of the device breaks, whatever it is: the queue of commands stays, the fuses advance, and memories in
canonical form stay so. -/
structure Keeps (s₀ s : State) : Prop where
  pending : s.pending = s₀.pending
  fuses : FusesAdvance s₀.sec.fuses s.sec.fuses
  memWf : s₀.memWf = true → s.memWf = true

/-- The parts of the state that `Keeps` speaks of. -/
abbrev State.kept (s : State) :=
  (s.pending, s.sec.fuses, s.mem.dram, s.mem.cache, s.hang.dumpBuf, s.audio.buf, s.audio.bufFree, s.cores)

variable {s₀ s t : State}

theorem Keeps.refl (s : State) : Keeps s s := ⟨rfl, .refl _, id⟩

theorem Keeps.trans {u : State} (a : Keeps s t) (b : Keeps t u) : Keeps s u :=
  ⟨b.pending.trans a.pending, a.fuses.trans b.fuses, fun e => b.memWf (a.memWf e)⟩

/-- An update beside the parts that `Keeps` speaks of. -/
theorem Keeps.frame (h : Keeps s₀ s) (e : t.kept = s.kept) : Keeps s₀ t := by
  simp only [State.kept, Prod.mk.injEq] at e
  obtain ⟨hp, hf, hd, hc, hb, ha, hu, hk⟩ := e
  refine h.trans ⟨hp, hf ▸ .refl _, fun w => ?_⟩
  have hdef : t.audioDefault = s.audioDefault := by funext o; simp only [State.audioDefault, hu]
  have e : t.memWf = s.memWf := by simp only [State.memWf, Memory.wf, hd, hc, hb, ha, hk, hdef]
  rw [e]; exact w

/-- An update of the memories that keeps their canonical form. -/
theorem Keeps.mems (h : Keeps s₀ s) (hp : t.pending = s.pending) (hf : t.sec.fuses = s.sec.fuses)
    (hw : s.memWf = true → t.memWf = true) : Keeps s₀ t := h.trans ⟨hp, hf ▸ .refl _, hw⟩

theorem Keeps.ite {c : Prop} [Decidable c] (a : Keeps s₀ s) (b : Keeps s₀ t) : Keeps s₀ (if c then s else t) := by
  split
  · exact a
  · exact b

theorem Keeps.ite₂ {β : Type} {c : Prop} [Decidable c] {p q : β × State} (a : Keeps s₀ p.2) (b : Keeps s₀ q.2) :
    Keeps s₀ (if c then p else q).2 := by
  split
  · exact a
  · exact b

theorem Keeps.foldl {α : Type} {f : State → α → State} {l : List α} (h : Keeps s₀ s)
    (hf : ∀ t a, Keeps s₀ t → Keeps s₀ (f t a)) : Keeps s₀ (l.foldl f s) := foldl_keeps _ f l h hf

theorem Keeps.foldl₁ {α β : Type} {f : State × β → α → State × β} {l : List α} {b : State × β} (h : Keeps s₀ b.1)
    (hf : ∀ t a, Keeps s₀ t.1 → Keeps s₀ (f t a).1) : Keeps s₀ (l.foldl f b).1 :=
  foldl_keeps (fun b : State × β => Keeps s₀ b.1) f l h hf

theorem Keeps.foldl₂ {α β : Type} {f : β × State → α → β × State} {l : List α} {b : β × State} (h : Keeps s₀ b.2)
    (hf : ∀ t a, Keeps s₀ t.2 → Keeps s₀ (f t a).2) : Keeps s₀ (l.foldl f b).2 :=
  foldl_keeps (fun b : β × State => Keeps s₀ b.2) f l h hf

theorem Keeps.foldl₃ {α β γ : Type} {f : β × γ × State → α → β × γ × State} {l : List α} {b : β × γ × State} (h : Keeps s₀ b.2.2)
    (hf : ∀ t a, Keeps s₀ t.2.2 → Keeps s₀ (f t a).2.2) : Keeps s₀ (l.foldl f b).2.2 :=
  foldl_keeps (fun b : β × γ × State => Keeps s₀ b.2.2) f l h hf

theorem Keeps.of_eq₁ {β : Type} {r : State × β} {b : β} (h : Keeps s₀ r.1) (e : r = (t, b)) : Keeps s₀ t := by
  rw [e] at h; exact h

/-- The state that a pair holds, once the pair is known. -/
theorem Keeps.of_eq₂ {β : Type} {r : β × State} {b : β} (h : Keeps s₀ r.2) (e : r = (b, t)) : Keeps s₀ t := by
  rw [e] at h; exact h

theorem Keeps.of_eq₃ {β γ : Type} {r : β × γ × State} {b : β} {c : γ} (h : Keeps s₀ r.2.2) (e : r = (b, c, t)) : Keeps s₀ t := by
  rw [e] at h; exact h

theorem Keeps.setCore {c : Nat} {k : Core} (h : Keeps s₀ s) (hk : s.memWf = true → k.memWf = true) : Keeps s₀ (s.setCore c k) :=
  h.mems rfl rfl fun w => State.memWf_setCore c w (hk w)

theorem Keeps.setCore₀ {c : Nat} {k : Core} (h : Keeps s₀ s) (hk : s₀.memWf = true → k.memWf = true) : Keeps s₀ (s.setCore c k) :=
  ⟨h.pending, h.fuses, fun w => State.memWf_setCore c (h.memWf w) (hk w)⟩

theorem Keeps.modCore {c : Nat} {f : Core → Core} (h : Keeps s₀ s) (hf : ∀ k : Core, k.memWf = true → (f k).memWf = true) :
    Keeps s₀ (s.modCore c f) := h.setCore fun w => hf _ (State.memWf_core w c)

/-- A command that answers a next state, of which `Keeps` holds. -/
def Next (s₀ : State) (o : Host.Outcome State Fault Refusal) : Prop := ∃ t, o = .next t ∧ Keeps s₀ t

theorem Keeps.next (h : Keeps s₀ s) : Next s₀ (.next s) := ⟨s, rfl, h⟩

theorem Next.ite {c : Prop} [Decidable c] {o p : Host.Outcome State Fault Refusal} (a : Next s₀ o) (b : Next s₀ p) :
    Next s₀ (if c then o else p) := by
  split
  · exact a
  · exact b

theorem Next.nextOf {o : Host.Outcome State Fault Refusal} (h : Next s₀ o) : Keeps s₀ (nextOf s o) := by
  obtain ⟨t, rfl, ht⟩ := h
  exact ht

/-! ### A core's operations beside its memories -/

theorem Core.memWf_foldl {α : Type} {f : Core → α → Core} (hf : ∀ k a, (f k a).memWf = k.memWf) (l : List α) (k : Core) :
    (l.foldl f k).memWf = k.memWf := foldl_keeps (fun j : Core => j.memWf = k.memWf) f l rfl fun j a e => (hf j a).trans e

theorem Core.memWf_congr {j k : Core} (hs : j.scratch = k.scratch) (ht : j.store = k.store) (h : k.memWf = true) :
    j.memWf = true := by
  simpa only [Core.memWf, hs, ht] using h
@[simp] theorem Core.xSet_scratch (k : Core) (i : Nat) (v : W64) : (k.xSet i v).scratch = k.scratch := by
  unfold Core.xSet; split <;> rfl
@[simp] theorem Core.xSet_store (k : Core) (i : Nat) (v : W64) : (k.xSet i v).store = k.store := by
  unfold Core.xSet; split <;> rfl
@[simp] theorem Core.memWf_xSet (k : Core) (i : Nat) (v : W64) : (k.xSet i v).memWf = k.memWf := by
  unfold Core.xSet; split <;> rfl
@[simp] theorem Core.memWf_setTok (k : Core) (t n : Nat) : (k.setTok t n).memWf = k.memWf := rfl
@[simp] theorem Core.memWf_setMask (k : Core) (n : Nat) (v : W32) : (k.setMask n v).memWf = k.memWf := rfl
@[simp] theorem Core.memWf_setSum (k : Core) (n : Nat) (v : W64) : (k.setSum n v).memWf = k.memWf := rfl
@[simp] theorem Core.memWf_setBank (k : Core) (b : Nat) (x : Bank) : (k.setBank b x).memWf = k.memWf := rfl
@[simp] theorem Core.memWf_setQueue (k : Core) (e : EngineId) (q : List QEntry) : (k.setQueue e q).memWf = k.memWf := by
  cases e <;> rfl
@[simp] theorem Core.memWf_takeTokens (k : Core) (wait : BitVec 8) : (k.takeTokens wait).memWf = k.memWf :=
  Core.memWf_foldl (fun _ _ => by split <;> rfl) _ _
@[simp] theorem Core.memWf_returnTokens (k : Core) (wait : BitVec 8) : (k.returnTokens wait).memWf = k.memWf :=
  Core.memWf_foldl (fun _ _ => by split <;> rfl) _ _
@[simp] theorem Core.memWf_tilePut (k : Core) (o : Nat) (l : List Byte) : (k.tilePut o l).memWf = k.memWf := by
  induction l generalizing k o with
  | nil => rfl
  | cons b r ih => rw [Core.tilePut, ih]; rfl
@[simp] theorem Core.memWf_putElem (k : Core) (w : TileWord) (i j n : Nat) : (k.putElem w i j n).memWf = k.memWf := by
  unfold Core.putElem; split <;> exact Core.memWf_tilePut _ _ _
@[simp] theorem Core.memWf_putRow (k : Core) (half : Bool) (base i : Nat) (l : List W32) : (k.putRow half base i l).memWf = k.memWf :=
  Core.memWf_tilePut _ _ _
@[simp] theorem Core.memWf_restoreBytes (k : Core) (l : List Byte) : (k.restoreBytes l).memWf = k.memWf := by
  unfold Core.restoreBytes
  extract_lets k₁ k₂ t k₃ k₄
  have h₂ : k₂.memWf = k.memWf := by
    refine Eq.trans (b := k₁.memWf) ?_ rfl
    exact Core.memWf_foldl (f := fun k i => k.xSet _ _) (fun j i => j.memWf_xSet _ _) _ _
  have h₃ : k₃.memWf = k₂.memWf := Core.memWf_foldl (f := fun k i => k.setTok _ _) (fun j _ => j.memWf_setTok _ _) _ _
  have h₄ : k₄.memWf = k₃.memWf := Core.memWf_foldl (f := fun k i => k.setMask _ _) (fun j _ => j.memWf_setMask _ _) _ _
  exact (Core.memWf_foldl (f := fun k i => k.setSum _ _) (fun j _ => j.memWf_setSum _ _) _ _).trans (h₄.trans (h₃.trans h₂))

/-! ### Machine/Regs.lean -/

theorem Keeps.setReg {page off : Nat} {v : W32} (h : Keeps s₀ s) : Keeps s₀ (s.setReg page off v) := h.frame rfl

theorem Keeps.setFld {page off lo w x : Nat} (h : Keeps s₀ s) : Keeps s₀ (s.setFld page off lo w x) := h.setReg

theorem Keeps.setFlag {page off bit : Nat} {b : Bool} (h : Keeps s₀ s) : Keeps s₀ (s.setFlag page off bit b) := h.setFld

theorem Keeps.countFld {page off lo w n : Nat} (h : Keeps s₀ s) : Keeps s₀ (s.countFld page off lo w n) := h.setFld

theorem Keeps.count {page off n : Nat} (h : Keeps s₀ s) : Keeps s₀ (s.count page off n) := h.countFld

theorem Keeps.setReg64 {page lo hi : Nat} {v : W64} (h : Keeps s₀ s) : Keeps s₀ (s.setReg64 page lo hi v) := h.setReg.setReg

theorem Keeps.pgErrAt {page off src : Nat} {bits : List Nat} (h : Keeps s₀ s) : Keeps s₀ (s.pgErrAt page off src bits) := by
  unfold State.pgErrAt
  exact .ite (Keeps.countFld (h.foldl fun _ _ h => h.setFlag)) (Keeps.setReg (Keeps.setReg (Keeps.countFld (h.foldl fun _ _ h
      => h.setFlag))))

theorem Keeps.writeRefused {page off src : Nat} (h : Keeps s₀ s) : Keeps s₀ (s.writeRefused page off src) := h.pgErrAt

theorem Keeps.enableRefused {page src : Nat} (h : Keeps s₀ s) : Keeps s₀ (s.enableRefused page src) := h.pgErrAt

theorem Keeps.pgErr {page bit : Nat} (h : Keeps s₀ s) : Keeps s₀ (s.pgErr page bit) := h.setFlag.countFld

/-! ### Machine/Ops.lean -/

theorem Keeps.setCtx {n : Nat} {x : Machine.Ctx} (h : Keeps s₀ s) : Keeps s₀ (s.setCtx n x) := h.frame rfl

theorem Keeps.modCtx {n : Nat} {f : Machine.Ctx → Machine.Ctx} (h : Keeps s₀ s) : Keeps s₀ (s.modCtx n f) := h.setCtx

theorem Keeps.setStream {n : Nat} {x : Machine.Stream} (h : Keeps s₀ s) : Keeps s₀ (s.setStream n x) := h.frame rfl

theorem Keeps.modStream {n : Nat} {f : Machine.Stream → Machine.Stream} (h : Keeps s₀ s) : Keeps s₀ (s.modStream n f) :=
  h.setStream

theorem Keeps.setQueue {q : Nat} {x : Machine.Queue} (h : Keeps s₀ s) : Keeps s₀ (s.setQueue q x) := h.frame rfl

theorem Keeps.modQueue {q : Nat} {f : Machine.Queue → Machine.Queue} (h : Keeps s₀ s) : Keeps s₀ (s.modQueue q f) := h.setQueue

theorem Keeps.setPort {p : Nat} {x : Machine.Port} (h : Keeps s₀ s) : Keeps s₀ (s.setPort p x) := h.frame rfl

theorem Keeps.modPort {p : Nat} {f : Machine.Port → Machine.Port} (h : Keeps s₀ s) : Keeps s₀ (s.modPort p f) := h.setPort

theorem Keeps.setRing {r : Nat} {x : Machine.Ring} (h : Keeps s₀ s) : Keeps s₀ (s.setRing r x) := h.frame rfl

theorem Keeps.modRing {r : Nat} {f : Machine.Ring → Machine.Ring} (h : Keeps s₀ s) : Keeps s₀ (s.modRing r f) := h.setRing

theorem Keeps.setApll {a : Nat} {x : Machine.Apll} (h : Keeps s₀ s) : Keeps s₀ (s.setApll a x) := h.frame rfl

theorem Keeps.setAngle {a : Nat} {x : Machine.Angle} (h : Keeps s₀ s) : Keeps s₀ (s.setAngle a x) := h.frame rfl

theorem Keeps.setLink {p : Nat} {x : Machine.Link} (h : Keeps s₀ s) : Keeps s₀ (s.setLink p x) := h.frame rfl

theorem Keeps.modLink {p : Nat} {f : Machine.Link → Machine.Link} (h : Keeps s₀ s) : Keeps s₀ (s.modLink p f) := h.setLink

theorem Keeps.setTag {t' : Nat} {x : Option Machine.Tag} (h : Keeps s₀ s) : Keeps s₀ (s.setTag t' x) := h.frame rfl

theorem Keeps.setSem {n : Nat} {v : W32} (h : Keeps s₀ s) : Keeps s₀ (s.setSem n v) := h.frame rfl

theorem Keeps.reach {t' : W64} (h : Keeps s₀ s) : Keeps s₀ (s.reach t') := by
  unfold State.reach
  exact .ite (h.frame rfl) h

theorem Keeps.draw {w : Nat} (h : Keeps s₀ s) : Keeps s₀ (s.draw w).2 := h.frame rfl

theorem Keeps.emit {port vc : Nat} {p : Packet} (h : Keeps s₀ s) : Keeps s₀ (s.emit port vc p) := h.frame rfl

theorem Keeps.send {vc : Nat} {p : Packet} (h : Keeps s₀ s) : Keeps s₀ (s.send vc p) := by
  unfold State.send
  exact .ite h.emit h.count

theorem Keeps.broadcast {vc : Nat} {p : Packet} (h : Keeps s₀ s) : Keeps s₀ (s.broadcast vc p) :=
  h.foldl fun _ _ h => .ite h.emit h

theorem Keeps.issueRequest {vc : Nat} {p : Packet} {t' : Machine.Tag} (h : Keeps s₀ s) : Keeps s₀ (s.issueRequest vc p t') :=
  h.setTag.send

theorem Keeps.request {vc : Nat} {p : Packet} {t' : Machine.Tag} (h : Keeps s₀ s) : Keeps s₀ (s.request vc p t') := by
  unfold State.request
  exact .ite h.issueRequest (h.frame rfl)

theorem Keeps.dropWaiting {f : Machine.Tag → Bool} (h : Keeps s₀ s) : Keeps s₀ (s.dropWaiting f) := h.frame rfl

theorem Keeps.nextRequest (h : Keeps s₀ s) : Keeps s₀ s.nextRequest := by
  unfold State.nextRequest
  extract_lets _
  split
  · split
    · exact Keeps.issueRequest (h.frame rfl)
    · exact h
  · exact h

theorem Keeps.freeTag {i : Nat} (h : Keeps s₀ s) : Keeps s₀ (s.freeTag i) := h.setTag.nextRequest

theorem Keeps.abandonTag {i : Nat} (h : Keeps s₀ s) : Keeps s₀ (s.abandonTag i) := Keeps.nextRequest (h.frame rfl)

theorem Keeps.writeRemote {vc dst addr : Nat} {data : List Byte} (h : Keeps s₀ s) :
    Keeps s₀ (s.writeRemote vc dst addr data) := by
  unfold State.writeRemote
  extract_lets _ _
  split
  · exact h
  · exact h.request

theorem Keeps.fireVector {v : Nat} (h : Keeps s₀ s) : Keeps s₀ (s.fireVector v) := by
  unfold State.fireVector
  exact .ite h.count.setFlag (.ite h.count.writeRemote h.count.count)

theorem Keeps.summaryEdge {page : Nat} (h : Keeps s₀ s) (h' : Keeps s₀ t) : Keeps s₀ (s.summaryEdge t page) := by
  unfold State.summaryEdge
  exact .ite h'.fireVector h'

theorem Keeps.irq {page b : Nat} (h : Keeps s₀ s) : Keeps s₀ (s.irq page b) := h.summaryEdge h.setFlag

theorem Keeps.trace {src : Nat} {bytes : List Byte} (h : Keeps s₀ s) : Keeps s₀ (s.trace src bytes) := by
  have hout {t : State} {l : List (W64 × List Byte)} (h : Keeps s₀ t) :
      Keeps s₀ { t with hang := { t.hang with traceOut := l } } := h.frame rfl
  exact .ite h (.ite h.count (hout h.setReg))

theorem Keeps.logEvent {code unit : Nat} {ctx : Option Nat} {gen status arg0 arg1 : Nat} (h : Keeps s₀ s) :
    Keeps s₀ (s.logEvent code unit ctx gen status arg0 arg1) := by
  unfold State.logEvent
  extract_lets n o old new rep _ s₁
  have h₁ : Keeps s₀ s₁ := h.mems rfl rfl (State.memWf_dumpPut _ _)
  exact .ite (h.mems rfl rfl (State.memWf_dumpPut _ _)) h₁.trace.irq

theorem Keeps.requestQuench {n cause : Nat} (h : Keeps s₀ s) : Keeps s₀ (s.requestQuench n cause) := by
  unfold State.requestQuench
  split
  · exact h.modCtx
  · exact h.modCtx
  · exact h

theorem Keeps.raiseMech {m : Nat} {ctx : Option Nat} (h : Keeps s₀ s) : Keeps s₀ (s.raiseMech m ctx) := by
  unfold State.raiseMech
  extract_lets s₁ s₂ _ s₃ _
  have h₁ : Keeps s₀ s₁ := h.setFlag
  have h₂ : Keeps s₀ s₂ := h₁.logEvent
  have h₃ : Keeps s₀ s₃ := .ite (h₂.frame rfl) h₂
  split
  · exact h₃
  · exact h₃.frame rfl
  · exact h₃.requestQuench
  · exact h₃.irq

theorem Keeps.correctedError {p off : Nat} (h : Keeps s₀ s) : Keeps s₀ (s.correctedError p off) := by
  unfold State.correctedError
  exact .ite (h.frame rfl) (Keeps.raiseMech (h.frame rfl))

/-! ### Machine/Memory.lean -/

theorem Keeps.unitWrite {u : Nat} {l : List Byte} (h : Keeps s₀ s) : Keeps s₀ (s.unitWrite u l) :=
  h.mems rfl rfl (State.memWf_unitWrite u l)

theorem Keeps.dramError {a : Nat} {ctx : Option Nat} (h : Keeps s₀ s) : Keeps s₀ (s.dramError a ctx) :=
  h.countFld.setReg64.raiseMech

theorem Keeps.unitRead {u : Nat} {who : Requester} (h : Keeps s₀ s) : Keeps s₀ (s.unitRead u who).2 := by
  unfold State.unitRead
  extract_lets s₁
  have h₁ : Keeps s₀ s₁ := h.count
  split
  · exact h₁.dramError
  · exact h₁

theorem Keeps.setLine {set w : Nat} {l : Option Machine.Line} (h : Keeps s₀ s) : Keeps s₀ (s.setLine set w l) :=
  h.mems rfl rfl (State.memWf_setLine set w l)

theorem Keeps.writeBack {l : Machine.Line} (h : Keeps s₀ s) : Keeps s₀ (s.writeBack l) := h.count.unitWrite

theorem Keeps.evict {set w : Nat} (h : Keeps s₀ s) : Keeps s₀ (s.evict set w) := by
  unfold State.evict
  split
  · exact h
  · exact Keeps.setLine (Keeps.ite h.writeBack h)

theorem Keeps.fillLine {set w u : Nat} {dirty : Bool} {data : List Byte} (h : Keeps s₀ s) :
    Keeps s₀ (s.fillLine set w u dirty data) :=
  Keeps.setLine (h.frame rfl)

theorem Keeps.cacheServe {who : Requester} {write : Bool} {a len : Nat} {data : List Byte} {mask : Nat}
    (h : Keeps s₀ s) : Keeps s₀ (s.cacheServe who write a len data mask).2.2 := by
  unfold State.cacheServe
  extract_lets _ _ _ s₁ s₂ whole
  have h₁ : Keeps s₀ s₁ := h.count
  have h₂ : Keeps s₀ s₂ := h.count
  split
  · exact h
  · split
    · split
      · exact h₁
      · split
        · exact h₁.fillLine
        · exact h₁.fillLine
    · split
      next got s₃ heq =>
        have h₃ : Keeps s₀ s₃ := by
          split at heq
          · exact Keeps.of_eq₂ h₂ heq
          · exact h₂.unitRead.of_eq₂ heq
        split
        · exact h₃
        · extract_lets new
          split
          · split
            · exact h₃.unitWrite
            · exact h₃
          · split
            · exact h₃.evict.fillLine
            · exact h₃.evict.fillLine

theorem Keeps.scratchPut {c off : Nat} {l : List Byte} (h : Keeps s₀ s) : Keeps s₀ (s.scratchPut c off l) :=
  h.setCore fun w => by
    have hk := State.memWf_core w c
    simp only [Core.memWf, Bool.and_eq_true] at hk ⊢
    exact ⟨memPut_wf _ _ hk.1, hk.2⟩

theorem Keeps.readPiece {who : Requester} {weight : Bool} {a len : Nat} (h : Keeps s₀ s) :
    Keeps s₀ (s.readPiece who weight a len).2.2 := by
  unfold State.readPiece
  split
  · exact h.cacheServe
  · split
    · exact h
    · exact h
  · exact h
  · exact h

theorem Keeps.writePiece {who : Requester} {a : Nat} {l : List Byte} (h : Keeps s₀ s) : Keeps s₀ (s.writePiece who a l).2 := by
  unfold State.writePiece
  extract_lets r₁
  have h₁ : Keeps s₀ r₁.2.2 := h.cacheServe
  split
  · exact h₁
  · split
    · exact h.scratchPut
    · exact h
  · exact h

theorem Keeps.readSpan {who : Requester} {a len : Nat} (h : Keeps s₀ s) : Keeps s₀ (s.readSpan who a len).2.2 :=
  h.foldl₃ fun ⟨_, _, _⟩ _ h => h.readPiece

theorem Keeps.readUntil {who : Requester} {a len : Nat} (h : Keeps s₀ s) : Keeps s₀ (s.readUntil who a len).2.2 := by
  refine h.foldl₃ fun ⟨_, _, _⟩ _ h => ?_
  dsimp only
  split
  · exact h
  · exact h.readPiece

theorem Keeps.writeSpan {who : Requester} {a : Nat} {l : List Byte} (h : Keeps s₀ s) : Keeps s₀ (s.writeSpan who a l).2 :=
  h.foldl₂ fun ⟨_, _⟩ _ h => h.writePiece

theorem Keeps.writeGlobal {who : Requester} {vc : Nat} {a : W64} {l : List Byte} (h : Keeps s₀ s) :
    Keeps s₀ (s.writeGlobal who vc a l).2 := by
  unfold State.writeGlobal
  split
  · exact h.writeSpan
  · split
    · exact h
    · exact h.foldl fun _ _ h => h.writeRemote

theorem Keeps.readRemote {vc : Nat} {a : W64} {n : Nat} {f : Fetched} (h : Keeps s₀ s) :
    Keeps s₀ (s.readRemote vc a n f).2.2 := by
  unfold State.readRemote
  extract_lets _
  split
  · exact h
  · exact h.foldl fun _ _ h => h.send

theorem Keeps.answer {st : Nat} {l : List Byte} (h : Keeps s₀ s) : Keeps s₀ (s.answer st l) := h.frame rfl

theorem Keeps.execDramAccess {q : MemReq} {ecc : Ecc} (h : Keeps s₀ s) : Next s₀ (Machine.execDramAccess q ecc s) := by
  unfold Machine.execDramAccess
  extract_lets _ _ _ _ s₁ r₂
  have h₁ : Keeps s₀ s₁ := by
    unfold s₁
    split
    · exact h
    · split
      · exact h
      · exact h.correctedError
      · exact .ite h (h.frame rfl)
  have h₂ : Keeps s₀ r₂.2.2 := h₁.cacheServe
  exact h₂.answer.next

theorem Keeps.execCacheAccess {q : MemReq} {ecc : Ecc} (h : Keeps s₀ s) : Next s₀ (Machine.execCacheAccess q ecc s) := by
  unfold Machine.execCacheAccess
  extract_lets _ _ _ _ s₁
  have h₁ : Keeps s₀ s₁ := h.countFld
  split
  · exact h.cacheServe.answer.next
  · split
    · exact h.correctedError.cacheServe.answer.next
    · extract_lets s₂ s₃
      have h₂ : Keeps s₀ s₂ := h₁.setLine
      have h₃ : Keeps s₀ s₃ := h₂.setReg64
      split
      · exact .ite h₃.raiseMech.answer.next h₂.cacheServe.answer.next
      · exact h₁.cacheServe.answer.next
    · exact h.cacheServe.answer.next

theorem Keeps.scrubTurn {ch : Nat} (h : Keeps s₀ s) : Keeps s₀ (s.scrubTurn ch) := by
  have hscrub {t : State} (h : Keeps s₀ t) :
      Keeps s₀ { t with mem := { t.mem with scrubAt := SMap.set t.mem.scrubAt ch t.now 0 } } := h.frame rfl
  exact hscrub h.reach

theorem Keeps.execPatrolScrub {ch : Fin 16} {ecc : Ecc} (h : Keeps s₀ s) : Next s₀ (Machine.execPatrolScrub ch ecc s) := by
  have hdamage {t : State} {l : List Nat} (h : Keeps s₀ t) :
      Keeps s₀ { t with mem := { t.mem with damaged := l } } := h.frame rfl
  unfold Machine.execPatrolScrub
  extract_lets p s₁ i u s₂ _ s₃
  have h₂ : Keeps s₀ s₂ := h.scrubTurn.setFld
  have h₃ : Keeps s₀ s₃ := .ite h₂ (hdamage h₂)
  refine .ite h.next ?_
  split
  · exact .ite h₂.dramError.next h₂.next
  · exact h₂.correctedError.next
  · exact h₃.dramError.next

theorem Keeps.execRefreshRateChange {ch : Fin 16} {celsius : Byte} (h : Keeps s₀ s) :
    Next s₀ (Machine.execRefreshRateChange ch celsius s) := by
  unfold Machine.execRefreshRateChange
  exact .ite h.setFld.setFld.next h.setFld.setFld.next

theorem Keeps.execDramRetrain {ch : Fin 16} (h : Keeps s₀ s) : Next s₀ (Machine.execDramRetrain ch s) := by
  unfold Machine.execDramRetrain
  extract_lets c after s₁
  have hafter {t : State} {d ms : Nat} (h : Keeps s₀ t) : Keeps s₀ (after t d ms) := by
    unfold after
    split
    · exact h.reach
    · exact h
  have h₁ : Keeps s₀ s₁ := (hafter h).foldl fun _ _ h => hafter h
  refine .ite h.next ?_
  split
  next v s₂ heq =>
    have h₂ : Keeps s₀ s₂ := h₁.draw.of_eq₂ heq
    exact Keeps.next (Keeps.count (h₂.frame rfl))

theorem Keeps.loseLines {units : List Nat} (h : Keeps s₀ s) : Keeps s₀ (s.loseLines units) := by
  unfold State.loseLines
  refine h.foldl fun _ _ h₁ => ?_
  split
  · exact h₁
  · extract_lets s₂
    have h₂ : Keeps s₀ s₂ := h₁.countFld.setLine
    split
    · exact .ite h₁ h₂.setReg64.raiseMech
    · exact h₁

theorem Keeps.flawedLines {ways lo hi : Nat} (h : Keeps s₀ s) : Keeps s₀ (s.flawedLines ways lo hi).2 := by
  unfold State.flawedLines
  refine h.foldl₂ fun ⟨_, _⟩ _ h₁ => ?_
  split
  · split
    · split
      next _ _ _ heq =>
        have h₂ := h₁.draw.of_eq₂ heq
        exact h₂
    · exact h₁
  · exact h₁

theorem Keeps.cachePass {ways lo hi : Nat} {wb inv : Bool} (h : Keeps s₀ s) : Keeps s₀ (s.cachePass ways lo hi wb inv) := by
  unfold State.cachePass
  refine h.foldl fun _ _ h₁ => ?_
  split
  · exact h₁
  · exact .ite (.ite (Keeps.setLine (Keeps.ite h₁.writeBack h₁)) (.ite (Keeps.setLine (Keeps.ite h₁.writeBack h₁)) (.ite
        h₁.writeBack h₁))) h₁

theorem Keeps.visitSets {ways lo hi : Nat} {wb inv : Bool} (h : Keeps s₀ s) : Keeps s₀ (s.visitSets ways lo hi wb inv) := by
  unfold State.visitSets
  extract_lets s₁
  have h₁ : Keeps s₀ s₁ := by
    unfold s₁
    split
    · split
      next _ _ _ heq =>
        have h₂ := h.flawedLines.of_eq₂ heq
        exact h₂.loseLines
    · exact h
  exact h₁.cachePass

theorem Keeps.caMaint {src : Nat} {v : W32} (h : Keeps s₀ s) : Keeps s₀ (s.caMaint src v) := by
  unfold State.caMaint
  exact .ite h.writeRefused (h.frame rfl)

theorem Keeps.execCaMaint {src : NodeId} {v : W32} (h : Keeps s₀ s) : Next s₀ (Machine.execCaMaint src v s) := h.caMaint.next

theorem Keeps.passStep (h : Keeps s₀ s) : Keeps s₀ s.passStep := by
  unfold State.passStep
  split
  · exact h
  · exact .ite h (h.visitSets.frame rfl)

theorem Keeps.execCachePassDone (h : Keeps s₀ s) : Next s₀ (Machine.execCachePassDone s) := by
  unfold Machine.execCachePassDone
  split
  · exact h.next
  · exact Keeps.next (h.visitSets.frame rfl)

theorem Keeps.prFlush {n : Nat} (h : Keeps s₀ s) : Keeps s₀ (s.prFlush n) := by
  unfold State.prFlush
  refine h.foldl fun _ _ h₁ => ?_
  split
  · exact h₁
  · exact .ite h₁.evict h₁

theorem Keeps.prCtrlWrite {src n : Nat} {v : W32} (h : Keeps s₀ s) : Keeps s₀ (s.prCtrlWrite src n v) := by
  unfold State.prCtrlWrite
  exact .ite h.pgErrAt (.ite (.ite h h.prFlush.setFlag) (.ite (.ite h.setReg h.writeRefused) h.setReg))

theorem Keeps.execPrEnable {src : NodeId} {n : Fin 16} {v : W32} (h : Keeps s₀ s) : Next s₀ (Machine.execPrEnable src n v s) :=
  h.prCtrlWrite.next

theorem Keeps.execPrDisable {src : NodeId} {n : Fin 16} {v : W32} (h : Keeps s₀ s) :
    Next s₀ (Machine.execPrDisable src n v s) :=
  h.prCtrlWrite.next

/-! ### Machine/Sched.lean -/

theorem Keeps.addCause {i cause : Nat} (h : Keeps s₀ s) : Keeps s₀ (s.addCause i cause) := h.modStream

theorem Keeps.switchOut {c live pc : Nat} {wait : Option (BitVec 5)} (h : Keeps s₀ s) :
    Keeps s₀ (s.switchOut c live pc wait) := by
  unfold State.switchOut
  extract_lets _ _
  split
  · exact h
  · exact h.scratchPut.modCore fun _ w => w

theorem Keeps.switchIn {c n : Nat} (h : Keeps s₀ s) : Keeps s₀ (s.switchIn c n) := by
  unfold State.switchIn
  exact .ite (h.setCore fun w => (Core.memWf_tilePut _ _ _).trans ((Core.memWf_restoreBytes _ _).trans (State.memWf_core w c)))
    (h.setCore fun w => Core.memWf_congr rfl rfl (State.memWf_core w c))

theorem Keeps.resolveBeat {c : Nat} (h : Keeps s₀ s) : Keeps s₀ (s.resolveBeat c) := by
  unfold State.resolveBeat
  extract_lets k
  split
  next n rd _ _ =>
    split
    · exact h
    next slot l _ =>
      refine .ite ?_ ?_
      · refine Keeps.setFlag (Keeps.count (h.setCore fun w => Core.memWf_congr (k.xSet_scratch _ _) (k.xSet_store _ _)
            (State.memWf_core w c)))
      · exact (h.setCore fun w => Core.memWf_congr (k.xSet_scratch _ _) (k.xSet_store _ _) (State.memWf_core w c))
  · exact h

theorem Keeps.notePreempt {since : W64} (h : Keeps s₀ s) : Keeps s₀ (s.notePreempt since) := h.setReg

theorem Keeps.askPreempt {c : Nat} (h : Keeps s₀ s) : Keeps s₀ (s.askPreempt c) := h.modCore fun _ w => w

theorem Keeps.resched {c : Nat} (h : Keeps s₀ s) : Keeps s₀ (s.resched c) := by
  unfold State.resched
  extract_lets _
  split
  · exact h
  · exact h.switchIn.resolveBeat
  · exact h
  · split
    · exact .ite (Keeps.resolveBeat (h.setCore fun w => State.memWf_core w _)) (.ite h.askPreempt
          h.switchOut.switchIn.notePreempt.resolveBeat)
    · exact .ite h.askPreempt h

/-! ### Machine/Flags.lean -/

theorem Keeps.countTally {c : Nat} {t' : Machine.Tally} (h : Keeps s₀ s) : Keeps s₀ (s.countTally c t') := by
  unfold State.countTally
  exact .ite h.count.count.count h.count.count

theorem Keeps.layerAdd {c : Nat} {t' : Machine.Tally} (h : Keeps s₀ s) : Keeps s₀ (s.layerAdd c t') := h.setReg.count.count

theorem Keeps.tileRecord {c tile : Nat} {t' : Machine.Tally} (h : Keeps s₀ s) : Keeps s₀ (s.tileRecord c tile t') :=
  h.setReg.setReg.layerAdd.countTally

theorem Keeps.layerClear {c : Nat} (h : Keeps s₀ s) : Keeps s₀ (s.layerClear c) := h.setReg.setReg.setReg

theorem Keeps.tileClear {c : Nat} (h : Keeps s₀ s) : Keeps s₀ (s.tileClear c) := h.foldl fun _ _ h => h.setReg.setReg

theorem Keeps.execStatCtrlLayerClear {c : CoreId} (h : Keeps s₀ s) : Next s₀ (Machine.execStatCtrlLayerClear c s) :=
  h.layerClear.next

theorem Keeps.execStatCtrlTileClear {c : CoreId} (h : Keeps s₀ s) : Next s₀ (Machine.execStatCtrlTileClear c s) :=
  h.tileClear.next

/-! ### Machine/Vector.lean -/

theorem Keeps.countFree {page off : Nat} (h : Keeps s₀ s) : Keeps s₀ (s.countFree page off) := by
  unfold State.countFree
  split
  next _ _ _ heq =>
    have h₁ := h.draw.of_eq₂ heq
    exact h₁.count

theorem memWf_writeRow (op : TileOp) (w : TileWord) (src : Core) (n i : Nat) (sc : Nat → W32) (outs : List LaneOut)
    (acc : Core × Tally) : (writeRow op w src n i sc outs acc).1.memWf = acc.1.memWf := by
  refine foldl_keeps (fun b : Core × Tally => b.1.memWf = acc.1.memWf) _ _ rfl fun b e hb => ?_
  dsimp only
  split
  · exact hb
  · exact (Core.memWf_putElem ..).trans hb
  · exact (Core.memWf_putElem ..).trans hb
  · exact (Core.memWf_putElem ..).trans hb

theorem Keeps.vecWrite {c : Nat} {op : Machine.TileOp} {w : TileWord} {rows : List Nat} {outs : Nat → List Machine.LaneOut}
    (h : Keeps s₀ s) : Keeps s₀ (s.vecWrite c op w rows outs) := by
  unfold State.vecWrite
  extract_lets k
  split
  next k' t heq =>
    have hk : k'.memWf = k.memWf := by
      rw [show k' = (k', t).1 from rfl, ← heq]
      refine foldl_keeps (fun b : Core × Tally => b.1.memWf = k.memWf) _ _ rfl fun acc i e => ?_
      split
      · exact (memWf_writeRow ..).trans ((Core.memWf_tilePut _ _ _).trans e)
      · exact (memWf_writeRow ..).trans e
    have h₁ := Keeps.setCore₀ (c := c) h fun w => hk.trans (State.memWf_core (h.memWf w) c)
    exact .ite (Keeps.tileRecord (h₁.frame rfl)) (h₁.frame rfl)

theorem Keeps.putSum {c : Nat} {w : TileWord} {v : Nat} (h : Keeps s₀ s) : Keeps s₀ (s.putSum c w v) := h.modCore fun _ w => w

theorem Keeps.putMask {c : Nat} {w : TileWord} {v : W32} (h : Keeps s₀ s) : Keeps s₀ (s.putMask c w v) := h.modCore fun _ w => w

theorem Keeps.vecMap {c : Nat} {op : Machine.TileOp} {w : TileWord} {f : Nat → Nat → W32} (h : Keeps s₀ s) :
    Keeps s₀ (s.vecMap c op w f) :=
  h.vecWrite

theorem Keeps.runPerm {c : Nat} {op : Machine.TileOp} {w : TileWord} (h : Keeps s₀ s) : Keeps s₀ (s.runPerm c op w) := by
  unfold State.runPerm
  exact .ite h.vecWrite h.vecWrite.countFld.count.setFlag

theorem Keeps.runFun {c : Nat} {w : TileWord} (h : Keeps s₀ s) : Keeps s₀ (s.runFun c w) := by
  unfold State.runFun
  exact .ite h.vecMap h.vecMap.count.setFlag

theorem Keeps.runCmp {c : Nat} {w : TileWord} (h : Keeps s₀ s) : Keeps s₀ (s.runCmp c w) := h.vecMap.putMask.putSum

theorem Keeps.runSmax {c : Nat} {w : TileWord} (h : Keeps s₀ s) : Keeps s₀ (s.runSmax c w) := by
  unfold State.runSmax
  exact .ite (.ite h.vecWrite.putMask.putSum h.vecWrite.putMask.putSum.count.setFlag) (Keeps.setFlag (Keeps.count (Keeps.ite
      h.vecWrite.putMask.putSum h.vecWrite.putMask.putSum.count.setFlag)))

theorem Keeps.runRed {c : Nat} {w : TileWord} (h : Keeps s₀ s) : Keeps s₀ (s.runRed c w) := by
  unfold State.runRed
  exact .ite h.vecWrite h.vecWrite

theorem Keeps.runVector {c : Nat} {op : Machine.TileOp} {w : TileWord} (h : Keeps s₀ s) : Keeps s₀ (s.runVector c op w) := by
  unfold State.runVector
  extract_lets _
  split
  · exact h.runCmp
  · exact .ite h.vecMap h.vecWrite
  · exact h.vecMap
  · exact h.runFun
  · exact h.runPerm
  · exact h.runPerm
  · exact h.vecWrite.putSum
  · exact h.vecWrite
  · exact h.runRed
  · exact h.putSum
  · exact h.runSmax
  · exact h.vecMap
  · exact h.vecMap
  · exact h.vecMap
  · exact h.vecMap
  · exact h.vecMap
  · exact h.vecMap
  · exact h.putMask

/-! ### Machine/Scan.lean -/

theorem Keeps.keepImage {c region x : Nat} (h : Keeps s₀ s) : Keeps s₀ (s.keepImage c region x) := by
  unfold State.keepImage
  exact .ite (h.frame rfl) h

theorem Keeps.writeGroup {c region x g : Nat} {codes : List Byte} {sc8 : Byte} (h : Keeps s₀ s) :
    Keeps s₀ (s.writeGroup c region x g codes sc8) :=
  h.keepImage.modCore fun _ w => Core.memWf_putGroup _ _ _ _ _ w

theorem Keeps.stateUe {c region x g : Nat} {scanRead : Bool} {ctx : Nat} (h : Keeps s₀ s) :
    Keeps s₀ (s.stateUe c region x g scanRead ctx) := by
  unfold State.stateUe
  extract_lets _ s₁ s₂ s₃ s₄
  have h₁ : Keeps s₀ s₁ := h.countFld
  have h₂ : Keeps s₀ s₂ := h₁.setReg
  have h₃ : Keeps s₀ s₃ := .ite h₂.setFlag h₂
  have h₄ : Keeps s₀ s₄ := by
    unfold s₄
    split
    · exact h₃.addCause
    · exact h₃
  exact h₄.raiseMech

theorem Keeps.groupRead {c region x g : Nat} {ecc : Ecc} {scanRead : Bool} {ctx : Nat} (h : Keeps s₀ s) :
    Keeps s₀ (s.groupRead c region x g ecc scanRead ctx).2 := by
  unfold State.groupRead
  split
  · exact h
  · exact h.correctedError
  · exact h.stateUe

theorem Keeps.groupReads {c region x : Nat} {scanRead : Bool} {ctx : Nat} {gs : List Nat} {ecc : List Ecc} (h : Keeps s₀ s) :
    Keeps s₀ (s.groupReads c region x scanRead ctx gs ecc).2 := by
  induction gs generalizing s ecc with
  | nil => exact h
  | cons g r ih => exact ih h.groupRead

theorem Keeps.wbRecord {c : Nat} {t' : Machine.Tally} (h : Keeps s₀ s) : Keeps s₀ (s.wbRecord c t') := by
  unfold State.wbRecord
  exact .ite h.layerAdd.countTally h.layerAdd.countTally.setFlag

theorem Keeps.noteShadow {c region x : Nat} (h : Keeps s₀ s) : Keeps s₀ (s.noteShadow c region x) := by
  unfold State.noteShadow
  exact .ite (h.frame rfl) h

theorem Keeps.shadowRead {c region x : Nat} (h : Keeps s₀ s) : Keeps s₀ (s.shadowRead c region x) := by
  unfold State.shadowRead
  extract_lets _ _
  split
  · exact h
  · split
    · exact h
    · extract_lets _ _ s₁
      have h₁ : Keeps s₀ s₁ := .ite h h.count
      exact .ite h (h₁.frame rfl)

theorem Keeps.scanCarry {c : Nat} {e : Machine.QEntry} (h : Keeps s₀ s) : Keeps s₀ (s.scanCarry c e).2 := by
  unfold State.scanCarry
  extract_lets _ _ _ _
  split
  · split
    · exact h
    · split
      · split
        next _ _ _ heq =>
          have h₁ := h.groupRead.of_eq₂ heq
          exact h₁
  · exact h
  · exact h

theorem Keeps.runScanWord {c : Nat} {e : Machine.QEntry} (h : Keeps s₀ s) : Keeps s₀ (s.runScanWord c e) := by
  unfold State.runScanWord
  extract_lets k w n half
  split
  next hin t₁ heq =>
    have h₁ := h.scanCarry.of_eq₂ heq
    extract_lets rows _ t₂ t₃ r t₄
    have h₂ : Keeps s₀ t₂ := by
      unfold t₂
      split
      · exact h₁
      · have hrows : Keeps s₀ (t₁.modCore c fun k => rows.zipIdx.foldl (fun (k : Core) (r : List W32 × Nat) =>
            k.putRow (w.f 55 2 == 2) w.ta.toNat r.2 r.1) k) :=
          h₁.modCore fun k w => (Core.memWf_foldl (fun j _ => j.memWf_putRow _ _ _ _) _ k).trans w
        exact .ite hrows.tileRecord hrows
    have h₃ : Keeps s₀ t₃ := h₂.count
    have h₄ : Keeps s₀ t₄ := h₃.frame rfl
    split
    · split
      · exact h₄.writeGroup.noteShadow.wbRecord
    · exact h₃

theorem Keeps.runShift {c : Nat} {e : Machine.QEntry} (h : Keeps s₀ s) : Keeps s₀ (s.runShift c e) := by
  unfold State.runShift
  extract_lets _ _ _ _ _ _ _ _ _ _ _ _
  split
  next _ _ _ heq =>
    exact (h.groupReads.of_eq₂ heq).modCore fun k w => (Core.memWf_foldl (fun j _ => j.memWf_putRow _ _ _ _) _ k).trans w

theorem Keeps.runSave {c : Nat} {e : Machine.QEntry} (h : Keeps s₀ s) : Keeps s₀ (s.runSave c e) := by
  unfold State.runSave
  extract_lets
  split
  next _ _ _ heq =>
    have h₁ := h.groupReads.of_eq₂ heq
    split
    next _ s₂ t heq₂ =>
      have h₂ : Keeps s₀ s₂ := by
        rw [show s₂ = (s₂, t).1 from rfl, ← heq₂]
        refine foldl_keeps (fun b : State × Tally => Keeps s₀ b.1) _ _ h₁ fun ⟨_, _⟩ _ h => ?_
        dsimp only
        split
        · exact h.writeGroup
        · exact Keeps.writeGroup (h.frame rfl)
      exact h₂.wbRecord

theorem Keeps.runPort {c : Nat} {e : Machine.QEntry} (h : Keeps s₀ s) : Keeps s₀ (s.runPort c e) := by
  unfold State.runPort
  extract_lets _ _ _ _ _ _ s₁ s₂
  have h₁ : Keeps s₀ s₁ := h.foldl fun _ _ h => h.writeGroup
  have h₂ : Keeps s₀ s₂ := h.foldl fun _ _ h => h.writeGroup
  split
  · split
    next _ _ _ heq =>
      have h₃ := h.groupReads.of_eq₂ heq
      refine h₃.modCore fun k w => (Core.memWf_tilePut _ _ _).trans ((Core.memWf_foldl (fun j i => ?_) _ k).trans w)
      exact (Core.memWf_tilePut _ _ _).trans (Core.memWf_tilePut _ _ _)
  · exact h₁.noteShadow
  · exact h₂.noteShadow

theorem Keeps.runScan {c : Nat} {e : Machine.QEntry} (h : Keeps s₀ s) : Keeps s₀ (s.runScan c e) := by
  unfold State.runScan
  extract_lets s₁
  have h₁ : Keeps s₀ s₁ := .ite h.shadowRead h
  split
  · exact h₁.runScanWord
  · exact h₁.runShift
  · exact h₁.runSave
  · exact h₁.runPort

theorem Keeps.cutWord {c : Nat} {e : Machine.QEntry} (h : Keeps s₀ s) : Keeps s₀ (s.cutWord c e) := by
  unfold State.cutWord
  split
  · exact h
  · extract_lets _ r₁
    exact Keeps.foldl (Keeps.frame (h.draw (w := 16)) rfl) fun _ _ h => h.writeGroup

theorem Keeps.cutScan {c : Nat} {p : Machine.QEntry → Bool} (h : Keeps s₀ s) : Keeps s₀ (s.cutScan c p) :=
  h.foldl fun _ _ h => h.cutWord

/-! ### Machine/Quench.lean -/

theorem Keeps.complete {q : QueueId} {id : W32} {opcode status r0 r1 : Nat} (h : Keeps s₀ s) :
    Keeps s₀ (s.complete q id opcode status r0 r1) :=
  h.frame rfl

theorem Keeps.copyFailed {i o : Nat} (h : Keeps s₀ s) : Keeps s₀ (s.copyFailed i o) := by
  unfold State.copyFailed
  exact .ite h.modStream h.modStream.addCause

theorem Keeps.dumpLanded {serial st : Nat} (h : Keeps s₀ s) : Keeps s₀ (s.dumpLanded serial st) := by
  unfold State.dumpLanded
  extract_lets _
  split
  · split
    · exact .ite h (h.frame rfl)
    · exact h
  · exact h

theorem Keeps.listLanded {list off len st : Nat} {l : List Byte} (h : Keeps s₀ s) : Keeps s₀ (s.listLanded list off len st l) :=
  h.frame rfl

theorem Keeps.purgeCore {c n : Nat} (h : Keeps s₀ s) : Keeps s₀ (s.purgeCore c n) := by
  unfold State.purgeCore
  exact .ite (Keeps.setCore (h.cutScan.frame rfl) fun w => State.memWf_core w _) (h.cutScan.setCore fun w => State.memWf_core
      w _)

theorem Keeps.abandonCtx {n : Nat} (h : Keeps s₀ s) : Keeps s₀ (s.abandonCtx n) := by
  unfold State.abandonCtx
  extract_lets s₁
  have h₁ : Keeps s₀ s₁ := h.dropWaiting
  refine h₁.foldl fun _ _ h₂ => ?_
  split
  · exact .ite h₂.abandonTag h₂
  · exact h₂

theorem Keeps.failReplay {n : Nat} (h : Keeps s₀ s) : Keeps s₀ (s.failReplay n) := by
  unfold State.failReplay
  extract_lets s₁ _ s₂
  have h₁ : Keeps s₀ s₁ := h.count
  have h₂ : Keeps s₀ s₂ := h₁.frame rfl
  split
  · exact .ite h₂.logEvent h
  · exact h

theorem Keeps.quenchDone {n : Nat} (h : Keeps s₀ s) : Keeps s₀ (s.quenchDone n) := by
  unfold State.quenchDone
  extract_lets _ s₁ s₂
  have h₁ : Keeps s₀ s₁ := h.foldl fun _ _ h => h.complete
  have h₂ : Keeps s₀ s₂ := h₁.foldl fun _ _ h => h.complete
  exact h₂.modCtx

theorem Keeps.quenchNow {n cause : Nat} (h : Keeps s₀ s) : Keeps s₀ (s.quenchNow n cause) := by
  unfold State.quenchNow
  split
  · exact h
  · exact h
  · extract_lets s₁ _ s₂ s₃ s₄ s₅ s₆ _ s₇ s₈ s₉
    have h₂ : Keeps s₀ s₂ := h.logEvent.foldl fun _ _ h => .ite h.purgeCore h
    have h₃ : Keeps s₀ s₃ := h₂.abandonCtx
    clear_value s₃
    have h₄ : Keeps s₀ s₄ := h₃.frame rfl
    have h₆ : Keeps s₀ s₆ := h₄.modCtx.foldl fun _ _ h => .ite h.addCause h
    clear_value s₆
    have h₇ : Keeps s₀ s₇ := h₆.frame rfl
    exact h₇.failReplay.quenchDone.foldl fun _ _ h => h.resched

theorem Keeps.execQuench {ctx : CtxId} {cause : QuenchCause} (h : Keeps s₀ s) : Next s₀ (Machine.execQuench ctx cause s) :=
  h.quenchNow.next

/-! ### Machine/Semaphores.lean -/

theorem Keeps.respond {p : Packet} {ttype status : Nat} {operand : W64} {data : List Byte} (h : Keeps s₀ s) :
    Keeps s₀ (s.respond p ttype status operand data) :=
  h.send

theorem Keeps.addWait {w : Machine.WaitRec} (h : Keeps s₀ s) : Keeps s₀ (s.addWait w) := by
  unfold State.addWait
  exact .ite (h.frame rfl) h.count

theorem Keeps.endWaits {f : Machine.WaitRec → Bool} (h : Keeps s₀ s) : Keeps s₀ (s.endWaits f) := h.frame rfl

theorem Keeps.agentWait {unit : Nat} {obj : W64} {ctx : Option CtxId} (h : Keeps s₀ s) :
    Keeps s₀ (s.agentWait unit obj ctx) := by
  unfold State.agentWait
  exact .ite h h.addWait

theorem Keeps.agentDone {unit : Nat} {obj : W64} (h : Keeps s₀ s) : Keeps s₀ (s.agentDone unit obj) := h.frame rfl

theorem Keeps.addHolder {sem node ctx count : Nat} (h : Keeps s₀ s) : Keeps s₀ (s.addHolder sem node ctx count) := by
  unfold State.addHolder
  exact .ite (h.frame rfl) (.ite (h.frame rfl) h.count)

theorem Keeps.dropHolder {sem node ctx count : Nat} (h : Keeps s₀ s) : Keeps s₀ (s.dropHolder sem node ctx count) := h.frame rfl

theorem Keeps.localGrant {p : Packet} (h : Keeps s₀ s) : Keeps s₀ (s.localGrant p) := by
  unfold State.localGrant
  split
  · exact .ite h.endWaits.freeTag h.count
  · exact h.count

theorem Keeps.grant {w : Machine.SemWaiter} (h : Keeps s₀ s) : Keeps s₀ (s.grant w) := by
  unfold State.grant
  exact .ite (Keeps.localGrant (Keeps.ite h.setSem.addHolder h.setSem)) (Keeps.respond (Keeps.ite h.setSem.addHolder h.setSem))

theorem Keeps.grantFrom {ws : List Machine.SemWaiter} {blocked : List Nat} (h : Keeps s₀ s) :
    Keeps s₀ (s.grantFrom ws blocked) := by
  induction ws generalizing s blocked with
  | nil => exact h
  | cons w r ih =>
    unfold State.grantFrom
    split
    · exact ih h
    · split
      · exact ih (Keeps.grant (h.frame rfl))
      · exact ih h

theorem Keeps.grantAll (h : Keeps s₀ s) : Keeps s₀ s.grantAll := h.grantFrom

theorem Keeps.semSignal {n count : Nat} {who : Option (Nat × Nat)} (h : Keeps s₀ s) : Keeps s₀ (s.semSignal n count who) := by
  unfold State.semSignal
  extract_lets _ s₁ s₂ s₃
  have h₁ : Keeps s₀ s₁ := h.setSem
  have h₂ : Keeps s₀ s₂ := .ite h₁.count.pgErr h₁
  have h₃ : Keeps s₀ s₃ := by
    unfold s₃
    split
    · exact h₂.dropHolder
    · exact h₂
  exact h₃.grantAll

theorem Keeps.semWait {n count : Nat} {req : Packet} (h : Keeps s₀ s) : Keeps s₀ (s.semWait n count req).2 := by
  unfold State.semWait
  extract_lets _ s₁
  have h₁ : Keeps s₀ s₁ := h.count.irq
  split
  · exact h.grant
  · split
    · exact h.frame rfl
    · exact .ite h₁ h₁.respond

theorem Keeps.semCancel {n node tag : Nat} (h : Keeps s₀ s) : Keeps s₀ (s.semCancel n node tag).2 := by
  unfold State.semCancel
  extract_lets _ _
  split
  · exact Keeps.grantAll (h.frame rfl)
  · exact h

theorem Keeps.signalGlobal {a : W64} {count : Nat} {who : Option CtxId} (h : Keeps s₀ s) :
    Keeps s₀ (s.signalGlobal a count who) := by
  unfold State.signalGlobal
  extract_lets _ _ _
  split
  · split
    · exact h.semSignal
    · exact h
  · split
    · exact h
    · exact h.request

/-! ### Machine/Queues.lean -/

theorem Keeps.noteEntry {q : Nat} (h : Keeps s₀ s) : Keeps s₀ (s.noteEntry q) := by
  unfold State.noteEntry
  exact .ite h.setQueue h

theorem Keeps.fireQueue {q : Nat} (h : Keeps s₀ s) : Keeps s₀ (s.fireQueue q) := h.modQueue.fireVector

theorem Keeps.overrun {i : Nat} (h : Keeps s₀ s) : Keeps s₀ (s.overrun i) :=
  h.count.setFlag.setStream

theorem Keeps.pushRefused {q : Nat} (h : Keeps s₀ s) : Keeps s₀ (s.pushRefused q) := by
  unfold State.pushRefused
  exact .ite h.count.setFlag.modQueue h.count.setFlag

theorem Keeps.slotDone {q : Nat} {pushed : Bool} (h : Keeps s₀ s) : Keeps s₀ (s.slotDone q pushed) := by
  unfold State.slotDone
  exact .ite h (Keeps.noteEntry (Keeps.ite h.modQueue.count h.modQueue))

theorem Keeps.slotsDone {fuel : Nat} (h : Keeps s₀ s) : Keeps s₀ (s.slotsDone fuel) := by
  induction fuel generalizing s with
  | zero => exact h
  | succ fuel ih =>
    unfold State.slotsDone
    split
    · exact h
    next w _ =>
      have h₁ := Keeps.agentDone (unit := Page.queueMgr) (obj := BitVec.ofNat 64 w.serial) (Keeps.slotDone (q := w.queue)
          (pushed := w.pushed) (h.frame (t := { s with qm := { s.qm with writes := s.qm.writes.filter fun v => v.serial !=
          w.serial } }) rfl))
      extract_lets s₁ s₂
      refine ih ?_
      split
      · exact h₁.respond
      · exact h₁

theorem Keeps.slotAcked {serial : Nat} (h : Keeps s₀ s) : Keeps s₀ (s.slotAcked serial) := Keeps.slotsDone (h.frame rfl)

theorem Keeps.writeSlotOf {q : Nat} {pushed : Bool} {answer : Option Packet} {bytes : Nat → List Byte}
    (h : Keeps s₀ s) : Keeps s₀ (s.writeSlotOf q pushed answer bytes).2 := by
  unfold State.writeSlotOf
  extract_lets _ _ _ _ _ _ _ s₁ s₂ _
  have h₁ : Keeps s₀ s₁ := h.frame rfl
  have h₂ : Keeps s₀ s₂ := h₁.agentWait
  split
  · exact h.writeSpan.slotDone
  · split
    · exact h.slotDone
    · exact h₂.foldl fun _ _ h => h.request

theorem Keeps.pushFor {q src : Nat} {own : Bool} {payload : List Byte} {answer : Option Packet}
    (h : Keeps s₀ s) : Keeps s₀ (s.pushFor q src own payload answer).2 := by
  unfold State.pushFor
  extract_lets _ s₁ s₂
  have h₁ : Keeps s₀ s₁ := h.setQueue
  have h₂ : Keeps s₀ s₂ := by
    unfold s₂
    split
    · split
      · exact h₁.overrun
      · exact h₁.count.setFlag
    · exact h
  split
  · exact h.pushRefused
  · split
    · exact h.pushRefused
    · split
      · exact h.pushRefused
      · split
        next _ _ _ heq =>
          have h₃ := h₂.writeSlotOf.of_eq₂ heq
          exact h₃

theorem Keeps.push {q src : Nat} {own : Bool} {payload : List Byte} (h : Keeps s₀ s) :
    Keeps s₀ (s.push q src own payload).2 := by
  unfold State.push
  split
  next _ _ _ heq =>
    have h₁ := h.pushFor.of_eq₂ heq
    exact h₁

theorem Keeps.doorbell {src q : Nat} {v : W64} (h : Keeps s₀ s) : Keeps s₀ (s.doorbell src q v).2 := by
  unfold State.doorbell
  extract_lets _ _ _
  split
  · exact h
  · split
    · exact h.count.setFlag
    · split
      · split
        · exact h.setQueue
        · exact h.count.setFlag
      · split
        · exact h.setQueue
        · exact h.count.setFlag

theorem Keeps.execDoorbell {src : NodeId} {q : QueueId} {v : W64} (h : Keeps s₀ s) : Next s₀ (Machine.execDoorbell src q v s) :=
  h.doorbell.next

theorem Keeps.execVectorFire {q : QueueId} (h : Keeps s₀ s) : Next s₀ (Machine.execVectorFire q s) := by
  unfold Machine.execVectorFire
  exact .ite h.fireQueue.next h.next

theorem Keeps.execCoalesceTimeout {q : QueueId} (h : Keeps s₀ s) : Next s₀ (Machine.execCoalesceTimeout q s) := by
  unfold Machine.execCoalesceTimeout
  split
  · exact h.reach.fireQueue.next
  · exact h.next

theorem Keeps.vecCtrlWrite {v : Nat} {w : W32} (h : Keeps s₀ s) : Keeps s₀ (s.vecCtrlWrite v w) := by
  unfold State.vecCtrlWrite
  extract_lets _ _
  split
  · exact h
  · exact .ite (.ite h.setReg.setFlag.writeRemote h.setReg.setFlag.count) h.setReg

theorem Keeps.execVecUnmask {_src : NodeId} {v : Fin 128} (h : Keeps s₀ s) : Next s₀ (Machine.execVecUnmask _src v s) :=
  h.vecCtrlWrite.next

theorem Keeps.execCompletionWrite {q : QueueId} (h : Keeps s₀ s) : Next s₀ (Machine.execCompletionWrite q s) := by
  unfold Machine.execCompletionWrite
  extract_lets _
  split
  · exact h.next
  · exact .ite (Keeps.next (h.frame rfl)) (.ite h.setFlag.next (Keeps.next (Keeps.writeSlotOf (h.frame rfl))))

theorem Keeps.adminEnable {src : Nat} {v : W32} (h : Keeps s₀ s) : Keeps s₀ (s.adminEnable src v) := by
  unfold State.adminEnable
  exact .ite h.writeRefused (.ite h (.ite h.setQueue.setQueue.setFlag h.writeRefused))

theorem Keeps.execQmAdminEnable {src : NodeId} {v : W32} (h : Keeps s₀ s) : Next s₀ (Machine.execQmAdminEnable src v s) :=
  h.adminEnable.next

/-! ### Machine/Rings.lean -/

theorem Keeps.audioPut {o : Nat} {l : List Byte} (h : Keeps s₀ s) : Keeps s₀ (s.audioPut o l) :=
  h.foldl fun t e h => h.mems rfl rfl (State.memWf_audioPut (s := t) (o + e.2) [e.1])

theorem Keeps.putSample {d : Machine.RingShape} {f c : Nat} {v : W32} (h : Keeps s₀ s) : Keeps s₀ (s.putSample d f c v) :=
  h.audioPut

theorem Keeps.blockFlag {d : Machine.RingShape} {f m : Nat} (h : Keeps s₀ s) : Keeps s₀ (s.blockFlag d f m) := h.audioPut

theorem Keeps.audioEcc {e : Ecc} (h : Keeps s₀ s) : Keeps s₀ (s.audioEcc e) := by
  unfold State.audioEcc
  split
  · exact h
  · exact h.correctedError
  · exact h.countFld.raiseMech

/-! ### Machine/Streams.lean -/

theorem Keeps.inRecord {q i : Nat} (h : Keeps s₀ s) : Keeps s₀ (s.inRecord q i).2.2 := by
  unfold State.inRecord
  extract_lets _
  split
  next _ _ _ _ heq =>
    have h₁ := h.readSpan.of_eq₃ heq
    exact h₁

theorem Keeps.completeAux {i : Nat} {k : W64} {n idx : Nat} (h : Keeps s₀ s) : Keeps s₀ (s.completeAux i k n idx).2 := by
  induction n generalizing s idx with
  | zero => exact h
  | succ n ih =>
    unfold State.completeAux
    extract_lets x q
    split
    · exact h
    · split
      next r t s₁ heq =>
        have h₁ : Keeps s₀ s₁ := h.inRecord.of_eq₃ heq
        split
        · split
          next l s₂ heq => exact (ih h₁).of_eq₂ heq
        · exact h₁

theorem Keeps.dropRecord {i : Nat} (h : Keeps s₀ s) : Keeps s₀ (s.dropRecord i) := h.modQueue

theorem Keeps.dropHead {i : Nat} (h : Keeps s₀ s) : Keeps s₀ (s.dropHead i) := by
  unfold State.dropHead
  extract_lets _
  split
  · exact h.setStream
  · exact h.dropRecord

theorem Keeps.dropEarly {i : Nat} {k : W64} {fuel : Nat} (h : Keeps s₀ s) : Keeps s₀ (s.dropEarly i k fuel) := by
  induction fuel generalizing s with
  | zero => exact h
  | succ fuel ih =>
    unfold State.dropEarly
    extract_lets x q
    split
    · exact h
    · split
      next r t s₁ heq =>
        have h₁ : Keeps s₀ s₁ := h.inRecord.of_eq₃ heq
        exact .ite (ih h₁.dropRecord) h₁

theorem Keeps.ringRead {i f0 : Nat} {ecc : List RingFault} (h : Keeps s₀ s) : Keeps s₀ (s.ringRead i f0 ecc).2 :=
  h.foldl fun _ _ h => .ite h.audioEcc.blockFlag h.audioEcc

theorem Keeps.fetchPayload {i : Nat} {a : W64} {len : Nat} (h : Keeps s₀ s) : Keeps s₀ (s.fetchPayload i a len) :=
  h.foldl fun _ _ h => h.request

theorem Keeps.copyInput {i : Nat} {r : Machine.ChunkRec} {primary : Bool} {ecc : List RingFault}
    (h : Keeps s₀ s) : Keeps s₀ (s.copyInput i r primary ecc).2 := by
  unfold State.copyInput
  extract_lets _ _ _
  split
  · exact h.ringRead
  · split
    · split
      next _ _ _ _ heq =>
        have h₁ := h.readUntil.of_eq₃ heq
        exact .ite h₁ h₁.addCause
    · split
      · exact .ite h.addCause h
      · exact h.fetchPayload

theorem Keeps.admitChunk {i : Nat} {r : Machine.ChunkRec} {primary : Bool} {ecc : List RingFault}
    (h : Keeps s₀ s) : Keeps s₀ (s.admitChunk i r primary ecc) := by
  unfold State.admitChunk
  extract_lets _ old pend _ s₁ s₂
  have h₂ : Keeps s₀ s₂ := h.dropHead.modStream
  split
  next l s₃ heq =>
    have h₃ : Keeps s₀ s₃ := by
      cases hold : old with
      | none => rw [hold] at heq; exact h₂.copyInput.of_eq₂ heq
      | some c => rw [hold] at heq; exact Keeps.of_eq₂ h₂ heq
    exact h₃.modStream

theorem Keeps.trimOne {i : Nat} (h : Keeps s₀ s) : Keeps s₀ (s.trimOne i) := by
  unfold State.trimOne
  exact .ite h.dropHead.count.modStream h.dropHead.overrun

theorem Keeps.trim {i keep : Nat} {l : List Machine.ChunkRec} (h : Keeps s₀ s) : Keeps s₀ (s.trim i keep l).2 := by
  induction l generalizing s with
  | nil => exact h
  | cons c t ih =>
    unfold State.trim
    split
    · exact h
    · exact ih h.trimOne

theorem Keeps.admitAll {i : Nat} {k : W64} {ecc : List RingFault} (h : Keeps s₀ s) : Keeps s₀ (s.admitAll i k ecc) := by
  unfold State.admitAll
  extract_lets s₁ _ _ _ _ _ _ _
  have h₁ : Keeps s₀ s₁ := h.dropEarly
  split
  · exact h₁
  · split
    next _ s₂ heq =>
      have h₂ : Keeps s₀ s₂ := h₁.completeAux.of_eq₂ heq
      split
      next _ s₃ heq =>
        have h₃ : Keeps s₀ s₃ := h₂.trim.of_eq₂ heq
        extract_lets s₄
        have h₄ : Keeps s₀ s₄ := h₃.dropHead
        split
        · exact .ite h₃ h₃.addCause
        · exact .ite (.ite h₄ h₄.addCause) h₃.admitChunk

theorem Keeps.cutoffOf {n : Nat} {k : W64} {ecc : List RingFault} (h : Keeps s₀ s) : Keeps s₀ (s.cutoffOf n k ecc) := by
  unfold State.cutoffOf
  extract_lets s₁ s₂
  have h₁ : Keeps s₀ s₁ := h.foldl fun _ _ h => h.admitAll
  have h₂ : Keeps s₀ s₂ := by
    unfold s₂
    refine h₁.foldl fun _ _ h₃ => ?_
    extract_lets _
    split
    · split
      · exact h₃.setStream
      · exact h₃
    · exact h₃
  exact h₂.modCtx.agentWait

theorem Keeps.writeLists {n bar : Nat} {cut : W64} (h : Keeps s₀ s) : Keeps s₀ (s.writeLists n bar cut) := by
  unfold State.writeLists
  extract_lets _ s₁
  have h₁ : Keeps s₀ s₁ := h.foldl fun _ _ h => h.modStream
  refine h₁.foldl fun _ _ h₂ => ?_
  refine h₂.foldl fun _ _ h₃ => ?_
  extract_lets s₄
  have h₄ : Keeps s₀ s₄ := h₃.scratchPut
  split
  · refine h₄.foldl fun _ _ h₅ => ?_
    split
    · exact h₅.scratchPut
    · exact h₅
  · exact h₄

theorem Keeps.execWorkListReady {ctx : CtxId} (h : Keeps s₀ s) : Next s₀ (Machine.execWorkListReady ctx s) := by
  unfold Machine.execWorkListReady
  extract_lets _ _
  split
  · exact h.next
  · exact .ite h.next (Keeps.next (Keeps.foldl (Keeps.ite (h.writeLists.agentDone.modCtx.setFld.foldl fun _ _ h => h.foldl
        fun _ _ h => h.modCore fun _ w => w) h.writeLists.agentDone.modCtx.setFld) fun _ _ h => h.resched))

theorem Keeps.reportEnd {c : Nat} (h : Keeps s₀ s) : Keeps s₀ (s.reportEnd c) := by
  unfold State.reportEnd
  split
  · exact h
  · exact .ite h.modCtx (h.modCtx.foldl fun _ _ h => .ite h h.addCause)

theorem Keeps.writeSlot {x : Machine.Stream} {slot : Nat} {y : List (List ℤ)} (h : Keeps s₀ s) :
    Keeps s₀ (s.writeSlot x slot y) := by
  unfold State.writeSlot
  exact .ite h (h.foldl fun _ _ h => Keeps.modRing (h.foldl fun _ _ h => h.putSample))

theorem Keeps.commitRing {i : Nat} {t' : W64} {ok : Bool} {wasRun : Nat} (h : Keeps s₀ s) :
    Keeps s₀ (s.commitRing i t' ok wasRun) := by
  unfold State.commitRing
  extract_lets _ _ _ _ _ _ _ s₁ _ _ _ s₂ _
  have h₁ : Keeps s₀ s₁ := .ite h h.count.setFlag
  have h₂ : Keeps s₀ s₂ := h₁.setStream
  split
  · exact h₂.writeSlot
  · exact h₂

theorem Keeps.commitQueue {i cause : Nat} {ok : Bool} {bar : Nat} (h : Keeps s₀ s) : Keeps s₀ (s.commitQueue i cause ok bar) :=
  h.setStream.agentWait

theorem Keeps.expectSlot {i : Nat} {t' : W64} (h : Keeps s₀ s) : Keeps s₀ (s.expectSlot i t') := by
  unfold State.expectSlot
  extract_lets _ _ _
  split
  · exact h
  · split
    · exact h.modRing
    · exact h

theorem Keeps.commitStream {i bar : Nat} {t' : W64} (h : Keeps s₀ s) : Keeps s₀ (s.commitStream i bar t') := by
  unfold State.commitStream
  exact .ite h (Keeps.modStream (Keeps.ite (Keeps.commitQueue (Keeps.trace (Keeps.ite (Keeps.setFlag (Keeps.count (Keeps.ite
      h.setStream h.setStream.count))) (.ite h.setStream h.setStream.count)))) (Keeps.commitRing (Keeps.trace (Keeps.ite
      (Keeps.setFlag (Keeps.count (Keeps.ite h.setStream h.setStream.count))) (.ite h.setStream h.setStream.count))))))

theorem Keeps.commitAll {bar : Nat} {t' : W64} (h : Keeps s₀ s) : Keeps s₀ (s.commitAll bar t') :=
  Keeps.foldl (Keeps.ite h h.count.setFlag) fun _ _ h => h.expectSlot.commitStream

theorem Keeps.pushChunk {i f0 : Nat} (h : Keeps s₀ s) : Keeps s₀ (s.pushChunk i f0) := by
  unfold State.pushChunk
  extract_lets _ _ _
  split
  next _ _ _ heq =>
    have h₁ := h.push.of_eq₂ heq
    exact h₁.modStream

theorem Keeps.formChunks {i landed fuel : Nat} (h : Keeps s₀ s) : Keeps s₀ (s.formChunks i landed fuel) := by
  induction fuel generalizing s with
  | zero => exact h
  | succ fuel ih =>
    unfold State.formChunks
    extract_lets x
    split
    · exact .ite (ih h.pushChunk) h.setStream
    · exact h

theorem Keeps.dropOverwritten {i landed fuel : Nat} (h : Keeps s₀ s) : Keeps s₀ (s.dropOverwritten i landed fuel) := by
  induction fuel generalizing s with
  | zero => exact h
  | succ fuel ih =>
    unfold State.dropOverwritten
    extract_lets x q
    split
    · exact h
    · split
      next r t s₁ heq =>
        have h₁ : Keeps s₀ s₁ := h.inRecord.of_eq₃ heq
        exact .ite (ih h₁.dropRecord.overrun) h₁

theorem Keeps.ringLanded {r landed : Nat} (h : Keeps s₀ s) : Keeps s₀ (s.ringLanded r landed) :=
  h.foldl fun _ _ h => h.formChunks.dropOverwritten

theorem Keeps.openStream {a : Machine.OpenArgs} (h : Keeps s₀ s) : Keeps s₀ (s.openStream a).2.2 := by
  unfold State.openStream
  split
  · split
    · exact h
    · split
      · exact h
      · split
        · exact h.setStream
        · exact h

theorem Keeps.sendBind {i kind : Nat} {words : List W32} {slot : Nat} (h : Keeps s₀ s) :
    Keeps s₀ (s.sendBind i kind words slot) := by
  unfold State.sendBind
  exact .ite h h.writeRemote

theorem Keeps.bindIfMirrored {i kind : Nat} (h : Keeps s₀ s) : Keeps s₀ (s.bindIfMirrored i kind) := by
  unfold State.bindIfMirrored
  exact .ite h h.sendBind

theorem Keeps.finishHead {i op status : Nat} (h : Keeps s₀ s) : Keeps s₀ (s.finishHead i op status) := by
  unfold State.finishHead
  extract_lets _
  split
  · exact h
  · exact .ite h.setStream.complete h

theorem Keeps.streamNext {i fuel : Nat} (h : Keeps s₀ s) : Keeps s₀ (s.streamNext i fuel) := by
  induction fuel generalizing s with
  | zero => exact h
  | succ fuel ih =>
    unfold State.streamNext
    extract_lets x become
    split
    · exact h
    · split
      · exact h.setStream
      · exact h.setStream
      · exact h.setStream
      · exact ih h.finishHead
      · exact h.setStream
      · exact ih h.finishHead
      · exact ih h.finishHead
      · exact h

theorem Keeps.finishWait {i op status : Nat} (h : Keeps s₀ s) : Keeps s₀ (s.finishWait i op status) := h.finishHead.streamNext

theorem Keeps.streamCmd {i op : Nat} {q : QueueId} {id : W32} {record : W64} (h : Keeps s₀ s) :
    Keeps s₀ (s.streamCmd i op q id record) := by
  unfold State.streamCmd
  exact .ite h.setStream.streamNext h.setStream

theorem Keeps.freeStream {i : Nat} (h : Keeps s₀ s) : Keeps s₀ (s.freeStream i) :=
  h.bindIfMirrored.modQueue.finishHead.setStream.streamNext

theorem Keeps.closeAfter {i : Nat} (h : Keeps s₀ s) : Keeps s₀ (s.closeAfter i) := by
  unfold State.closeAfter
  exact .ite h.freeStream h

theorem Keeps.clearCauses {i : Nat} (h : Keeps s₀ s) : Keeps s₀ (s.clearCauses i) := by
  unfold State.clearCauses
  exact .ite h h.setStream

theorem Keeps.streamBoundary {i : Nat} {t' : W64} (h : Keeps s₀ s) : Keeps s₀ (s.streamBoundary i t') := by
  unfold State.streamBoundary
  extract_lets s₁ _ _ s₂ s₃ _
  have h₁ : Keeps s₀ s₁ := h.clearCauses
  have h₂ : Keeps s₀ s₂ := h₁.setStream.bindIfMirrored
  have h₃ : Keeps s₀ s₃ := h₂.streamNext
  split
  · exact h₁
  · split
    · exact h₁.setStream.closeAfter
    · exact .ite h₃.freeStream h₃
    · exact h₁.setStream
    · exact h₁.setStream
    · exact h₁.setStream
    · exact h₁.setStream

theorem Keeps.execQueueOutputCommit {st : StreamId} {copyStatus pushStatus : Byte} (h : Keeps s₀ s) :
    Next s₀ (Machine.execQueueOutputCommit st copyStatus pushStatus s) := by
  unfold Machine.execQueueOutputCommit
  extract_lets i x a0 fail
  have hfail {t : State} (h : Keeps s₀ t) : Keeps s₀ (fail t) := h.count.setFlag
  split
  · exact h.next
  · extract_lets s₁ s₂ redirect node a
    have h₂ : Keeps s₀ s₂ := .ite h.setStream.agentDone h.setStream
    split
    next c1 s₃ heq =>
      have h₃ : Keeps s₀ s₃ := by
        split at heq
        · exact Keeps.of_eq₂ h₂ heq
        · exact h₂.writeGlobal.of_eq₂ heq
      extract_lets cst
      refine .ite (hfail h₃).closeAfter.next ?_
      split
      next buf s₄ heq =>
        have h₄ : Keeps s₀ s₄ := by
          split at heq
          · exact h₃.draw.of_eq₂ heq
          · exact Keeps.of_eq₂ h₃ heq
        extract_lets r pk
        split
        next p1 s₅ heq =>
          have h₅ : Keeps s₀ s₅ := by
            split at heq
            · exact h₄.push.of_eq₂ heq
            · split at heq
              · exact Keeps.of_eq₂ h₄ heq
              · exact Keeps.of_eq₂ h₄.request heq
          exact .ite (hfail h₅).closeAfter.next h₅.modStream.closeAfter.next

theorem Keeps.putImage {c r x : Nat} {l : List Byte} (h : Keeps s₀ s) : Keeps s₀ (s.putImage c r x l) :=
  h.mems rfl rfl (State.memWf_putImage c r x l)

theorem Keeps.xfer {c n : Nat} (h : Keeps s₀ s) : Keeps s₀ (s.xfer c n) := h.count

theorem Keeps.execParkRecordWrite {st : StreamId} {status : Byte} (h : Keeps s₀ s) :
    Next s₀ (Machine.execParkRecordWrite st status s) := by
  unfold Machine.execParkRecordWrite
  extract_lets _ _
  split
  · exact h.next
  · split
    · exact h.next
    · split
      next _ _ _ heq =>
        have h₁ := h.writeGlobal.of_eq₂ heq
        exact .ite h₁.setStream.finishWait.next (Keeps.next (Keeps.finishWait (Keeps.modStream (Keeps.bindIfMirrored
            (h₁.foldl fun _ _ h => h.xfer)))))

theorem Keeps.readRecord {i : Nat} {a : W64} {f : Fetched} {o n : Nat} (h : Keeps s₀ s) :
    Keeps s₀ (s.readRecord i a f o n).2.2 := by
  unfold State.readRecord
  split
  · exact h.readSpan
  · exact h.readRemote

theorem Keeps.execUnparkRun {st : StreamId} {f : Fetched} (h : Keeps s₀ s) : Next s₀ (Machine.execUnparkRun st f s) := by
  unfold Machine.execUnparkRun
  extract_lets _ _ _
  split
  · exact h.next
  · split
    · exact h.next
    · split
      next _ _ _ _ heq =>
        have h₁ := h.readRecord.of_eq₃ heq
        split
        · exact h₁.modStream.finishWait.next
        · split
          next _ _ _ _ heq =>
            have h₂ := h₁.readRecord.of_eq₃ heq
            extract_lets _ _
            split
            · exact h₂.modStream.finishWait.next
            · split
              · exact h₂.modStream.finishWait.next
              · split
                · exact h₂.modStream.finishWait.next
                · split
                  next _ _ _ _ heq =>
                    have h₃ := h₂.readRecord.of_eq₃ heq
                    extract_lets s₄ s₆
                    have h₄ : Keeps s₀ s₄ := by
                      unfold s₄
                      refine h₃.foldl fun _ _ h₅ => ?_
                      split
                      · exact h₅.putImage.xfer
                    have h₆ : Keeps s₀ s₆ := h₄.modStream
                    exact .ite h₃.modStream.finishWait.next h₆.bindIfMirrored.finishWait.next

/-! ### Machine/Time.lean -/

theorem Keeps.tbCycle (h : Keeps s₀ s) : Keeps s₀ s.tbCycle := h.frame rfl

theorem Keeps.tbSetHi {src : Nat} {v : W32} (h : Keeps s₀ s) : Keeps s₀ (s.tbSetHi src v) := by
  unfold State.tbSetHi
  exact .ite (h.frame rfl) h.writeRefused

theorem Keeps.tbSet {src : Nat} {v : W32} (h : Keeps s₀ s) : Keeps s₀ (s.tbSet src v) := by
  unfold State.tbSet
  exact .ite (h.frame rfl) h.writeRefused

theorem Keeps.execTbSet {src : NodeId} {v : W32} (h : Keeps s₀ s) : Next s₀ (Machine.execTbSet src v s) := h.tbSet.next

theorem Keeps.trim_ (h : Keeps s₀ s) : Keeps s₀ s.trim_ := by
  unfold State.trim_
  extract_lets _
  split
  next _ _ _ heq =>
    have h₁ := h.draw.of_eq₂ heq
    exact h₁.setReg.setFld.setFlag

theorem Keeps.portFrames {p n : Nat} (h : Keeps s₀ s) : Keeps s₀ (s.portFrames p n) := by
  unfold State.portFrames
  extract_lets _
  split
  · exact h
  · split
    · refine .ite (Keeps.trim_ (h.frame (by simp only [State.kept]))) (h.frame rfl)
    · exact h.frame rfl

theorem Keeps.setLock {l : Nat} (h : Keeps s₀ s) : Keeps s₀ (s.setLock l) := by
  unfold State.setLock
  exact .ite (Keeps.count (Keeps.ite (h.frame rfl) h.setFld)) (.ite (h.frame rfl) h.setFld)

theorem Keeps.servoUpdate {off : ℤ} (h : Keeps s₀ s) : Keeps s₀ (s.servoUpdate off) := by
  unfold State.servoUpdate
  extract_lets _ _ s₁ _ _ _ s₂ s₃ _
  have h₁ : Keeps s₀ s₁ := h.setReg
  have h₂ : Keeps s₀ s₂ := h₁.frame rfl
  have h₃ : Keeps s₀ s₃ := .ite (.ite h₂.setLock h₂) h₂.setLock
  exact .ite (.ite (h₃.frame rfl) h₃.setFlag.trim_) h₃.trim_

theorem Keeps.execTbHoldLimitExpiry (h : Keeps s₀ s) : Next s₀ (Machine.execTbHoldLimitExpiry s) := by
  unfold Machine.execTbHoldLimitExpiry
  exact .ite h.reach.setLock.next h.next

theorem Keeps.tbPortLost {p : Nat} (h : Keeps s₀ s) : Keeps s₀ (s.tbPortLost p) := by
  unfold State.tbPortLost
  exact .ite h (.ite (Keeps.setLock (h.frame rfl)) (h.frame rfl))

theorem Keeps.tooth {a : Nat} (h : Keeps s₀ s) : Keeps s₀ (s.tooth a) := Keeps.setAngle (Keeps.setAngle (Keeps.ite h.count h))

theorem Keeps.execAngTooth {a : Fin 2} {falling : Bool} {widthNs : Nat} (h : Keeps s₀ s) :
    Next s₀ (Machine.execAngTooth a falling widthNs s) := by
  unfold Machine.execAngTooth
  exact .ite h.tooth.next h.next

theorem Keeps.index {a : Nat} (h : Keeps s₀ s) : Keeps s₀ (s.index a) := by
  unfold State.index
  exact .ite h.setAngle (.ite h h.setAngle.tooth)

theorem Keeps.execAngIndex {a : Fin 2} {widthNs : Nat} (h : Keeps s₀ s) : Next s₀ (Machine.execAngIndex a widthNs s) := by
  unfold Machine.execAngIndex
  exact .ite h.index.next h.next

theorem Keeps.execAngTimeout {a : Fin 2} (h : Keeps s₀ s) : Next s₀ (Machine.execAngTimeout a s) := by
  unfold Machine.execAngTimeout
  exact .ite h.reach.setAngle.irq.next h.next

theorem Keeps.angCommit {a : Nat} (h : Keeps s₀ s) : Keeps s₀ (s.angCommit a) := by
  unfold State.angCommit
  exact .ite h (.ite h.count h.setAngle)

theorem Keeps.execAngHsCommit {_src : NodeId} {a : Fin 2} (h : Keeps s₀ s) : Next s₀ (Machine.execAngHsCommit _src a s) :=
  h.angCommit.next

theorem Keeps.execAngSampleApply {a : Fin 2} (h : Keeps s₀ s) : Next s₀ (Machine.execAngSampleApply a s) := by
  unfold Machine.execAngSampleApply
  extract_lets _
  split
  · exact .ite h.reach.setAngle.next h.next
  · exact h.next

theorem Keeps.angModeChanged {a : Nat} {held : W32} (h : Keeps s₀ s) : Keeps s₀ (s.angModeChanged a held) := h.setAngle

theorem Keeps.ptPut {bank : Bool} {e w : Nat} {v : W32} (h : Keeps s₀ s) : Keeps s₀ (s.ptPut bank e w v) := h.frame rfl

theorem Keeps.ptEntryWrite {src w : Nat} {v : W32} (h : Keeps s₀ s) : Keeps s₀ (s.ptEntryWrite src w v) := by
  unfold State.ptEntryWrite
  extract_lets _
  split
  · extract_lets s₁ s₂ _
    have h₁ : Keeps s₀ s₁ := h.foldl fun _ _ h => h.ptPut
    have h₂ : Keeps s₀ s₂ := h₁.ptPut
    exact .ite h.writeRefused (.ite (h.frame rfl) (h₂.frame rfl))

theorem Keeps.execPtEntryWrite {src : NodeId} {i : Fin 4} {v : W32} (h : Keeps s₀ s) :
    Next s₀ (Machine.execPtEntryWrite src i v s) :=
  h.ptEntryWrite.next

theorem Keeps.ptSelWrite {v : W32} (h : Keeps s₀ s) : Keeps s₀ (s.ptSelWrite v) := h.frame rfl

theorem Keeps.execPtEntrySelWrite {_src : NodeId} {v : W32} (h : Keeps s₀ s) : Next s₀ (Machine.execPtEntrySelWrite _src v s) :=
  h.ptSelWrite.next

theorem Keeps.requestSwitch (h : Keeps s₀ s) : Keeps s₀ (s.requestSwitch).2.2 := by
  unfold State.requestSwitch
  extract_lets _
  split
  · exact h
  · split
    · exact h.setFld.setFld
    · exact h.frame rfl

theorem Keeps.switchWrite {src : Nat} (h : Keeps s₀ s) : Keeps s₀ (s.switchWrite src) := by
  unfold State.switchWrite
  split
  next _ _ _ _ heq =>
    have h₁ := h.requestSwitch.of_eq₃ heq
    exact .ite h₁.writeRefused h₁

theorem Keeps.execSwitchReq {src : NodeId} (h : Keeps s₀ s) : Next s₀ (Machine.execSwitchReq src s) := h.switchWrite.next

theorem Keeps.runWrite {run : Bool} (h : Keeps s₀ s) : Keeps s₀ (s.runWrite run) := by
  unfold State.runWrite
  exact .ite (.ite h (.ite (h.frame rfl) (h.frame rfl))) (.ite (h.frame rfl) h)

theorem Keeps.execPtCtrlRun {_src : NodeId} {run : Bool} (h : Keeps s₀ s) : Next s₀ (Machine.execPtCtrlRun _src run s) :=
  h.runWrite.next

theorem Keeps.beatAct {e type n : Nat} {w : List Nat} (h : Keeps s₀ s) : Keeps s₀ (s.beatAct e type n w) :=
  Keeps.trace (h.reach.frame rfl)

theorem Keeps.beatDrop (h : Keeps s₀ s) : Keeps s₀ s.beatDrop := h.count

theorem Keeps.execStageStartBeat {e : Fin 512} (h : Keeps s₀ s) : Next s₀ (Machine.execStageStartBeat e s) := by
  unfold Machine.execStageStartBeat
  split
  · exact h.next
  · extract_lets _ _ s₁ _
    have h₁ : Keeps s₀ s₁ := h.beatAct
    split
    · exact h₁.beatDrop.next
    · refine Keeps.next ?_
      refine h₁.foldl fun _ _ h₂ => ?_
      extract_lets _
      split
      · exact h₂.beatDrop
      · split
        · exact h₂.count
        · exact Keeps.resched (h₂.setCore fun w => State.memWf_core w _)

theorem Keeps.execCutoffBeat {b : CutoffRead} (h : Keeps s₀ s) : Next s₀ (Machine.execCutoffBeat b s) := by
  unfold Machine.execCutoffBeat
  split
  · exact h.next
  · exact .ite h.beatAct.beatDrop.next h.beatAct.cutoffOf.next

theorem Keeps.execStatBeat {e : Fin 512} (h : Keeps s₀ s) : Next s₀ (Machine.execStatBeat e s) := by
  unfold Machine.execStatBeat
  split
  · exact h.next
  · exact .ite h.beatAct.beatDrop.next (Keeps.next (h.beatAct.foldl fun _ _ h => .ite h.beatDrop (h.modCore fun _ w => w)))

theorem Keeps.execSwapBeat {e : Fin 512} (h : Keeps s₀ s) : Next s₀ (Machine.execSwapBeat e s) := by
  unfold Machine.execSwapBeat
  split
  · exact h.next
  · exact .ite h.beatAct.beatDrop.next (Keeps.next (h.beatAct.frame rfl))

theorem Keeps.execMirrorBeat {e : Fin 512} (h : Keeps s₀ s) : Next s₀ (Machine.execMirrorBeat e s) := by
  unfold Machine.execMirrorBeat
  split
  · exact h.next
  · exact .ite h.beatAct.beatDrop.next (Keeps.next (h.beatAct.frame rfl))

theorem Keeps.execPreemptionRequest {c : CoreId} (h : Keeps s₀ s) :
    Next s₀ (Machine.execPreemptionRequest c s) := h.resched.next

theorem Keeps.execBeSliceExpiry {c : CoreId} (h : Keeps s₀ s) : Next s₀ (Machine.execBeSliceExpiry c s) := by
  unfold Machine.execBeSliceExpiry
  split
  · exact h.next
  · extract_lets s₁
    have h₁ : Keeps s₀ s₁ := h.modCore fun _ w => w
    split
    · exact h.next
    · split
      · split
        · split
          · exact h₁.resched.next
          · exact h₁.askPreempt.next
        · exact h₁.resched.next
      · exact h₁.next

/-! ### Machine/Audio.lean -/

theorem Keeps.lockPending {page : Nat} (h : Keeps s₀ s) : Keeps s₀ (s.lockPending page) := by
  unfold State.lockPending
  exact .ite h.setFlag.setFlag h

theorem Keeps.sendZeros {p : Nat} (h : Keeps s₀ s) : Keeps s₀ (s.sendZeros p) := by
  unfold State.sendZeros
  exact .ite h h.modPort

theorem Keeps.takeMap {p : Nat} (h : Keeps s₀ s) : Keeps s₀ (s.takeMap p) := h.modPort

theorem Keeps.bankDrop {p : Nat} (h : Keeps s₀ s) : Keeps s₀ (s.bankDrop p) := h.foldl fun _ _ h => .ite (h.frame rfl) h

theorem Keeps.phaseDrop {p : Nat} (h : Keeps s₀ s) : Keeps s₀ (s.phaseDrop p) := h.foldl fun _ _ h => .ite h.setApll h

theorem Keeps.applyStandby {p : Nat} (h : Keeps s₀ s) : Keeps s₀ (s.applyStandby p) := h.setPort

theorem Keeps.portStart {p : Nat} (h : Keeps s₀ s) : Keeps s₀ (s.portStart p) := by
  unfold State.portStart
  extract_lets s₁
  have h₁ : Keeps s₀ s₁ := h.bankDrop.modPort
  split
  · exact h₁.setRing
  · exact h₁

theorem Keeps.portEnable {src p : Nat} (h : Keeps s₀ s) : Keeps s₀ (s.portEnable src p) := by
  unfold State.portEnable
  extract_lets _
  split
  · exact h.setFlag
  · split
    · exact .ite h.setFlag.portStart h.setFlag.pgErrAt
    · exact h.setFlag.modPort
    · exact h

theorem Keeps.execPortEnable {src : NodeId} {p : AudioPort} (h : Keeps s₀ s) : Next s₀ (Machine.execPortEnable src p s) :=
  h.portEnable.next

theorem Keeps.clocksRun {p : Nat} {master : Bool} (h : Keeps s₀ s) : Keeps s₀ (s.clocksRun p master) :=
  h.modPort.takeMap.sendZeros.applyStandby

theorem Keeps.execPortClockStart {p : AudioPort} (h : Keeps s₀ s) : Next s₀ (Machine.execPortClockStart p s) := by
  unfold Machine.execPortClockStart
  exact .ite h.clocksRun.next h.next

theorem Keeps.ringRestart {i : Nat} (h : Keeps s₀ s) : Keeps s₀ (s.ringRestart i) :=
  h.modStream.foldl fun _ _ h => h.dropRecord.overrun

theorem Keeps.execPortOn {p : AudioPort} (h : Keeps s₀ s) : Next s₀ (Machine.execPortOn p s) := by
  unfold Machine.execPortOn
  extract_lets _ _ s₁ s₂ s₃ s₄ s₅
  have h₁ : Keeps s₀ s₁ := h.reach
  have h₂ : Keeps s₀ s₂ := h₁.takeMap
  have h₃ : Keeps s₀ s₃ := h₂.modPort
  have h₄ : Keeps s₀ s₄ := h₃.frame rfl
  have h₅ : Keeps s₀ s₅ := by
    unfold s₅
    split
    · exact h₄.foldl fun _ _ h => h.ringRestart
    · exact h₄
  exact .ite h.next h₅.applyStandby.irq.lockPending.next

theorem Keeps.portDisable {p : Nat} (h : Keeps s₀ s) : Keeps s₀ (s.portDisable p) := by
  unfold State.portDisable
  extract_lets s₁ s₂ _ _ s₃
  have h₁ : Keeps s₀ s₁ := h.setFlag
  have h₂ : Keeps s₀ s₂ := h₁.setFlag
  have h₃ : Keeps s₀ s₃ := h₂.setPort
  split
  · exact h₂.setPort.sendZeros
  · exact .ite h₃ h₃.sendZeros
  · exact h₂.setPort
  · exact h₂

theorem Keeps.execPortDisable {_src : NodeId} {p : AudioPort} (h : Keeps s₀ s) : Next s₀ (Machine.execPortDisable _src p s) :=
  h.portDisable.next

theorem Keeps.portStopped {p : Nat} (h : Keeps s₀ s) : Keeps s₀ (s.portStopped p) := by
  unfold State.portStopped
  exact .ite h.modPort.bankDrop.phaseDrop.tbPortLost.irq.portEnable h.modPort.bankDrop.phaseDrop.tbPortLost.irq

theorem Keeps.muteLeft {p : Nat} (h : Keeps s₀ s) : Keeps s₀ (s.muteLeft p) := by
  unfold State.muteLeft
  exact .ite h h.reach.modPort.count.irq

theorem Keeps.execPortStopDone {p : AudioPort} (h : Keeps s₀ s) : Next s₀ (Machine.execPortStopDone p s) := by
  unfold Machine.execPortStopDone
  exact .ite h.next h.muteLeft.reach.reach.portStopped.next

theorem Keeps.portBlockReset {p : Nat} (h : Keeps s₀ s) : Keeps s₀ (s.portBlockReset p) := by
  unfold State.portBlockReset
  exact .ite h h.setFlag.bankDrop.phaseDrop.tbPortLost.modPort

theorem Keeps.execPortBlockReset {_src : NodeId} {p : AudioPort} (h : Keeps s₀ s) :
    Next s₀ (Machine.execPortBlockReset _src p s) :=
  h.portBlockReset.next

theorem Keeps.execStandbyApply {p : AudioPort} (h : Keeps s₀ s) : Next s₀ (Machine.execStandbyApply p s) := h.applyStandby.next

theorem Keeps.execApMapApply {p : AudioPort} {slot : Fin 16} (h : Keeps s₀ s) : Next s₀ (Machine.execApMapApply p slot s) := by
  unfold Machine.execApMapApply
  exact .ite h.next h.modPort.next

theorem Keeps.phaseEdges {p : Nat} {t' : W64} {n : Nat} (h : Keeps s₀ s) : Keeps s₀ (s.phaseEdges p t' n) :=
  h.foldl fun _ _ h => .ite h h.setApll

theorem Keeps.execBlockLand {p : AudioPort} {stamp : W64} {frames : List (List (BitVec 128))} (h : Keeps s₀ s) :
    Next s₀ (Machine.execBlockLand p stamp frames s) := by
  unfold Machine.execBlockLand
  extract_lets _ _ _ _ _ _
  split
  · exact h.next
  · extract_lets _ _ _ _ _ s₁ _
    have h₁ : Keeps s₀ s₁ := h.reach
    split
    · exact h.next
    · split
      · exact Keeps.next (Keeps.ringLanded (Keeps.ite (Keeps.setPort (Keeps.ite (.ite (.ite (Keeps.count (Keeps.audioPut
            (h₁.foldl fun _ _ h => h.foldl fun _ _ h => h.putSample))) (Keeps.audioPut (h₁.foldl fun _ _ h => h.foldl fun _ _
            h => h.putSample))) (Keeps.irq (Keeps.count (Keeps.ite (Keeps.count (Keeps.audioPut (h₁.foldl fun _ _ h =>
            h.foldl fun _ _ h => h.putSample))) (Keeps.audioPut (h₁.foldl fun _ _ h => h.foldl fun _ _ h => h.putSample))))))
            (Keeps.irq (Keeps.count (Keeps.ite (.ite (Keeps.count (Keeps.audioPut (h₁.foldl fun _ _ h => h.foldl fun _ _ h =>
            h.putSample))) (Keeps.audioPut (h₁.foldl fun _ _ h => h.foldl fun _ _ h => h.putSample))) (Keeps.irq (Keeps.count
            (Keeps.ite (Keeps.count (Keeps.audioPut (h₁.foldl fun _ _ h => h.foldl fun _ _ h => h.putSample)))
            (Keeps.audioPut (h₁.foldl fun _ _ h => h.foldl fun _ _ h => h.putSample)))))))))) (Keeps.phaseEdges
            (Keeps.portFrames (Keeps.setPort (Keeps.ite (.ite (.ite (Keeps.count (Keeps.audioPut (h₁.foldl fun _ _ h =>
            h.foldl fun _ _ h => h.putSample))) (Keeps.audioPut (h₁.foldl fun _ _ h => h.foldl fun _ _ h => h.putSample)))
            (Keeps.irq (Keeps.count (Keeps.ite (Keeps.count (Keeps.audioPut (h₁.foldl fun _ _ h => h.foldl fun _ _ h =>
            h.putSample))) (Keeps.audioPut (h₁.foldl fun _ _ h => h.foldl fun _ _ h => h.putSample)))))) (Keeps.irq
            (Keeps.count (Keeps.ite (.ite (Keeps.count (Keeps.audioPut (h₁.foldl fun _ _ h => h.foldl fun _ _ h =>
            h.putSample))) (Keeps.audioPut (h₁.foldl fun _ _ h => h.foldl fun _ _ h => h.putSample))) (Keeps.irq (Keeps.count
            (Keeps.ite (Keeps.count (Keeps.audioPut (h₁.foldl fun _ _ h => h.foldl fun _ _ h => h.putSample)))
            (Keeps.audioPut (h₁.foldl fun _ _ h => h.foldl fun _ _ h => h.putSample))))))))))))))

theorem Keeps.execClkLoss {p : AudioPort} (h : Keeps s₀ s) : Next s₀ (Machine.execClkLoss p s) := by
  unfold Machine.execClkLoss
  exact .ite h.next (.ite h.irq.portStopped.next h.bankDrop.phaseDrop.tbPortLost.irq.modPort.next)

theorem Keeps.execClkReturn {p : AudioPort} (h : Keeps s₀ s) : Next s₀ (Machine.execClkReturn p s) := by
  unfold Machine.execClkReturn
  exact .ite h.next (.ite h.clocksRun.next (.ite (Keeps.next (Keeps.irq (Keeps.setPort (Keeps.ite h.setLock h)))) h.next))

theorem Keeps.flagRate {r n since till : Nat} (h : Keeps s₀ s) : Keeps s₀ (s.flagRate r n since till) := by
  unfold State.flagRate
  exact .ite h (h.foldl fun _ _ h => .ite h.blockFlag h)

theorem Keeps.trackRatio {p : Nat} (h : Keeps s₀ s) : Keeps s₀ (s.trackRatio p) := h.foldl fun _ _ h => .ite h.setReg h

theorem Keeps.execRateWindowEnd {p : AudioPort} {edges : Nat} {first last : W64} (h : Keeps s₀ s) :
    Next s₀ (Machine.execRateWindowEnd p edges first last s) := by
  unfold Machine.execRateWindowEnd
  extract_lets _ _ _ _ s₁ _ _ _ _ _ s₂ s₃ s₄ s₅ s₆
  have h₁ : Keeps s₀ s₁ := h.reach
  have h₂ : Keeps s₀ s₂ := h₁.setReg
  have h₃ : Keeps s₀ s₃ := h₂.setPort
  have h₄ : Keeps s₀ s₄ := .ite h₃ h₃.irq
  have h₅ : Keeps s₀ s₅ := h₄.trackRatio
  have h₆ : Keeps s₀ s₆ := by
    unfold s₆
    split
    · exact h₅.flagRate
    · exact h₅
  split
  · exact h₅.next
  · split
    · exact h₆.flagRate.next
    · exact h₆.next

theorem Keeps.steerTo {a : Nat} {ppb : ℤ} (h : Keeps s₀ s) : Keeps s₀ (s.steerTo a ppb) := h.setApll

theorem Keeps.execApllLock {a : Fin 2} (h : Keeps s₀ s) : Next s₀ (Machine.execApllLock a s) := by
  unfold Machine.execApllLock
  extract_lets _
  split
  · exact .ite h.next h.setApll.next

theorem Keeps.execApllLockLost {a : Fin 2} (h : Keeps s₀ s) : Next s₀ (Machine.execApllLockLost a s) := by
  unfold Machine.execApllLockLost
  exact .ite h.steerTo.setApll.count.irq.next h.next

theorem Keeps.execMclkInReturn {rate : Bool} (h : Keeps s₀ s) : Next s₀ (Machine.execMclkInReturn rate s) :=
  Keeps.next (h.frame rfl)

theorem Keeps.execAsrcLock {b : Fin 3} (h : Keeps s₀ s) : Next s₀ (Machine.execAsrcLock b s) := by
  have hlock {t : State} {m : SMap (Bool × Bool)} (h : Keeps s₀ t) :
      Keeps s₀ { t with audio := { t.audio with asrc := m } } := h.frame rfl
  exact .ite (hlock h.reach).trackRatio.next h.next

theorem Keeps.execAsrcOutOfRange {b : Fin 3} (h : Keeps s₀ s) : Next s₀ (Machine.execAsrcOutOfRange b s) := by
  unfold Machine.execAsrcOutOfRange
  exact .ite (Keeps.next (h.frame rfl)) h.next

theorem Keeps.bellows {a : Nat} (h : Keeps s₀ s) : Keeps s₀ (s.bellows a) := by
  unfold State.bellows
  extract_lets _ _ _ _ _
  split
  · exact h
  · exact .ite h.setReg.setApll.steerTo.irq h.setReg.setApll.steerTo

theorem Keeps.tbSteer {a : Nat} (h : Keeps s₀ s) : Keeps s₀ (s.tbSteer a) := by
  unfold State.tbSteer
  extract_lets _
  split
  next _ _ _ heq =>
    have h₁ := h.draw.of_eq₂ heq
    exact h₁.steerTo

theorem Keeps.steer {a : Nat} (h : Keeps s₀ s) : Keeps s₀ (s.steer a) := by
  unfold State.steer
  split
  · exact .ite h.tbSteer h
  · exact .ite h h.bellows
  · exact h

theorem Keeps.sendSerial {p k : Nat} {v : W32} (h : Keeps s₀ s) : Keeps s₀ (s.sendSerial p k v) := h.setPort

theorem Keeps.sendPdm {p k : Nat} {v : W32} (h : Keeps s₀ s) : Keeps s₀ (s.sendPdm p k v) := by
  unfold State.sendPdm
  extract_lets _
  split
  · exact h.setPort
  · split
    · exact h.setPort

theorem Keeps.sendFrame {p : Nat} {f : Machine.TxFrame} (h : Keeps s₀ s) : Keeps s₀ (s.sendFrame p f) := by
  unfold State.sendFrame
  split
  next s₁ clips heq =>
    have h₁ : Keeps s₀ s₁ := by
      refine Keeps.of_eq₁ (Keeps.foldl₁ h fun ⟨_, _⟩ _ h => ?_) heq
      dsimp only
      split
      · exact Keeps.sendSerial h
      · exact Keeps.sendPdm h
    extract_lets s₂
    have h₂ : Keeps s₀ s₂ := h₁.count.irq
    split
    · exact h₁
    · split
      · exact h₂.blockFlag
      · exact h₂

theorem Keeps.sendDue {p t' : Nat} (h : Keeps s₀ s) : Keeps s₀ (s.sendDue p t') := by
  unfold State.sendDue
  split
  · exact h.modPort.foldl fun _ _ h => h.sendFrame

theorem Keeps.sendAllDue (h : Keeps s₀ s) : Keeps s₀ s.sendAllDue := h.foldl fun _ _ h => h.sendDue

theorem Keeps.takeSlot {p r j : Nat} {t' : W64} {zero : Bool} {ecc : List Ecc} (h : Keeps s₀ s) :
    Keeps s₀ (s.takeSlot p r j t' zero ecc) := by
  unfold State.takeSlot
  exact h.modPort

theorem Keeps.zeroSlot {r j : Nat} (h : Keeps s₀ s) : Keeps s₀ (s.zeroSlot r j) :=
  h.foldl fun _ _ h => h.foldl fun _ _ h => h.putSample

theorem Keeps.slotEntries {p r j : Nat} {t' : W64} (h : Keeps s₀ s) : Keeps s₀ (s.slotEntries p r j t') :=
  h.foldl fun _ _ h => h.audioPut.modPort

theorem Keeps.slotErrors {r j : Nat} {ecc : List Ecc} (h : Keeps s₀ s) : Keeps s₀ (s.slotErrors r j ecc) :=
  h.foldl fun _ _ h => .ite h.audioEcc.blockFlag h.audioEcc

theorem Keeps.execSlotTake {p : AudioPort} {ecc : List Ecc} (h : Keeps s₀ s) : Next s₀ (Machine.execSlotTake p ecc s) := by
  unfold Machine.execSlotTake
  extract_lets _ _ _
  split
  · exact h.next
  · exact .ite h.next (.ite h.reach.sendDue.slotEntries.modPort.modRing.zeroSlot.next (.ite (Keeps.next (Keeps.sendDue
        (Keeps.zeroSlot (Keeps.takeSlot (Keeps.modPort (Keeps.slotErrors (Keeps.phaseEdges (Keeps.ite
        h.reach.sendDue.slotEntries.modPort.modRing h.reach.sendDue.slotEntries.modPort.modRing.portFrames)))))))) (.ite
        (Keeps.next (Keeps.irq (Keeps.count (Keeps.modPort (Keeps.sendDue (Keeps.takeSlot (Keeps.phaseEdges (Keeps.ite
        h.reach.sendDue.slotEntries.modPort.modRing h.reach.sendDue.slotEntries.modPort.modRing.portFrames))))))))
        (Keeps.next (Keeps.modPort (Keeps.sendDue (Keeps.takeSlot (Keeps.phaseEdges (Keeps.ite
        h.reach.sendDue.slotEntries.modPort.modRing h.reach.sendDue.slotEntries.modPort.modRing.portFrames)))))))))

theorem Keeps.execSlotReadyMark {p : AudioPort} {slot : Nat} (h : Keeps s₀ s) :
    Next s₀ (Machine.execSlotReadyMark p slot s) := by
  unfold Machine.execSlotReadyMark
  split
  · exact h.next
  · exact .ite h.setRing.setFld.next h.next

theorem Keeps.execGateTimeout {p : AudioPort} {slot : Fin 16} (h : Keeps s₀ s) :
    Next s₀ (Machine.execGateTimeout p slot s) := by
  unfold Machine.execGateTimeout
  exact .ite h.next (.ite h.reach.setPort.count.irq.next (.ite h.reach.setPort.count.irq.next h.next))

theorem Keeps.execLineStuck {g : Fin 6} {_line : Fin 4} (h : Keeps s₀ s) : Next s₀ (Machine.execLineStuck g _line s) := by
  unfold Machine.execLineStuck
  exact .ite h.next h.modPort.irq.next

theorem Keeps.execModulatorReset {h' : Fin 2} {ch : Fin 8} (h : Keeps s₀ s) : Next s₀ (Machine.execModulatorReset h' ch s) := by
  unfold Machine.execModulatorReset
  exact .ite h.next h.modPort.count.next

theorem Keeps.ringShapeWrite {src r : Nat} {v : W32} (h : Keeps s₀ s) : Keeps s₀ (s.ringShapeWrite src r v) := by
  unfold State.ringShapeWrite
  exact .ite h.pgErrAt (.ite h.setReg (.ite h.setReg.setFlag h.setReg.pgErrAt))

theorem Keeps.execRingShapeValid {src : NodeId} {r : Fin 32} {v : W32} (h : Keeps s₀ s) :
    Next s₀ (Machine.execRingShapeValid src r v s) :=
  h.ringShapeWrite.next

/-! ### Machine/DirectPath.lean -/

theorem Keeps.dpEnable {src : Nat} (h : Keeps s₀ s) : Keeps s₀ (s.dpEnable src) := by
  unfold State.dpEnable
  extract_lets _ s₁ s₂ _ _ d s₃ _
  have h₁ : Keeps s₀ s₁ := h.setFld
  have h₂ : Keeps s₀ s₂ := h₁.setFlag
  have h₃ : Keeps s₀ s₃ := h.setFlag
  clear_value d s₁ s₂ s₃
  split
  · exact h.setFlag
  · split
    · exact .ite (h₂.frame rfl) h₁.setFlag.enableRefused
    · exact h₃.frame rfl
    · exact h

theorem Keeps.execDirectPathEnable {src : NodeId} (h : Keeps s₀ s) : Next s₀ (Machine.execDirectPathEnable src s) :=
  h.dpEnable.next

theorem Keeps.dpDisable (h : Keeps s₀ s) : Keeps s₀ s.dpDisable := by
  unfold State.dpDisable
  extract_lets s₁ s₂ _
  have h₁ : Keeps s₀ s₁ := h.setFlag
  have h₂ : Keeps s₀ s₂ := h₁.setFlag
  split
  · exact h₂.frame rfl
  · exact h₂.frame rfl
  · exact h₂.frame rfl
  · exact h₂

theorem Keeps.execDirectPathDisable {_src : NodeId} (h : Keeps s₀ s) : Next s₀ (Machine.execDirectPathDisable _src s) :=
  h.dpDisable.next

theorem Keeps.dpBlockReset (h : Keeps s₀ s) : Keeps s₀ s.dpBlockReset := by
  unfold State.dpBlockReset
  exact .ite h (h.frame rfl)

theorem Keeps.execDirectPathBlockReset {_src : NodeId} (h : Keeps s₀ s) : Next s₀ (Machine.execDirectPathBlockReset _src s) :=
  h.dpBlockReset.next

theorem Keeps.dpSwap {ek : W64} (h : Keeps s₀ s) : Keeps s₀ (s.dpSwap ek) := by
  unfold State.dpSwap
  extract_lets _ s₁ _
  have h₁ : Keeps s₀ s₁ := h.foldl fun _ _ h => .ite (h.frame rfl) (.ite h.count h)
  exact h₁.frame rfl

theorem Keeps.dpFaults {l : List DpFault} (h : Keeps s₀ s) : Keeps s₀ (s.dpFaults l) :=
  h.foldl fun _ _ h => .ite h.correctedError (Keeps.raiseMech (h.frame rfl))

theorem Keeps.dpUpdate {p k : Nat} {err : Nat → W32} (h : Keeps s₀ s) : Keeps s₀ (s.dpUpdate p k err) := by
  unfold State.dpUpdate
  exact .ite (Keeps.setFlag (Keeps.count (h.frame rfl))) (h.frame rfl)

theorem Keeps.dpFilterRef {p k : Nat} (h : Keeps s₀ s) : Keeps s₀ (s.dpFilterRef p k) := h.foldl fun _ _ h => h.frame rfl

theorem Keeps.dpSample {y : W32} (h : Keeps s₀ s) : Keeps s₀ (s.dpSample y).2 := by
  unfold State.dpSample
  split
  · exact h.draw
  · split
    · exact .ite h.count h

theorem Keeps.dpOutput {edge : W64} {m : SMap W32} (h : Keeps s₀ s) : Keeps s₀ (s.dpOutput edge m) := h.frame rfl

theorem Keeps.dpFrame {edge ek : W64} (h : Keeps s₀ s) : Keeps s₀ (s.dpFrame edge ek) := by
  unfold State.dpFrame
  extract_lets _ _ _ rs es mask hist _ s₁ used s₂ ys adapting s₃ n
  have h₁ : Keeps s₀ s₁ := by
    clear_value rs es mask hist
    exact h.frame rfl
  have h₂ : Keeps s₀ s₂ := h₁.foldl fun _ _ h => h.dpFilterRef
  have h₃ : Keeps s₀ s₃ := h₂.foldl fun _ _ h => h.dpUpdate
  clear_value n s₃
  split
  next s₅ m heq =>
    have h₅ : Keeps s₀ s₅ := by
      refine Keeps.of_eq₁ (Keeps.foldl₁ (h₃.frame rfl) fun b e h => ?_) heq
      split
      · exact h.dpSample
      · exact h
    exact Keeps.dpOutput (h₅.frame rfl)

theorem Keeps.dpRun {edge ek : W64} {ecc : List DpFault} (h : Keeps s₀ s) : Keeps s₀ (s.dpRun edge ek ecc) := by
  unfold State.dpRun
  extract_lets s₁
  have h₁ : Keeps s₀ s₁ := h.dpFaults.dpSwap.dpFrame
  exact h₁.frame rfl

theorem Keeps.dpStopFrame {edge : W64} (h : Keeps s₀ s) : Keeps s₀ (s.dpStopFrame edge) := by
  unfold State.dpStopFrame
  exact .ite (Keeps.dpOutput (h.frame rfl)) (.ite (Keeps.dpEnable (h.frame rfl)) (h.frame rfl))

theorem Keeps.dpReach {edge : W64} {inputs : List PortFrame} (h : Keeps s₀ s) : Keeps s₀ (s.dpReach edge inputs) :=
  Keeps.sendAllDue (h.reach.frame rfl)

theorem Keeps.execPathFrame {edge : W64} {inputs : List PortFrame} {ecc : List DpFault} (h : Keeps s₀ s) :
    Next s₀ (Machine.execPathFrame edge inputs ecc s) := by
  unfold Machine.execPathFrame
  exact .ite h.next (.ite (Keeps.next (Keeps.dpRun (Keeps.ite (Keeps.lockPending (h.dpReach.frame rfl)) h.dpReach))) (.ite
      (Keeps.next (Keeps.dpStopFrame (Keeps.ite (Keeps.lockPending (h.dpReach.frame rfl)) h.dpReach))) (Keeps.next (Keeps.ite
      (Keeps.lockPending (h.dpReach.frame rfl)) h.dpReach))))

theorem Keeps.execResyncDone {o : Fin 24} (h : Keeps s₀ s) : Next s₀ (Machine.execResyncDone o s) := by
  unfold Machine.execResyncDone
  exact .ite h.next (Keeps.next (h.frame rfl))

theorem Keeps.askList (h : Keeps s₀ s) : Keeps s₀ s.askList := by
  unfold State.askList
  extract_lets _ _
  split
  · exact h
  · extract_lets _
    split
    · exact h
    · split
      · exact h.frame rfl
      · exact Keeps.foldl (h.frame rfl) fun _ _ h => h.request

theorem Keeps.dpLoadGo (h : Keeps s₀ s) : Keeps s₀ s.dpLoadGo := by
  unfold State.dpLoadGo
  exact .ite h.count (Keeps.askList (h.frame rfl))

theorem Keeps.execDpLoadGo {_src : NodeId} (h : Keeps s₀ s) : Next s₀ (Machine.execDpLoadGo _src s) := h.dpLoadGo.next

theorem Keeps.loadApply {r : Machine.LoadRec} (h : Keeps s₀ s) : Keeps s₀ (s.loadApply r) := h.frame rfl

theorem Keeps.readPrefix {who : Requester} {ps : List (Nat × Nat)} (h : Keeps s₀ s) : Keeps s₀ (s.readPrefix who ps).2 := by
  induction ps generalizing s with
  | nil => exact h
  | cons p rest ih =>
    unfold State.readPrefix
    split
    next st l s₁ heq =>
      have h₁ : Keeps s₀ s₁ := h.readPiece.of_eq₃ heq
      split
      · exact h₁
      · exact ih h₁

theorem Keeps.markReady {m : BitVec 24} (h : Keeps s₀ s) : Keeps s₀ (s.markReady m) := h.frame rfl

theorem Keeps.loadBytes {x : Machine.LoadList} (h : Keeps s₀ s) : Keeps s₀ (s.loadBytes x).2 := by
  unfold State.loadBytes
  split
  · exact h.readPrefix
  · exact h

theorem Keeps.loadEnd {x : Machine.LoadList} {recs : List Machine.LoadRec} {stop : Option (Nat × Nat)}
    (h : Keeps s₀ s) : Keeps s₀ (s.loadEnd x recs stop) := by
  unfold State.loadEnd
  extract_lets s₁
  have h₁ : Keeps s₀ s₁ := h.foldl fun _ _ h => h.loadApply
  split
  · exact h₁.markReady
  · exact h₁.setFld.setFld

theorem Keeps.execLoadListDone {t' : W64} (h : Keeps s₀ s) : Next s₀ (Machine.execLoadListDone t' s) := by
  unfold Machine.execLoadListDone
  split
  · exact h.next
  · split
    · exact h.next
    · split
      next _ _ _ heq =>
        have h₁ := h.loadBytes.of_eq₂ heq
        split
        · exact .ite h.next (Keeps.next (Keeps.askList (h₁.reach.loadEnd.frame rfl)))

/-! ### Machine/Compression.lean -/

theorem Keeps.readJob {who : Requester} {weight : Bool} {a len : Nat} (h : Keeps s₀ s) :
    Keeps s₀ (s.readJob who weight a len).2.2 :=
  h.foldl₃ fun ⟨_, _, _⟩ _ h => h.readPiece

theorem Keeps.jobWrite {j : Machine.CeJob} {kind : Machine.TagKind} {a : W64} {l : List Byte} (h : Keeps s₀ s) :
    Keeps s₀ (s.jobWrite j kind a l).2 := by
  unfold State.jobWrite
  split
  · exact h.writeSpan
  · split
    · exact h
    · exact h.foldl fun _ _ h => h.request

theorem Keeps.jobReport {j : Machine.CeJob} (h : Keeps s₀ s) : Keeps s₀ (s.jobReport j) := by
  unfold State.jobReport
  extract_lets _
  split
  next _ _ _ heq =>
    have h₁ := h.jobWrite.of_eq₂ heq
    exact .ite h₁ h₁.signalGlobal

theorem Keeps.setJob {j : Machine.CeJob} (h : Keeps s₀ s) : Keeps s₀ (s.setJob j) := h.frame rfl

theorem Keeps.modBlock {b : Machine.CeBlock} (h : Keeps s₀ s) : Keeps s₀ (s.modBlock b) := h.frame rfl

theorem Keeps.freeWhere {meet : Bool} {l : List Byte} (h : Keeps s₀ s) : Keeps s₀ (s.freeWhere meet l).2 := by
  unfold State.freeWhere
  split
  · exact h.frame rfl
  · exact h

theorem Keeps.ceRead {j : Machine.CeJob} {b : Machine.CeBlock} {off n : Nat} (h : Keeps s₀ s) :
    Keeps s₀ (s.ceRead j b off n) := by
  unfold State.ceRead
  extract_lets b' a here
  have hhere {t : State} (st : Nat) (l : List Byte) (h : Keeps s₀ t) : Keeps s₀ (here t st l) := by
    unfold here
    split
    next l' s₁ heq =>
      have h₁ : Keeps s₀ s₁ := h.freeWhere.of_eq₂ heq
      extract_lets s₂
      have h₂ : Keeps s₀ s₂ := h₁.modBlock
      exact h₂.frame rfl
  split
  · split
    next _ _ _ _ heq => exact hhere _ _ (h.readJob.of_eq₃ heq)
  · split
    · exact hhere _ _ h
    · exact h.modBlock.foldl fun _ _ h => h.request

theorem Keeps.queueBlock {j : Machine.CeJob} (h : Keeps s₀ s) : Keeps s₀ (s.queueBlock j) := Keeps.ceRead (h.frame rfl)

theorem Keeps.headerIn {j : Machine.CeJob} {b : Machine.CeBlock} (h : Keeps s₀ s) : Keeps s₀ (s.headerIn j b) := by
  unfold State.headerIn
  extract_lets hd
  split
  next len s₁ heq =>
    have h₁ : Keeps s₀ s₁ := by
      split at heq
      · exact Keeps.of_eq₂ h heq
      · exact Keeps.of_eq₂ (r := match s.draw 16 with | (v, s) => (v.toNat, s)) (h.draw (w := 16)) heq
    extract_lets s₂ live b' s₃
    have h₂ : Keeps s₀ s₂ := h₁.setJob
    have h₃ : Keeps s₀ s₃ := by
      unfold s₃
      split
      · exact h₂.frame rfl
      · exact h₂
    exact .ite h₃.ceRead h₃.modBlock

theorem Keeps.ceFetch (h : Keeps s₀ s) (e : s.ceFetch = some t) : Keeps s₀ t := by
  unfold State.ceFetch at e
  split at e
  · cases e
  next j r _ =>
    split at e
    · cases e
    split at e
    · injection e with e
      exact e ▸ .ite h.setJob h.setJob
    split at e
    · split at e
      · injection e with e
        exact e ▸ h.headerIn
      · cases e
    · dsimp only at e
      simp only [Option.ite_none_right_eq_some, Option.some.injEq] at e
      exact e.2 ▸ h.queueBlock

theorem Keeps.ceFetchAll {fuel : Nat} (h : Keeps s₀ s) : Keeps s₀ (s.ceFetchAll fuel) := by
  induction fuel generalizing s with
  | zero => exact h
  | succ fuel ih =>
    unfold State.ceFetchAll
    split
    next t heq => exact ih (h.ceFetch heq)
    · exact h

theorem Keeps.laneWait {ctx lane : Nat} (h : Keeps s₀ s) : Keeps s₀ (s.laneWait ctx lane) := h.addWait

theorem Keeps.lanesFree (h : Keeps s₀ s) : Keeps s₀ s.lanesFree := h.endWaits

theorem Keeps.ceLanes (h : Keeps s₀ s) : Keeps s₀ s.ceLanes := by
  unfold State.ceLanes
  refine h.foldl fun _ _ h₁ => ?_
  split
  · split
    · exact h₁.modBlock.laneWait
    · exact h₁
  · exact h₁

theorem Keeps.endJob {j : Machine.CeJob} (h : Keeps s₀ s) : Keeps s₀ (s.endJob j) := h.frame rfl

theorem Keeps.ceWrite {j : Machine.CeJob} {b : Machine.CeBlock} {out : List Byte} {code : Nat} (h : Keeps s₀ s) :
    Keeps s₀ (s.ceWrite j b out code) := by
  unfold State.ceWrite
  split
  · exact h.endJob
  · split
    next _ _ _ heq =>
      have h₁ := h.freeWhere.of_eq₂ heq
      split
      next _ _ _ heq =>
        have h₂ := h₁.jobWrite.of_eq₂ heq
        extract_lets _ s₃ _ _ _ s₄
        have h₃ : Keeps s₀ s₃ := .ite h₂ h₂.count
        have h₄ : Keeps s₀ s₄ := h₃.frame rfl
        exact .ite h₂.endJob (.ite h₄.endJob h₄.setJob)

theorem Keeps.ceDrain {fuel : Nat} (h : Keeps s₀ s) : Keeps s₀ (s.ceDrain fuel) := by
  induction fuel generalizing s with
  | zero => exact h
  | succ fuel ih =>
    unfold State.ceDrain
    split
    · split
      · exact .ite h (ih h.ceWrite)
      · exact h
    · exact h

theorem Keeps.popJob (h : Keeps s₀ s) : Keeps s₀ s.popJob := h.frame rfl

theorem Keeps.ceStop (h : Keeps s₀ s) : Keeps s₀ s.ceStop := by
  unfold State.ceStop
  split
  · exact .ite h.jobReport.popJob.requestQuench h
  · exact h

theorem Keeps.cePump (h : Keeps s₀ s) : Keeps s₀ s.cePump := by
  unfold State.cePump
  exact .ite h.lanesFree h.lanesFree.ceDrain.ceStop.ceFetchAll.lanesFree.ceLanes

theorem Keeps.jobGo (h : Keeps s₀ s) : Keeps s₀ s.jobGo := by
  unfold State.jobGo
  extract_lets _
  split
  · exact .ite h (.ite h.count.jobReport (Keeps.cePump (h.frame rfl)))

theorem Keeps.execCeJobGo {_src : NodeId} (h : Keeps s₀ s) : Next s₀ (Machine.execCeJobGo _src s) := h.jobGo.next

theorem Keeps.blockCoded {j : Machine.CeJob} {b : Machine.CeBlock} (h : Keeps s₀ s) : Keeps s₀ (s.blockCoded j b) := by
  unfold State.blockCoded
  split
  · extract_lets s₁ s₂ s₃
    have h₁ : Keeps s₀ s₁ := h.count
    have h₂ : Keeps s₀ s₂ := .ite h₁.count h₁
    have h₃ : Keeps s₀ s₃ := by
      unfold s₃
      split
      · exact h₂.frame rfl
      · exact h₂
    exact .ite h h₃.modBlock.cePump

theorem Keeps.execBlockCode {lane : Fin 16} (h : Keeps s₀ s) : Next s₀ (Machine.execBlockCode lane s) := by
  unfold Machine.execBlockCode
  split
  · exact h.blockCoded.next
  · exact h.next

theorem Keeps.execCeJobDone (h : Keeps s₀ s) : Next s₀ (Machine.execCeJobDone s) := by
  unfold Machine.execCeJobDone
  split
  · exact h.next
  · exact .ite h.jobReport.popJob.cePump.next h.next

/-! ### Machine/Link.lean -/

theorem Keeps.latchFail {c n status : Nat} (h : Keeps s₀ s) : Keeps s₀ (s.latchFail c n status) :=
  Keeps.setReg (h.modCore fun _ w => by split <;> exact w)

theorem Keeps.txnFailed {t' : Machine.Tag} {status : Nat} (h : Keeps s₀ s) : Keeps s₀ (s.txnFailed t' status) := by
  unfold State.txnFailed
  extract_lets s₁
  have h₁ : Keeps s₀ s₁ := h.endWaits
  split
  · exact h.copyFailed
  · split
    · exact h₁.latchFail
    · exact h₁
  · exact h
  · exact h.frame rfl
  · exact h.frame rfl
  · exact h.listLanded
  · exact h.slotAcked
  · exact h.dumpLanded
  · split
    · exact h.latchFail
    · exact h

theorem Keeps.failTag {i status : Nat} (h : Keeps s₀ s) : Keeps s₀ (s.failTag i status) := by
  unfold State.failTag
  split
  · exact h
  · exact h.abandonTag.txnFailed

theorem Keeps.failTags {f : Machine.Tag → Bool} {status : Nat} (h : Keeps s₀ s) : Keeps s₀ (s.failTags f status) := by
  unfold State.failTags
  extract_lets _ s₁ s₂
  have h₁ : Keeps s₀ s₁ := h.dropWaiting
  have h₂ : Keeps s₀ s₂ := by
    unfold s₂
    refine h₁.foldl fun _ _ h₃ => ?_
    split
    · exact .ite h₃.failTag h₃
    · exact h₃
  exact h₂.foldl fun _ _ h => h.txnFailed

theorem Keeps.setPeer {n : Nat} {bgen : Byte} {up : Bool} (h : Keeps s₀ s) : Keeps s₀ (s.setPeer n bgen up) := h.setReg

theorem Keeps.declareFailed (h : Keeps s₀ s) : Keeps s₀ s.declareFailed := by
  unfold State.declareFailed
  exact .ite h (Keeps.raiseMech (h.frame rfl))

theorem Keeps.markDown {n : Nat} (h : Keeps s₀ s) : Keeps s₀ (s.markDown n) := by
  unfold State.markDown
  exact .ite (Keeps.declareFailed (Keeps.logEvent (Keeps.failTags (Keeps.ite h.setFlag (h.frame rfl))))) (Keeps.logEvent
      (Keeps.failTags (Keeps.ite h.setFlag (h.frame rfl))))

theorem Keeps.nodeDownAct {n : Nat} (h : Keeps s₀ s) : Keeps s₀ (s.nodeDownAct n) := by
  unfold State.nodeDownAct
  exact .ite h h.markDown

theorem Keeps.sendNodeDown {n : Nat} (h : Keeps s₀ s) : Keeps s₀ (s.sendNodeDown n) := h.broadcast.nodeDownAct

theorem Keeps.peerLostAct {by_ n cause : Nat} (h : Keeps s₀ s) : Keeps s₀ (s.peerLostAct by_ n cause) := by
  unfold State.peerLostAct
  extract_lets s₁ _ s₂ _ _ _
  have h₁ : Keeps s₀ s₁ := .ite h.markDown h
  have h₂ : Keeps s₀ s₂ := h₁.frame rfl
  exact .ite h (.ite h₁ (.ite h₁.sendNodeDown (.ite h₂.sendNodeDown h₂)))

theorem Keeps.nodeUpAct {n : Nat} {bgen : Byte} {data : List Byte} (h : Keeps s₀ s) : Keeps s₀ (s.nodeUpAct n bgen data) := by
  unfold State.nodeUpAct
  extract_lets _ s₁ _ s₂ s₃ _
  have h₁ : Keeps s₀ s₁ := h.setPeer
  have h₂ : Keeps s₀ s₂ := h₁.frame rfl
  have h₃ : Keeps s₀ s₃ := .ite h₂.setReg h₂
  exact .ite h (.ite (h₃.frame rfl) h₃)

theorem Keeps.announce (h : Keeps s₀ s) : Keeps s₀ s.announce := by
  unfold State.announce
  exact .ite h h.broadcast.nodeUpAct

theorem Keeps.control {p kind arg : Nat} (h : Keeps s₀ s) : Keeps s₀ (s.control p kind arg) := h.frame rfl

theorem Keeps.refuse {p : Packet} {status : Nat} (h : Keeps s₀ s) : Keeps s₀ (s.refuse p status) := by
  unfold State.refuse
  split
  · exact h.send
  · exact h

theorem Keeps.goDown {p : Nat} {cause : DownCause} (h : Keeps s₀ s) : Keeps s₀ (s.goDown p cause) := by
  unfold State.goDown
  exact .ite h (.ite (h.frame rfl) (.ite (Keeps.foldl (Keeps.failTags (h.frame rfl)) fun _ _ h => .ite h h.refuse)
      (Keeps.peerLostAct (Keeps.broadcast (Keeps.foldl (Keeps.failTags (h.frame rfl)) fun _ _ h => .ite h h.refuse)))))

theorem Keeps.resetLink {p : Nat} {cause : DownCause} (h : Keeps s₀ s) : Keeps s₀ (s.resetLink p cause) := by
  unfold State.resetLink
  extract_lets _ s₁
  have h₁ : Keeps s₀ s₁ := by
    unfold s₁
    split
    · exact .ite h.control.control.control h
    · exact h
  exact h₁.goDown

theorem Keeps.startDetect {p : Nat} (h : Keeps s₀ s) : Keeps s₀ (s.startDetect p) := h.modLink

theorem Keeps.linkEnable {src p : Nat} (h : Keeps s₀ s) : Keeps s₀ (s.linkEnable src p) := by
  unfold State.linkEnable
  exact .ite h.setFlag (.ite h.enableRefused (.ite h.setLink.startDetect h.setLink))

theorem Keeps.linkDisable {p : Nat} (h : Keeps s₀ s) : Keeps s₀ (s.linkDisable p) := by
  unfold State.linkDisable
  exact .ite h.setFlag h.resetLink.modLink

theorem Keeps.linkBlockReset {p : Nat} (h : Keeps s₀ s) : Keeps s₀ (s.linkBlockReset p) := by
  unfold State.linkBlockReset
  exact .ite h.resetLink.modLink h

theorem Keeps.execLinkEnable {src : NodeId} {port : PortId} (h : Keeps s₀ s) : Next s₀ (Machine.execLinkEnable src port s) :=
  h.linkEnable.next

theorem Keeps.execLinkBlockReset {_src : NodeId} {port : PortId} (h : Keeps s₀ s) :
    Next s₀ (Machine.execLinkBlockReset _src port s) :=
  h.linkBlockReset.next

theorem Keeps.execLinkControllerRelease (h : Keeps s₀ s) : Next s₀ (Machine.execLinkControllerRelease s) := by
  unfold Machine.execLinkControllerRelease
  exact .ite h.next (Keeps.next (Keeps.foldl (h.frame rfl) fun _ _ h => h.linkEnable))

theorem Keeps.execLinkDetectDone {port : PortId} (h : Keeps s₀ s) : Next s₀ (Machine.execLinkDetectDone port s) := by
  unfold Machine.execLinkDetectDone
  exact .ite h.modLink.next h.next

theorem Keeps.execLinkTrainDone {port : PortId} {fast laneSwap : Bool} {laneInv : BitVec 2} (h : Keeps s₀ s) :
    Next s₀ (Machine.execLinkTrainDone port fast laneSwap laneInv s) := by
  unfold Machine.execLinkTrainDone
  exact .ite h.setLink.next h.next

theorem Keeps.execLinkAlignDone {port : PortId} (h : Keeps s₀ s) : Next s₀ (Machine.execLinkAlignDone port s) := by
  unfold Machine.execLinkAlignDone
  exact .ite h.modLink.control.next h.next

theorem Keeps.execExchangeResend {port : PortId} (h : Keeps s₀ s) : Next s₀ (Machine.execExchangeResend port s) := by
  unfold Machine.execExchangeResend
  exact .ite h.next h.reach.modLink.control.next

theorem Keeps.enterUp {p : Nat} (h : Keeps s₀ s) : Keeps s₀ (s.enterUp p) := by
  unfold State.enterUp
  exact .ite h.setLink h.setLink.announce

theorem Keeps.trng (h : Keeps s₀ s) : Keeps s₀ (s.trng).2 := by
  unfold State.trng
  split
  next _ _ _ heq =>
    have h₁ := h.draw.of_eq₂ heq
    exact h₁.frame rfl

theorem Keeps.sendConfirm {p : Nat} (h : Keeps s₀ s) : Keeps s₀ (s.sendConfirm p) := by
  unfold State.sendConfirm
  exact .ite h h.emit

theorem Keeps.sendOffer {p : Nat} (h : Keeps s₀ s) : Keeps s₀ (s.sendOffer p) := by
  unfold State.sendOffer
  split
  · exact h
  · split
    next _ _ _ heq =>
      have h₁ := h.trng.of_eq₂ heq
      split
      next _ _ _ heq =>
        have h₂ := h₁.trng.of_eq₂ heq
        exact h₂.modLink.emit.sendConfirm

theorem Keeps.keyFail {p : Nat} (h : Keeps s₀ s) : Keeps s₀ (s.keyFail p) := h.count.goDown

theorem Keeps.execKeyOffer {port : PortId} {p : Packet} (h : Keeps s₀ s) : Next s₀ (Machine.execKeyOffer port p s) := by
  unfold Machine.execKeyOffer
  exact .ite h.next (.ite h.count.next (.ite h.setLink.setReg.setReg.sendConfirm.next h.keyFail.next))

theorem Keeps.execKeyConfirm {port : PortId} {p : Packet} (h : Keeps s₀ s) : Next s₀ (Machine.execKeyConfirm port p s) := by
  unfold Machine.execKeyConfirm
  exact .ite h.next (.ite h.count.next (.ite h.setLink.enterUp.next h.keyFail.next))

theorem Keeps.execKeyingTimeout {port : PortId} (h : Keeps s₀ s) : Next s₀ (Machine.execKeyingTimeout port s) := by
  unfold Machine.execKeyingTimeout
  exact .ite h.reach.keyFail.next h.next

theorem Keeps.execLinkDown {port : PortId} {cause : DownCause} (h : Keeps s₀ s) : Next s₀ (Machine.execLinkDown port cause s) :=
  h.goDown.next

theorem Keeps.execLockLossTimeout {port : PortId} (h : Keeps s₀ s) : Next s₀ (Machine.execLockLossTimeout port s) := by
  unfold Machine.execLockLossTimeout
  exact .ite h.goDown.next h.next

theorem Keeps.execLinkStateFail {port : PortId} (h : Keeps s₀ s) : Next s₀ (Machine.execLinkStateFail port s) := by
  unfold Machine.execLinkStateFail
  exact .ite h.reach.goDown.next h.next

theorem Keeps.execLinkRestart {port : PortId} (h : Keeps s₀ s) : Next s₀ (Machine.execLinkRestart port s) := by
  unfold Machine.execLinkRestart
  exact .ite h.reach.startDetect.next h.next

theorem Keeps.execRekey {port : PortId} (h : Keeps s₀ s) : Next s₀ (Machine.execRekey port s) := by
  unfold Machine.execRekey
  exact .ite h.resetLink.next h.next

theorem Keeps.takeAck {p : Nat} {h' : FlitHead} (h : Keeps s₀ s) : Keeps s₀ (s.takeAck p h') := h.setLink

theorem Keeps.fecFlit {p errs : Nat} (h : Keeps s₀ s) : Keeps s₀ (s.fecFlit p errs).2 := by
  unfold State.fecFlit
  exact .ite h.setLink (.ite h.setLink.count h.setLink.count)

theorem Keeps.nakOnce {p : Nat} (h : Keeps s₀ s) : Keeps s₀ (s.nakOnce p) := by
  unfold State.nakOnce
  exact .ite h h.setLink.control

theorem Keeps.replayFrom {p : Nat} {seq : BitVec 12} (h : Keeps s₀ s) : Keeps s₀ (s.replayFrom p seq) := by
  unfold State.replayFrom
  exact .ite h (.ite (Keeps.goDown (Keeps.count (h.setLink.foldl fun _ _ h => h.control))) (Keeps.count (h.setLink.foldl
      fun _ _ h => h.control)))

theorem Keeps.goodControl {p : Nat} {h' : FlitHead} {act : Machine.State → Machine.State}
    (h : Keeps s₀ s) (hact : ∀ {t}, Keeps s₀ t → Keeps s₀ (act t)) : Keeps s₀ (s.goodControl p h' act) := by
  unfold State.goodControl
  split
  · exact h
  · split
    next _ _ _ heq =>
      have h₁ := h.fecFlit.of_eq₂ heq
      exact .ite h₁ (hact h₁.takeAck)

theorem Keeps.execNak {port : PortId} {f : NakFlit} (h : Keeps s₀ s) : Next s₀ (Machine.execNak port f s) :=
  (h.goodControl fun h => h.replayFrom).next

theorem Keeps.execReplayTimeout {port : PortId} (h : Keeps s₀ s) : Next s₀ (Machine.execReplayTimeout port s) := by
  unfold Machine.execReplayTimeout
  extract_lets _
  split
  · exact .ite h.reach.replayFrom.next h.next
  · exact h.next

theorem Keeps.execLinkReset {port : PortId} {f : ResetFlit} (h : Keeps s₀ s) : Next s₀ (Machine.execLinkReset port f s) := by
  unfold Machine.execLinkReset
  split
  · exact (h.goodControl fun h => h.goDown).next
  · exact h.next

theorem Keeps.exchangeTake {i : Nat} {x : ExchangeInfo} (h : Keeps s₀ s) : Keeps s₀ (s.exchangeTake i x) := by
  unfold State.exchangeTake
  exact .ite h (.ite h.setLink.goDown (.ite h.setLink.goDown (.ite (.ite h.setLink h.setLink.setFld) (.ite (Keeps.sendOffer
      (Keeps.modLink (Keeps.ite h.setLink h.setLink.setFld))) (Keeps.enterUp (Keeps.ite h.setLink h.setLink.setFld))))))

theorem Keeps.execExchange {port : PortId} {f : ExchangeFlit} (h : Keeps s₀ s) : Next s₀ (Machine.execExchange port f s) :=
  (h.goodControl fun h => h.exchangeTake).next

theorem Keeps.authFail {p : Nat} (h : Keeps s₀ s) : Keeps s₀ (s.authFail p) := by
  unfold State.authFail
  exact .ite h (.ite h.count.setLink.raiseMech.goDown h.count.setLink.raiseMech)

theorem Keeps.execAuthFail {port : PortId} {_vc : Fin 8} {_p : Packet} (h : Keeps s₀ s) :
    Next s₀ (Machine.execAuthFail port _vc _p s) :=
  h.authFail.next

/-! ### Machine/Fabric.lean -/

theorem Keeps.genDrop {p : Packet} (h : Keeps s₀ s) : Keeps s₀ (s.genDrop p) := h.count.logEvent

theorem Keeps.learn {p : Packet} (h : Keeps s₀ s) : Keeps s₀ (s.learn p) := by
  unfold State.learn
  exact .ite h (h.frame rfl)

theorem Keeps.forward {vc : Nat} {p : Packet} (h : Keeps s₀ s) : Keeps s₀ (s.forward vc p) := by
  unfold State.forward
  exact .ite h.emit h.count.refuse

theorem Keeps.copyOn {arrived vc : Nat} {p : Packet} (h : Keeps s₀ s) : Keeps s₀ (s.copyOn arrived vc p) :=
  h.foldl fun _ _ h => .ite h.emit h

theorem Keeps.arrive {port vc : Nat} {p : Packet} (h : Keeps s₀ s) : Keeps s₀ (s.arrive port vc p).2 := by
  unfold State.arrive
  extract_lets l t s₁ mal s₂
  have h₁ : Keeps s₀ s₁ := .ite h.setLink h
  have h₂ : Keeps s₀ s₂ := h₁.learn
  have hmal : Keeps s₀ (mal s₁) := h₁.count
  refine .ite₂ h ?_
  refine .ite₂ (.ite hmal.refuse hmal) (.ite₂ hmal (.ite₂ h₁.genDrop (.ite₂ h₂.count (.ite₂ h₂ (.ite₂ h₂.refuse ?_)))))
  refine .ite₂ (.ite₂ h₂ (.ite₂ h₂ (.ite h₂ h₂.copyOn))) ?_
  exact .ite₂ (.ite₂ h₂.refuse h₂) (.ite₂ h₂ h₂.forward)

theorem Keeps.execPacketForward {port : PortId} {vc : Fin 8} {p : Packet} (h : Keeps s₀ s) :
    Next s₀ (Machine.execPacketForward port vc p s) :=
  h.arrive.next

theorem Keeps.setRoute {n port : Nat} (h : Keeps s₀ s) : Keeps s₀ (s.setRoute n port) := h.setFld

theorem Keeps.learnPeer {port : Nat} {p : Packet} (h : Keeps s₀ s) : Keeps s₀ (s.learnPeer port p) := by
  unfold State.learnPeer
  exact .ite h h.modLink

theorem Keeps.walkDone {w : Machine.Walk} (h : Keeps s₀ s) : Keeps s₀ (s.walkDone w) := by
  unfold State.walkDone
  extract_lets _ s₁ _ _ s₂
  have h₁ : Keeps s₀ s₁ := h.frame rfl
  have h₂ : Keeps s₀ s₂ := by
    unfold s₂
    split
    · exact h₁.emit
    · exact h₁.frame rfl
  exact h₂.announce

theorem Keeps.walkStep {w : Machine.Walk} (h : Keeps s₀ s) : Keeps s₀ (s.walkStep w) := by
  unfold State.walkStep
  extract_lets _
  split
  · exact Keeps.emit (h.frame rfl)
  · exact h.walkDone

theorem Keeps.routesTo {port : Nat} (h : Keeps s₀ s) : Keeps s₀ (s.routesTo port) :=
  Keeps.setRoute (h.foldl fun _ _ h => h.setRoute)

theorem Keeps.enumStart {v : W32} (h : Keeps s₀ s) : Keeps s₀ (s.enumStart v) := by
  unfold State.enumStart
  extract_lets _ _ _ _ s₁ _ s₂
  have h₁ : Keeps s₀ s₁ := .ite h (Keeps.routesTo (h.frame rfl))
  have h₂ : Keeps s₀ s₂ := h₁.frame rfl
  exact .ite h h₂.walkStep

theorem Keeps.execFbEnumStart {_src : NodeId} {v : W32} (h : Keeps s₀ s) : Next s₀ (Machine.execFbEnumStart _src v s) :=
  h.enumStart.next

theorem Keeps.enumTake {u : Nat} {p : Packet} (h : Keeps s₀ s) : Keeps s₀ (s.enumTake u p) := by
  unfold State.enumTake
  exact .ite h.learnPeer.emit (.ite h.learnPeer.emit (Keeps.walkStep (Keeps.routesTo (Keeps.foldl (h.learnPeer.frame rfl)
      fun _ _ h => .ite h.modLink h))))

theorem Keeps.execEnum {port : PortId} {vc : Fin 8} {p : Packet} (h : Keeps s₀ s) : Next s₀ (Machine.execEnum port vc p s) := by
  unfold Machine.execEnum
  extract_lets _
  split
  next _ _ heq =>
    have h₁ := h.arrive.of_eq₂ heq
    exact h₁.next
  next _ _ heq =>
    have h₂ := h.arrive.of_eq₂ heq
    exact h₂.enumTake.next

theorem Keeps.execEnumDone {port : PortId} {vc : Fin 8} {p : Packet} (h : Keeps s₀ s) :
    Next s₀ (Machine.execEnumDone port vc p s) := by
  unfold Machine.execEnumDone
  extract_lets _ _
  split
  next _ _ heq =>
    have h₁ := h.arrive.of_eq₂ heq
    exact h₁.next
  next _ _ heq =>
    have h₂ := h.arrive.of_eq₂ heq
    extract_lets s₃
    have h₃ : Keeps s₀ s₃ := h₂.learnPeer
    split
    · exact h₃.next
    · exact .ite h₃.next (Keeps.next (Keeps.walkStep (Keeps.ite h₃ (h₃.foldl fun _ _ h => .ite h.setRoute h))))

theorem Keeps.execHostSwitch {port : PortId} {vc : Fin 8} {p : Packet} (h : Keeps s₀ s) :
    Next s₀ (Machine.execHostSwitch port vc p s) := by
  unfold Machine.execHostSwitch
  extract_lets _ _ _
  split
  next _ _ heq =>
    have h₁ := h.arrive.of_eq₂ heq
    exact h₁.next
  next _ _ heq =>
    have h₂ := h.arrive.of_eq₂ heq
    extract_lets s₃ s₄ _ s₅ s₆ _ s₇
    have h₃ : Keeps s₀ s₃ := .ite h₂.modLink h₂
    have h₄ : Keeps s₀ s₄ := h₃.modLink
    have h₅ : Keeps s₀ s₅ := h₄.frame rfl
    have h₆ : Keeps s₀ s₆ := h₅.modLink.setRoute
    have h₇ : Keeps s₀ s₇ := h₃.frame rfl
    exact .ite h₆.broadcast.next (.ite h₂.count.next h₇.setRoute.next)

theorem Keeps.execPdelayPeriod {port : PortId} (h : Keeps s₀ s) : Next s₀ (Machine.execPdelayPeriod port s) := by
  unfold Machine.execPdelayPeriod
  extract_lets _ _ s₁ s₂ _
  have h₁ : Keeps s₀ s₁ := by
    unfold s₁
    split
    · exact h.reach
    · exact h
  have h₂ : Keeps s₀ s₂ := h₁.modLink
  exact .ite h₂.emit.next h.next

theorem Keeps.execPdelayReq {port : PortId} {vc : Fin 8} {p : Packet} (h : Keeps s₀ s) :
    Next s₀ (Machine.execPdelayReq port vc p s) := by
  unfold Machine.execPdelayReq
  extract_lets _
  split
  next _ _ heq =>
    have h₁ := h.arrive.of_eq₂ heq
    exact h₁.next
  next _ _ heq =>
    have h₂ := h.arrive.of_eq₂ heq
    exact h₂.emit.next

theorem Keeps.execPdelayRsp {port : PortId} {vc : Fin 8} {p : Packet} (h : Keeps s₀ s) :
    Next s₀ (Machine.execPdelayRsp port vc p s) := by
  unfold Machine.execPdelayRsp
  extract_lets _ _
  split
  next _ _ heq =>
    have h₁ := h.arrive.of_eq₂ heq
    exact h₁.next
  next _ _ heq =>
    have h₂ := h.arrive.of_eq₂ heq
    extract_lets _
    split
    · exact h₂.next
    · exact h₂.setLink.next

theorem Keeps.execSync {port : PortId} {vc : Fin 8} {p : Packet} (h : Keeps s₀ s) : Next s₀ (Machine.execSync port vc p s) := by
  unfold Machine.execSync
  extract_lets _ _ _
  split
  next _ _ heq =>
    have h₁ := h.arrive.of_eq₂ heq
    exact h₁.next
  next _ _ heq =>
    have h₂ := h.arrive.of_eq₂ heq
    exact .ite h₂.count.next (.ite (Keeps.next (Keeps.servoUpdate (Keeps.copyOn (h₂.frame rfl)))) (Keeps.next (Keeps.copyOn
        (h₂.frame rfl))))

theorem Keeps.execSyncSend (h : Keeps s₀ s) : Next s₀ (Machine.execSyncSend s) := h.next

theorem Keeps.execPeerLost {port : PortId} {vc : Fin 8} {p : Packet} (h : Keeps s₀ s) :
    Next s₀ (Machine.execPeerLost port vc p s) := by
  unfold Machine.execPeerLost
  extract_lets _
  split
  next _ _ heq =>
    have h₁ := h.arrive.of_eq₂ heq
    exact h₁.next
  next _ _ heq =>
    have h₂ := h.arrive.of_eq₂ heq
    exact h₂.peerLostAct.next

theorem Keeps.execNodeDown {port : PortId} {vc : Fin 8} {p : Packet} (h : Keeps s₀ s) :
    Next s₀ (Machine.execNodeDown port vc p s) := by
  unfold Machine.execNodeDown
  extract_lets _
  split
  next _ _ heq =>
    have h₁ := h.arrive.of_eq₂ heq
    exact h₁.next
  next _ _ heq =>
    have h₂ := h.arrive.of_eq₂ heq
    exact h₂.nodeDownAct.next

theorem Keeps.execNodeUp {port : PortId} {vc : Fin 8} {p : Packet} (h : Keeps s₀ s) :
    Next s₀ (Machine.execNodeUp port vc p s) := by
  unfold Machine.execNodeUp
  extract_lets _
  split
  next _ _ heq =>
    have h₁ := h.arrive.of_eq₂ heq
    exact h₁.next
  next _ _ heq =>
    have h₂ := h.arrive.of_eq₂ heq
    exact h₂.nodeUpAct.next

/-! ### Machine/Pair.lean -/

theorem Keeps.mrCtrlWrite {src : Nat} {v : W32} (h : Keeps s₀ s) : Keeps s₀ (s.mrCtrlWrite src v) := by
  unfold State.mrCtrlWrite
  exact .ite h.pgErrAt (.ite h.setFlag.writeRefused (.ite (h.frame rfl) h.setReg))

theorem Keeps.execMrCtrlEnable {src : NodeId} {v : W32} (h : Keeps s₀ s) : Next s₀ (Machine.execMrCtrlEnable src v s) :=
  h.mrCtrlWrite.next

theorem Keeps.exportSlot {bar : Nat} {z : Bool} {p : Nat × Nat × Nat} (h : Keeps s₀ s) : Keeps s₀ (s.exportSlot bar z p) := by
  unfold State.exportSlot
  extract_lets _ _
  split
  · extract_lets s₁
    have h₁ : Keeps s₀ s₁ := by
      unfold s₁
      refine h.foldl fun _ _ h₂ => ?_
      extract_lets _ _ _ _
      split
      · exact h₂
      · exact h₂.request
    exact h₁.xfer

theorem Keeps.execMirrorExport (h : Keeps s₀ s) : Next s₀ (Machine.execMirrorExport s) := by
  unfold Machine.execMirrorExport
  extract_lets _ _ _
  split
  · exact h.next
  · extract_lets s₁ s₂ _ s₃ s₄ _ _
    have h₁ : Keeps s₀ s₁ := h.foldl fun _ _ h => h.exportSlot
    have h₂ : Keeps s₀ s₂ := h₁.trace
    have h₃ : Keeps s₀ s₃ := h₂.setReg
    have h₄ : Keeps s₀ s₄ := h₃.agentDone
    exact Keeps.next (h₄.frame rfl)

theorem Keeps.startExport {bar : Nat} (h : Keeps s₀ s) : Keeps s₀ (s.startExport bar) := by
  unfold State.startExport
  extract_lets s₁ _ _
  have h₁ : Keeps s₀ s₁ := h.agentWait
  split
  · exact h
  · exact .ite h (h₁.frame rfl)

theorem Keeps.auditFailed {i bar : Nat} (h : Keeps s₀ s) : Keeps s₀ (s.auditFailed i bar) := by
  unfold State.auditFailed
  exact .ite h.count.logEvent.setStream h.count.logEvent.setStream.raiseMech.writeRemote

theorem Keeps.releaseRetained {i : Nat} (h : Keeps s₀ s) : Keeps s₀ (s.releaseRetained i) := h.modStream

theorem Keeps.importImage {c r x bar : Nat} {image : List Byte} (h : Keeps s₀ s) :
    Keeps s₀ (s.importImage c r x bar image) := by
  unfold State.importImage
  extract_lets _ _ _ s₁ _ _ s₂ s₃ _ s₄
  have h₁ : Keeps s₀ s₁ := h.frame rfl
  have h₂ : Keeps s₀ s₂ := by
    unfold s₂
    split
    · exact .ite h₁.auditFailed h₁
    · exact h₁
  have h₃ : Keeps s₀ s₃ := h₂.putImage.xfer
  have h₄ : Keeps s₀ s₄ := h₃.frame rfl
  split
  · exact h₁
  · split
    · exact h₄.releaseRetained
    · exact h₄

theorem Keeps.discardImage {c r x bar : Nat} (h : Keeps s₀ s) : Keeps s₀ (s.discardImage c r x bar) := by
  unfold State.discardImage
  exact .ite h (h.frame rfl)

theorem Keeps.importPiece {p : Packet} (h : Keeps s₀ s) : Keeps s₀ (s.importPiece p) := by
  unfold State.importPiece
  extract_lets a c r x bar off g data staged room base
  clear_value data
  split
  · exact h
  · split
    · exact h.discardImage
    next d _ =>
      refine .ite h.discardImage ?_
      split
      next n s₁ heq =>
        have h₁ : Keeps s₀ s₁ := h.writeSpan.of_eq₂ heq
        extract_lets _ s₂ _ s₃
        have h₂ : Keeps s₀ s₂ := h₁.frame rfl
        split
        · exact h₂
        · exact Keeps.importImage (h₂.frame rfl)

theorem Keeps.execMirror {port : PortId} {vc : Fin 8} {p : Packet} (h : Keeps s₀ s) :
    Next s₀ (Machine.execMirror port vc p s) := by
  unfold Machine.execMirror
  extract_lets _
  split
  next _ _ heq =>
    have h₁ := h.arrive.of_eq₂ heq
    exact h₁.next
  next _ _ heq =>
    have h₂ := h.arrive.of_eq₂ heq
    exact h₂.importPiece.respond.next

theorem Keeps.importEnd (h : Keeps s₀ s) : Keeps s₀ s.importEnd := by
  unfold State.importEnd
  extract_lets s₁ _
  have h₁ : Keeps s₀ s₁ := h.foldl fun _ _ h => h.discardImage
  exact h₁.frame rfl

theorem Keeps.auditIn {v : W32} (h : Keeps s₀ s) : Keeps s₀ (s.auditIn v) := by
  unfold State.auditIn
  exact .ite h.raiseMech h.setStream.raiseMech

theorem Keeps.execMrAuditIn {_src : NodeId} {v : W32} (h : Keeps s₀ s) : Next s₀ (Machine.execMrAuditIn _src v s) :=
  h.auditIn.next

theorem Keeps.applyBind {l : List W32} (h : Keeps s₀ s) : Keeps s₀ (s.applyBind l) := by
  unfold State.applyBind
  extract_lets _ _ _ _
  split
  · exact h.setStream
  · exact h.setStream
  · exact h.setStream

theorem Keeps.bindAccept {l : List W32} (h : Keeps s₀ s) : Keeps s₀ (s.bindAccept l) := by
  unfold State.bindAccept
  extract_lets _ _
  split
  · exact .ite h.count (h.frame rfl)

theorem Keeps.bindWord {w : Nat} {v : W32} (h : Keeps s₀ s) : Keeps s₀ (s.bindWord w v) := by
  unfold State.bindWord
  exact .ite (Keeps.bindAccept (h.frame rfl)) (h.frame rfl)

theorem Keeps.execMrBindInWrite {_src : NodeId} {words : List W32} (h : Keeps s₀ s) :
    Next s₀ (Machine.execMrBindInWrite _src words s) :=
  Keeps.next (h.foldl fun _ _ h => h.bindWord)

theorem Keeps.applyBinds (h : Keeps s₀ s) : Keeps s₀ s.applyBinds := Keeps.foldl (h.frame rfl) fun _ _ h => h.applyBind

theorem Keeps.tollPacket {k : Nat} (h : Keeps s₀ s) : Keeps s₀ (s.tollPacket k) := by
  unfold State.tollPacket
  exact .ite h h.send

theorem Keeps.execTollSend (h : Keeps s₀ s) : Next s₀ (Machine.execTollSend s) := by
  have hsent {t : State} {k : Nat} (h : Keeps s₀ t) :
      Keeps s₀ { t with pair := { t.pair with txK := k }, safety := { t.safety with tollOut := true } } := h.frame rfl
  exact .ite h.next (hsent h.reach.tollPacket).next

theorem Keeps.execTollInPulse {widthNs : Nat} (h : Keeps s₀ s) : Next s₀ (Machine.execTollInPulse widthNs s) := by
  unfold Machine.execTollInPulse
  exact .ite (Keeps.next (h.frame rfl)) h.next

theorem Keeps.execToll {port : PortId} {vc : Fin 8} {p : Packet} (h : Keeps s₀ s) : Next s₀ (Machine.execToll port vc p s) := by
  unfold Machine.execToll
  extract_lets _ _ _
  split
  next _ _ heq =>
    have h₁ := h.arrive.of_eq₂ heq
    exact h₁.next
  next _ _ heq =>
    have h₂ := h.arrive.of_eq₂ heq
    exact .ite h₂.trace.next (.ite h₂.trace.declareFailed.next (.ite (Keeps.next (h₂.trace.frame rfl)) h₂.trace.next))

theorem Keeps.execTollWindowEnd (h : Keeps s₀ s) : Next s₀ (Machine.execTollWindowEnd s) := by
  have hpair {t : State} {q : Pair} (h : Keeps s₀ t) : Keeps s₀ { t with pair := q } := h.frame rfl
  unfold Machine.execTollWindowEnd
  extract_lets s₁ q s₂ s₃ miss pin link k s₄ s₅ s₆
  have h₁ : Keeps s₀ s₁ := h.reach
  have h₂ : Keeps s₀ s₂ := .ite h₁ h₁.count
  have h₃ : Keeps s₀ s₃ := .ite h₂ h₂.count
  have h₄ : Keeps s₀ s₄ := hpair h₃
  have h₅ : Keeps s₀ s₅ := .ite h₄.raiseMech h₄
  have h₆ : Keeps s₀ s₆ := .ite h₅.raiseMech h₅
  exact .ite h.next (.ite h₆.declareFailed.next h₆.next)

theorem Keeps.execTakeoverDrive {edges : Bool} (h : Keeps s₀ s) : Next s₀ (Machine.execTakeoverDrive edges s) := by
  unfold Machine.execTakeoverDrive
  exact .ite h.next (.ite (Keeps.next (Keeps.raiseMech (h.reach.frame rfl))) (Keeps.next (Keeps.foldl (h.reach.frame rfl)
      fun _ _ h => h.setFlag.applyStandby)))

theorem Keeps.adoptStream {i bar : Nat} {t' : W64} (h : Keeps s₀ s) : Keeps s₀ (s.adoptStream i bar t') := h.setStream

theorem Keeps.adopt {bar : Nat} {t' : W64} (h : Keeps s₀ s) : Keeps s₀ (s.adopt bar t') := by
  unfold State.adopt
  extract_lets _ s₁ _ s₂
  have h₁ : Keeps s₀ s₁ := h.foldl fun _ _ h => h.adoptStream
  have h₂ : Keeps s₀ s₂ := h₁.frame rfl
  exact .ite h h₂.logEvent

theorem Keeps.shadowBoundary {bar : Nat} {t' : W64} (h : Keeps s₀ s) : Keeps s₀ (s.shadowBoundary bar t') :=
  h.foldl fun _ _ h => .ite h (.ite h (.ite h.setStream h.setStream))

theorem Keeps.clockLost {k : Nat} (h : Keeps s₀ s) : Keeps s₀ (s.clockLost k) := by
  unfold State.clockLost
  exact .ite (h.frame rfl) (h.frame rfl)

theorem Keeps.execMechanismRaise {m : Fin 16} {ctx : Option CtxId} {clk : Option (Fin 9)} (h : Keeps s₀ s) :
    Next s₀ (Machine.execMechanismRaise m ctx clk s) := by
  unfold Machine.execMechanismRaise
  extract_lets s₁ s₂
  have h₁ : Keeps s₀ s₁ := .ite h.count h
  have h₂ : Keeps s₀ s₂ := by
    unfold s₂
    split
    · exact .ite h₁.clockLost h₁
    · exact h₁
  exact h₂.raiseMech.next

theorem Keeps.enterSafe (h : Keeps s₀ s) : Keeps s₀ s.enterSafe := by
  unfold State.enterSafe
  extract_lets _ s₁ s₂ s₃ _ s₄
  have h₁ : Keeps s₀ s₁ := h.frame rfl
  have h₂ : Keeps s₀ s₂ := h₁.foldl fun _ _ h => h.modPort
  have h₃ : Keeps s₀ s₃ := h₂.tollPacket
  have h₄ : Keeps s₀ s₄ := h₃.frame rfl
  exact .ite h (h₄.foldl fun _ _ h => h.quenchNow)

theorem Keeps.execSafeStateEntry (h : Keeps s₀ s) : Next s₀ (Machine.execSafeStateEntry s) := by
  unfold Machine.execSafeStateEntry
  exact .ite h.enterSafe.next h.next

theorem Keeps.sfCtrlWrite {src : Nat} {v : W32} (h : Keeps s₀ s) : Keeps s₀ (s.sfCtrlWrite src v) := by
  unfold State.sfCtrlWrite
  extract_lets _ _ s₁ s₂ _
  have h₁ : Keeps s₀ s₁ := h.setFlag
  have h₂ : Keeps s₀ s₂ := .ite h₁.setFld h₁
  exact .ite h.pgErrAt (.ite (h₂.frame rfl) h₂)

theorem Keeps.execSfArm {src : NodeId} (h : Keeps s₀ s) : Next s₀ (Machine.execSfArm src s) := h.sfCtrlWrite.next

theorem Keeps.execE2eCheck {k : Fin 16} (h : Keeps s₀ s) : Next s₀ (Machine.execE2eCheck k s) := by
  unfold Machine.execE2eCheck
  exact .ite h.next (.ite h.next (.ite h.count.raiseMech.next h.next))

theorem Keeps.execConfigCompare {k : Fin 20} {goodReg goodComp : Bool} (h : Keeps s₀ s) :
    Next s₀ (Machine.execConfigCompare k goodReg goodComp s) := by
  unfold Machine.execConfigCompare
  split
  · extract_lets _ _ s₁
    have h₁ : Keeps s₀ s₁ := h.setReg.setReg
    split
    · exact h.next
    · split
      · exact h.setReg.count.next
      · exact h.setReg.count.next
      · exact .ite h.next h₁.count.raiseMech.next

theorem Keeps.execLftCycle {failed : Option (Fin 256)} (h : Keeps s₀ s) : Next s₀ (Machine.execLftCycle failed s) := by
  have hsafety {t : State} {x : Safety} (h : Keeps s₀ t) : Keeps s₀ { t with safety := x } := h.frame rfl
  unfold Machine.execLftCycle
  extract_lets s₁ _ s₂
  have h₂ : Keeps s₀ s₂ := hsafety h.reach
  split
  · exact h₂.raiseMech.next
  · exact h₂.next

@[simp] theorem Core.memWf_reseed (k : Core) (r : BitVec 256) (n : W64) : Core.memWf { k with rng := r, startCount := n } =
    k.memWf :=
  rfl

/-! ### Machine/Hang.lean -/

theorem Keeps.seedCore {n c : Nat} (h : Keeps s₀ s) : Keeps s₀ (s.seedCore n c) := by
  unfold State.seedCore
  extract_lets _ _ _ _ _
  split
  · exact Keeps.setReg (h.setCore fun w => (Core.memWf_reseed _ _ _).trans (State.memWf_core w c))
  · split
    · exact Keeps.setReg (h.setCore fun w => (Core.memWf_reseed _ _ _).trans (State.memWf_core w c))
    · split
      next _ _ _ heq =>
        have h₁ := h.trng.of_eq₂ heq
        exact Keeps.setReg (h₁.setCore₀ fun w => (Core.memWf_reseed _ _ _).trans (State.memWf_core (h.memWf w) c))

theorem Keeps.seedCtx {n : Nat} (h : Keeps s₀ s) : Keeps s₀ (s.seedCtx n) := h.foldl fun _ _ h => h.seedCore

theorem Keeps.runCtx {n : Nat} (h : Keeps s₀ s) : Keeps s₀ (s.runCtx n) :=
  h.modCtx.seedCtx.foldl fun _ _ h => Keeps.resched (h.modCore fun _ w => w)

theorem Keeps.addSuspect {n : Nat} (h : Keeps s₀ s) : Keeps s₀ (s.addSuspect n) := by
  unfold State.addSuspect
  exact .ite h (h.frame rfl)

theorem Keeps.quenchSuspect {n cause : Nat} (h : Keeps s₀ s) : Keeps s₀ (s.quenchSuspect n cause) := by
  unfold State.quenchSuspect
  split
  · exact h.addSuspect.quenchNow
  · exact h.addSuspect.quenchNow
  · exact h.addSuspect.quenchNow
  · exact h

theorem Keeps.hangEvent {code : Nat} {ctx : Option Nat} {arg0 : Nat} {start : W64} (h : Keeps s₀ s) :
    Keeps s₀ (s.hangEvent code ctx arg0 start) :=
  h.logEvent.count.irq

theorem Keeps.levelDue {level a b : Nat} (h : Keeps s₀ s) : Keeps s₀ (s.levelDue level a b) := by
  unfold State.levelDue
  exact .ite h (.ite (h.frame rfl) (.ite (h.frame rfl) (h.frame rfl)))

theorem Keeps.examine {w : Machine.WaitRec} (h : Keeps s₀ s) : Keeps s₀ (s.examine w) := by
  unfold State.examine
  extract_lets n gone quench s₁
  have hgone {t : State} (h : Keeps s₀ t) : Keeps s₀ (gone t) := h.frame rfl
  have hquench {t : State} (h : Keeps s₀ t) : Keeps s₀ (quench t) := by
    unfold quench
    cases n with
    | none => exact h
    | some n => exact h.quenchSuspect
  split
  · exact h
  · split
    · exact hgone (hquench h.hangEvent)
    · exact hgone (hquench h.hangEvent)
    · exact hgone h.hangEvent.levelDue
    · exact hgone h.hangEvent.levelDue
    · exact .ite (hgone h.hangEvent).levelDue (hgone h.hangEvent).irq

theorem Keeps.examineCycle (h : Keeps s₀ s) : Keeps s₀ s.examineCycle := by
  unfold State.examineCycle
  extract_lets _ _
  split
  · exact h.frame rfl
  · split
    · exact .ite (.ite (Keeps.foldl (Keeps.hangEvent (h.frame rfl)) fun _ _ h => h.quenchSuspect) h) (h.frame rfl)
    · exact h.frame rfl

theorem Keeps.execHangExamine (h : Keeps s₀ s) : Next s₀ (Machine.execHangExamine s) := by
  have hexam {t : State} (h : Keeps s₀ t) : Keeps s₀ { t with hang := { t.hang with examAt := t.now } } := h.frame rfl
  exact .ite ((hexam h.reach).examineCycle.foldl fun _ _ h => h.examine).next (hexam h.reach).next

theorem Keeps.clearCounts {page : Nat} (h : Keeps s₀ s) : Keeps s₀ (s.clearCounts page) := by
  unfold State.clearCounts
  split
  · exact h
  · exact h.foldl fun _ _ h => .ite (h.foldl fun _ _ h => h.setReg) h

theorem Keeps.statReset {c : Nat} (h : Keeps s₀ s) : Keeps s₀ (s.statReset c) := by
  unfold State.statReset
  exact h.layerClear.tileClear.setReg.clearCounts.modCore fun _ w => w

theorem Keeps.portAbandon {c : Nat} (h : Keeps s₀ s) : Keeps s₀ (s.portAbandon c) := by
  unfold State.portAbandon
  extract_lets s₁ _ s₂
  have h₁ : Keeps s₀ s₁ := h.foldl fun _ _ h => .ite h.discardImage h
  have h₂ : Keeps s₀ s₂ := h₁.frame rfl
  exact h₂.foldl fun _ _ h => .ite h.setStream.finishWait (.ite h.setStream.finishWait h)

theorem Keeps.engineClear {c : Nat} {e : ResetEngine} (h : Keeps s₀ s) : Keeps s₀ (s.engineClear c e) := by
  unfold State.engineClear
  extract_lets s₁ s₂ s₃ s₄ s₅ s₆ _
  have h₁ : Keeps s₀ s₁ := Keeps.portAbandon (h.cutScan.modCore fun _ w => w)
  have h₂ : Keeps s₀ s₂ := h₁.clearCounts.clearCounts
  have h₃ : Keeps s₀ s₃ := Keeps.portAbandon (h.cutScan.modCore fun _ w => w)
  have h₄ : Keeps s₀ s₄ := h₃.clearCounts.clearCounts
  have h₅ : Keeps s₀ s₅ := h.dropWaiting
  have h₆ : Keeps s₀ s₆ := by
    unfold s₆
    refine h₅.foldl fun _ _ h₇ => ?_
    split
    · exact .ite h₇.abandonTag h₇
    · exact h₇
  split
  · exact Keeps.clearCounts (h.modCore fun _ w => w)
  · exact Keeps.setReg (Keeps.clearCounts (h.modCore fun _ w => w))
  · exact h₂.setReg
  · exact h₄.setReg
  · exact Keeps.setReg (h₆.modCore fun _ w => w)
  · exact h.frame rfl

theorem Keeps.levelDone {f : Nat × Nat × Nat → Bool} (h : Keeps s₀ s) : Keeps s₀ (s.levelDone f) := by
  unfold State.levelDone
  extract_lets more _ s₁
  have h₁ : Keeps s₀ s₁ := h.frame rfl
  clear_value s₁ more
  split
  · split
    · exact h₁.frame rfl
    · exact h₁.frame rfl
  · exact h₁.frame rfl

theorem Keeps.partitionReset {p : Nat} (h : Keeps s₀ s) : Keeps s₀ (s.partitionReset p) := by
  unfold State.partitionReset
  extract_lets _ _ s₁ s₂ s₈
  have h₁ : Keeps s₀ s₁ := h.foldl fun _ _ h => h.quenchSuspect
  have h₂ : Keeps s₀ s₂ := by
    unfold s₂
    refine h₁.foldl fun _ _ h₃ => ?_
    extract_lets s₄ s₅ s₆ s₇
    have h₄ : Keeps s₀ s₄ := h₃.foldl fun _ _ h => h.engineClear
    have h₅ : Keeps s₀ s₅ := h₄.statReset
    have h₆ : Keeps s₀ s₆ := h₅.setReg.setReg
    have h₇ : Keeps s₀ s₇ := Keeps.modCore (h₆.frame rfl) fun _ w => w
    exact h₇.endWaits
  have h₈ : Keeps s₀ s₈ := h₂.count
  exact h₈.logEvent.levelDone

theorem Keeps.execPartitionReset {p : Fin 8} (h : Keeps s₀ s) :
    Next s₀ (Machine.execPartitionReset p s) := h.partitionReset.next

theorem Keeps.engineReset {c : Nat} {e : ResetEngine} (h : Keeps s₀ s) : Keeps s₀ (s.engineReset c e) := by
  unfold State.engineReset
  extract_lets again sus s₁ s₂ s₃ code s₄ _ s₅ s₆
  have h₁ : Keeps s₀ s₁ := h.foldl fun _ _ h => h.quenchSuspect
  have h₃ : Keeps s₀ s₃ := .ite h₁.engineClear h₁.engineClear.statReset
  have h₄ : Keeps s₀ s₄ := h₃.endWaits
  have h₅ : Keeps s₀ s₅ := by
    unfold s₅
    split
    · exact h₄.frame rfl
    · exact h₄
  clear_value again
  split
  · exact h.levelDone.partitionReset
  · exact h₅.count.logEvent.levelDone

theorem Keeps.execEngineReset {c : CoreId} {e : ResetEngine} (h : Keeps s₀ s) : Next s₀ (Machine.execEngineReset c e s) :=
  h.engineReset.next

theorem Keeps.resetReq {src : Nat} {v : W32} (h : Keeps s₀ s) : Keeps s₀ (s.resetReq src v) := by
  unfold State.resetReq
  extract_lets n level
  clear_value level
  refine .ite h.writeRefused (.ite h ?_)
  split
  · exact h.levelDue
  · exact h.levelDue
  · exact h.levelDue
  · exact h

theorem Keeps.execHgResetReqEngine {src : NodeId} {v : W32} (h : Keeps s₀ s) : Next s₀ (Machine.execHgResetReqEngine src v s) :=
  h.resetReq.next

theorem Keeps.execHgResetReqPartition {src : NodeId} {v : W32} (h : Keeps s₀ s) :
    Next s₀ (Machine.execHgResetReqPartition src v s) :=
  h.resetReq.next

theorem Keeps.execHgResetReqChip {src : NodeId} {v : W32} (h : Keeps s₀ s) : Next s₀ (Machine.execHgResetReqChip src v s) :=
  h.resetReq.next

theorem Keeps.levelBecomes {level a b : Nat} (h : Keeps s₀ s) : Keeps s₀ (s.levelBecomes level a b) := h.frame rfl

theorem Keeps.chipOrSafe (h : Keeps s₀ s) : Keeps s₀ s.chipOrSafe := by
  unfold State.chipOrSafe
  exact .ite h.levelBecomes h.levelBecomes.enterSafe

theorem Keeps.execResetEscalation (h : Keeps s₀ s) : Next s₀ (Machine.execResetEscalation s) := by
  unfold Machine.execResetEscalation
  extract_lets s₁ s₂ _ s₃
  have h₁ : Keeps s₀ s₁ := h.reach
  have h₂ : Keeps s₀ s₂ := h₁.enterSafe
  have h₃ : Keeps s₀ s₃ := h₂.frame rfl
  split
  · split
    · exact h₁.levelBecomes.next
    · exact h₁.chipOrSafe.next
  · exact h₁.chipOrSafe.next
  · exact h₃.logEvent.next
  · exact h₁.next

theorem Keeps.checkpointCtx {bar n : Nat} (h : Keeps s₀ s) : Keeps s₀ (s.checkpointCtx bar n) := by
  unfold State.checkpointCtx
  extract_lets slots
  split
  · exact h.count
  · split
    next ok s₁ heq =>
      have h₁ : Keeps s₀ s₁ := Keeps.of_eq₂ (Keeps.foldl₂ h fun ⟨_, _⟩ ⟨_, _, _, _, _⟩ h => h.writeSpan.xfer) heq
      exact .ite (h₁.frame rfl) h₁

theorem Keeps.checkpoint {bar : Nat} (h : Keeps s₀ s) :
    Keeps s₀ (s.checkpoint bar) := h.foldl fun _ _ h => .ite h.checkpointCtx h

theorem Keeps.execReplayStart (h : Keeps s₀ s) : Next s₀ (Machine.execReplayStart s) := by
  unfold Machine.execReplayStart
  extract_lets _
  split
  · exact h.next
  · split
    · exact h.next
    · exact Keeps.next (Keeps.logEvent (h.frame rfl))

theorem Keeps.returnRetained {i : Nat} (h : Keeps s₀ s) : Keeps s₀ (s.returnRetained i) := h.setStream.count

theorem Keeps.restoreCtx {n : Nat} (h : Keeps s₀ s) : Keeps s₀ (s.restoreCtx n) := by
  unfold State.restoreCtx
  extract_lets _
  split
  · refine h.foldl fun _ _ h₁ => ?_
    split
    · split
      next _ _ _ _ heq =>
        have h₂ := h₁.readSpan.of_eq₃ heq
        exact h₂.putImage.xfer
  · exact h.foldl fun _ _ h => Keeps.modStream (h.foldl fun _ _ h => h.putImage)

theorem Keeps.execCheckpointRestoreDone (h : Keeps s₀ s) : Next s₀ (Machine.execCheckpointRestoreDone s) := by
  unfold Machine.execCheckpointRestoreDone
  split
  · extract_lets s₁ s₂ _ s₃
    have h₁ : Keeps s₀ s₁ := h.restoreCtx
    have h₂ : Keeps s₀ s₂ := h₁.foldl fun _ _ h => h.returnRetained
    have h₃ : Keeps s₀ s₃ := h₂.frame rfl
    exact h₃.runCtx.next
  · exact h.next

theorem Keeps.replayPass {committed : Bool} (h : Keeps s₀ s) : Keeps s₀ (s.replayPass committed) := by
  unfold State.replayPass
  extract_lets s₁ _
  have h₁ : Keeps s₀ s₁ := h.count
  split
  · exact .ite (Keeps.logEvent (h₁.frame rfl)) h
  · exact h

theorem Keeps.replayRestart (h : Keeps s₀ s) : Keeps s₀ s.replayRestart := by
  unfold State.replayRestart
  extract_lets _
  split
  · exact .ite (h.frame rfl) h
  · exact h

/-! ### Machine/Power.lean -/

theorem Keeps.modPower {f : Machine.Power → Machine.Power} (h : Keeps s₀ s) : Keeps s₀ (s.modPower f) := h.frame rfl

theorem Keeps.setDom {d st : Nat} (h : Keeps s₀ s) : Keeps s₀ (s.setDom d st) := h.modPower

theorem Keeps.setUpPending {d : Nat} {b : Bool} (h : Keeps s₀ s) : Keeps s₀ (s.setUpPending d b) := h.modPower

theorem Keeps.simpleEnable {page : Nat} {en : Bool} (h : Keeps s₀ s) : Keeps s₀ (s.simpleEnable page en) := by
  unfold State.simpleEnable
  exact .ite h.setFlag.setFld.lockPending h.setFlag.setFld

theorem Keeps.blockEnable {src page : Nat} {en : Bool} (h : Keeps s₀ s) : Keeps s₀ (s.blockEnable src page en) := by
  unfold State.blockEnable
  extract_lets _
  split
  · exact h
  · split
    · exact h
    · split
      · exact h.setFlag
      · split
        · exact .ite h.portEnable h.portDisable
        · exact .ite h.portEnable h.portDisable
        · exact .ite h.portEnable h.portDisable
        · exact .ite h.dpEnable h.dpDisable
        · exact .ite h.linkEnable h.linkDisable
        · exact .ite h.simpleEnable h

theorem Keeps.execBlockEnable {src : NodeId} {page : PageId} {en : Bool} (h : Keeps s₀ s) :
    Next s₀ (Machine.execBlockEnable src page en s) :=
  h.blockEnable.next

theorem Keeps.startDomain {d : Nat} (h : Keeps s₀ s) : Keeps s₀ (s.startDomain d) := by
  unfold State.startDomain
  exact .ite h.setDom h.modPower

theorem Keeps.startWaiting (h : Keeps s₀ s) : Keeps s₀ s.startWaiting := by
  unfold State.startWaiting
  split
  · exact h
  · exact .ite h.modPower.setDom h

theorem Keeps.domainUp {d : Nat} (h : Keeps s₀ s) : Keeps s₀ (s.domainUp d) := by
  unfold State.domainUp
  extract_lets s₁
  have h₁ : Keeps s₀ s₁ := h.setFlag
  split
  · exact .ite h₁ h₁.startDomain
  · exact h₁.setUpPending
  · exact h₁

theorem Keeps.execDomainUp {_src : NodeId} {d : Fin 80} (h : Keeps s₀ s) : Next s₀ (Machine.execDomainUp _src d s) :=
  h.domainUp.next

theorem Keeps.stopDomain {d : Nat} (h : Keeps s₀ s) : Keeps s₀ (s.stopDomain d) :=
  Keeps.setDom (h.foldl fun _ _ h => h.blockEnable)

theorem Keeps.domainDown {src d : Nat} (h : Keeps s₀ s) : Keeps s₀ (s.domainDown src d) := by
  unfold State.domainDown
  extract_lets _
  split
  · exact .ite h.pgErrAt.setFld h.setFlag.stopDomain
  · exact h.setFlag.setUpPending
  · exact h.setFlag.modPower
  · exact h.setFlag

theorem Keeps.execDomainDown {src : NodeId} {d : Fin 80} (h : Keeps s₀ s) : Next s₀ (Machine.execDomainDown src d s) :=
  h.domainDown.next

theorem Keeps.pageReset {page : Nat} (h : Keeps s₀ s) : Keeps s₀ (s.pageReset page) := Keeps.setFlag (h.frame rfl)

theorem Keeps.groupFlush {q : Nat} (h : Keeps s₀ s) : Keeps s₀ (s.groupFlush q) := by
  unfold State.groupFlush
  refine h.foldl fun _ _ h₁ => ?_
  split
  · exact h₁
  · exact .ite h₁.evict h₁

theorem Keeps.domainLost {d : Nat} (h : Keeps s₀ s) : Keeps s₀ (s.domainLost d) := by
  unfold State.domainLost
  extract_lets s₁ f k
  have h₁ : Keeps s₀ s₁ := h.foldl fun _ _ h => h.pageReset
  clear_value f s₁
  refine .ite (Keeps.setCore (h₁.frame rfl) fun w => Core.memWf_congr rfl rfl (State.memWf_core w d)) ?_
  refine .ite (h₁.modCore fun _ _ => rfl) ?_
  refine .ite h₁.modLink ?_
  refine .ite (h₁.foldl fun _ _ h => h.setPort) ?_
  refine .ite (h₁.foldl fun _ _ h => h.setPort) ?_
  refine .ite (h₁.foldl fun _ _ h => h.setPort) ?_
  refine .ite (h₁.frame rfl) ?_
  refine .ite (h₁.frame rfl) ?_
  refine .ite (h₁.frame rfl) ?_
  exact .ite (h₁.frame rfl) h₁

theorem Keeps.domainOn {d : Nat} (h : Keeps s₀ s) : Keeps s₀ (s.domainOn d) :=
  h.setDom.modPower.foldl fun _ _ h => .ite h.setFlag.blockEnable h

theorem Keeps.domainDone {d : Nat} (h : Keeps s₀ s) : Keeps s₀ (s.domainDone d) := by
  unfold State.domainDone
  extract_lets s₁ s₂ s₃
  have h₁ : Keeps s₀ s₁ := .ite h.groupFlush h
  have h₂ : Keeps s₀ s₂ := h₁.domainLost.setDom
  have h₃ : Keeps s₀ s₃ := .ite h₂.setUpPending.startDomain h₂
  split
  · exact .ite h.domainOn.startWaiting.irq h.setDom.startWaiting
  · exact .ite h₃.irq h
  · exact h

theorem Keeps.execDomainTransitionDone {d : Fin 80} (h : Keeps s₀ s) : Next s₀ (Machine.execDomainTransitionDone d s) :=
  h.domainDone.next

theorem Keeps.setPoint {p : Nat} (h : Keeps s₀ s) : Keeps s₀ (s.setPoint p) := by
  unfold State.setPoint
  exact .ite h.modPower h.modPower.count

theorem Keeps.powerStep (h : Keeps s₀ s) : Keeps s₀ s.powerStep := by
  unfold State.powerStep
  exact .ite h.modPower (.ite (Keeps.irq (Keeps.count (Keeps.ite h.modPower.irq h.modPower))) (.ite h.modPower.irq h.modPower))

theorem Keeps.execOpPointChange (h : Keeps s₀ s) : Next s₀ (Machine.execOpPointChange s) :=
  Keeps.next (Keeps.setPoint (Keeps.ite h.powerStep h))

theorem Keeps.execPowerEstimate {mw : Nat} (h : Keeps s₀ s) : Next s₀ (Machine.execPowerEstimate mw s) := by
  unfold Machine.execPowerEstimate
  exact .ite h.reach.modPower.modPower.next h.reach.modPower.setFld.modPower.next

theorem Keeps.sensorSet {i : Nat} {r : SensorReading} (h : Keeps s₀ s) : Keeps s₀ (s.sensorSet i r) := by
  unfold State.sensorSet
  extract_lets _
  split
  · exact h.setReg
  · exact .ite h h.setFlag.irq

theorem Keeps.sensorsSet {i : Nat} {l : List SensorReading} (h : Keeps s₀ s) : Keeps s₀ (s.sensorsSet i l) := by
  induction l generalizing s i with
  | nil => exact h
  | cons r l ih => exact .ite (ih h.sensorSet) h

theorem Keeps.stackUpdate {q : Nat} (h : Keeps s₀ s) : Keeps s₀ (s.stackUpdate q) :=
  h.foldl fun _ _ h => .ite h.setFld (.ite h.setFld h)

theorem Keeps.thermalLevels (h : Keeps s₀ s) : Keeps s₀ s.thermalLevels := by
  unfold State.thermalLevels
  extract_lets _ _ _ _ s₁
  have h₁ : Keeps s₀ s₁ := h.modPower
  split
  · exact .ite h₁.raiseMech h₁
  · exact .ite (Keeps.raiseMech (Keeps.ite (Keeps.setPoint (Keeps.setPoint (Keeps.irq (Keeps.count (Keeps.ite (Keeps.irq
        (Keeps.count (Keeps.ite (Keeps.irq (Keeps.modPower (Keeps.ite h.setFld.setFld.setFld h.setFld.setFld)))
        (Keeps.modPower (Keeps.ite h.setFld.setFld.setFld h.setFld.setFld))))) (.ite (Keeps.irq (Keeps.modPower (Keeps.ite
        h.setFld.setFld.setFld h.setFld.setFld))) (Keeps.modPower (Keeps.ite h.setFld.setFld.setFld h.setFld.setFld))))))))
        (.ite (Keeps.irq (Keeps.count (Keeps.ite (Keeps.irq (Keeps.modPower (Keeps.ite h.setFld.setFld.setFld
        h.setFld.setFld))) (Keeps.modPower (Keeps.ite h.setFld.setFld.setFld h.setFld.setFld))))) (.ite (Keeps.irq
        (Keeps.modPower (Keeps.ite h.setFld.setFld.setFld h.setFld.setFld))) (Keeps.modPower (Keeps.ite
        h.setFld.setFld.setFld h.setFld.setFld)))))) (.ite (Keeps.setPoint (Keeps.setPoint (Keeps.irq (Keeps.count (Keeps.ite
        (Keeps.irq (Keeps.count (Keeps.ite (Keeps.irq (Keeps.modPower (Keeps.ite h.setFld.setFld.setFld h.setFld.setFld)))
        (Keeps.modPower (Keeps.ite h.setFld.setFld.setFld h.setFld.setFld))))) (.ite (Keeps.irq (Keeps.modPower (Keeps.ite
        h.setFld.setFld.setFld h.setFld.setFld))) (Keeps.modPower (Keeps.ite h.setFld.setFld.setFld h.setFld.setFld))))))))
        (.ite (Keeps.irq (Keeps.count (Keeps.ite (Keeps.irq (Keeps.modPower (Keeps.ite h.setFld.setFld.setFld
        h.setFld.setFld))) (Keeps.modPower (Keeps.ite h.setFld.setFld.setFld h.setFld.setFld))))) (.ite (Keeps.irq
        (Keeps.modPower (Keeps.ite h.setFld.setFld.setFld h.setFld.setFld))) (Keeps.modPower (Keeps.ite
        h.setFld.setFld.setFld h.setFld.setFld)))))

theorem Keeps.execSensorUpdate {readings : List SensorReading} (h : Keeps s₀ s) :
    Next s₀ (Machine.execSensorUpdate readings s) :=
  Keeps.next (Keeps.thermalLevels (h.reach.modPower.sensorsSet.foldl fun _ _ h => h.stackUpdate))

theorem Keeps.execThrottleStep (h : Keeps s₀ s) : Next s₀ (Machine.execThrottleStep s) := by
  unfold Machine.execThrottleStep
  exact .ite h.reach.modPower.setPoint.next h.next

/-! ### Machine/Boundary.lean -/

theorem Keeps.reheatResume {c : Nat} {rd : BitVec 5} {again : Bool} (h : Keeps s₀ s) : Keeps s₀ (s.reheatResume c rd again) :=
  h.modCore fun k w => Core.memWf_congr (k.xSet_scratch _ _) (k.xSet_store _ _) w

theorem Keeps.reheatDecide {c i : Nat} {be : Bool} (h : Keeps s₀ s) : Keeps s₀ (s.reheatDecide c i be).2 := by
  unfold State.reheatDecide
  extract_lets _ _ _ _ _ s₁
  have h₁ : Keeps s₀ s₁ := h.modCore fun _ w => w
  split
  · exact h₁
  · split
    · exact h₁.setFld.count.setFlag
    · exact h₁.count

theorem Keeps.reheat {c : Nat} (h : Keeps s₀ s) : Keeps s₀ (s.reheat c) := by
  unfold State.reheat
  extract_lets _
  split
  · split
    · split
      next _ _ _ heq =>
        have h₁ := h.reheatDecide.of_eq₂ heq
        exact h₁.reheatResume
    · exact h
  · exact h

theorem Keeps.execReheatDecision {c : CoreId} (h : Keeps s₀ s) : Next s₀ (Machine.execReheatDecision c s) := h.reheat.next

theorem Keeps.reheatBoundary {c : Nat} (h : Keeps s₀ s) : Keeps s₀ (s.reheatBoundary c) := by
  unfold State.reheatBoundary
  extract_lets _ s₁ s₂ s₃ s₄
  have h₁ : Keeps s₀ s₁ := h.reheat
  have h₂ : Keeps s₀ s₂ := by
    unfold s₂
    split
    · exact h₁.reheatResume.count
    · exact h₁
  have h₃ : Keeps s₀ s₃ := h₂.setReg
  have h₄ : Keeps s₀ s₄ := h₃.setReg
  exact .ite h₄ (h₄.modCore fun _ w => w)

theorem Keeps.latchBoundary {c : Nat} (h : Keeps s₀ s) : Keeps s₀ (s.latchBoundary c) := by
  unfold State.latchBoundary
  extract_lets _
  split
  · exact .ite (.ite h h.count) (Keeps.modCore (Keeps.ite h h.count) fun _ w => w)

theorem Keeps.stopCtx {n : Nat} (h : Keeps s₀ s) : Keeps s₀ (s.stopCtx n) :=
  Keeps.foldl (Keeps.endWaits (Keeps.modCtx (Keeps.abandonCtx (h.foldl fun _ _ h => h.purgeCore)))) fun _ _ h => h.resched

theorem Keeps.ctxBoundary {n : Nat} {t' : W64} (h : Keeps s₀ s) : Keeps s₀ (s.ctxBoundary n t') := by
  unfold State.ctxBoundary
  extract_lets _ s₁ _ s₂ s₃
  have h₁ : Keeps s₀ s₁ := .ite h.agentDone h
  have h₂ : Keeps s₀ s₂ := h₁.setCtx
  have h₃ : Keeps s₀ s₃ := .ite h₂.stopCtx h₂
  split
  · exact .ite h₂ (h₃.modCtx.foldl fun _ _ h => h.complete)

theorem Keeps.endBar {bar : Nat} {t' : W64} (h : Keeps s₀ s) : Keeps s₀ (s.endBar bar t') := by
  unfold State.endBar
  extract_lets s₁ done s₂ _ s₃ s₄ s₅ s₆ s₇
  have h₂ : Keeps s₀ s₂ := h.adopt.commitAll
  clear_value s₂
  have h₃ : Keeps s₀ s₃ := h₂.frame rfl
  exact h₃.shadowBoundary.replayPass.replayRestart.importEnd.startExport.checkpoint.steer.steer

theorem Keeps.boundaryWork {t' : W64} (h : Keeps s₀ s) : Keeps s₀ (s.boundaryWork t') := by
  unfold State.boundaryWork
  extract_lets s₁ s₂ s₃ s₄ s₅ _ s₆
  have h₁ : Keeps s₀ s₁ := h.applyBinds
  have h₂ : Keeps s₀ s₂ := h₁.foldl fun _ _ h => h.streamBoundary
  have h₃ : Keeps s₀ s₃ := h₂.foldl fun _ _ h => h.ctxBoundary
  have h₄ : Keeps s₀ s₄ := h₃.foldl fun _ _ h => h.latchBoundary.reheatBoundary
  have h₅ : Keeps s₀ s₅ := h₄.powerStep
  clear_value s₅
  have h₆ : Keeps s₀ s₆ := h₅.frame rfl
  exact h₆.frame rfl

theorem Keeps.startBar {bar : Nat} (h : Keeps s₀ s) : Keeps s₀ (s.startBar bar) := by
  unfold State.startBar
  extract_lets _ s₁ _ s₂ _ s₃ _
  have h₁ : Keeps s₀ s₁ := h.frame rfl
  have h₂ : Keeps s₀ s₂ := by
    unfold s₂
    split
    · split
      · exact Keeps.complete (h₁.frame rfl)
      · exact h₁
    · exact h
  have h₃ : Keeps s₀ s₃ := h₂.frame rfl
  exact .ite h₃ h₃.count

theorem Keeps.execBarBoundary (h : Keeps s₀ s) : Next s₀ (Machine.execBarBoundary s) := by
  unfold Machine.execBarBoundary
  exact .ite h.reach.endBar.boundaryWork.startBar.next h.next

theorem Keeps.execPatternStart (h : Keeps s₀ s) : Next s₀ (Machine.execPatternStart s) := by
  unfold Machine.execPatternStart
  exact .ite (Keeps.next (Keeps.startBar (Keeps.boundaryWork (h.reach.frame rfl)))) h.next

theorem Keeps.execPatternStop (h : Keeps s₀ s) : Next s₀ (Machine.execPatternStop s) := by
  have hstop {t : State} (h : Keeps s₀ t) : Keeps s₀ { t with pattern := { t.pattern with running := false } } := h.frame rfl
  exact .ite (hstop h.reach.endBar.boundaryWork).next h.next

/-! ### Machine/Matrix.lean -/

theorem Keeps.runMma {c : Nat} {e : Machine.QEntry} (h : Keeps s₀ s) : Keeps s₀ (s.runMma c e) :=
  Keeps.count (Keeps.setCore (h.frame rfl) fun w => State.memWf_core w _)

theorem Keeps.runMout {c : Nat} {e : Machine.QEntry} (h : Keeps s₀ s) : Keeps s₀ (s.runMout c e) := by
  unfold State.runMout
  extract_lets k w bk b half outs accSat bytes sat16 t k'
  have hk : k'.memWf = k.memWf := (Core.memWf_setBank _ _ _).trans (Core.memWf_tilePut _ _ _)
  exact Keeps.tileRecord (Keeps.count (h.setCore fun w => hk.trans (State.memWf_core w c)))

/-! ### Machine/Security.lean -/

theorem Keeps.awaitHost (h : Keeps s₀ s) : Keeps s₀ s.awaitHost := by
  unfold State.awaitHost
  exact .ite (h.frame rfl) (h.frame rfl)

theorem Keeps.bootFail {cause : Nat} {flash : Bool} (h : Keeps s₀ s) : Keeps s₀ (s.bootFail cause flash) := by
  unfold State.bootFail
  exact .ite (Keeps.awaitHost (h.frame rfl)) (h.frame rfl)

theorem Keeps.bootFirmware {source : Nat} {c : List Byte} (h : Keeps s₀ s) : Keeps s₀ (s.bootFirmware source c) := h.frame rfl

theorem Keeps.windowContainer (h : Keeps s₀ s) : Keeps s₀ (s.windowContainer).2 := by
  unfold State.windowContainer
  split
  next _ _ _ _ heq =>
    have h₁ := h.readSpan.of_eq₃ heq
    extract_lets _
    split
    · exact h₁
    · split
      next _ _ _ _ heq =>
        have h₂ := h₁.readSpan.of_eq₃ heq
        exact h₂

theorem Keeps.reverify (h : Keeps s₀ s) : Keeps s₀ s.reverify := by
  unfold State.reverify
  split
  next _ _ _ heq =>
    have h₁ := h.windowContainer.of_eq₂ heq
    exact .ite (Keeps.bootFirmware (h₁.frame rfl)) h₁.awaitHost

theorem Keeps.romGoes (h : Keeps s₀ s) : Keeps s₀ s.romGoes := by
  unfold State.romGoes
  exact .ite h (.ite h.awaitHost (.ite h.reverify h))

theorem Keeps.romStart {warm : Bool} (h : Keeps s₀ s) : Keeps s₀ (s.romStart warm) := by
  unfold State.romStart
  extract_lets o _ s₁
  have h₁ : Keeps s₀ s₁ := h.frame rfl
  split
  · exact h₁.bootFail
  split
  · exact h₁.bootFail
  split
  · exact h₁.bootFail
  split
  next b s₂ heq =>
    have h₂ : Keeps s₀ s₂ := by
      split at heq
      · exact Keeps.of_eq₂ h₁ heq
      · exact h₁.draw.of_eq₂ heq
    split
    next c s₃ heq =>
      have h₃ : Keeps s₀ s₃ := h₂.trng.of_eq₂ heq
      extract_lets _ _ s₄ _
      have h₄ : Keeps s₀ s₄ := h₃.frame rfl
      split
      · exact h₄.bootFail
      split
      · exact Keeps.romGoes (h₄.frame rfl)
      · exact h₄.bootFail
      · exact h₄

theorem Keeps.execFlashReadDone {io : Bool} {container : List Byte} (h : Keeps s₀ s) :
    Next s₀ (Machine.execFlashReadDone io container s) := by
  unfold Machine.execFlashReadDone
  extract_lets _
  split
  · exact h.next
  · split
    · exact h.bootFirmware.next
    · exact .ite (Keeps.next (h.frame rfl)) h.bootFail.next

theorem Keeps.bootGo {src : Nat} (h : Keeps s₀ s) : Keeps s₀ (s.bootGo src) := by
  unfold State.bootGo
  split
  · exact h.writeRefused
  · split
    next _ _ _ heq =>
      have h₁ := h.windowContainer.of_eq₂ heq
      extract_lets _
      split
      · exact h₁.bootFirmware
      · exact h₁.frame rfl

theorem Keeps.execSecBootGo {src : NodeId} (h : Keeps s₀ s) : Next s₀ (Machine.execSecBootGo src s) := h.bootGo.next

theorem Keeps.execFirmwareReady (h : Keeps s₀ s) : Next s₀ (Machine.execFirmwareReady s) := by
  unfold Machine.execFirmwareReady
  extract_lets f g _ s₁
  have hg : FusesAdvance f g := by
    unfold g
    split
    · exact ⟨fun _ e => e, le_max_left _ _, le_rfl, le_rfl, rfl, rfl, fun l => ⟨l.1, max_le l.2.1 (min_le_right _ _), l.2.2⟩⟩
    · exact .refl f
  have h₁ : Keeps s₀ s₁ := h.trans ⟨rfl, hg, id⟩
  exact .ite h.next h₁.sfCtrlWrite.levelDone.next

theorem Keeps.execDramTrainingDone {ch : Fin 16} {ok : Bool} (h : Keeps s₀ s) :
    Next s₀ (Machine.execDramTrainingDone ch ok s) := by
  unfold Machine.execDramTrainingDone
  exact .ite h.next (.ite (Keeps.next (Keeps.romGoes (Keeps.setFld (h.frame rfl)))) (Keeps.next (Keeps.romGoes
      (Keeps.raiseMech (Keeps.setFlag (Keeps.setFld (h.frame rfl)))))))

theorem Keeps.fuseRefuse {b : Bool} (h : Keeps s₀ s) : Keeps s₀ (s.fuseRefuse b) := h.frame rfl

theorem Keeps.fuseProgram {field value : Nat} (h : Keeps s₀ s) : Keeps s₀ (s.fuseProgram field value) := by
  unfold State.fuseProgram
  extract_lets f _ ok
  have hok {g : Fuses} (hg : FusesAdvance f g) : Keeps s₀ (ok g) :=
    Keeps.fuseRefuse (h.trans ⟨rfl, hg, id⟩)
  split
  · split
    next hv =>
      exact hok ⟨fun _ h => h, le_rfl, le_rfl, hv.1 ▸ Nat.le_succ _, rfl, rfl, fun l => ⟨hv.2, l.2⟩⟩
    · exact h.fuseRefuse
  split
  · exact h.fuseRefuse
  split
  · exact hok ⟨fun _ h => h, le_rfl, le_rfl, le_rfl, rfl, rfl, id⟩
  split
  · exact hok ⟨fun _ h => h, le_rfl, le_rfl, le_rfl, rfl, rfl, id⟩
  split
  · exact hok ⟨fun _ h => h, le_rfl, le_rfl, le_rfl, rfl, rfl, id⟩
  · exact h.fuseRefuse

theorem Keeps.fuseRevoke {k : Nat} (h : Keeps s₀ s) : Keeps s₀ (s.fuseRevoke k) := by
  unfold State.fuseRevoke
  extract_lets f other
  have hf : FusesAdvance f { f with revoke := f.revoke ||| BitVec.ofNat 4 (2 ^ k) } :=
    ⟨fun j e => by
      have e : f.revoke.getLsbD j = true := e
      simp only [Fuses.revoked, BitVec.getLsbD_or, e, Bool.true_or], le_rfl, le_rfl, le_rfl, rfl, rfl, id⟩
  exact .ite h.fuseRefuse (Keeps.fuseRefuse (h.trans ⟨rfl, hf, id⟩))

theorem Keeps.fuseCmd {src : Nat} {v : W32} (h : Keeps s₀ s) : Keeps s₀ (s.fuseCmd src v) := by
  unfold State.fuseCmd
  extract_lets _
  split
  · exact h
  · split
    · exact h.fuseRevoke
    · exact h.fuseProgram
    · exact h

theorem Keeps.execFuseRevoke {src : NodeId} {v : W32} (h : Keeps s₀ s) : Next s₀ (Machine.execFuseRevoke src v s) :=
  h.fuseCmd.next

theorem Keeps.execFuseProgram {src : NodeId} {v : W32} (h : Keeps s₀ s) : Next s₀ (Machine.execFuseProgram src v s) :=
  h.fuseCmd.next

theorem Keeps.setKey {k : Nat} {v : Option (BitVec 512)} (h : Keeps s₀ s) : Keeps s₀ (s.setKey k v) := h.frame rfl

theorem Keeps.keyCtrl {src : Nat} {v : W32} (h : Keeps s₀ s) : Keeps s₀ (s.keyCtrl src v) := by
  unfold State.keyCtrl
  extract_lets k op
  clear_value op
  refine .ite h (.ite h.writeRefused ?_)
  split
  · exact .ite h h.setKey
  · exact .ite h h.trng.trng.setKey
  · exact h.setKey

theorem Keeps.execKeyDerive {src : NodeId} {v : W32} (h : Keeps s₀ s) :
    Next s₀ (Machine.execKeyDerive src v s) := h.keyCtrl.next

theorem Keeps.execKeyRandom {src : NodeId} {v : W32} (h : Keeps s₀ s) :
    Next s₀ (Machine.execKeyRandom src v s) := h.keyCtrl.next

theorem Keeps.execKeyClear {src : NodeId} {v : W32} (h : Keeps s₀ s) : Next s₀ (Machine.execKeyClear src v s) := h.keyCtrl.next

theorem Keeps.dbgGo {src : Nat} (h : Keeps s₀ s) : Keeps s₀ (s.dbgGo src) := by
  unfold State.dbgGo
  extract_lets _ _ _
  split
  · exact h
  · split
    next _ _ _ heq =>
      have h₁ := h.trng.of_eq₂ heq
      extract_lets _ s₂ _ s₃ _ _
      have h₂ : Keeps s₀ s₂ := h₁.frame rfl
      have h₃ : Keeps s₀ s₃ := .ite (h₂.frame rfl) h₂
      exact .ite (h₃.frame rfl) (h₂.frame rfl)

theorem Keeps.execSecDbgGo {src : NodeId} (h : Keeps s₀ s) : Next s₀ (Machine.execSecDbgGo src s) := h.dbgGo.next

theorem Keeps.dbgRelock {src : Nat} (h : Keeps s₀ s) : Keeps s₀ (s.dbgRelock src) := by
  unfold State.dbgRelock
  exact .ite h (h.frame rfl)

theorem Keeps.execSecDbgRelock {src : NodeId} (h : Keeps s₀ s) : Next s₀ (Machine.execSecDbgRelock src s) := h.dbgRelock.next

theorem Keeps.attGo {src : Nat} (h : Keeps s₀ s) : Keeps s₀ (s.attGo src) := by
  unfold State.attGo
  exact .ite h (h.frame rfl)

theorem Keeps.execSecAttGo {src : NodeId} (h : Keeps s₀ s) : Next s₀ (Machine.execSecAttGo src s) := h.attGo.next

theorem Keeps.execTrngHealthFail (h : Keeps s₀ s) : Next s₀ (Machine.execTrngHealthFail s) :=
  Keeps.next (Keeps.count (h.frame rfl))

theorem Keeps.execTrngHealthRecovery (h : Keeps s₀ s) : Next s₀ (Machine.execTrngHealthRecovery s) :=
  Keeps.next (Keeps.foldl (h.frame rfl) fun _ _ h => .ite h.sendOffer h)

/-! ### Machine/Pages.lean -/

theorem Keeps.regReadAt {page off : Nat} (h : Keeps s₀ s) : Keeps s₀ (s.regReadAt page off).2 := by
  unfold State.regReadAt
  extract_lets _
  split
  · exact h
  · split
    · exact h
    · extract_lets s₁ _ _
      have h₁ : Keeps s₀ s₁ := .ite h.setReg h
      split
      · exact h₁.frame rfl
      · split
        · exact h₁.frame rfl
        · split
          · exact h₁.frame rfl
          · exact h₁

theorem Keeps.lockReq {page : Nat} (h : Keeps s₀ s) : Keeps s₀ (s.lockReq page) := by
  unfold State.lockReq
  exact .ite h (.ite h.setFlag.lockPending h.setFlag)

theorem Keeps.lockPage {page : Nat} (h : Keeps s₀ s) : Keeps s₀ (s.lockPage page) := by
  unfold State.lockPage
  exact .ite h h.setFlag.setFlag

theorem Keeps.blockReset {src page : Nat} (h : Keeps s₀ s) : Keeps s₀ (s.blockReset src page).2 := by
  unfold State.blockReset
  split
  · dsimp only; exact h.portBlockReset
  · dsimp only; exact h.portBlockReset
  · dsimp only; exact h.portBlockReset
  · exact h.linkBlockReset
  · exact h.dpBlockReset
  · exact h.pgErrAt

theorem Keeps.pgCtrlWrite {src page : Nat} {v : W32} (h : Keeps s₀ s) : Keeps s₀ (s.pgCtrlWrite src page v) := by
  unfold State.pgCtrlWrite
  extract_lets n
  split
  · exact h.blockEnable
  · split
    next done s₁ heq =>
      have h₁ : Keeps s₀ s₁ := by
        split at heq
        · exact h.blockReset.of_eq₂ heq
        · exact Keeps.of_eq₂ h heq
      exact .ite (Keeps.lockReq (.ite h₁ h₁.blockEnable)) (.ite h₁ h₁.blockEnable)

theorem Keeps.irqForce {page : Nat} {v : W32} (h : Keeps s₀ s) : Keeps s₀ (s.irqForce page v) := by
  unfold State.irqForce
  exact .ite h (h.summaryEdge h.setFld)

theorem Keeps.store {page off : Nat} {r : Machine.RegDef} {v : W32} (h : Keeps s₀ s) : Keeps s₀ (s.store page off r v) := by
  unfold State.store
  exact .ite (h.summaryEdge h.setReg) h.setReg

theorem Keeps.writePattern {src off0 off i : Nat} {r : Machine.RegDef} {v : W32} (h : Keeps s₀ s) :
    Keeps s₀ (s.writePattern src off0 off i r v) := by
  unfold State.writePattern
  exact .ite (.ite h.runWrite.switchWrite h.runWrite) (.ite (.ite h.writeRefused h.store) (.ite (.ite h.store h.writeRefused)
      (.ite h.ptSelWrite (.ite h.ptEntryWrite (.ite (.ite h.writeRefused h.store) (.ite (.ite h.writeRefused h.store)
      h.store))))))

theorem Keeps.writeTimebase {src off : Nat} {r : Machine.RegDef} {v : W32} (h : Keeps s₀ s) :
    Keeps s₀ (s.writeTimebase src off r v) := by
  unfold State.writeTimebase
  exact .ite h.tbSet (.ite h.tbSetHi (.ite h.writeRefused (.ite h.writeRefused h.store)))

theorem Keeps.writeAngle {src off0 off a : Nat} {r : Machine.RegDef} {v : W32} (h : Keeps s₀ s) :
    Keeps s₀ (s.writeAngle src off0 off a r v) := by
  unfold State.writeAngle
  exact .ite (.ite h.writeRefused (.ite h.store h.store.angModeChanged)) (.ite (.ite h.angCommit h) h.store)

theorem Keeps.writeQueueMgr {src off0 off i : Nat} {r : Machine.RegDef} {v : W32} (h : Keeps s₀ s) :
    Keeps s₀ (s.writeQueueMgr src off0 off i r v) := by
  unfold State.writeQueueMgr
  exact .ite h.adminEnable (.ite (.ite h.writeRefused h.store) (.ite h.vecCtrlWrite h.store))

theorem Keeps.writePower {src off0 off i : Nat} {r : Machine.RegDef} {v : W32} (h : Keeps s₀ s) :
    Keeps s₀ (s.writePower src off0 off i r v) := by
  unfold State.writePower
  exact .ite (.ite h.writeRefused h.store) (.ite (.ite h.writeRefused h.store) (.ite (.ite h.domainUp h.domainDown) h.store))

theorem Keeps.writeSecurity {src off : Nat} {r : Machine.RegDef} {v : W32} (h : Keeps s₀ s) :
    Keeps s₀ (s.writeSecurity src off r v) := by
  unfold State.writeSecurity
  exact .ite (.ite h.bootGo h) (.ite h.fuseCmd (.ite h.keyCtrl (.ite (.ite h.dbgGo h) (.ite (.ite h.dbgRelock h) (.ite (.ite
      h.attGo h) (.ite h.setReg h.store))))))

theorem Keeps.writeMirror {src off0 off i : Nat} {r : Machine.RegDef} {v : W32} (h : Keeps s₀ s) :
    Keeps s₀ (s.writeMirror src off0 off i r v) := by
  unfold State.writeMirror
  exact .ite h.mrCtrlWrite (.ite h.auditIn (.ite h.bindWord h.store))

theorem Keeps.writeSafety {src off : Nat} {r : Machine.RegDef} {v : W32} (h : Keeps s₀ s) :
    Keeps s₀ (s.writeSafety src off r v) := by
  unfold State.writeSafety
  exact .ite h.sfCtrlWrite (.ite h.store h.store)

theorem Keeps.writeDirectPath {src page off0 off : Nat} {r : Machine.RegDef} {v : W32} (h : Keeps s₀ s) :
    Keeps s₀ (s.writeDirectPath src page off0 off r v) := by
  unfold State.writeDirectPath
  exact .ite (.ite h.dpLoadGo h) (.ite h.writeRefused h.store)

theorem Keeps.writeCache {src off0 off i : Nat} {r : Machine.RegDef} {v : W32} (h : Keeps s₀ s) :
    Keeps s₀ (s.writeCache src off0 off i r v) := by
  unfold State.writeCache
  exact .ite h.caMaint (.ite h.prCtrlWrite (.ite h.writeRefused h.store))

theorem Keeps.regionShapeWrite {src c n : Nat} {v : W32} (h : Keeps s₀ s) : Keeps s₀ (s.regionShapeWrite src c n v) := by
  unfold State.regionShapeWrite
  exact .ite h.pgErrAt (.ite h.setReg (.ite h.setReg.setFlag h.setReg.writeRefused))

theorem Keeps.writeCore {src page : Nat} {k : Machine.PageKind} {off0 off i : Nat} {r : Machine.RegDef} {v : W32} (h : Keeps
    s₀ s) : Keeps s₀ (s.writeCore src page k off0 off i r v) := by
  unfold State.writeCore
  extract_lets _ _ s₁
  have h₁ : Keeps s₀ s₁ := .ite h.layerClear h
  split
  · exact .ite (.ite h₁.tileClear h₁) h.store
  · exact .ite h.regionShapeWrite (.ite h.writeRefused h.store)
  · exact .ite h.writeRefused h.store
  · exact h.store

theorem Keeps.writeFabric {src page : Nat} {k : Machine.PageKind} {off0 off i : Nat} {r : Machine.RegDef} {v : W32} (h :
    Keeps s₀ s) : Keeps s₀ (s.writeFabric src page k off0 off i r v) := by
  unfold State.writeFabric
  extract_lets _
  split
  · exact .ite h.writeRefused h.store
  · exact .ite h.store h.store
  · exact .ite h.enumStart (.ite h.writeRefused h.store)
  · exact h.store

theorem Keeps.writeAudio {src page : Nat} {k : Machine.PageKind} {off0 off i : Nat} {r : Machine.RegDef} {v : W32} (h : Keeps
    s₀ s) : Keeps s₀ (s.writeAudio src page k off0 off i r v) := by
  unfold State.writeAudio
  extract_lets _ s₁ _ _ _ _ s₂ s₃ _ _ _ _
  have h₁ : Keeps s₀ s₁ := h.pgErrAt
  have h₂ : Keeps s₀ s₂ := h.store
  have h₃ : Keeps s₀ s₃ := .ite h₂.steerTo h₂
  split
  · exact .ite h₁ h.store
  · exact .ite h₁ h.store
  · exact .ite h₁ h.store
  · exact .ite (.ite h₁ h₃.setApll) (.ite h₁ h.store)
  · exact .ite (.ite h₁ (.ite h₂ (h₂.frame rfl))) h.store
  · exact .ite h.ringShapeWrite (.ite (.ite h.store h₁) h.store)
  · exact h.store

theorem Keeps.writePage {src page : Nat} {k : Machine.PageKind} {off0 off i : Nat} {r : Machine.RegDef} {v : W32} (h : Keeps
    s₀ s) : Keeps s₀ (s.writePage src page k off0 off i r v) := by
  unfold State.writePage
  extract_lets _
  split
  · exact h.writePattern
  · exact h.writeTimebase
  · exact h.writeAngle
  · exact .ite h.writeRefused h.store
  · exact h.writeQueueMgr
  · exact h.writeSafety
  · exact .ite h.resetReq h.store
  · exact h.writePower
  · exact .ite h.writeRefused h.store
  · exact h.writeSecurity
  · exact .ite (.ite h.jobGo h) (.ite h.writeRefused h.store)
  · exact h.writeMirror
  · exact h.writeDirectPath
  · exact h.writeDirectPath
  · exact h.writeCache
  · exact h.writeCore
  · exact h.writeCore
  · exact h.writeCore
  · exact h.writeCore
  · exact h.writeCore
  · exact h.writeCore
  · exact h.writeCore
  · exact h.writeFabric
  · exact h.writeFabric
  · exact h.writeFabric
  · exact h.writeFabric
  · exact h.writeAudio
  · exact h.writeAudio
  · exact h.writeAudio
  · exact h.writeAudio
  · exact h.writeAudio
  · exact h.writeAudio
  · exact h.store
  · exact h.store
  · exact h.store
  · exact h.store
  · exact h.store
  · exact h.store
  · exact h.store

theorem Keeps.regWriteAt {src page off : Nat} {v : W32} (h : Keeps s₀ s) : Keeps s₀ (s.regWriteAt src page off v) := by
  unfold State.regWriteAt
  split
  · exact .ite h.pgCtrlWrite (.ite h (.ite h.irqForce (.ite (.ite h.lockPage h) (.ite h.pgErrAt (.ite h.store h.writePage)))))
  · exact h

theorem Keeps.execRegisterWrite {src : NodeId} {page : PageId} {reg : Fin 1024} {v : W32} (h : Keeps s₀ s) :
    Next s₀ (Machine.execRegisterWrite src page reg v s) :=
  h.regWriteAt.next

theorem Keeps.execRcRead {_src : NodeId} {page : PageId} {reg : Fin 1024} (h : Keeps s₀ s) :
    Next s₀ (Machine.execRcRead _src page reg s) :=
  h.regReadAt.next

theorem Keeps.execPgLock {_src : NodeId} {page : PageId} (h : Keeps s₀ s) : Next s₀ (Machine.execPgLock _src page s) :=
  h.lockPage.next

theorem Keeps.execLockReq {_src : NodeId} {page : PageId} (h : Keeps s₀ s) : Next s₀ (Machine.execLockReq _src page s) :=
  h.lockReq.next

theorem Keeps.execPgIrqForce {_src : NodeId} {page : PageId} {v : W32} (h : Keeps s₀ s) :
    Next s₀ (Machine.execPgIrqForce _src page v s) :=
  h.irqForce.next

theorem Keeps.execRegionShapeValid {src : NodeId} {c : CoreId} {n : Fin 16} {v : W32} (h : Keeps s₀ s) :
    Next s₀ (Machine.execRegionShapeValid src c n v s) := by
  unfold Machine.execRegionShapeValid
  exact .ite h.regionShapeWrite.next h.next

/-! ### Machine/Bus.lean -/

theorem Keeps.regWords {page off n : Nat} (h : Keeps s₀ s) : Keeps s₀ (s.regWords page off n).2 := by
  induction n generalizing s off with
  | zero => exact h
  | succ n ih => exact ih h.regReadAt

theorem Keeps.busReadRegs {page off len : Nat} (h : Keeps s₀ s) : Keeps s₀ (s.busReadRegs page off len).2 := by
  unfold State.busReadRegs
  split
  · exact .ite h.pgErr h
  · exact h.regWords

theorem Keeps.regWriteWords {src page off : Nat} {l : List Byte} {n : Nat} (h : Keeps s₀ s) :
    Keeps s₀ (s.regWriteWords src page off l n) := by
  induction n generalizing s off l with
  | zero => exact h
  | succ n ih => exact ih h.regWriteAt

theorem Keeps.busWriteRegs {link : Bool} {src page off : Nat} {l : List Byte} (h : Keeps s₀ s) :
    Keeps s₀ (s.busWriteRegs link src page off l).2 := by
  unfold State.busWriteRegs
  split
  · exact h
  · split
    · exact .ite h.pgErrAt h
    · exact h.regWriteWords

theorem Keeps.busRead {who : Requester} {vc a len : Nat} (h : Keeps s₀ s) : Keeps s₀ (s.busRead who vc a len).2.2 := by
  unfold State.busRead
  split
  · exact h.readPiece
  · exact h.readPiece
  · exact h.readPiece
  · split
    · exact h
    · exact h
  · exact h.busReadRegs
  · split
    · exact h
    · exact h
  · exact h

theorem Keeps.busWrite {who : Requester} {link : Bool} {src a : Nat} {l : List Byte} (h : Keeps s₀ s) :
    Keeps s₀ (s.busWrite who link src a l).2 := by
  unfold State.busWrite
  split
  · exact h.writePiece
  · exact h.writePiece
  · exact h.busWriteRegs
  · split
    · exact h.doorbell
    · exact h
  · split
    · exact h.setSem.grantAll
    · exact h
  · exact h

theorem Keeps.busAtomic {who : Requester} {a : Nat} {operand : W64} {swap : Option W64} (h : Keeps s₀ s) :
    Keeps s₀ (s.busAtomic who a operand swap).2.2 := by
  unfold State.busAtomic
  extract_lets act
  have hact : Keeps s₀ (act s).2.2 := by
    unfold act
    split
    · exact h
    · split
      next st l s₁ heq =>
        have h₁ : Keeps s₀ s₁ := h.readPiece.of_eq₃ heq
        extract_lets old new
        split
        · exact h₁
        · cases new with
          | none => exact h₁
          | some v => exact h₁.writePiece
  split
  · exact hact
  · exact hact
  · exact h

/-! ### Machine/Mover.lean -/

theorem Keeps.holdHere {c : Nat} {e : Machine.QEntry} {a : W64} {len : Nat} (h : Keeps s₀ s) :
    Keeps s₀ (s.holdHere c e a len) :=
  h.setTag

theorem Keeps.mvRequest {c vc : Nat} {e : Machine.QEntry} {p : Packet} {t' : Machine.Tag} (h : Keeps s₀ s) :
    Keeps s₀ (s.mvRequest c vc e p t') := by
  unfold State.mvRequest
  extract_lets _
  split
  · exact h.latchFail
  · exact h.request

theorem Keeps.mvStatus {c ctx st len : Nat} (h : Keeps s₀ s) : Keeps s₀ (s.mvStatus c ctx st len) := by
  unfold State.mvStatus
  exact .ite h.count h.latchFail

theorem Keeps.mvRead {n : CtxId} {a : W64} {len : Nat} (h : Keeps s₀ s) : Keeps s₀ (s.mvRead n a len).2.2 := h.busRead

theorem Keeps.mvWrite {n : CtxId} {a : W64} {l : List Byte} (h : Keeps s₀ s) : Keeps s₀ (s.mvWrite n a l).2 := h.busWrite

theorem Keeps.putTiles {c o : Nat} {l : List Byte} (h : Keeps s₀ s) : Keeps s₀ (s.putTiles c o l) :=
  h.modCore fun _ w => by simpa using w

theorem Keeps.mvStore {c : Nat} {e : Machine.QEntry} {a : W64} {l : List Byte} (h : Keeps s₀ s) :
    Keeps s₀ (s.mvStore c e a l) := by
  unfold State.mvStore
  extract_lets _ _
  split
  · split
    next _ _ _ heq =>
      have h₁ := h.mvWrite.of_eq₂ heq
      exact .ite h₁.mvStatus h₁.mvStatus.holdHere
  · exact h.mvRequest

theorem Keeps.mvSemWait {c : Nat} {e : Machine.QEntry} {a : W64} (h : Keeps s₀ s) : Keeps s₀ (s.mvSemWait c e a) := by
  unfold State.mvSemWait
  extract_lets _ _ _ _ _ _ s₁
  have h₁ : Keeps s₀ s₁ := h.setTag
  split
  · split
    · split
      next _ _ _ heq =>
        have h₂ := h₁.semWait.of_eq₂ heq
        exact .ite h₂.setTag h₂
    · exact h.latchFail
  · exact h.mvRequest

theorem Keeps.mvSemSig {c : Nat} {e : Machine.QEntry} {a : W64} (h : Keeps s₀ s) : Keeps s₀ (s.mvSemSig c e a) := by
  unfold State.mvSemSig
  extract_lets _ _
  split
  · split
    · exact h.semSignal.holdHere
    · exact h.latchFail
  · exact h.mvRequest

theorem Keeps.mvAtomic {c : Nat} {e : Machine.QEntry} {a : W64} (h : Keeps s₀ s) : Keeps s₀ (s.mvAtomic c e a) := by
  unfold State.mvAtomic
  extract_lets _ _ _ _
  split
  · split
    next _ _ _ _ heq =>
      have h₁ := h.busAtomic.of_eq₃ heq
      exact Keeps.holdHere (Keeps.ite h₁.scratchPut.mvStatus h₁.latchFail)
  · exact h.mvRequest

theorem Keeps.mvIssue {c : Nat} {e : Machine.QEntry} {t' : Machine.MvTxn} (h : Keeps s₀ s) : Keeps s₀ (s.mvIssue c e t') := by
  unfold State.mvIssue
  extract_lets _
  split
  · split
    · split
      next _ _ _ _ heq =>
        have h₁ := h.mvRead.of_eq₃ heq
        exact .ite (Keeps.mvStatus (Keeps.ite h₁.putTiles h₁)) (Keeps.holdHere (Keeps.mvStatus (Keeps.ite h₁.putTiles h₁)))
    · exact h.mvRequest
  · exact h.mvStore
  · split
    · split
      next _ _ _ _ heq =>
        have h₂ := h.mvRead.of_eq₃ heq
        exact .ite h₂.mvStore h₂.latchFail.holdHere
    · exact h.mvRequest
  · exact h.mvSemSig
  · exact h.mvSemWait
  · exact h.mvAtomic
  · exact h

theorem Keeps.modEntry {c seq : Nat} {f : Machine.QEntry → Machine.QEntry} (h : Keeps s₀ s) : Keeps s₀ (s.modEntry c seq f) :=
  h.modCore fun _ w => w

theorem Keeps.mvIssueAll {c : Nat} {e : Machine.QEntry} {ts : List Machine.MvTxn} (h : Keeps s₀ s) :
    Keeps s₀ (s.mvIssueAll c e ts) := by
  induction ts generalizing s with
  | nil => exact h
  | cons t r ih => exact .ite h (ih h.modEntry.mvIssue)

theorem Keeps.mvContinue {c : Nat} (h : Keeps s₀ s) : Keeps s₀ (s.mvContinue c) := h.foldl fun _ _ h => .ite h.mvIssueAll h

theorem Keeps.freeHere {c : Nat} (h : Keeps s₀ s) : Keeps s₀ (s.freeHere c) := by
  unfold State.freeHere
  refine h.foldl fun _ _ h₁ => ?_
  split
  · exact .ite h₁.freeTag h₁
  · exact h₁

theorem Keeps.returnHere {c fuel : Nat} (h : Keeps s₀ s) : Keeps s₀ (s.returnHere c fuel) := by
  induction fuel generalizing s with
  | zero => exact h
  | succ fuel ih => exact .ite h (ih h.freeHere.mvContinue)

theorem Keeps.replyLands {t' : Machine.Tag} {operand : W64} {data : List Byte} (h : Keeps s₀ s) :
    Keeps s₀ (s.replyLands t' operand data) := by
  unfold State.replyLands
  split
  · exact h.putTiles.count
  · split
    · exact h.mvStore
    · exact h
  · exact h.scratchPut.count
  · exact .ite h h.count
  · exact h.endWaits
  · exact .ite h.signalGlobal h
  · exact h.modStream
  · exact Keeps.cePump (h.frame rfl)
  · exact h.cePump
  · exact h.listLanded
  · exact h.slotAcked
  · exact h.dumpLanded
  · exact h

theorem Keeps.txnReply {i status : Nat} {operand : W64} {data : List Byte} (h : Keeps s₀ s) :
    Keeps s₀ (s.txnReply i status operand data) := by
  unfold State.txnReply
  extract_lets s₁
  have h₁ : Keeps s₀ s₁ := h.freeTag
  split
  · exact h
  · exact .ite h.setTag (.ite h₁.replyLands h₁.txnFailed)

theorem Keeps.mvReissue {i : Nat} {t' : Machine.Tag} (h : Keeps s₀ s) : Keeps s₀ (s.mvReissue i t') := by
  unfold State.mvReissue
  extract_lets _ _ _ s₁
  have h₁ : Keeps s₀ s₁ := h.setTag
  split
  · split
    · split
      next _ _ _ heq =>
        have h₂ := h₁.semWait.of_eq₂ heq
        exact .ite h₂.setTag h₂
    · exact h₁
  · split
    · exact h₁.failTag
    · exact h₁.send

theorem Keeps.withdraw {c : Nat} {e : Machine.QEntry} (h : Keeps s₀ s) : Keeps s₀ (s.withdraw c e) := by
  unfold State.withdraw
  split
  · exact h.dropWaiting.endWaits
  · extract_lets s₁ _ _
    have h₁ : Keeps s₀ s₁ := h.abandonTag.endWaits
    split
    · exact h₁
    · split
      · split
        · exact h₁.semCancel
        · exact h₁
      · split
        · exact h₁
        · exact h₁.request

/-! ### Machine/Hazard.lean -/

theorem Keeps.modQ {c : Nat} {q : EngineId} {seq : Nat} {f : Machine.QEntry → Machine.QEntry} (h : Keeps s₀ s) :
    Keeps s₀ (s.modQ c q seq f) :=
  h.modCore fun _ w => by simpa using w

theorem Keeps.markRaced {c : Nat} {q : EngineId} {seq : Nat} (h : Keeps s₀ s) : Keeps s₀ (s.markRaced c q seq) := h.modQ

theorem Keeps.markRivals {c : Nat} {e : Machine.QEntry} (h : Keeps s₀ s) : Keeps s₀ (s.markRivals c e) := by
  unfold State.markRivals
  split
  · exact h
  · exact Keeps.markRaced (h.foldl fun _ _ h => h.markRaced)

theorem Keeps.unpredictable {c : Nat} (h : Keeps s₀ s) : Keeps s₀ (s.unpredictable c) := by
  unfold State.unpredictable
  extract_lets n k k₁ k₂
  have h₁ : k₁.memWf = k.memWf := Core.memWf_foldl (fun j _ => j.memWf_setMask _ _) _ _
  have h₂ : k₂.memWf = k.memWf := (Core.memWf_foldl (fun j _ => j.memWf_setSum _ _) _ _).trans h₁
  clear_value n k₂
  exact Keeps.setCore₀ (h.frame rfl) fun w => Core.memWf_congr rfl rfl (h₂.trans (State.memWf_core (h.memWf w) c))

theorem Keeps.raceAround {c : Nat} {raced : Bool} {run : Machine.State → Machine.State}
    (h : Keeps s₀ s) (hrun : ∀ {t}, Keeps s₀ t → Keeps s₀ (run t)) : Keeps s₀ (s.raceAround c raced run) := by
  unfold State.raceAround
  exact .ite ((hrun h.unpredictable).unpredictable) (hrun h)

theorem Keeps.scramble {c : Nat} {e : Machine.QEntry} (h : Keeps s₀ s) : Keeps s₀ (s.scramble c e) :=
  h.foldl fun _ _ h => .ite (h.foldl fun _ _ h => Keeps.mvWrite (h.frame rfl)) h

theorem Keeps.readRaced {busy : Bool} {v : W64} (h : Keeps s₀ s) : Keeps s₀ (s.readRaced busy v).2 := by
  unfold State.readRaced
  split
  · exact h.draw
  · exact h

theorem Keeps.readSummary {c sel : Nat} (h : Keeps s₀ s) : Keeps s₀ (s.readSummary c sel).2 := by
  unfold State.readSummary
  extract_lets _
  split
  · exact h
  · split
    next _ _ _ heq =>
      have h₁ := h.draw.of_eq₂ heq
      exact h₁

/-! ### Machine/Issue.lean -/

theorem Keeps.coreFault {c n cause pc : Nat} (h : Keeps s₀ s) : Keeps s₀ (s.coreFault c n cause pc) := h.setReg.requestQuench

theorem Keeps.signalToken {c n t' pc : Nat} (h : Keeps s₀ s) : Keeps s₀ (s.signalToken c n t' pc) := by
  unfold State.signalToken
  exact .ite (.ite h.coreFault (h.setCore fun w => State.memWf_core w _)) (.ite h.scratchPut h)

theorem Keeps.beginWait {kind c engine : Nat} {n : CtxId} {obj : W64} (h : Keeps s₀ s) :
    Keeps s₀ (s.beginWait kind c engine n obj) := by
  unfold State.beginWait
  exact .ite h h.addWait

theorem Keeps.endWait {kind c engine : Nat} {n : CtxId} (h : Keeps s₀ s) : Keeps s₀ (s.endWait kind c engine n) := h.endWaits

theorem Keeps.waitProgress {c : Nat} {n : CtxId} (h : Keeps s₀ s) : Keeps s₀ (s.waitProgress c n) := h.frame rfl

theorem Keeps.startEntry {c : Nat} {q : EngineId} {e : Machine.QEntry} (h : Keeps s₀ s) : Keeps s₀ (s.startEntry c q e) :=
  Keeps.markRivals (Keeps.modQ (h.endWait.modCore fun _ w => by simpa using w))

theorem Keeps.engineStart {c : Nat} {q : EngineId} {e : Machine.QEntry} (h : Keeps s₀ s) : Keeps s₀ (s.engineStart c q e) := by
  unfold State.engineStart
  exact .ite h.coreFault (.ite (Keeps.beginWait (Keeps.count (h.startEntry.modCore fun _ w => w))) h.startEntry.beginWait)

theorem Keeps.queuePump {c : Nat} {q : EngineId} {before es : List Machine.QEntry} (h : Keeps s₀ s) :
    Keeps s₀ (s.queuePump c q before es) := by
  induction es generalizing s before with
  | nil => exact h
  | cons e r ih =>
    unfold State.queuePump
    exact .ite (ih h) (.ite h (.ite (.ite (ih h.engineStart) h.engineStart) h.beginWait))

theorem Keeps.tryHead {c : Nat} {q : EngineId} (h : Keeps s₀ s) : Keeps s₀ (s.tryHead c q) := h.queuePump

theorem Keeps.moverStart {c : Nat} {e : Machine.QEntry} (h : Keeps s₀ s) : Keeps s₀ (s.moverStart c e) := by
  unfold State.moverStart
  refine .ite h.coreFault ?_
  extract_lets s₁ s₂
  have h₂ : Keeps s₀ s₂ := .ite h.startEntry.beginWait h.startEntry
  exact h₂.raceAround fun h => h.mvIssueAll

theorem Keeps.moverPump {c : Nat} {before es : List Machine.QEntry} (h : Keeps s₀ s) : Keeps s₀ (s.moverPump c before es) := by
  induction es generalizing s before with
  | nil => exact h
  | cons e r ih =>
    unfold State.moverPump
    extract_lets s₁
    have h₁ : Keeps s₀ s₁ := h.moverStart
    refine .ite (ih h) (.ite h (.ite ?_ h.beginWait))
    split
    · exact .ite (ih h₁) h₁
    · exact h₁

theorem Keeps.pump {c : Nat} (h : Keeps s₀ s) : Keeps s₀ (s.pump c) := h.tryHead.tryHead.tryHead.mvContinue.moverPump

theorem Keeps.countWord {c : Nat} {e : Machine.QEntry} (h : Keeps s₀ s) : Keeps s₀ (s.countWord c e) := by
  unfold State.countWord
  split
  · exact h.count
  · exact h.count
  · exact h.count.countFree
  · split
    · exact h.count.countFree
    · exact h.countFree
    · exact h

theorem Keeps.runWord {c : Nat} {q : EngineId} {e : Machine.QEntry} (h : Keeps s₀ s) : Keeps s₀ (s.runWord c q e) := by
  unfold State.runWord
  split
  · exact .ite h.runMma h.runMout
  · exact h.runVector
  · exact h.runScan
  · exact .ite h.scramble h

theorem Keeps.completeWord {c : Nat} {q : EngineId} {e : Machine.QEntry} (h : Keeps s₀ s) :
    Keeps s₀ (s.completeWord c q e) := by
  unfold State.completeWord
  extract_lets s₁ s₂ s₃ s₄
  have h₁ : Keeps s₀ s₁ := h.raceAround fun h => h.runWord
  have h₂ : Keeps s₀ s₂ := h₁.modCore fun k w => (k.memWf_setQueue _ _).trans w
  exact .ite h₂.endWaits.countWord.waitProgress.signalToken h₂.endWaits.countWord.waitProgress

theorem Keeps.withdrawEnd {c : Nat} (h : Keeps s₀ s) : Keeps s₀ (s.withdrawEnd c) := by
  unfold State.withdrawEnd
  split
  · exact h
  next e _ =>
    refine h.modCore fun k w => ?_
    have hk : (if e.started then k.returnTokens e.w.wait else k).memWf = true := by
      split
      · exact (k.memWf_returnTokens _).trans w
      · exact w
    exact hk

theorem Keeps.pointWithdraw {c n pc : Nat} (h : Keeps s₀ s) : Keeps s₀ (s.pointWithdraw c n pc) := by
  unfold State.pointWithdraw
  split
  · exact h
  · exact h.withdraw.modEntry

theorem Keeps.detachAtoms {c : Nat} (h : Keeps s₀ s) : Keeps s₀ (s.detachAtoms c) := h.modCore fun _ w => w

theorem Keeps.tryPoint {c : Nat} (h : Keeps s₀ s) : Keeps s₀ (s.tryPoint c) := by
  unfold State.tryPoint
  extract_lets s₁ s₂ _
  have h₁ : Keeps s₀ s₁ := h.withdrawEnd
  have h₂ : Keeps s₀ s₂ := .ite h₁.detachAtoms h₁
  split
  · split
    · exact h₂
    · split
      · exact .ite (h₂.setCore fun w => State.memWf_core w _) h₂.switchOut.switchIn.notePreempt.resolveBeat
      · exact h₂.setCore fun w => State.memWf_core w _
  · exact h₂

/-! ### Machine/Control.lean -/

theorem Keeps.nextPc {c : Nat} (h : Keeps s₀ s) : Keeps s₀ (s.nextPc c) := h.modCore fun _ w => w

theorem Keeps.pastEnd {c : Nat} (h : Keeps s₀ s) : Keeps s₀ (s.pastEnd c) := by
  unfold State.pastEnd
  split
  · exact .ite h (Keeps.coreFault (h.modCore fun _ w => w))
  · exact h

theorem Keeps.advance {c : Nat} (h : Keeps s₀ s) : Keeps s₀ (s.advance c) := h.nextPc.pastEnd

theorem Keeps.jump {c n : Nat} {target : W64} (h : Keeps s₀ s) : Keeps s₀ (s.jump c n target) := by
  unfold State.jump
  exact .ite (h.modCore fun _ w => w) h.coreFault

theorem Keeps.writeRd {c : Nat} {rd : BitVec 5} {v : W64} (h : Keeps s₀ s) : Keeps s₀ (s.writeRd c rd v) :=
  Keeps.advance (h.modCore fun _ w => by simpa using w)

theorem Keeps.scratchRead {c a : Nat} (h : Keeps s₀ s) : Keeps s₀ (s.scratchRead c a).2 := h.readRaced

theorem Keeps.runLd {c n : Nat} {w : CtrlWord} (h : Keeps s₀ s) : Keeps s₀ (s.runLd c n w) := by
  unfold State.runLd
  extract_lets _ _
  split
  · split
    next _ _ _ heq =>
      have h₁ := h.scratchRead.of_eq₂ heq
      exact h₁.writeRd
  · exact h.coreFault

theorem Keeps.scratchWrite {c a : Nat} {v : W64} (h : Keeps s₀ s) : Keeps s₀ (s.scratchWrite c a v) := by
  unfold State.scratchWrite
  extract_lets _
  split
  next _ _ _ heq =>
    have h₁ := h.readRaced.of_eq₂ heq
    exact h₁.scratchPut.foldl fun _ _ h => h.markRaced

theorem Keeps.runSt {c n : Nat} {w : CtrlWord} (h : Keeps s₀ s) : Keeps s₀ (s.runSt c n w) := by
  unfold State.runSt
  exact .ite h.scratchWrite.advance h.coreFault

theorem Keeps.runJump {c n : Nat} {rd : BitVec 5} {target : W64} (h : Keeps s₀ s) : Keeps s₀ (s.runJump c n rd target) := by
  unfold State.runJump
  exact .ite (h.modCore fun k w => Core.memWf_congr (k.xSet_scratch _ _) (k.xSet_store _ _) w) h.coreFault

theorem Keeps.wlWord {c i : Nat} (h : Keeps s₀ s) : Keeps s₀ (s.wlWord c i).2 := by
  unfold State.wlWord
  split
  · exact h.scratchRead
  · exact h

theorem Keeps.tryEnd {c : Nat} (h : Keeps s₀ s) : Keeps s₀ (s.tryEnd c) := by
  unfold State.tryEnd
  extract_lets _
  split
  · exact .ite (Keeps.pastEnd (Keeps.reportEnd (h.setCore fun w => State.memWf_core w _))) (h.setCore fun w =>
        State.memWf_core w _)
  · exact h

theorem Keeps.runPoint {c n : Nat} {imm : W64} (h : Keeps s₀ s) : Keeps s₀ (s.runPoint c n imm) := by
  unfold State.runPoint
  exact .ite (Keeps.pastEnd (Keeps.tryPoint (Keeps.pointWithdraw (h.nextPc.modCore fun _ w => w)))) h.nextPc.pastEnd

theorem Keeps.runMvfail {c n : Nat} {rd : BitVec 5} (h : Keeps s₀ s) : Keeps s₀ (s.runMvfail c n rd) :=
  Keeps.writeRd (h.modCore fun _ w => w)

theorem Keeps.runStlb {c : Nat} {imm : W64} (h : Keeps s₀ s) : Keeps s₀ (s.runStlb c imm) := h.layerClear.setReg.advance

theorem Keeps.runRead {c : Nat} {rd : BitVec 5} {r : W64 × Machine.State} (h : Keeps s₀ r.2) :
    Keeps s₀ (State.runRead c rd r) := h.writeRd

theorem Keeps.runCtrl {c : Nat} {n : CtxId} {op : Machine.CtrlOp} {w : CtrlWord} (h : Keeps s₀ s) :
    Keeps s₀ (s.runCtrl c n op w) := by
  unfold State.runCtrl
  extract_lets s₁ _ _ _ block
  have h₁ : Keeps s₀ s₁ := h.count.waitProgress
  have hblock {x : Blocked} : Keeps s₀ (block s₁ x) := h₁.nextPc.modCore fun _ w => Core.memWf_congr rfl rfl w
  split
  iterate 12 exact h₁.writeRd
  · exact h₁.runLd
  · exact h₁.runSt
  iterate 6 exact .ite h₁.jump h₁.advance
  · exact h₁.runJump
  · exact h₁.runJump
  · exact .runRead h₁.readSummary
  · exact .runRead h₁.wlWord
  · exact hblock.resched
  · exact h₁.runPoint
  · exact h₁.nextPc.tryEnd
  · exact h₁.advance
  · exact h₁.advance
  · exact hblock
  · exact h₁.runMvfail
  · exact h₁.runStlb
  · exact hblock
  · exact .runRead h₁.readRaced

theorem Keeps.enqueue {c : Nat} {n : CtxId} {op : Machine.TileOp} {w : TileWord} {ecc : List Ecc}
    (h : Keeps s₀ s) : Keeps s₀ (s.enqueue c n op w ecc) := by
  unfold State.enqueue
  extract_lets q k e mark s₁
  have h₁ : Keeps s₀ s₁ := h.endWait
  refine .ite (Keeps.beginWait (h.setCore fun w => Core.memWf_congr rfl rfl (State.memWf_core w c))) ?_
  refine Keeps.advance (Keeps.pump (Keeps.count (h₁.setCore₀ fun w => ?_)))
  exact (k.memWf_setQueue q (k.queue q ++ [e])).trans (State.memWf_core (h.memWf w) c)

theorem Keeps.goOn {c : Nat} (h : Keeps s₀ s) : Keeps s₀ (s.goOn c) := by
  unfold State.goOn
  extract_lets k
  split
  · split
    · exact h
    · split
      · refine .ite (Keeps.runCtrl (h.endWait.setCore₀ fun hw => ?_)) h
        exact (Core.memWf_takeTokens _ _).trans (State.memWf_core (h.memWf hw) c)
      · exact .ite h h.enqueue
      · exact h.tryEnd
      · exact h.tryPoint
      · exact h.resched
      · exact h
  · exact h

theorem Keeps.settle {c : Nat} (h : Keeps s₀ s) : Keeps s₀ (s.settle c) := h.pump.goOn.pastEnd

theorem Keeps.fetchEcc {c n : Nat} {ecc : Ecc} (h : Keeps s₀ s) : Keeps s₀ (s.fetchEcc c n ecc).2 := by
  unfold State.fetchEcc
  extract_lets _ s₁
  have h₁ : Keeps s₀ s₁ := h.countFld
  split
  · exact h
  · exact h.correctedError
  · exact h₁.coreFault.raiseMech

theorem Keeps.issueCtrl {c : Nat} {op : Machine.CtrlOp} {w : CtrlWord} (h : Keeps s₀ s) : Keeps s₀ (s.issueCtrl c op w) := by
  unfold State.issueCtrl
  split
  · exact h
  · split
    · exact h.pastEnd
    · split
      next _ _ _ heq =>
        have h₁ := h.fetchEcc.of_eq₂ heq
        extract_lets _
        split
        · exact h₁
        · split
          · exact h₁.coreFault
          · exact .ite (Keeps.runCtrl (h₁.setCore fun w => by simpa using State.memWf_core w c)) (Keeps.beginWait (h₁.setCore
                fun w => State.memWf_core w _))

theorem Keeps.tileFault {c : Nat} {op : Machine.TileOp} {w : TileWord} (h : Keeps s₀ s) : Keeps s₀ (s.tileFault c op w).2 := by
  unfold State.tileFault
  extract_lets _ _
  split
  · exact h
  · split
    · exact h.setReg
    · exact h

theorem Keeps.issueTile {c : Nat} {op : Machine.TileOp} {w : TileWord} {ecc : List Ecc} (h : Keeps s₀ s) :
    Keeps s₀ (s.issueTile c op w ecc) := by
  unfold State.issueTile
  split
  · exact h
  · split
    · exact h.pastEnd
    · split
      next _ _ _ heq =>
        have h₁ := h.fetchEcc.of_eq₂ heq
        split
        · exact h₁
        · split
          next _ _ _ heq =>
            split
            next _ _ heq =>
              have h₃ := h₁.tileFault.of_eq₂ heq
              exact h₃.coreFault
            next _ heq =>
              have h₄ := h₁.tileFault.of_eq₂ heq
              exact h₄.enqueue

theorem Keeps.execAdd {c : CoreId} {w : CtrlWord} (h : Keeps s₀ s) : Next s₀ (Machine.execAdd c w s) := h.issueCtrl.next

theorem Keeps.execSub {c : CoreId} {w : CtrlWord} (h : Keeps s₀ s) : Next s₀ (Machine.execSub c w s) := h.issueCtrl.next

theorem Keeps.execAnd {c : CoreId} {w : CtrlWord} (h : Keeps s₀ s) : Next s₀ (Machine.execAnd c w s) := h.issueCtrl.next

theorem Keeps.execOr {c : CoreId} {w : CtrlWord} (h : Keeps s₀ s) : Next s₀ (Machine.execOr c w s) := h.issueCtrl.next

theorem Keeps.execXor {c : CoreId} {w : CtrlWord} (h : Keeps s₀ s) : Next s₀ (Machine.execXor c w s) := h.issueCtrl.next

theorem Keeps.execShl {c : CoreId} {w : CtrlWord} (h : Keeps s₀ s) : Next s₀ (Machine.execShl c w s) := h.issueCtrl.next

theorem Keeps.execShr {c : CoreId} {w : CtrlWord} (h : Keeps s₀ s) : Next s₀ (Machine.execShr c w s) := h.issueCtrl.next

theorem Keeps.execSra {c : CoreId} {w : CtrlWord} (h : Keeps s₀ s) : Next s₀ (Machine.execSra c w s) := h.issueCtrl.next

theorem Keeps.execMul {c : CoreId} {w : CtrlWord} (h : Keeps s₀ s) : Next s₀ (Machine.execMul c w s) := h.issueCtrl.next

theorem Keeps.execSlt {c : CoreId} {w : CtrlWord} (h : Keeps s₀ s) : Next s₀ (Machine.execSlt c w s) := h.issueCtrl.next

theorem Keeps.execAddi {c : CoreId} {w : CtrlWord} (h : Keeps s₀ s) : Next s₀ (Machine.execAddi c w s) := h.issueCtrl.next

theorem Keeps.execLi {c : CoreId} {w : CtrlWord} (h : Keeps s₀ s) : Next s₀ (Machine.execLi c w s) := h.issueCtrl.next

theorem Keeps.execLd {c : CoreId} {w : CtrlWord} (h : Keeps s₀ s) : Next s₀ (Machine.execLd c w s) := h.issueCtrl.next

theorem Keeps.execSt {c : CoreId} {w : CtrlWord} (h : Keeps s₀ s) : Next s₀ (Machine.execSt c w s) := h.issueCtrl.next

theorem Keeps.execBeq {c : CoreId} {w : CtrlWord} (h : Keeps s₀ s) : Next s₀ (Machine.execBeq c w s) := h.issueCtrl.next

theorem Keeps.execBne {c : CoreId} {w : CtrlWord} (h : Keeps s₀ s) : Next s₀ (Machine.execBne c w s) := h.issueCtrl.next

theorem Keeps.execBlt {c : CoreId} {w : CtrlWord} (h : Keeps s₀ s) : Next s₀ (Machine.execBlt c w s) := h.issueCtrl.next

theorem Keeps.execBge {c : CoreId} {w : CtrlWord} (h : Keeps s₀ s) : Next s₀ (Machine.execBge c w s) := h.issueCtrl.next

theorem Keeps.execBltu {c : CoreId} {w : CtrlWord} (h : Keeps s₀ s) : Next s₀ (Machine.execBltu c w s) := h.issueCtrl.next

theorem Keeps.execBgeu {c : CoreId} {w : CtrlWord} (h : Keeps s₀ s) : Next s₀ (Machine.execBgeu c w s) := h.issueCtrl.next

theorem Keeps.execJal {c : CoreId} {w : CtrlWord} (h : Keeps s₀ s) : Next s₀ (Machine.execJal c w s) := h.issueCtrl.next

theorem Keeps.execJalr {c : CoreId} {w : CtrlWord} (h : Keeps s₀ s) : Next s₀ (Machine.execJalr c w s) := h.issueCtrl.next

theorem Keeps.execSumrd {c : CoreId} {w : CtrlWord} (h : Keeps s₀ s) : Next s₀ (Machine.execSumrd c w s) := h.issueCtrl.next

theorem Keeps.execWlread {c : CoreId} {w : CtrlWord} (h : Keeps s₀ s) : Next s₀ (Machine.execWlread c w s) := h.issueCtrl.next

theorem Keeps.execBeatwait {c : CoreId} {w : CtrlWord} (h : Keeps s₀ s) :
    Next s₀ (Machine.execBeatwait c w s) := h.issueCtrl.next

theorem Keeps.execTokwait {c : CoreId} {w : CtrlWord} (h : Keeps s₀ s) : Next s₀ (Machine.execTokwait c w s) := h.issueCtrl.next

theorem Keeps.execPpoint {c : CoreId} {w : CtrlWord} (h : Keeps s₀ s) : Next s₀ (Machine.execPpoint c w s) := h.issueCtrl.next

theorem Keeps.execEndStage {c : CoreId} {w : CtrlWord} (h : Keeps s₀ s) :
    Next s₀ (Machine.execEndStage c w s) := h.issueCtrl.next

theorem Keeps.execNop {c : CoreId} {w : CtrlWord} (h : Keeps s₀ s) : Next s₀ (Machine.execNop c w s) := h.issueCtrl.next

theorem Keeps.execBrk {c : CoreId} {w : CtrlWord} (h : Keeps s₀ s) : Next s₀ (Machine.execBrk c w s) := h.issueCtrl.next

theorem Keeps.execMvfail {c : CoreId} {w : CtrlWord} (h : Keeps s₀ s) : Next s₀ (Machine.execMvfail c w s) := h.issueCtrl.next

theorem Keeps.execStlb {c : CoreId} {w : CtrlWord} (h : Keeps s₀ s) : Next s₀ (Machine.execStlb c w s) := h.issueCtrl.next

theorem Keeps.execStrp {c : CoreId} {w : CtrlWord} (h : Keeps s₀ s) : Next s₀ (Machine.execStrp c w s) := h.issueCtrl.next

theorem Keeps.execStrd {c : CoreId} {w : CtrlWord} (h : Keeps s₀ s) : Next s₀ (Machine.execStrd c w s) := h.issueCtrl.next

theorem Keeps.execWordComplete {c : CoreId} {e : EngineId} (h : Keeps s₀ s) : Next s₀ (Machine.execWordComplete c e s) := by
  unfold Machine.execWordComplete
  extract_lets s₁
  have h₁ : Keeps s₀ s₁ := .ite h.returnHere h
  split
  · exact h₁.completeWord.settle.next
  · exact h₁.next

theorem Keeps.execTransactionReply {tag : TagId} {status : Byte} {data : List Byte} (h : Keeps s₀ s) :
    Next s₀ (Machine.execTransactionReply tag status data s) := by
  unfold Machine.execTransactionReply
  extract_lets s₁
  have h₁ : Keeps s₀ s₁ := h.txnReply
  split
  · exact h.genDrop.next
  · split
    · exact h₁.settle.next
    · exact h₁.next

theorem Keeps.execTransactionTimeout {tag : TagId} (h : Keeps s₀ s) : Next s₀ (Machine.execTransactionTimeout tag s) := by
  unfold Machine.execTransactionTimeout
  split
  · exact h.next
  · extract_lets s₁ s₂
    have h₁ : Keeps s₀ s₁ := .ite h.reach h
    have h₂ : Keeps s₀ s₂ := h₁.failTag
    split
    · exact h.next
    · split
      · exact h₂.settle.next
      · exact h₂.next

theorem Keeps.execSemWaitReissue {tag : TagId} (h : Keeps s₀ s) : Next s₀ (Machine.execSemWaitReissue tag s) := by
  unfold Machine.execSemWaitReissue
  split
  · exact .ite h.mvReissue.next h.next
  · exact h.next

theorem Keeps.execMirroredReadHoldRelease {c : CoreId} {region : Fin 16} {slot : Fin 2048} (h : Keeps s₀ s) :
    Next s₀ (Machine.execMirroredReadHoldRelease c region slot s) := by
  unfold Machine.execMirroredReadHoldRelease
  exact .ite h.next (Keeps.next (Keeps.foldl (h.modCore fun _ w => w) fun _ _ h => h.endWait.beginWait))

theorem Keeps.execAtomWaitExpiry {c : CoreId} (h : Keeps s₀ s) : Next s₀ (Machine.execAtomWaitExpiry c s) := by
  unfold Machine.execAtomWaitExpiry
  extract_lets s₁
  have h₁ : Keeps s₀ s₁ := h.reach
  split
  · exact h₁.detachAtoms.tryPoint.next
  · exact h.next

/-! ### Machine/Encoding.lean -/

theorem Keeps.meetIllegal {c : Nat} (h : Keeps s₀ s) : Keeps s₀ (s.meetIllegal c) := by
  unfold State.meetIllegal
  split
  · exact h
  · split
    · exact h.pastEnd
    · split
      · exact h.coreFault
      · exact h

/-! ### Machine/Flits.lean -/

theorem Keeps.onLanes {p : Nat} {f : List Byte} (h : Keeps s₀ s) : Keeps s₀ (s.onLanes p f) := h.modLink

theorem Keeps.departing {port : Nat} {p : Packet} (h : Keeps s₀ s) : Keeps s₀ (s.departing port p).2 := by
  unfold State.departing
  split
  · dsimp only
    exact h.modLink
  · exact h
  · exact h
  · exact h

theorem Keeps.loadPacket {p vc : Nat} (h : Keeps s₀ s) : Keeps s₀ (s.loadPacket p vc) := by
  unfold State.loadPacket
  extract_lets _
  split
  · exact h
  · split
    · exact h
    · extract_lets s₁
      have h₁ : Keeps s₀ s₁ := h.frame rfl
      split
      next _ _ _ heq =>
        have h₂ := h₁.departing.of_eq₂ heq
        exact h₂.setLink

theorem Keeps.sendFlit {p vc : Nat} (h : Keeps s₀ s) : Keeps s₀ (s.sendFlit p vc) := by
  unfold State.sendFlit
  extract_lets s₁ _
  have h₁ : Keeps s₀ s₁ := h.loadPacket
  split
  · exact h₁
  · exact h₁.setLink.count.onLanes

theorem Keeps.sendOther {p ftype : Nat} {payload : List Byte} (h : Keeps s₀ s) : Keeps s₀ (s.sendOther p ftype payload) :=
  h.setLink.onLanes

theorem Keeps.sendWaiting {p : Nat} {f : Machine.OutFlit} (h : Keeps s₀ s) : Keeps s₀ (s.sendWaiting p f) := by
  unfold State.sendWaiting
  split
  · split
    · exact h.onLanes
    · exact h
  · exact h.sendOther

theorem Keeps.portCycle {p : Nat} (h : Keeps s₀ s) : Keeps s₀ (s.portCycle p) := by
  unfold State.portCycle
  extract_lets _ _
  split
  · exact Keeps.sendWaiting (h.frame rfl)
  · split
    · exact h
    · split
      · exact h.sendFlit.modLink
      · exact h.sendOther

/-! ### Machine/Packets.lean -/

theorem Keeps.debugHalt {c : Nat} {halt : Bool} (h : Keeps s₀ s) : Keeps s₀ (s.debugHalt c halt) := by
  unfold State.debugHalt
  extract_lets _
  split
  · exact .ite h (Keeps.settle (h.setCore fun w => State.memWf_core w _))
  · exact .ite (h.setCore fun w => State.memWf_core w _) h
  · exact h

theorem Keeps.debugCtrl {a : Nat} {l : List Byte} (h : Keeps s₀ s) : Keeps s₀ (s.debugCtrl a l) := by
  unfold State.debugCtrl
  split
  · exact .ite h.debugHalt h
  · exact h

theorem Keeps.serveRead {who : Requester} {vc src a n : Nat} (h : Keeps s₀ s) : Keeps s₀ (s.serveRead who vc src a n).2.2 := by
  unfold State.serveRead
  split
  · exact h
  · exact h.busRead

theorem Keeps.serveWrite {who : Requester} {vc src a : Nat} {l : List Byte} (h : Keeps s₀ s) :
    Keeps s₀ (s.serveWrite who vc src a l).2 := by
  unfold State.serveWrite
  split
  · split
    · exact h
    · split
      next _ _ _ heq =>
        have h₁ := h.busWrite.of_eq₂ heq
        exact .ite h₁.debugCtrl h₁
  · exact h.busWrite

theorem Keeps.answerRead {vc : Nat} {p : Packet} (h : Keeps s₀ s) : Keeps s₀ (s.answerRead vc p) := by
  unfold State.answerRead
  split
  next _ _ _ _ heq =>
    have h₁ := h.serveRead.of_eq₃ heq
    exact h₁.respond

theorem Keeps.execRead {port : PortId} {vc : Fin 8} {p : Packet} (h : Keeps s₀ s) : Next s₀ (Machine.execRead port vc p s) := by
  unfold Machine.execRead
  extract_lets _
  split
  next _ _ heq =>
    have h₁ := h.arrive.of_eq₂ heq
    exact h₁.next
  next _ _ heq =>
    have h₂ := h.arrive.of_eq₂ heq
    exact h₂.answerRead.next

theorem Keeps.execStateDebugRead {port : PortId} {vc : Fin 8} {p : Packet} (h : Keeps s₀ s) :
    Next s₀ (Machine.execStateDebugRead port vc p s) := by
  unfold Machine.execStateDebugRead
  extract_lets _
  split
  next _ _ heq =>
    have h₁ := h.arrive.of_eq₂ heq
    exact h₁.next
  next _ _ heq =>
    have h₂ := h.arrive.of_eq₂ heq
    exact h₂.answerRead.next

theorem Keeps.execWrite {port : PortId} {vc : Fin 8} {p : Packet} (h : Keeps s₀ s) :
    Next s₀ (Machine.execWrite port vc p s) := by
  unfold Machine.execWrite
  extract_lets _
  split
  next _ _ heq =>
    have h₁ := h.arrive.of_eq₂ heq
    exact h₁.next
  next _ _ heq =>
    have h₂ := h.arrive.of_eq₂ heq
    split
    next _ _ _ heq =>
      have h₃ := h₂.serveWrite.of_eq₂ heq
      exact h₃.respond.next

theorem Keeps.execAtomicAdd {port : PortId} {vc : Fin 8} {p : Packet} (h : Keeps s₀ s) :
    Next s₀ (Machine.execAtomicAdd port vc p s) := by
  unfold Machine.execAtomicAdd
  extract_lets _
  split
  next _ _ heq =>
    have h₁ := h.arrive.of_eq₂ heq
    exact h₁.next
  next _ _ heq =>
    have h₂ := h.arrive.of_eq₂ heq
    split
    next _ _ _ _ heq =>
      have h₃ := h₂.busAtomic.of_eq₃ heq
      exact h₃.respond.next

theorem Keeps.execAtomicCas {port : PortId} {vc : Fin 8} {p : Packet} (h : Keeps s₀ s) :
    Next s₀ (Machine.execAtomicCas port vc p s) := by
  unfold Machine.execAtomicCas
  extract_lets _
  split
  next _ _ heq =>
    have h₁ := h.arrive.of_eq₂ heq
    exact h₁.next
  next _ _ heq =>
    have h₂ := h.arrive.of_eq₂ heq
    split
    next _ _ _ _ heq =>
      have h₃ := h₂.busAtomic.of_eq₃ heq
      exact h₃.respond.next

theorem Keeps.execSemSignal {port : PortId} {vc : Fin 8} {p : Packet} (h : Keeps s₀ s) :
    Next s₀ (Machine.execSemSignal port vc p s) := by
  unfold Machine.execSemSignal
  extract_lets _ _
  split
  next _ _ heq =>
    have h₁ := h.arrive.of_eq₂ heq
    exact h₁.next
  next _ _ heq =>
    have h₂ := h.arrive.of_eq₂ heq
    split
    · exact h₂.semSignal.respond.next
    · exact h₂.respond.next

theorem Keeps.execSemWait {port : PortId} {vc : Fin 8} {p : Packet} (h : Keeps s₀ s) :
    Next s₀ (Machine.execSemWait port vc p s) := by
  unfold Machine.execSemWait
  extract_lets _
  split
  next _ _ heq =>
    have h₁ := h.arrive.of_eq₂ heq
    exact h₁.next
  next _ _ heq =>
    have h₂ := h.arrive.of_eq₂ heq
    split
    · exact h₂.semWait.next
    · exact h₂.respond.next

theorem Keeps.execSemCancel {port : PortId} {vc : Fin 8} {p : Packet} (h : Keeps s₀ s) :
    Next s₀ (Machine.execSemCancel port vc p s) := by
  unfold Machine.execSemCancel
  extract_lets _
  split
  next _ _ heq =>
    have h₁ := h.arrive.of_eq₂ heq
    exact h₁.next
  next _ _ heq =>
    have h₂ := h.arrive.of_eq₂ heq
    split
    · split
      next _ _ _ heq =>
        have h₃ := h₂.semCancel.of_eq₂ heq
        exact h₃.respond.next
    · exact h₂.respond.next

theorem Keeps.execQpush {port : PortId} {vc : Fin 8} {p : Packet} (h : Keeps s₀ s) :
    Next s₀ (Machine.execQpush port vc p s) := by
  unfold Machine.execQpush
  extract_lets _
  split
  next _ _ heq =>
    have h₁ := h.arrive.of_eq₂ heq
    exact h₁.next
  next _ _ heq =>
    have h₂ := h.arrive.of_eq₂ heq
    split
    · split
      next _ _ _ heq =>
        refine Keeps.next ?_
        split
        next _ _ heq =>
          have h₄ := h₂.pushFor.of_eq₂ heq
          exact h₄.respond
        next _ heq =>
          have h₅ := h₂.pushFor.of_eq₂ heq
          exact h₅
    · exact h₂.count.respond.next

theorem Keeps.takeResponse {port vc t' : Nat} {p : Packet} (h : Keeps s₀ s) : Keeps s₀ (s.takeResponse port vc t' p) := by
  unfold State.takeResponse
  extract_lets _
  split
  next _ _ heq =>
    have h₁ := h.arrive.of_eq₂ heq
    exact h₁
  next _ _ heq =>
    have h₂ := h.arrive.of_eq₂ heq
    extract_lets s₃
    have h₃ : Keeps s₀ s₃ := h₂.txnReply
    split
    · exact h₂
    · split
      · exact h₃.settle
      · exact h₃

theorem Keeps.execReadRsp {port : PortId} {vc : Fin 8} {p : Packet} (h : Keeps s₀ s) :
    Next s₀ (Machine.execReadRsp port vc p s) :=
  h.takeResponse.next

theorem Keeps.execAck {port : PortId} {vc : Fin 8} {p : Packet} (h : Keeps s₀ s) : Next s₀ (Machine.execAck port vc p s) :=
  h.takeResponse.next

theorem Keeps.execAtomicRsp {port : PortId} {vc : Fin 8} {p : Packet} (h : Keeps s₀ s) :
    Next s₀ (Machine.execAtomicRsp port vc p s) :=
  h.takeResponse.next

theorem Keeps.execSemRsp {port : PortId} {vc : Fin 8} {p : Packet} (h : Keeps s₀ s) :
    Next s₀ (Machine.execSemRsp port vc p s) :=
  h.takeResponse.next

theorem Keeps.execMgmtRead {port : PortId} {vc : Fin 8} {p : Packet} (h : Keeps s₀ s) :
    Next s₀ (Machine.execMgmtRead port vc p s) := by
  unfold Machine.execMgmtRead
  extract_lets q a ok
  split
  next s₁ heq => exact (h.arrive.of_eq₂ heq).next
  next s₁ heq =>
    have h₁ : Keeps s₀ s₁ := h.arrive.of_eq₂ heq
    clear_value ok
    split
    next st l s₂ heq =>
      have h₂ : Keeps s₀ s₂ := by
        split at heq
        · exact h₁.busRead.of_eq₃ heq
        · exact Keeps.of_eq₃ h₁ heq
      exact h₂.send.next

theorem Keeps.execMgmtWrite {port : PortId} {vc : Fin 8} {p : Packet} (h : Keeps s₀ s) :
    Next s₀ (Machine.execMgmtWrite port vc p s) := by
  unfold Machine.execMgmtWrite
  extract_lets q a ok
  split
  next s₁ heq => exact (h.arrive.of_eq₂ heq).next
  next s₁ heq =>
    have h₁ : Keeps s₀ s₁ := h.arrive.of_eq₂ heq
    clear_value ok
    split
    next st s₂ heq =>
      have h₂ : Keeps s₀ s₂ := by
        split at heq
        · exact h₁.busWrite.of_eq₂ heq
        · exact Keeps.of_eq₂ h₁ heq
      exact h₂.send.next

theorem Keeps.execMgmtRsp {port : PortId} {vc : Fin 8} {p : Packet} (h : Keeps s₀ s) :
    Next s₀ (Machine.execMgmtRsp port vc p s) :=
  h.arrive.next

theorem Keeps.execDbgacc {addr : W64} {data : W32} {write : Bool} (h : Keeps s₀ s) :
    Next s₀ (Machine.execDbgacc addr data write s) := by
  unfold Machine.execDbgacc
  extract_lets _ _
  split
  · exact Keeps.next (h.frame rfl)
  · split
    · split
      next _ _ _ heq =>
        have h₁ := h.serveWrite.of_eq₂ heq
        exact Keeps.next (h₁.frame rfl)
    · split
      next _ _ _ _ heq =>
        have h₂ := h.serveRead.of_eq₃ heq
        exact Keeps.next (h₂.frame rfl)

/-! ### Machine/Arrivals.lean -/

theorem Keeps.deliver {port : PortId} {vc : Fin 8} {p : Packet} (h : Keeps s₀ s) : Keeps s₀ (s.deliver port vc p) := by
  unfold State.deliver
  refine Next.nextOf ?_
  split
  · exact h.execRead
  · exact h.execWrite
  · exact h.execAtomicAdd
  · exact h.execAtomicCas
  · exact h.execSemSignal
  · exact h.execSemWait
  · exact h.execSemCancel
  · exact h.execQpush
  · exact h.execReadRsp
  · exact h.execAck
  · exact h.execAtomicRsp
  · exact h.execSemRsp
  · exact h.execSync
  · exact h.execPdelayReq
  · exact h.execPdelayRsp
  · exact h.execMirror
  · exact h.execToll
  · exact h.execMgmtRead
  · exact h.execMgmtWrite
  · exact h.execMgmtRsp
  · exact h.execPeerLost
  · exact h.execNodeDown
  · exact h.execNodeUp
  · exact h.execHostSwitch
  · exact h.execEnum
  · exact h.execEnumDone
  · exact .ite h.execKeyOffer h.execPacketForward
  · exact .ite h.execKeyConfirm h.execPacketForward
  · exact h.execPacketForward

theorem Keeps.assemble {port : PortId} {vc : Fin 8} {fuel : Nat} (h : Keeps s₀ s) : Keeps s₀ (s.assemble port vc fuel) := by
  induction fuel generalizing s with
  | zero => exact h
  | succ fuel ih =>
    unfold State.assemble
    extract_lets l b s₁ s₂
    have h₁ : Keeps s₀ s₁ := h.setLink
    have h₂ : Keeps s₀ s₂ := by
      unfold s₂
      split
      · exact h₁.count
      · split
        · exact h₁.deliver
        · exact h₁.authFail
    exact .ite h (ih h₂)

theorem Keeps.takeData {port : PortId} {flit : List Byte} (h : Keeps s₀ s) :
    Keeps s₀ (s.takeData port flit) := h.modLink.assemble

theorem Keeps.takeControl {p : Nat} {flit : List Byte} {h' : FlitHead} (h : Keeps s₀ s) :
    Keeps s₀ (s.takeControl p flit h') := by
  unfold State.takeControl
  split
  · exact h.takeAck.replayFrom
  · split
    · exact h.takeAck.goDown
    · exact h.takeAck.goDown
    · exact h.takeAck.goDown
    · exact h.takeAck.goDown
    · exact h
  · exact h.takeAck.exchangeTake
  · exact h

theorem Keeps.takeFlit {port : PortId} {flit : List Byte} {errs : Nat} {data : Bool} (h : Keeps s₀ s) :
    Keeps s₀ (s.takeFlit port flit errs data) := by
  unfold State.takeFlit
  extract_lets _ _ _
  split
  · exact h
  · split
    next _ _ _ heq =>
      have h₁ := h.fecFlit.of_eq₂ heq
      split
      · exact .ite h₁.nakOnce h₁
      · split
        · exact .ite h₁.count.nakOnce h₁.count
        · split
          · exact h₁.takeAck
          · exact .ite h₁ (.ite h₁.takeAck.takeData h₁.nakOnce)
          · exact h₁.takeControl
          · exact .ite h₁.nakOnce h₁

theorem Keeps.execDataFlit {port : PortId} {flit : List Byte} {errs : Nat} (h : Keeps s₀ s) :
    Next s₀ (Machine.execDataFlit port flit errs s) :=
  h.takeFlit.next

theorem Keeps.execNullFlit {port : PortId} {flit : List Byte} {errs : Nat} (h : Keeps s₀ s) :
    Next s₀ (Machine.execNullFlit port flit errs s) :=
  h.takeFlit.next

/-! ### Machine/Dump.lean -/

theorem Keeps.dumpStart {cmd : Option (QueueId × W32)} {dest : W64} {limit trigger : Nat} (h : Keeps s₀ s) :
    Keeps s₀ (s.dumpStart cmd dest limit trigger) :=
  h.frame rfl

theorem Keeps.deadUnit {u : Nat} (h : Keeps s₀ s) : Keeps s₀ (s.deadUnit u) := by
  unfold State.deadUnit
  exact .ite h (Keeps.count (h.frame rfl))

theorem Keeps.destFails {j : Machine.DumpJob} (h : Keeps s₀ s) : Keeps s₀ (s.destFails j) := by
  unfold State.destFails
  extract_lets s₁ _
  have h₁ : Keeps s₀ s₁ := .ite h.deadUnit h
  exact h₁.frame rfl

theorem Keeps.dumpToBuffer {j : Machine.DumpJob} (h : Keeps s₀ s) : Keeps s₀ (s.dumpToBuffer j).2.2 := by
  unfold State.dumpToBuffer
  extract_lets d
  exact h.mems rfl rfl (State.memWf_dumpPut 0 d.2)

theorem Keeps.dumpHere {j : Machine.DumpJob} (h : Keeps s₀ s) : Keeps s₀ (s.dumpHere j).2.2 := by
  unfold State.dumpHere
  extract_lets _
  split
  · exact h.dumpToBuffer
  · split
    next _ _ _ heq =>
      have h₁ := h.writeSpan.of_eq₂ heq
      extract_lets _
      split
      · exact h₁.frame rfl
      · exact h₁.destFails.dumpToBuffer

theorem Keeps.dumpComplete {j : Machine.DumpJob} {flags n : Nat} (h : Keeps s₀ s) : Keeps s₀ (s.dumpComplete j flags n) := by
  unfold State.dumpComplete
  extract_lets _ s₁ s₂
  have h₁ : Keeps s₀ s₁ := h.frame rfl
  have h₂ : Keeps s₀ s₂ := h₁.count.logEvent
  split
  · exact h₂.complete
  · exact h₂

theorem Keeps.dumpSend {j : Machine.DumpJob} (h : Keeps s₀ s) : Keeps s₀ (s.dumpSend j) :=
  Keeps.foldl (h.frame rfl) fun _ _ h => h.request

theorem Keeps.dumpEnd (h : Keeps s₀ s) : Keeps s₀ s.dumpEnd := by
  unfold State.dumpEnd
  split
  · exact h
  · split
    · exact h.dumpComplete
    · exact h
    · split
      · split
        · exact h.dumpSend
        · split
          next _ _ _ _ heq =>
            have h₁ := h.dumpToBuffer.of_eq₃ heq
            exact h₁.dumpComplete
      · split
        next _ _ _ _ heq =>
          have h₂ := h.dumpHere.of_eq₃ heq
          exact h₂.dumpComplete

theorem Keeps.dumpCut (h : Keeps s₀ s) : Keeps s₀ s.dumpCut := by
  unfold State.dumpCut
  split
  · split
    · exact h.dumpComplete
    · exact h
  · exact h

theorem Keeps.autoDump (h : Keeps s₀ s) : Keeps s₀ s.autoDump := h.dumpEnd.dumpCut.dumpStart.dumpEnd

theorem Keeps.execDumpAccessTimeout {unit : Fin 2048} (h : Keeps s₀ s) : Next s₀ (Machine.execDumpAccessTimeout unit s) := by
  unfold Machine.execDumpAccessTimeout
  split
  · exact h.next
  · exact .ite (.ite h.next h.destFails.next) h.deadUnit.next

theorem Keeps.execDumpDone (h : Keeps s₀ s) : Next s₀ (Machine.execDumpDone s) := h.dumpEnd.next

/-! ### Machine/Image.lean -/

theorem Keeps.writeRegions {l : List Machine.ImgRegion} (h : Keeps s₀ s) : Keeps s₀ (s.writeRegions l) :=
  Keeps.foldl (h.foldl fun _ _ h => h.setReg.setReg.setReg.setReg) fun _ _ h => .ite h.setFlag h

theorem Keeps.writeImageRegs {m : Machine.ImgLayout} (h : Keeps s₀ s) : Keeps s₀ (s.writeImageRegs m) :=
  Keeps.foldl (Keeps.lockPage (Keeps.writeRegions (h.foldl fun _ _ h => h.setReg.setReg))) fun _ _ h => h.lockPage

theorem Keeps.copySegment {l : List Byte} {x : Machine.ImgSegment} (h : Keeps s₀ s) : Keeps s₀ (s.copySegment l x).2 := by
  unfold State.copySegment
  extract_lets d
  split
  · dsimp only
    exact h.modCore fun _ w => Core.memWf_congr rfl rfl w
  · exact h.scratchPut
  · exact h.writeSpan

theorem Keeps.copySegments {l : List Byte} {xs : List Machine.ImgSegment} (h : Keeps s₀ s) :
    Keeps s₀ (s.copySegments l xs).2 := by
  induction xs generalizing s with
  | nil => exact h
  | cons x r ih =>
    unfold State.copySegments
    split
    next s₁ heq => exact ih (h.copySegment.of_eq₂ heq)
    next s₁ _ heq => exact h.copySegment.of_eq₂ heq

theorem Keeps.loadTable {slot : Nat} {tag : Byte} {image : List Byte} (h : Keeps s₀ s) :
    Keeps s₀ (s.loadTable slot tag image).2 := by
  unfold State.loadTable
  extract_lets _
  split
  · exact h
  · exact h.frame rfl

theorem Keeps.loadTables {l : List Byte} {xs : List Machine.ImgTable} {i : Nat} (h : Keeps s₀ s) :
    Keeps s₀ (s.loadTables l xs i).2.2 := by
  induction xs generalizing s i with
  | nil => exact h
  | cons x r ih =>
    unfold State.loadTables
    split
    next s₁ heq => exact ih (h.loadTable.of_eq₂ heq)
    next s₁ _ heq => exact h.loadTable.of_eq₂ heq

theorem Keeps.imageFailed {e : Nat} (h : Keeps s₀ s) : Keeps s₀ (s.imageFailed e) := h.frame rfl

theorem Keeps.installImage {h' l : List Byte} (h : Keeps s₀ s) : Keeps s₀ (s.installImage h' l).2.2 := by
  unfold State.installImage
  extract_lets m s₁
  have h₁ : Keeps s₀ s₁ := h.writeImageRegs
  split
  next s₂ heq =>
    have h₂ : Keeps s₀ s₂ := h₁.copySegments.of_eq₂ heq
    split
    next s₃ heq =>
      have h₃ : Keeps s₀ s₃ := h₂.loadTables.of_eq₃ heq
      extract_lets f g
      have hg : FusesAdvance f g := by
        unfold g
        split
        · exact ⟨fun _ e => e, le_rfl, le_max_left _ _, le_rfl, rfl, rfl, fun l => ⟨l.1, l.2.1, max_le l.2.2 (min_le_right _
              _)⟩⟩
        · exact .refl f
      exact h₃.trans ⟨rfl, hg, id⟩
    next heq => exact (h₂.loadTables.of_eq₃ heq).imageFailed
  next heq => exact (h₁.copySegments.of_eq₂ heq).imageFailed

theorem Keeps.loadImage {bytes : Nat} {c : List Byte} {lo hi : Nat} (h : Keeps s₀ s) :
    Keeps s₀ (s.loadImage bytes c lo hi).2.2 := by
  unfold State.loadImage
  extract_lets _ _ _ _
  split
  · exact h.frame rfl
  · split
    · exact h.frame rfl
    · exact h.installImage

/-! ### Machine/Commands.lean -/

theorem Keeps.finish {c : CmdSlot} {op status r0 r1 : Nat} (h : Keeps s₀ s) :
    Keeps s₀ (s.finish c op status r0 r1) := h.complete

theorem Keeps.flight {c : CmdSlot} {op : Nat} (h : Keeps s₀ s) : Keeps s₀ (s.flight c op) := h.frame rfl

theorem Keeps.command {c : CmdSlot} {op : Nat} {used : List (Nat × Nat)} {body : Machine.State → Machine.State}
    (h : Keeps s₀ s) (hbody : ∀ {t}, Keeps s₀ t → Keeps s₀ (body t)) : Keeps s₀ (s.command c op used body) := by
  unfold State.command
  exact .ite h (.ite h.flight.finish (.ite h.flight.finish (hbody h.flight)))

theorem Keeps.cmdNop {c : CmdSlot} (h : Keeps s₀ s) : Keeps s₀ (s.cmdNop c) :=
  h.command fun h => h.finish

theorem Keeps.cmdRegRead {c : CmdSlot} (h : Keeps s₀ s) : Keeps s₀ (s.cmdRegRead c) := by
  refine h.command fun h => ?_
  extract_lets n
  split
  · exact h.finish
  · exact .ite h.finish h.regWords.finish

theorem Keeps.cmdRegWrite {c : CmdSlot} (h : Keeps s₀ s) : Keeps s₀ (s.cmdRegWrite c) := by
  refine h.command fun h => ?_
  split
  · exact h.finish
  · exact .ite h.finish h.regWriteAt.finish

theorem Keeps.cmdQueueCreate {c : CmdSlot} (h : Keeps s₀ s) : Keeps s₀ (s.cmdQueueCreate c) :=
  h.command fun h => .ite h.finish (.ite h.setFlag.finish (.ite h.finish h.setQueue.finish))

theorem Keeps.cmdQueueDestroy {c : CmdSlot} (h : Keeps s₀ s) : Keeps s₀ (s.cmdQueueDestroy c) :=
  h.command fun h => .ite h.finish (.ite h.finish h.setQueue.finish)

theorem Keeps.fetchBytes {a : W64} {n : Nat} {f : Fetched} (h : Keeps s₀ s) : Keeps s₀ (s.fetchBytes a n f).2.2 := by
  unfold State.fetchBytes
  split
  · exact h.readSpan
  · exact h.readRemote

theorem Keeps.fetchContainer {a : W64} {bytes : Nat} {f : Fetched} (h : Keeps s₀ s) :
    Keeps s₀ (s.fetchContainer a bytes f).2.2 := by
  unfold State.fetchContainer
  split
  next _ _ _ heq =>
    have h₁ := h.fetchBytes.of_eq₃ heq
    split
    · exact h₁
    · exact h₁.fetchBytes
  · exact h.fetchBytes

theorem Keeps.cmdImageLoad {c : CmdSlot} {f : Fetched} (h : Keeps s₀ s) : Keeps s₀ (s.cmdImageLoad c f) := by
  refine h.command fun {t} h => ?_
  extract_lets a bytes
  refine .ite h.finish ?_
  split
  next l s₁ heq =>
    have h₁ : Keeps s₀ s₁ := h.fetchContainer.of_eq₃ heq
    split
    split
    next s₂ heq => exact (h₁.loadImage.of_eq₃ heq).finish
  next e _ s₁ _ heq =>
    have h₁ : Keeps s₀ s₁ := h.fetchContainer.of_eq₃ heq
    exact Keeps.finish (h₁.frame rfl)

theorem Keeps.cmdTableLoad {c : CmdSlot} {f : Fetched} (h : Keeps s₀ s) : Keeps s₀ (s.cmdTableLoad c f) := by
  refine h.command fun {t} h => ?_
  extract_lets a slot
  refine .ite h.finish ?_
  split
  next l s₁ heq =>
    have h₁ : Keeps s₀ s₁ := h.fetchBytes.of_eq₃ heq
    split
    next l s₂ heq =>
      have h₂ : Keeps s₀ s₂ := h₁.fetchBytes.of_eq₃ heq
      exact h₂.loadTable.finish
    next heq => exact (h₁.fetchBytes.of_eq₃ heq).finish
  next heq => exact (h.fetchBytes.of_eq₃ heq).finish

theorem Keeps.cmdCtxCreate {c : CmdSlot} (h : Keeps s₀ s) : Keeps s₀ (s.cmdCtxCreate c) := by
  refine h.command fun {t} h => ?_
  extract_lets id sec cls part prio off bad n x s₁
  have h₁ : Keeps s₀ s₁ := h.setCtx
  exact .ite h.finish (.ite h.finish (.ite h.finish (.ite h.finish (Keeps.finish (h₁.frame rfl)))))

theorem Keeps.ctxCommand {c : CmdSlot} {op : Nat} {body : Nat → Machine.State → Machine.State}
    (h : Keeps s₀ s) (hbody : ∀ {i t}, Keeps s₀ t → Keeps s₀ (body i t)) : Keeps s₀ (s.ctxCommand c op body) :=
  h.command fun h => .ite h.finish (hbody h)

theorem Keeps.clearSuspect {n : Nat} (h : Keeps s₀ s) : Keeps s₀ (s.clearSuspect n) := h.frame rfl

theorem Keeps.cmdCtxStart {c : CmdSlot} (h : Keeps s₀ s) : Keeps s₀ (s.cmdCtxStart c) := by
  refine h.ctxCommand fun h => ?_
  split
  · exact h.finish
  · exact h.finish
  · exact h.clearSuspect.runCtx.finish

theorem Keeps.cmdCtxStop {c : CmdSlot} (h : Keeps s₀ s) : Keeps s₀ (s.cmdCtxStop c) := by
  refine h.ctxCommand fun h => ?_
  extract_lets wait
  refine .ite h.finish ?_
  split
  · exact .ite h.stopCtx.finish h.modCtx
  · exact h.modCtx
  · exact h.finish

theorem Keeps.cmdCtxQuench {c : CmdSlot} (h : Keeps s₀ s) : Keeps s₀ (s.cmdCtxQuench c) := by
  refine h.ctxCommand fun h => ?_
  extract_lets wait
  split
  · exact h.finish
  · exact h.modCtx
  · exact h.requestQuench.modCtx

theorem Keeps.cmdCtxDestroy {c : CmdSlot} (h : Keeps s₀ s) : Keeps s₀ (s.cmdCtxDestroy c) := by
  refine h.ctxCommand fun h => ?_
  extract_lets x idle s₁
  have h₁ : Keeps s₀ s₁ := h.clearSuspect.setCtx
  exact .ite h.finish (Keeps.finish (h₁.frame rfl))

theorem Keeps.cmdStreamOpen {c : CmdSlot} (h : Keeps s₀ s) : Keeps s₀ (s.cmdStreamOpen c) :=
  h.command fun h => .ite h.finish h.openStream.finish

theorem Keeps.onStream {c : CmdSlot} {op : Nat} {used : List (Nat × Nat)} {body : Nat → Machine.State → Machine.State} (h :
    Keeps s₀ s) (hbody : ∀ {i t}, Keeps s₀ t → Keeps s₀ (body i t)) : Keeps s₀ (s.onStream c op used body) :=
  h.command fun h => .ite h.finish (hbody h)

theorem Keeps.cmdStreamClose {c : CmdSlot} (h : Keeps s₀ s) : Keeps s₀ (s.cmdStreamClose c) :=
  h.onStream fun h => h.streamCmd

theorem Keeps.cmdStreamReset {c : CmdSlot} (h : Keeps s₀ s) : Keeps s₀ (s.cmdStreamReset c) :=
  h.onStream fun h => .ite h.finish (.ite h.finish h.setStream.finish)

theorem Keeps.parkCommand {c : CmdSlot} {op : Nat} (h : Keeps s₀ s) : Keeps s₀ (s.parkCommand c op) :=
  h.onStream fun h => .ite h.finish h.streamCmd

theorem Keeps.putEntries {first : Nat} {l : List Byte} {n : Nat} (h : Keeps s₀ s) : Keeps s₀ (s.putEntries first l n) :=
  h.foldl fun _ _ h => h.ptPut

theorem Keeps.cmdPatternWrite {c : CmdSlot} {f : Fetched} (h : Keeps s₀ s) : Keeps s₀ (s.cmdPatternWrite c f) := by
  refine h.command fun {t} h => ?_
  extract_lets first n
  refine .ite h.finish (.ite h.finish ?_)
  split
  next heq => exact (h.fetchBytes.of_eq₃ heq).putEntries.finish
  next heq => exact (h.fetchBytes.of_eq₃ heq).finish

theorem Keeps.cmdPatternSwitch {c : CmdSlot} (h : Keeps s₀ s) : Keeps s₀ (s.cmdPatternSwitch c) := by
  refine h.command fun {t} h => ?_
  split
  next s₁ heq =>
    have h₁ : Keeps s₀ s₁ := h.requestSwitch.of_eq₃ heq
    exact h₁.frame rfl
  next heq => exact (h.requestSwitch.of_eq₃ heq).finish

theorem Keeps.cmdDump {c : CmdSlot} (h : Keeps s₀ s) : Keeps s₀ (s.cmdDump c) :=
  h.command fun h => .ite h.finish (.ite h.finish h.dumpStart)

theorem Keeps.execCmdNop {c : CmdSlot} (h : Keeps s₀ s) : Next s₀ (Machine.execCmdNop c s) := h.cmdNop.next

theorem Keeps.execRegRead {c : CmdSlot} (h : Keeps s₀ s) : Next s₀ (Machine.execRegRead c s) := h.cmdRegRead.next

theorem Keeps.execRegWrite {c : CmdSlot} (h : Keeps s₀ s) : Next s₀ (Machine.execRegWrite c s) := h.cmdRegWrite.next

theorem Keeps.execQueueCreate {c : CmdSlot} (h : Keeps s₀ s) : Next s₀ (Machine.execQueueCreate c s) := h.cmdQueueCreate.next

theorem Keeps.execQueueDestroy {c : CmdSlot} (h : Keeps s₀ s) : Next s₀ (Machine.execQueueDestroy c s) := h.cmdQueueDestroy.next

theorem Keeps.execImageLoad {c : CmdSlot} {f : Fetched} (h : Keeps s₀ s) : Next s₀ (Machine.execImageLoad c f s) :=
  h.cmdImageLoad.next

theorem Keeps.execTableLoad {c : CmdSlot} {f : Fetched} (h : Keeps s₀ s) : Next s₀ (Machine.execTableLoad c f s) :=
  h.cmdTableLoad.next

theorem Keeps.execCtxCreate {c : CmdSlot} (h : Keeps s₀ s) : Next s₀ (Machine.execCtxCreate c s) := h.cmdCtxCreate.next

theorem Keeps.execCtxStart {c : CmdSlot} (h : Keeps s₀ s) : Next s₀ (Machine.execCtxStart c s) := h.cmdCtxStart.next

theorem Keeps.execCtxStop {c : CmdSlot} (h : Keeps s₀ s) : Next s₀ (Machine.execCtxStop c s) := h.cmdCtxStop.next

theorem Keeps.execCtxQuench {c : CmdSlot} (h : Keeps s₀ s) : Next s₀ (Machine.execCtxQuench c s) := h.cmdCtxQuench.next

theorem Keeps.execCtxDestroy {c : CmdSlot} (h : Keeps s₀ s) : Next s₀ (Machine.execCtxDestroy c s) := h.cmdCtxDestroy.next

theorem Keeps.execStreamOpen {c : CmdSlot} (h : Keeps s₀ s) : Next s₀ (Machine.execStreamOpen c s) := h.cmdStreamOpen.next

theorem Keeps.execStreamClose {c : CmdSlot} (h : Keeps s₀ s) : Next s₀ (Machine.execStreamClose c s) := h.cmdStreamClose.next

theorem Keeps.execStreamReset {c : CmdSlot} (h : Keeps s₀ s) : Next s₀ (Machine.execStreamReset c s) := h.cmdStreamReset.next

theorem Keeps.execStreamPark {c : CmdSlot} (h : Keeps s₀ s) : Next s₀ (Machine.execStreamPark c s) := h.parkCommand.next

theorem Keeps.execStreamUnpark {c : CmdSlot} (h : Keeps s₀ s) : Next s₀ (Machine.execStreamUnpark c s) := h.parkCommand.next

theorem Keeps.execPatternWrite {c : CmdSlot} {f : Fetched} (h : Keeps s₀ s) : Next s₀ (Machine.execPatternWrite c f s) :=
  h.cmdPatternWrite.next

theorem Keeps.execPatternSwitch {c : CmdSlot} (h : Keeps s₀ s) : Next s₀ (Machine.execPatternSwitch c s) :=
  h.cmdPatternSwitch.next

theorem Keeps.execDump {c : CmdSlot} (h : Keeps s₀ s) : Next s₀ (Machine.execDump c s) := h.cmdDump.next

theorem Keeps.runCommand {op : Nat} {c : CmdSlot} {g : Fetched} (h : Keeps s₀ s) : Keeps s₀ (s.runCommand op c g) := by
  unfold State.runCommand
  split
  · exact h.cmdNop
  · exact h.cmdRegRead
  · exact h.cmdRegWrite
  · exact h.cmdQueueCreate
  · exact h.cmdQueueDestroy
  · exact h.cmdImageLoad
  · exact h.cmdTableLoad
  · exact h.cmdCtxCreate
  · exact h.cmdCtxStart
  · exact h.cmdCtxStop
  · exact h.cmdCtxQuench
  · exact h.cmdCtxDestroy
  · exact h.cmdStreamOpen
  · exact h.cmdStreamClose
  · exact h.cmdStreamReset
  · exact h.parkCommand
  · exact h.parkCommand
  · exact h.cmdPatternWrite
  · exact h.cmdPatternSwitch
  · exact h.cmdDump
  · exact h.command fun h => h.finish

theorem Keeps.execCommandFetch {q : QueueId} {f g : Fetched} (h : Keeps s₀ s) : Next s₀ (Machine.execCommandFetch q f g s) := by
  unfold Machine.execCommandFetch
  extract_lets _ _ s₁
  have h₁ : Keeps s₀ s₁ := h.frame rfl
  split
  · exact h.next
  · split
    next _ _ _ heq =>
      have h₂ := h₁.fetchBytes.of_eq₃ heq
      exact .ite h₂.modQueue.runCommand.next h₁.next
    next _ _ _ _ _ heq =>
      have h₃ := h₁.fetchBytes.of_eq₃ heq
      exact h₃.next

/-! ### Machine/Reset.lean -/

theorem Keeps.chipLinkReset (h : Keeps s₀ s) : Keeps s₀ s.chipLinkReset :=
  h.foldl fun _ _ h => Keeps.setLink (Keeps.ite h.control.control.control h)

theorem Keeps.abandonAll (h : Keeps s₀ s) : Keeps s₀ s.abandonAll := h.foldl fun _ _ h => h.abandonTag

theorem Keeps.gradeReset (h : Keeps s₀ s) : Keeps s₀ s.gradeReset := by
  unfold State.gradeReset
  exact .ite h.setFld h

theorem Keeps.warmState (h : Keeps s₀ s) : Keeps s₀ s.warmState := by
  refine h.mems rfl rfl fun w => ?_
  simp only [State.memWf, Memory.wf, Bool.and_eq_true] at w ⊢
  exact ⟨⟨⟨⟨w.1.1.1.1, rfl⟩, w.1.1.2⟩, rfl⟩, rfl⟩

theorem Keeps.chipReset {source : Nat} (h : Keeps s₀ s) : Keeps s₀ (s.chipReset source) := by
  unfold State.chipReset
  exact .ite (Keeps.romStart (Keeps.logEvent (Keeps.count (Keeps.setReg (Keeps.foldl (Keeps.gradeReset (Keeps.warmState
      (Keeps.visitSets (Keeps.abandonAll (Keeps.chipLinkReset (Keeps.ite h.autoDump h)))))) fun _ _ h => h.domainUp)))))
      (Keeps.logEvent (Keeps.count (Keeps.setReg (Keeps.foldl (Keeps.gradeReset (Keeps.warmState (Keeps.visitSets
      (Keeps.abandonAll (Keeps.chipLinkReset (Keeps.ite h.autoDump h)))))) fun _ _ h => h.domainUp))))

theorem Keeps.execChipWarmReset {source : Fin 4} (h : Keeps s₀ s) : Next s₀ (Machine.execChipWarmReset source s) := by
  unfold Machine.execChipWarmReset
  exact .ite h.chipReset.next h.next

theorem Keeps.execWresetFall (h : Keeps s₀ s) : Next s₀ (Machine.execWresetFall s) := by
  unfold Machine.execWresetFall
  exact .ite (Keeps.next (Keeps.chipReset (h.frame rfl))) h.next

theorem Keeps.execWresetRise (h : Keeps s₀ s) : Next s₀ (Machine.execWresetRise s) := by
  unfold Machine.execWresetRise
  exact .ite (Keeps.next (Keeps.romStart (h.frame rfl))) h.next

theorem Keeps.powerOn (h : Keeps s₀ s) : Keeps s₀ s.powerOn := Keeps.romStart (Keeps.setReg (Keeps.gradeReset (h.frame rfl)))

theorem Keeps.execPoresetRise {bootSrc : BitVec 2} {bridgeEn : Bool} {o : RomObs} (h : Keeps s₀ s) :
    Next s₀ (Machine.execPoresetRise bootSrc bridgeEn o s) := by
  unfold Machine.execPoresetRise
  exact .ite h.next (.ite (Keeps.next (Keeps.powerOn (h.frame rfl))) (Keeps.next (h.frame rfl)))

theorem Keeps.execPwrgdRise (h : Keeps s₀ s) : Next s₀ (Machine.execPwrgdRise s) := by
  unfold Machine.execPwrgdRise
  exact .ite (Keeps.next (Keeps.powerOn (h.frame rfl))) (Keeps.next (h.frame rfl))

theorem Keeps.execPoresetFall (h : Keeps s₀ s) : Next s₀ (Machine.execPoresetFall s) := by
  unfold Machine.execPoresetFall
  exact Keeps.next ⟨h.pending, h.fuses, fun _ => rfl⟩

theorem Keeps.execSupplyFault {e : SupplyEvent} (h : Keeps s₀ s) : Next s₀ (Machine.execSupplyFault e s) := by
  unfold Machine.execSupplyFault
  extract_lets _ _ s₁
  have h₁ : Keeps s₀ s₁ := h.frame rfl
  split
  · split
    · exact .ite h.raiseMech.next h.next
  · exact .ite h₁.raiseMech.next h₁.next

/-! ### Machine/Words.lean -/

theorem Keeps.execMma {c : CoreId} {w : TileWord} (h : Keeps s₀ s) : Next s₀ (Machine.execMma c w s) := h.issueTile.next

theorem Keeps.execMout {c : CoreId} {w : TileWord} (h : Keeps s₀ s) : Next s₀ (Machine.execMout c w s) := h.issueTile.next

theorem Keeps.execTload {c : CoreId} {w : TileWord} (h : Keeps s₀ s) : Next s₀ (Machine.execTload c w s) := h.issueTile.next

theorem Keeps.execTstore {c : CoreId} {w : TileWord} (h : Keeps s₀ s) : Next s₀ (Machine.execTstore c w s) := h.issueTile.next

theorem Keeps.execMcopy {c : CoreId} {w : TileWord} (h : Keeps s₀ s) : Next s₀ (Machine.execMcopy c w s) := h.issueTile.next

theorem Keeps.execSemsig {c : CoreId} {w : TileWord} (h : Keeps s₀ s) : Next s₀ (Machine.execSemsig c w s) := h.issueTile.next

theorem Keeps.execSemwait {c : CoreId} {w : TileWord} (h : Keeps s₀ s) : Next s₀ (Machine.execSemwait c w s) := h.issueTile.next

theorem Keeps.execMatom {c : CoreId} {w : TileWord} (h : Keeps s₀ s) : Next s₀ (Machine.execMatom c w s) := h.issueTile.next

theorem Keeps.execMfence {c : CoreId} {w : TileWord} (h : Keeps s₀ s) : Next s₀ (Machine.execMfence c w s) := h.issueTile.next

theorem Keeps.execVadd {c : CoreId} {w : TileWord} (h : Keeps s₀ s) : Next s₀ (Machine.execVadd c w s) := h.issueTile.next

theorem Keeps.execVsub {c : CoreId} {w : TileWord} (h : Keeps s₀ s) : Next s₀ (Machine.execVsub c w s) := h.issueTile.next

theorem Keeps.execVmul {c : CoreId} {w : TileWord} (h : Keeps s₀ s) : Next s₀ (Machine.execVmul c w s) := h.issueTile.next

theorem Keeps.execVfma {c : CoreId} {w : TileWord} (h : Keeps s₀ s) : Next s₀ (Machine.execVfma c w s) := h.issueTile.next

theorem Keeps.execVmax {c : CoreId} {w : TileWord} (h : Keeps s₀ s) : Next s₀ (Machine.execVmax c w s) := h.issueTile.next

theorem Keeps.execVmin {c : CoreId} {w : TileWord} (h : Keeps s₀ s) : Next s₀ (Machine.execVmin c w s) := h.issueTile.next

theorem Keeps.execVcmp {c : CoreId} {w : TileWord} (h : Keeps s₀ s) : Next s₀ (Machine.execVcmp c w s) := h.issueTile.next

theorem Keeps.execVmov {c : CoreId} {w : TileWord} (h : Keeps s₀ s) : Next s₀ (Machine.execVmov c w s) := h.issueTile.next

theorem Keeps.execVcvt {c : CoreId} {w : TileWord} (h : Keeps s₀ s) : Next s₀ (Machine.execVcvt c w s) := h.issueTile.next

theorem Keeps.execVfun {c : CoreId} {w : TileWord} (h : Keeps s₀ s) : Next s₀ (Machine.execVfun c w s) := h.issueTile.next

theorem Keeps.execVperm {c : CoreId} {w : TileWord} (h : Keeps s₀ s) : Next s₀ (Machine.execVperm c w s) := h.issueTile.next

theorem Keeps.execVshuf {c : CoreId} {w : TileWord} (h : Keeps s₀ s) : Next s₀ (Machine.execVshuf c w s) := h.issueTile.next

theorem Keeps.execVpack {c : CoreId} {w : TileWord} (h : Keeps s₀ s) : Next s₀ (Machine.execVpack c w s) := h.issueTile.next

theorem Keeps.execVunpack {c : CoreId} {w : TileWord} (h : Keeps s₀ s) : Next s₀ (Machine.execVunpack c w s) := h.issueTile.next

theorem Keeps.execVred {c : CoreId} {w : TileWord} (h : Keeps s₀ s) : Next s₀ (Machine.execVred c w s) := h.issueTile.next

theorem Keeps.execVsum {c : CoreId} {w : TileWord} (h : Keeps s₀ s) : Next s₀ (Machine.execVsum c w s) := h.issueTile.next

theorem Keeps.execVsmax {c : CoreId} {w : TileWord} (h : Keeps s₀ s) : Next s₀ (Machine.execVsmax c w s) := h.issueTile.next

theorem Keeps.execVmskSet {c : CoreId} {w : TileWord} (h : Keeps s₀ s) : Next s₀ (Machine.execVmskSet c w s) := h.issueTile.next

theorem Keeps.execVmskAnd {c : CoreId} {w : TileWord} (h : Keeps s₀ s) : Next s₀ (Machine.execVmskAnd c w s) := h.issueTile.next

theorem Keeps.execVmskOr {c : CoreId} {w : TileWord} (h : Keeps s₀ s) : Next s₀ (Machine.execVmskOr c w s) := h.issueTile.next

theorem Keeps.execVmskXor {c : CoreId} {w : TileWord} (h : Keeps s₀ s) : Next s₀ (Machine.execVmskXor c w s) := h.issueTile.next

theorem Keeps.execVmskAndn {c : CoreId} {w : TileWord} (h : Keeps s₀ s) :
    Next s₀ (Machine.execVmskAndn c w s) := h.issueTile.next

theorem Keeps.execVmskNot {c : CoreId} {w : TileWord} (h : Keeps s₀ s) : Next s₀ (Machine.execVmskNot c w s) := h.issueTile.next

theorem Keeps.execVmskFirst {c : CoreId} {w : TileWord} (h : Keeps s₀ s) : Next s₀ (Machine.execVmskFirst c w s) :=
  h.issueTile.next

theorem Keeps.execScan {c : CoreId} {w : TileWord} {ecc : List Ecc} (h : Keeps s₀ s) : Next s₀ (Machine.execScan c w ecc s) :=
  h.issueTile.next

theorem Keeps.execSshift {c : CoreId} {w : TileWord} {ecc : List Ecc} (h : Keeps s₀ s) :
    Next s₀ (Machine.execSshift c w ecc s) :=
  h.issueTile.next

theorem Keeps.execShsave {c : CoreId} {w : TileWord} {ecc : List Ecc} (h : Keeps s₀ s) :
    Next s₀ (Machine.execShsave c w ecc s) :=
  h.issueTile.next

theorem Keeps.execSpzero {c : CoreId} {w : TileWord} {ecc : List Ecc} (h : Keeps s₀ s) :
    Next s₀ (Machine.execSpzero c w ecc s) :=
  h.issueTile.next

theorem Keeps.execSpload {c : CoreId} {w : TileWord} {ecc : List Ecc} (h : Keeps s₀ s) :
    Next s₀ (Machine.execSpload c w ecc s) :=
  h.issueTile.next

theorem Keeps.execSpstore {c : CoreId} {w : TileWord} {ecc : List Ecc} (h : Keeps s₀ s) :
    Next s₀ (Machine.execSpstore c w ecc s) :=
  h.issueTile.next

/-! ### Machine/Tick.lean -/

theorem Keeps.writeTrace (h : Keeps s₀ s) : Keeps s₀ s.writeTrace := Keeps.foldl (h.frame rfl) fun _ _ h => h.writeSpan

theorem Keeps.tollFalls (h : Keeps s₀ s) : Keeps s₀ s.tollFalls := by
  unfold State.tollFalls
  exact .ite (h.frame rfl) h

theorem Keeps.tick (h : Keeps s₀ s) : Keeps s₀ s.tick := by
  unfold State.tick
  exact .ite h (Keeps.foldl (Keeps.tollFalls (Keeps.writeTrace (h.tbCycle.sendAllDue.passStep.cePump.foldl fun _ _ h =>
      h.portCycle))) fun _ _ h => h.returnHere.settle.meetIllegal)

/-- Every command answers a next state, and keeps what every operation keeps. -/
theorem Keeps.exec (c : Instr) (h : Keeps s₀ s) : Next s₀ (Machine.exec c s) := by
  cases c with
  | add => exact h.execAdd
  | sub => exact h.execSub
  | and => exact h.execAnd
  | or => exact h.execOr
  | xor => exact h.execXor
  | shl => exact h.execShl
  | shr => exact h.execShr
  | sra => exact h.execSra
  | mul => exact h.execMul
  | slt => exact h.execSlt
  | addi => exact h.execAddi
  | li => exact h.execLi
  | ld => exact h.execLd
  | st => exact h.execSt
  | beq => exact h.execBeq
  | bne => exact h.execBne
  | blt => exact h.execBlt
  | bge => exact h.execBge
  | bltu => exact h.execBltu
  | bgeu => exact h.execBgeu
  | jal => exact h.execJal
  | jalr => exact h.execJalr
  | sumrd => exact h.execSumrd
  | wlread => exact h.execWlread
  | beatwait => exact h.execBeatwait
  | tokwait => exact h.execTokwait
  | ppoint => exact h.execPpoint
  | endStage => exact h.execEndStage
  | nop => exact h.execNop
  | brk => exact h.execBrk
  | mvfail => exact h.execMvfail
  | stlb => exact h.execStlb
  | strp => exact h.execStrp
  | reheatDecision => exact h.execReheatDecision
  | strd => exact h.execStrd
  | mma => exact h.execMma
  | mout => exact h.execMout
  | wordComplete => exact h.execWordComplete
  | tload => exact h.execTload
  | tstore => exact h.execTstore
  | mcopy => exact h.execMcopy
  | semsig => exact h.execSemsig
  | semwait => exact h.execSemwait
  | matom => exact h.execMatom
  | mfence => exact h.execMfence
  | transactionReply => exact h.execTransactionReply
  | transactionTimeout => exact h.execTransactionTimeout
  | vadd => exact h.execVadd
  | vsub => exact h.execVsub
  | vmul => exact h.execVmul
  | vfma => exact h.execVfma
  | vmax => exact h.execVmax
  | vmin => exact h.execVmin
  | vcmp => exact h.execVcmp
  | vmov => exact h.execVmov
  | vcvt => exact h.execVcvt
  | vfun => exact h.execVfun
  | vperm => exact h.execVperm
  | vshuf => exact h.execVshuf
  | vpack => exact h.execVpack
  | vunpack => exact h.execVunpack
  | vred => exact h.execVred
  | vsum => exact h.execVsum
  | vsmax => exact h.execVsmax
  | vmskSet => exact h.execVmskSet
  | vmskAnd => exact h.execVmskAnd
  | vmskOr => exact h.execVmskOr
  | vmskXor => exact h.execVmskXor
  | vmskAndn => exact h.execVmskAndn
  | vmskNot => exact h.execVmskNot
  | vmskFirst => exact h.execVmskFirst
  | scan => exact h.execScan
  | sshift => exact h.execSshift
  | shsave => exact h.execShsave
  | spzero => exact h.execSpzero
  | spload => exact h.execSpload
  | spstore => exact h.execSpstore
  | mirroredReadHoldRelease => exact h.execMirroredReadHoldRelease
  | stateDebugRead => exact h.execStateDebugRead
  | preemptionRequest => exact h.execPreemptionRequest
  | beSliceExpiry => exact h.execBeSliceExpiry
  | atomWaitExpiry => exact h.execAtomWaitExpiry
  | quench => exact h.execQuench
  | barBoundary => exact h.execBarBoundary
  | queueOutputCommit => exact h.execQueueOutputCommit
  | mirrorExport => exact h.execMirrorExport
  | parkRecordWrite => exact h.execParkRecordWrite
  | unparkRun => exact h.execUnparkRun
  | opPointChange => exact h.execOpPointChange
  | stageStartBeat => exact h.execStageStartBeat
  | cutoffBeat => exact h.execCutoffBeat
  | workListReady => exact h.execWorkListReady
  | statBeat => exact h.execStatBeat
  | swapBeat => exact h.execSwapBeat
  | mirrorBeat => exact h.execMirrorBeat
  | patternStart => exact h.execPatternStart
  | patternStop => exact h.execPatternStop
  | ptCtrlRun src run => exact Keeps.execPtCtrlRun (_src := src) h
  | switchReq => exact h.execSwitchReq
  | ptEntryWrite => exact h.execPtEntryWrite
  | ptEntrySelWrite src v => exact Keeps.execPtEntrySelWrite (_src := src) h
  | tbSet => exact h.execTbSet
  | tbHoldLimitExpiry => exact h.execTbHoldLimitExpiry
  | angTooth => exact h.execAngTooth
  | angIndex => exact h.execAngIndex
  | angTimeout => exact h.execAngTimeout
  | angHsCommit src a => exact Keeps.execAngHsCommit (_src := src) h
  | angSampleApply => exact h.execAngSampleApply
  | portEnable => exact h.execPortEnable
  | portClockStart => exact h.execPortClockStart
  | portOn => exact h.execPortOn
  | portDisable src p => exact Keeps.execPortDisable (_src := src) h
  | portStopDone => exact h.execPortStopDone
  | portBlockReset src p => exact Keeps.execPortBlockReset (_src := src) h
  | blockLand => exact h.execBlockLand
  | slotTake => exact h.execSlotTake
  | slotReadyMark => exact h.execSlotReadyMark
  | clkLoss => exact h.execClkLoss
  | clkReturn => exact h.execClkReturn
  | rateWindowEnd => exact h.execRateWindowEnd
  | gateTimeout => exact h.execGateTimeout
  | lineStuck g line => exact Keeps.execLineStuck (_line := line) h
  | modulatorReset => exact h.execModulatorReset
  | apMapApply => exact h.execApMapApply
  | standbyApply => exact h.execStandbyApply
  | ringShapeValid => exact h.execRingShapeValid
  | apllLock => exact h.execApllLock
  | apllLockLost => exact h.execApllLockLost
  | asrcLock => exact h.execAsrcLock
  | asrcOutOfRange => exact h.execAsrcOutOfRange
  | directPathEnable => exact h.execDirectPathEnable
  | directPathDisable src => exact Keeps.execDirectPathDisable (_src := src) h
  | directPathBlockReset src => exact Keeps.execDirectPathBlockReset (_src := src) h
  | pathFrame => exact h.execPathFrame
  | resyncDone => exact h.execResyncDone
  | dpLoadGo src => exact Keeps.execDpLoadGo (_src := src) h
  | loadListDone => exact h.execLoadListDone
  | dramAccess => exact h.execDramAccess
  | patrolScrub => exact h.execPatrolScrub
  | refreshRateChange => exact h.execRefreshRateChange
  | dramRetrain => exact h.execDramRetrain
  | dramTrainingDone => exact h.execDramTrainingDone
  | cacheAccess => exact h.execCacheAccess
  | caMaint => exact h.execCaMaint
  | cachePassDone => exact h.execCachePassDone
  | prEnable => exact h.execPrEnable
  | prDisable => exact h.execPrDisable
  | ceJobGo src => exact Keeps.execCeJobGo (_src := src) h
  | blockCode => exact h.execBlockCode
  | ceJobDone => exact h.execCeJobDone
  | linkEnable => exact h.execLinkEnable
  | linkDetectDone => exact h.execLinkDetectDone
  | linkTrainDone => exact h.execLinkTrainDone
  | linkAlignDone => exact h.execLinkAlignDone
  | exchange => exact h.execExchange
  | exchangeResend => exact h.execExchangeResend
  | keyOffer => exact h.execKeyOffer
  | keyConfirm => exact h.execKeyConfirm
  | keyingTimeout => exact h.execKeyingTimeout
  | linkDown => exact h.execLinkDown
  | lockLossTimeout => exact h.execLockLossTimeout
  | linkRestart => exact h.execLinkRestart
  | dataFlit => exact h.execDataFlit
  | nullFlit => exact h.execNullFlit
  | nak => exact h.execNak
  | linkReset => exact h.execLinkReset
  | replayTimeout => exact h.execReplayTimeout
  | rekey => exact h.execRekey
  | authFail port vc p => exact Keeps.execAuthFail (_vc := vc) (_p := p) h
  | packetForward => exact h.execPacketForward
  | read => exact h.execRead
  | write => exact h.execWrite
  | atomicAdd => exact h.execAtomicAdd
  | atomicCas => exact h.execAtomicCas
  | semSignal => exact h.execSemSignal
  | semWait => exact h.execSemWait
  | semCancel => exact h.execSemCancel
  | qpush => exact h.execQpush
  | readRsp => exact h.execReadRsp
  | ack => exact h.execAck
  | atomicRsp => exact h.execAtomicRsp
  | semRsp => exact h.execSemRsp
  | sync => exact h.execSync
  | syncSend => exact h.execSyncSend
  | pdelayPeriod => exact h.execPdelayPeriod
  | pdelayReq => exact h.execPdelayReq
  | pdelayRsp => exact h.execPdelayRsp
  | mirror => exact h.execMirror
  | toll => exact h.execToll
  | mgmtRead => exact h.execMgmtRead
  | mgmtWrite => exact h.execMgmtWrite
  | mgmtRsp => exact h.execMgmtRsp
  | peerLost => exact h.execPeerLost
  | nodeDown => exact h.execNodeDown
  | nodeUp => exact h.execNodeUp
  | hostSwitch => exact h.execHostSwitch
  | enum => exact h.execEnum
  | enumDone => exact h.execEnumDone
  | fbEnumStart src v => exact Keeps.execFbEnumStart (_src := src) h
  | doorbell => exact h.execDoorbell
  | commandFetch => exact h.execCommandFetch
  | completionWrite => exact h.execCompletionWrite
  | vectorFire => exact h.execVectorFire
  | coalesceTimeout => exact h.execCoalesceTimeout
  | vecUnmask src v => exact Keeps.execVecUnmask (_src := src) h
  | cmdNop => exact h.execCmdNop
  | regRead => exact h.execRegRead
  | regWrite => exact h.execRegWrite
  | queueCreate => exact h.execQueueCreate
  | queueDestroy => exact h.execQueueDestroy
  | imageLoad => exact h.execImageLoad
  | tableLoad => exact h.execTableLoad
  | ctxCreate => exact h.execCtxCreate
  | ctxStart => exact h.execCtxStart
  | ctxStop => exact h.execCtxStop
  | ctxQuench => exact h.execCtxQuench
  | ctxDestroy => exact h.execCtxDestroy
  | streamOpen => exact h.execStreamOpen
  | streamClose => exact h.execStreamClose
  | streamReset => exact h.execStreamReset
  | streamPark => exact h.execStreamPark
  | streamUnpark => exact h.execStreamUnpark
  | patternWrite => exact h.execPatternWrite
  | patternSwitch => exact h.execPatternSwitch
  | dump => exact h.execDump
  | qmAdminEnable => exact h.execQmAdminEnable
  | mrCtrlEnable => exact h.execMrCtrlEnable
  | mrBindInWrite src words => exact Keeps.execMrBindInWrite (_src := src) h
  | mrAuditIn src v => exact Keeps.execMrAuditIn (_src := src) h
  | tollSend => exact h.execTollSend
  | tollInPulse => exact h.execTollInPulse
  | tollWindowEnd => exact h.execTollWindowEnd
  | takeoverDrive => exact h.execTakeoverDrive
  | e2eCheck => exact h.execE2eCheck
  | configCompare => exact h.execConfigCompare
  | lftCycle => exact h.execLftCycle
  | mechanismRaise => exact h.execMechanismRaise
  | safeStateEntry => exact h.execSafeStateEntry
  | sfArm => exact h.execSfArm
  | hangExamine => exact h.execHangExamine
  | engineReset => exact h.execEngineReset
  | partitionReset => exact h.execPartitionReset
  | chipWarmReset => exact h.execChipWarmReset
  | resetEscalation => exact h.execResetEscalation
  | hgResetReqEngine => exact h.execHgResetReqEngine
  | hgResetReqPartition => exact h.execHgResetReqPartition
  | hgResetReqChip => exact h.execHgResetReqChip
  | replayStart => exact h.execReplayStart
  | dumpAccessTimeout => exact h.execDumpAccessTimeout
  | dumpDone => exact h.execDumpDone
  | poresetRise => exact h.execPoresetRise
  | wresetFall => exact h.execWresetFall
  | supplyFault => exact h.execSupplyFault
  | flashReadDone => exact h.execFlashReadDone
  | firmwareReady => exact h.execFirmwareReady
  | secBootGo => exact h.execSecBootGo
  | fuseRevoke => exact h.execFuseRevoke
  | fuseProgram => exact h.execFuseProgram
  | keyDerive => exact h.execKeyDerive
  | keyRandom => exact h.execKeyRandom
  | keyClear => exact h.execKeyClear
  | secDbgGo => exact h.execSecDbgGo
  | secDbgRelock => exact h.execSecDbgRelock
  | secAttGo => exact h.execSecAttGo
  | trngHealthFail => exact h.execTrngHealthFail
  | domainUp src d => exact Keeps.execDomainUp (_src := src) h
  | domainDown => exact h.execDomainDown
  | domainTransitionDone => exact h.execDomainTransitionDone
  | powerEstimate => exact h.execPowerEstimate
  | sensorUpdate => exact h.execSensorUpdate
  | throttleStep => exact h.execThrottleStep
  | blockEnable => exact h.execBlockEnable
  | linkBlockReset src port => exact Keeps.execLinkBlockReset (_src := src) h
  | pgLock src page => exact Keeps.execPgLock (_src := src) h
  | lockReq src page => exact Keeps.execLockReq (_src := src) h
  | pgIrqForce src page v => exact Keeps.execPgIrqForce (_src := src) h
  | statCtrlLayerClear => exact h.execStatCtrlLayerClear
  | statCtrlTileClear => exact h.execStatCtrlTileClear
  | regionShapeValid => exact h.execRegionShapeValid
  | rcRead src page reg => exact Keeps.execRcRead (_src := src) h
  | registerWrite => exact h.execRegisterWrite
  | linkStateFail => exact h.execLinkStateFail
  | semWaitReissue => exact h.execSemWaitReissue
  | poresetFall => exact h.execPoresetFall
  | pwrgdRise => exact h.execPwrgdRise
  | wresetRise => exact h.execWresetRise
  | trngHealthRecovery => exact h.execTrngHealthRecovery
  | mclkInReturn => exact h.execMclkInReturn
  | linkControllerRelease => exact h.execLinkControllerRelease
  | checkpointRestoreDone => exact h.execCheckpointRestoreDone
  | dbgacc => exact h.execDbgacc

end Sys2Proof.Machine

/-! ### What no command breaks -/

namespace Sys2Proof.Claims

open Machine

/-- A command keeps the queue and the fuses in order and the memories canonical. -/
theorem exec_keeps (s : State) (c : Instr) : Next s (exec c s) := (Keeps.refl s).exec c

/-- What a step keeps of its state with the front command taken off. -/
theorem step_keeps (s : State) : ∃ t, step s = .next t ∧ Keeps { s with pending := s.pending.tail } t := by
  obtain ⟨r, rfl⟩ : ∃ r, r = s.pending := ⟨_, rfl⟩
  unfold step
  split
  next e => exact ⟨s.tick, rfl, Keeps.tick ⟨e.trans (by rw [e]; rfl), .refl _, id⟩⟩
  next c r e => rw [e]; exact exec_keeps { s with pending := r } c

theorem Inv.of_keeps {s t : State} (h : Inv s) (k : Keeps s t) : Inv t := ⟨k.memWf h.1, k.fuses.legal h.2⟩

/-- Settles O60: a step is a command or a tick, and both keep the memories canonical and only advance the fuses. -/
theorem everyStepKeepsInvariant : Obligations.EveryStepKeepsInvariant := by
  intro s t h e
  obtain ⟨u, hu, k⟩ := step_keeps s
  obtain rfl : t = u := Host.Outcome.next.inj (e.symm.trans hu)
  exact Inv.of_keeps (s := { s with pending := s.pending.tail }) h k

/-- Settles O50: a command's effect on the fuse array is an advance. -/
theorem fusesOnlyAdvance : Obligations.FusesOnlyAdvance := by
  intro s t c e
  obtain ⟨u, hu, k⟩ := exec_keeps s c
  obtain rfl : t = u := Host.Outcome.next.inj (e.symm.trans hu)
  exact ⟨k.fuses.revoked, k.fuses.fwSvn, k.fuses.imgSvn, k.fuses.lifecycle, k.fuses.uds, k.fuses.serial⟩

/-- Settles O58: a command answers a next state with the queue it found. -/
theorem queueIsServedInOrder : Obligations.QueueIsServedInOrder := by
  refine ⟨fun s c => ?_, fun s c r e => ?_⟩
  · obtain ⟨t, ht, k⟩ := exec_keeps s c
    exact ⟨t, ht, k.pending⟩
  · obtain ⟨t, ht, k⟩ := step_keeps s
    exact ⟨t, ht, k.pending.trans (by rw [e]; rfl)⟩

end Sys2Proof.Claims

/-! ### Semaphores: who waits and how often (R313) -/

namespace Sys2Proof.Machine

variable {s t u : State}

/-- The lines of the semaphores and their counts are the same in two states. -/
def SameLines (s t : State) : Prop := t.fab.waits = s.fab.waits ∧ t.fab.sems = s.fab.sems

theorem SameLines.trans (h : SameLines s t) (k : SameLines t u) : SameLines s u := ⟨k.1.trans h.1, k.2.trans h.2⟩

theorem SameLines.sem (h : SameLines s t) (n : Nat) : t.sem n = s.sem n := by rw [State.sem, h.2]; rfl

theorem sameLines_send (vc : Nat) (p : Packet) : SameLines s (s.send vc p) := by
  unfold State.send; extract_lets; split <;> exact ⟨rfl, rfl⟩

theorem sameLines_issueRequest (vc : Nat) (p : Packet) (t : Tag) : SameLines s (s.issueRequest vc p t) :=
  SameLines.trans (t := s.setTag _ _) ⟨rfl, rfl⟩ (sameLines_send _ _)

theorem sameLines_nextRequest : SameLines s s.nextRequest := by
  unfold State.nextRequest
  extract_lets
  split
  · split
    · exact SameLines.trans ⟨rfl, rfl⟩ (sameLines_issueRequest ..)
    · exact ⟨rfl, rfl⟩
  · exact ⟨rfl, rfl⟩

theorem sameLines_addHolder (n node ctx count : Nat) : SameLines s (s.addHolder n node ctx count) := by
  unfold State.addHolder
  split
  · exact ⟨rfl, rfl⟩
  · split <;> exact ⟨rfl, rfl⟩

theorem sameLines_localGrant (p : Packet) : SameLines s (s.localGrant p) := by
  unfold State.localGrant
  split
  · split
    · exact SameLines.trans ⟨rfl, rfl⟩ sameLines_nextRequest
    · exact ⟨rfl, rfl⟩
  · exact ⟨rfl, rfl⟩

/-- What granting a wait does to the lines: nothing; and to the counts: its own semaphore's is taken down. -/
theorem sameLines_grant (w : SemWaiter) : SameLines (s.setSem w.sem (s.sem w.sem - BitVec.ofNat 32 w.count)) (s.grant w) := by
  unfold State.grant
  extract_lets s₁ s₂
  have h : SameLines s₁ s₂ := by
    unfold s₂
    split
    · exact sameLines_addHolder ..
    · exact ⟨rfl, rfl⟩
  split
  · exact h.trans (sameLines_localGrant _)
  · exact h.trans (sameLines_send _ _)

@[simp] theorem waits_grant (w : SemWaiter) : (s.grant w).fab.waits = s.fab.waits := (sameLines_grant w).1

theorem sem_grant_other {w : SemWaiter} {n : Nat} (h : n ≠ w.sem) : (s.grant w).sem n = s.sem n := by
  rw [(sameLines_grant w).sem]
  exact SMap.get_set_other _ _ _ _ _ _ h

/-! ### Grants in the order of arrival -/

/-- The lines while grants are made: `kept` are the waits passed over, each on a semaphore in `short`; the count of each semaphore in
`short` is too small for the first wait kept on it; `ws` are still to be looked at. -/
structure Granting (s : State) (kept ws : List SemWaiter) (short : List Nat) : Prop where
  waits : s.fab.waits = kept ++ ws
  mem_short : ∀ v ∈ kept, v.sem ∈ short
  head_short : ∀ n ∈ short, ∃ v, (kept.find? fun w => w.sem == n) = some v ∧ (s.sem n).toNat < v.count

variable {kept ws : List SemWaiter} {short : List Nat} {w : SemWaiter}

/-- A wait behind one that is not allowed is kept. -/
theorem Granting.keep (h : Granting s kept (w :: ws) short) (hw : w.sem ∈ short) : Granting s (kept ++ [w]) ws short := by
  refine ⟨by simpa using h.waits, fun v hv => ?_, fun n hn => ?_⟩
  · rcases List.mem_append.1 hv with hv | hv
    · exact h.mem_short v hv
    · rw [List.mem_singleton.1 hv]; exact hw
  · obtain ⟨v, hf, hv⟩ := h.head_short n hn
    exact ⟨v, by rw [List.find?_append, hf]; rfl, hv⟩

/-- A wait at the head of its line that is not allowed is kept, and blocks its line. -/
theorem Granting.block (h : Granting s kept (w :: ws) short) (hw : w.sem ∉ short) (hc : ¬ w.count ≤ (s.sem w.sem).toNat) :
    Granting s (kept ++ [w]) ws (w.sem :: short) := by
  refine ⟨by simpa using h.waits, fun v hv => ?_, fun n hn => ?_⟩
  · rcases List.mem_append.1 hv with hv | hv
    · exact List.mem_cons_of_mem _ (h.mem_short v hv)
    · rw [List.mem_singleton.1 hv]; exact List.mem_cons_self
  · rcases List.mem_cons.1 hn with rfl | hn
    · have hnone : (kept.find? fun v => v.sem == w.sem) = none :=
        List.find?_eq_none.2 fun v hv e => hw (eq_of_beq e ▸ h.mem_short v hv)
      exact ⟨w, by rw [List.find?_append, hnone]; simp, by omega⟩
    · obtain ⟨v, hf, hv⟩ := h.head_short n hn
      exact ⟨v, by rw [List.find?_append, hf]; rfl, hv⟩

/-- A wait at the head of its line that is allowed is granted, and leaves. -/
theorem Granting.grant (h : Granting s kept (w :: ws) short) (hw : w.sem ∉ short) :
    Granting (State.grant { s with fab := { s.fab with waits := s.fab.waits.erase w } } w) kept ws short := by
  have hk : ∀ v ∈ kept, v.sem ≠ w.sem := fun v hv e => hw (e ▸ h.mem_short v hv)
  refine ⟨?_, h.mem_short, fun n hn => ?_⟩
  · rw [waits_grant, h.waits, List.erase_append_right _ fun hm => hk w hm rfl, List.erase_cons_head]
  · rw [sem_grant_other fun e => hw (e ▸ hn)]
    exact h.head_short n hn

/-- Looking through the waits `ws` leaves a sublist of the waits, at whose heads no wait is allowed. -/
theorem Granting.grantFrom (h : Granting s kept ws short) :
    ∃ kept' short', Granting (s.grantFrom ws short) kept' [] short' ∧ kept'.Sublist (kept ++ ws) := by
  induction ws generalizing s kept short with
  | nil => exact ⟨kept, short, h, by simp⟩
  | cons w r ih =>
    unfold State.grantFrom
    split
    next hin =>
      obtain ⟨k', b', g, hsub⟩ := ih (h.keep (by simpa using hin))
      exact ⟨k', b', g, by simpa using hsub⟩
    next hout =>
      have hout : w.sem ∉ short := by simpa using hout
      split
      · obtain ⟨k', b', g, hsub⟩ := ih (h.grant hout)
        exact ⟨k', b', g, hsub.trans (by simp)⟩
      next hc =>
        obtain ⟨k', b', g, hsub⟩ := ih (h.block hout hc)
        exact ⟨k', b', g, by simpa using hsub⟩

theorem grantAll_waits (s : State) : s.grantAll.fab.waits.Sublist s.fab.waits ∧
    ∀ n w, (s.grantAll.fab.waits.find? fun w => w.sem == n) = some w → (s.grantAll.sem n).toNat < w.count := by
  obtain ⟨kept, short, g, hsub⟩ := Granting.grantFrom (s := s) (kept := []) (ws := s.fab.waits) (short := [])
    ⟨rfl, by simp, by simp⟩
  have hw : s.grantAll.fab.waits = kept := g.waits.trans (List.append_nil _)
  refine ⟨hw ▸ hsub, fun n w hf => ?_⟩
  rw [hw] at hf
  have hn : w.sem = n := by simpa using List.find?_some hf
  obtain ⟨v, hv, hc⟩ := g.head_short n (hn ▸ g.mem_short w (List.mem_of_find?_eq_some hf))
  obtain rfl : v = w := Option.some.inj (hv.symm.trans hf)
  exact hc

end Sys2Proof.Machine

namespace Sys2Proof.Claims

open Machine

/-- Settles O34: the waits passed over are kept in order, and the first kept on a semaphore is one its count does not allow. -/
theorem grantsKeepArrivalOrder : Obligations.GrantsKeepArrivalOrder := by
  intro s n count who t
  obtain ⟨u, ht, hu⟩ : ∃ u : State, t = u.grantAll ∧ u.fab.waits = s.fab.waits := by
    refine ⟨_, rfl, ?_⟩
    split <;> split <;> rfl
  obtain ⟨hsub, hhead⟩ := grantAll_waits u
  rw [ht]
  exact ⟨hu ▸ hsub, hhead n⟩

end Sys2Proof.Claims

/-! ### The TAP without a grant (R419, R468) -/

namespace Sys2Proof.Machine

/-- Without a granted level a debug request to anything but the SECURITY page is denied. -/
theorem debugDenied_of_no_levels {s : State} {a : Nat} (src : Nat) (h : s.sec.levels = 0)
    (ha : ∀ off, regionOf a ≠ .regs Page.security off) : s.debugDenied src a = true := by
  unfold State.debugDenied
  have hb (i : Nat) : bitOf (s.sec.levels.toNat) i = false := by simp [h, bitOf]
  split
  next page off e =>
    have hp : page ≠ Page.security := fun e' => ha off (e' ▸ e)
    simp [hp, hb]
  · simp [hb]
  · simp [hb]

end Sys2Proof.Machine

namespace Sys2Proof.Claims

open Machine

/-- Settles O53: whether the device boots, the access is for another node, or it is a debug request, it is denied. -/
theorem debugNeedsGrant : Obligations.DebugNeedsGrant := by
  intro s addr d w hl ha
  have hd : s.debugDenied 0 (localOf addr) = true := debugDenied_of_no_levels 0 hl ha
  show execDbgacc addr d w s = _
  unfold execDbgacc
  split
  · rfl
  · cases w <;> simp [State.serveWrite, State.serveRead, hd]

end Sys2Proof.Claims

/-! ### The state store's groups (R132) -/

namespace Sys2Proof.Machine

theorem memGet_congr {m m' : SMap Byte} {a n : Nat} (h : ∀ i < n, SMap.get m' (a + i) 0 = SMap.get m (a + i) 0) :
    memGet m' a n = memGet m a n :=
  List.map_congr_left fun i hi => h i (List.mem_range.1 hi)

theorem memGet_memPut_same (m : SMap Byte) (a n : Nat) (l : List Byte) (h : l.length = n) : memGet (memPut m a l) a n = l :=
  h ▸ memGet_memPut m a l

/-- A range that a write does not meet reads as before. -/
theorem memGet_memPut_outside (m : SMap Byte) (a b n : Nat) (l : List Byte) (h : b + n ≤ a ∨ a + l.length ≤ b) :
    memGet (memPut m a l) b n = memGet m b n :=
  memGet_congr fun i hi => memPut_get_outside _ _ _ _ (by omega)

theorem bytesAt_replicate_zero (n m : Nat) : bytesAt (List.replicate m (0 : Byte)) 0 n = List.replicate n 0 := by
  apply List.ext_getElem <;> simp [bytesAt, List.getD_eq_getElem?_getD, List.getElem?_replicate]
  intro i _
  split <;> rfl

/-- A group of a slot reads as it was written; the slot's other groups stay. -/
theorem Core.group_putGroup (k : Core) (r : StRegion) (x g j : Nat) (codes : List Byte) (sc8 : Byte) (hg : g < r.ng) (hj : j < r.ng) :
    (k.putGroup r x g codes sc8).group r x j = if j = g then (bytesAt codes 0 32, sc8) else k.group r x j := by
  have hd (a b : Nat) (ha : a < r.ng) : r.codesAt x a + 32 ≤ r.sc8At x b := by
    simp only [StRegion.codesAt, StRegion.sc8At]; omega
  simp only [Core.group, Core.putGroup]
  split
  next e =>
    subst e
    rw [memGet_memPut_outside _ _ _ _ _ (.inl (hd j j hj)), memGet_memPut_same _ _ _ _ (by simp)]
    have := memPut_get_inside (memPut k.store (r.codesAt x j) (bytesAt codes 0 32)) (r.sc8At x j) [sc8] 0 (by simp)
    simpa using this
  next hne =>
    have hne' : r.sc8At x j ≠ r.sc8At x g := by simp only [StRegion.sc8At]; omega
    have hd' : r.codesAt x j + 32 ≤ r.codesAt x g ∨ r.codesAt x g + 32 ≤ r.codesAt x j := by simp only [StRegion.codesAt]; omega
    have h1 := hd g j hg
    rw [memGet_memPut_outside _ _ _ _ _ (.inl (hd j g hj)), memGet_memPut_outside _ _ _ _ _ (by simpa using hd'),
      memPut_get_outside _ _ _ _ (by simp; omega), memPut_get_outside _ _ _ _ (by simp; omega)]

variable (s : State) (c region x : Nat)

@[simp] theorem State.regs_keepImage : (s.keepImage c region x).regs = s.regs := by
  unfold State.keepImage; extract_lets; split <;> rfl

@[simp] theorem State.core_keepImage (j : Nat) : (s.keepImage c region x).core j = s.core j := by
  unfold State.keepImage; extract_lets; split <;> rfl

@[simp] theorem State.regs_writeGroup (g : Nat) (codes : List Byte) (sc8 : Byte) :
    (s.writeGroup c region x g codes sc8).regs = s.regs := s.regs_keepImage c region x

theorem State.region_of_regs {s t : State} (h : t.regs = s.regs) (c n : Nat) : t.region c n = s.region c n := by
  simp only [State.region, State.reg, State.fld, h]

/-- A group written to the state store is a group put into its core's. -/
@[simp] theorem State.core_writeGroup (g : Nat) (codes : List Byte) (sc8 : Byte) :
    (s.writeGroup c region x g codes sc8).core c = (s.core c).putGroup (s.region c region) x g codes sc8 := by
  simp [State.writeGroup, State.modCore]

@[simp] theorem State.core_noteShadow (j : Nat) : (s.noteShadow c region x).core j = s.core j := by
  unfold State.noteShadow; split <;> rfl

/-- The first `n` groups from `g` on read as zero once each of them is written so. -/
theorem zeroGroups (g n : Nat) (hn : g + n ≤ (s.region c region).ng) :
    let t := (List.range n).foldl (fun s i => s.writeGroup c region x (g + i) (List.replicate 32 0) 0) s
    t.regs = s.regs ∧ ∀ i < n, (t.core c).group (s.region c region) x (g + i) = (List.replicate 32 0, 0) := by
  induction n with
  | zero => simp
  | succ n ih =>
    obtain ⟨hr, hz⟩ := ih (by omega)
    rw [List.range_succ, List.foldl_append, List.foldl_cons, List.foldl_nil]
    refine ⟨by simpa using hr, fun i hi => ?_⟩
    rw [State.core_writeGroup, State.region_of_regs hr, Core.group_putGroup _ _ _ _ _ _ _ (by omega) (by omega)]
    split
    · rw [bytesAt_replicate_zero]
    · exact hz i (by omega)

end Sys2Proof.Machine

namespace Sys2Proof.Claims

open Machine

/-- Settles O9: each group is written as zeros, and no later write of the word meets it. -/
theorem portZeroesGroups : Obligations.PortZeroesGroups := by
  intro s c e hop r hr i hi
  have hr : scanGroup e + e.w.f 59 5 < (s.region c (scanRegion e)).ng := hr
  have hz := (zeroGroups s c (scanRegion e) (scanSlot e) (scanGroup e) (e.w.f 59 5 + 1) (by omega)).2 i (by omega)
  unfold State.runPort
  simp only [hop, State.core_noteShadow]
  exact hz

/-- Settles O6: each mask word puts one value into MDST. -/
theorem maskWordsWriteMask : Obligations.MaskWordsWriteMask := by
  intro s c w k a b t
  refine ⟨rfl, rfl, rfl, rfl, rfl, rfl, fun m hm hw j hj => ?_⟩
  have hmask : ((s.runVector c .vmskFirst w).core c).mask (w.f 68 3) = firstLanes (w.imm.toNat % 64) := by
    simp [State.runVector, State.putMask, State.modCore, Core.mask, Core.setMask, maskResult]
  rw [hmask, hw, firstLanes, BitVec.getLsbD_ofNat, Nat.testBit_two_pow_sub_one]
  simp [hj]

end Sys2Proof.Claims

/-! ### The tile register file (R63) -/

namespace Sys2Proof.Machine

@[simp] theorem Core.tileDefault_tilePut (k : Core) (a : Nat) (l : List Byte) (o : Nat) :
    (k.tilePut a l).tileDefault o = k.tileDefault o := by
  induction l generalizing k a with
  | nil => rfl
  | cons b r ih => rw [Core.tilePut, ih]; rfl

/-- A byte of the tile registers outside what a write covers stays. -/
theorem Core.tileByte_tilePut_outside (k : Core) (a : Nat) (l : List Byte) (o : Nat) (h : o < a ∨ a + l.length ≤ o) :
    (k.tilePut a l).tileByte o = k.tileByte o := by
  induction l generalizing k a with
  | nil => rfl
  | cons b r ih =>
    simp only [List.length_cons] at h
    rw [Core.tilePut, ih _ _ (by omega)]
    exact SMap.get_set_other _ _ _ _ _ _ (by omega)

/-- A byte of the tile registers that a write covers reads as what it wrote. -/
theorem Core.tileByte_tilePut_inside (k : Core) (a : Nat) (l : List Byte) (i : Nat) (h : i < l.length) :
    (k.tilePut a l).tileByte (a + i) = l[i] := by
  induction l generalizing k a i with
  | nil => simp at h
  | cons b r ih =>
    cases i with
    | zero =>
      rw [Core.tilePut, Core.tileByte_tilePut_outside _ _ _ _ (by omega)]
      exact SMap.get_set_same _ _ _ _
    | succ i =>
      simp only [List.length_cons] at h
      rw [Core.tilePut, show a + (i + 1) = a + 1 + i by omega, ih _ _ _ (by omega)]
      simp

theorem Core.tileBytes_tilePut_same (k : Core) (a n : Nat) (l : List Byte) (h : l.length = n) : (k.tilePut a l).tileBytes a n = l := by
  subst h
  apply List.ext_getElem
  · simp [Core.tileBytes]
  · intro i hi _
    simp only [Core.tileBytes, List.length_map, List.length_range] at hi
    simpa [Core.tileBytes] using k.tileByte_tilePut_inside a l i hi

theorem Core.tileBytes_tilePut_outside (k : Core) (a b n : Nat) (l : List Byte) (h : b + n ≤ a ∨ a + l.length ≤ b) :
    (k.tilePut a l).tileBytes b n = k.tileBytes b n :=
  List.map_congr_left fun i hi => k.tileByte_tilePut_outside a l _ (by have := List.mem_range.1 hi; omega)

/-- What one element of a list establishes, whatever came before it, and none undoes, holds at the end. -/
theorem foldl_reaches {α β : Type} {P : β → Prop} {f : β → α → β} {l : List α} {a : α} (b : β) (ha : a ∈ l) (hset : ∀ b, P (f b a))
    (hkeep : ∀ b, ∀ e ∈ l, P b → P (f b e)) : P (l.foldl f b) := by
  obtain ⟨l₁, l₂, rfl⟩ := List.append_of_mem ha
  rw [List.foldl_append, List.foldl_cons]
  exact List.foldlRecOn l₂ f (hset _) fun b hb e he => hkeep b e (by simp [he]) hb

/-! ### Element-wise words on FP32 tiles (R102) -/

/-- Where element (i, j) of the FP32 tile in TA stands. -/
def fp32At (w : TileWord) (i j : Nat) : Nat := 1024 * w.ta.toNat + 4 * (32 * i + j)

/-- The FP32 results `f i j` put into the active lanes of row `i`. -/
def putLanes (k : Core) (w : TileWord) (f : Nat → Nat → W32) (k' : Core) (i : Nat) : Core :=
  (List.range 32).foldl (fun k' j => if laneOn k w j then k'.tilePut (fp32At w i j) (leBytes 4 (f i j).toNat) else k') k'

section PutLanes

variable (k : Core) (w : TileWord) (f : Nat → Nat → W32)

/-- An active element of the rows takes its result, for no two elements share a byte. -/
theorem putLanes_reads (rows : List Nat) (k₀ : Core) {i j : Nat} (hi : i ∈ rows) (hj : j < 32) (hon : laneOn k w j = true) :
    (rows.foldl (putLanes k w f) k₀).tileBytes (fp32At w i j) 4 = leBytes 4 (f i j).toNat := by
  have hput (k' : Core) (a b : Nat) (hb : b < 32) (h : k'.tileBytes (fp32At w i j) 4 = leBytes 4 (f i j).toNat) :
      (k'.tilePut (fp32At w a b) (leBytes 4 (f a b).toNat)).tileBytes (fp32At w i j) 4 = leBytes 4 (f i j).toNat := by
    by_cases e : a = i ∧ b = j
    · obtain ⟨rfl, rfl⟩ := e
      exact Core.tileBytes_tilePut_same _ _ _ _ (leBytes_length _ _)
    · rw [Core.tileBytes_tilePut_outside _ _ _ _ _ (by simp only [fp32At, leBytes_length]; omega), h]
  refine foldl_reaches (P := fun k' => k'.tileBytes (fp32At w i j) 4 = leBytes 4 (f i j).toNat) k₀ hi (fun k' => ?_)
    fun k' a _ h => ?_
  · refine foldl_reaches (P := fun k' => k'.tileBytes (fp32At w i j) 4 = leBytes 4 (f i j).toNat) k' (List.mem_range.2 hj)
      (fun k' => ?_) fun k' b hb h => ?_
    · rw [if_pos hon]
      exact Core.tileBytes_tilePut_same _ _ _ _ (leBytes_length _ _)
    · split
      · exact hput k' i b (List.mem_range.1 hb) h
      · exact h
  · refine List.foldlRecOn (motive := fun k' : Core => k'.tileBytes (fp32At w i j) 4 = leBytes 4 (f i j).toNat) _ _ h
      fun k' h b hb => ?_
    split
    · exact hput k' a b (List.mem_range.1 hb) h
    · exact h

/-- A byte of no active element of the rows stays. -/
theorem putLanes_keeps (rows : List Nat) (k₀ : Core) {o : Nat}
    (ho : ∀ i ∈ rows, ∀ j < 32, laneOn k w j = true → o < fp32At w i j ∨ fp32At w i j + 4 ≤ o) :
    (rows.foldl (putLanes k w f) k₀).tileByte o = k₀.tileByte o := by
  refine List.foldlRecOn (motive := fun k' : Core => k'.tileByte o = k₀.tileByte o) rows _ rfl fun k' h i hi => ?_
  refine List.foldlRecOn (motive := fun k' : Core => k'.tileByte o = k₀.tileByte o) _ _ h fun k' h j hj => ?_
  split
  next hon =>
    rw [Core.tileByte_tilePut_outside _ _ _ _ (by simpa using ho i hi j (List.mem_range.1 hj) hon), h]
  · exact h

end PutLanes

section Fp32

variable {w : TileWord} (hdf : w.f 43 3 = 0) (hidle : w.b 42 = false)
include hdf

theorem vdf_fp32 : vdf w = .fp32 := by rw [vdf, hdf]; rfl

theorem putElem_fp32 (k : Core) (i j n : Nat) : k.putElem w i j n = k.tilePut (fp32At w i j) (leBytes 4 n) := by
  simp [Core.putElem, vdf_fp32 hdf, Fmt.bytes, fp32At]

include hidle

/-- A row of FP32 results is put into its active lanes. -/
theorem writeRow_fp32 (k : Core) (f : Nat → Nat → W32) (op : TileOp) (src : Core) (n i : Nat) (sc : Nat → W32) (acc : Core × Tally) :
    (writeRow op w src n i sc ((List.range 32).map fun j => if laneOn k w j then .val (f i j) else idleLane w) acc).1 =
      putLanes k w f acc.1 i := by
  have hz : ((List.range 32).map fun j => if laneOn k w j then LaneOut.val (f i j) else idleLane w).zipIdx =
      (List.range 32).map fun j => (if laneOn k w j then LaneOut.val (f i j) else .keep, j) := by
    apply List.ext_getElem <;> simp [idleLane, hidle]
  rw [writeRow, hz, List.foldl_map, putLanes, List.foldl_hom (f := Prod.fst)]
  intro acc j
  by_cases hon : laneOn k w j = true
  · simp [hon, vdf_fp32 hdf, encodeElem, putElem_fp32 hdf]
  · simp [hon]

/-- An element-wise word on FP32 tiles puts its results into the active lanes of its rows. -/
theorem core_vecMap_fp32 (s : State) (c : Nat) (op : TileOp) (f : Nat → Nat → W32) :
    (s.vecMap c op w f).core c = (vrows w).foldl (putLanes (s.core c) w f) (s.core c) := by
  have hdf' := vdf_fp32 hdf
  have hfresh : freshWord op w = false := by simp [freshWord, hdf']
  rw [State.vecMap, State.vecWrite]
  simp only [hfresh, hdf', Bool.false_eq_true, if_false, bne_self_eq_false, Bool.and_false, State.core_setCore, if_true]
  exact (List.foldl_hom (f := Prod.fst) fun acc i => (writeRow_fp32 hdf hidle ..).symm).symm

end Fp32
end Sys2Proof.Machine

namespace Sys2Proof.Claims

open Machine

/-- Settles O7: the word puts one result into each active element of its rows, from operands read before it. -/
theorem vectorArithmeticWritesElements : Obligations.VectorArithmeticWritesElements := by
  intro s c w op hop hdf _ hidle _ _ k k' result
  have hk' : k' = (vrows w).foldl (putLanes k w fun i j => result (operandA k op w i j) (operandB k op w i j)) k := by
    rcases hop with rfl | rfl | rfl | rfl | rfl <;> exact core_vecMap_fp32 hdf hidle s c _ _
  have hrows (i : Nat) : i ∈ vrows w ↔ w.f 51 5 ≤ i ∧ i ≤ w.f 51 5 + w.f 56 5 := by
    simp only [vrows, List.mem_map, List.mem_range]
    exact ⟨by rintro ⟨a, ha, rfl⟩; omega, fun h => ⟨i - w.f 51 5, by omega, by omega⟩⟩
  have hat (i j : Nat) : 1024 * w.ta.toNat + 128 * i + 4 * j = fp32At w i j := by simp only [fp32At]; omega
  refine ⟨fun i j hlo hhi hj hon => ?_, fun o _ ho => ?_⟩
  · rw [hat, hk', putLanes_reads _ _ _ _ _ ((hrows i).2 ⟨hlo, hhi⟩) hj hon, leNat_leBytes]
    exact Nat.mod_eq_of_lt (BitVec.isLt _)
  · rw [hk']
    refine putLanes_keeps _ _ _ _ _ fun i hi j hj hon => ?_
    rw [← hat]
    exact ho i j ((hrows i).1 hi).1 ((hrows i).1 hi).2 hj hon

end Sys2Proof.Claims

/-! ### Sums of an MMA (R26, R44) -/

namespace Sys2Proof.Machine

/-- The largest magnitude of a bell code's integer (R26). -/
theorem bc8Mag_le (c : Nat) : bc8Mag c ≤ 1984 := by
  unfold bc8Mag
  extract_lets k u
  have hk : k - 1 ≤ 6 := by omega
  split
  · omega
  · calc (16 + u) * 2 ^ (k - 1) ≤ 31 * 2 ^ 6 := Nat.mul_le_mul (by omega) (Nat.pow_le_pow_right (by omega) hk)
      _ = 1984 := rfl

theorem abs_bc8Int_le (b : Byte) : |bc8Int b| ≤ 1984 := by
  have := bc8Mag_le b.toNat
  unfold bc8Int
  split
  · rw [abs_neg, Nat.abs_cast]; omega
  · rw [Nat.abs_cast]; omega

/-- A sum within the accumulator is added exactly. -/
theorem Cell.addA_exact (x : Cell) (v : Int) (h : |x.acc + v| < 2 ^ 39) : (x.addA v).acc = x.acc + v := by
  rw [abs_lt] at h
  simp only [Cell.addA, clamp40]
  split
  · omega
  · split <;> omega

/-- Exact sums of terms of bounded magnitude, as long as they fit. -/
theorem foldl_addA (f : Nat → Int) (B : Int) (hf : ∀ q, |f q| ≤ B) (n : Nat) (x : Cell) (hx : x.acc = 0) (hn : n * B < 2 ^ 39) :
    ((List.range n).foldl (fun x q => x.addA (f q)) x).acc = ((List.range n).map f).sum ∧ |((List.range n).map f).sum| ≤ n * B := by
  have hB : 0 ≤ B := (abs_nonneg _).trans (hf 0)
  induction n with
  | zero => simp [hx]
  | succ n ih =>
    obtain ⟨hs, hb⟩ := ih (by push_cast at hn; linarith)
    simp only [List.range_succ, List.foldl_append, List.foldl_cons, List.foldl_nil, List.map_append, List.map_cons, List.map_nil,
      List.sum_append, List.sum_cons, List.sum_nil, add_zero]
    have hle : |((List.range n).map f).sum + f n| ≤ (n + 1 : Nat) * B := by
      push_cast
      calc _ ≤ |((List.range n).map f).sum| + |f n| := abs_add_le _ _
        _ ≤ (n + 1) * B := by have := hf n; linarith
    refine ⟨?_, hle⟩
    rw [Cell.addA_exact _ _ (by rw [hs]; exact hle.trans_lt hn), hs]

/-- What a sparse list of a function's values, without those that `p` leaves out, holds. -/
theorem get_filterMap {α : Type} (l : List Nat) (p : Nat → Prop) [DecidablePred p] (v : Nat → α) (n : Nat) (d : α) :
    SMap.get (l.filterMap fun a => if p a then none else some (a, v a)) n d = if n ∈ l ∧ ¬ p n then v n else d := by
  induction l with
  | nil => simp
  | cons a l ih =>
    by_cases hp : p a
    · rw [List.filterMap_cons_none (by simp [hp]), ih]
      by_cases e : n = a
      · subst e; simp [hp]
      · simp [e]
    · rw [List.filterMap_cons_some (by simp [hp]; rfl), SMap.get_cons, ih]
      by_cases e : n = a
      · subst e; simp [hp]
      · simp [e, Ne.symm e]

/-- The sum of a bank's cell that fits the accumulator. -/
theorem acc_setCells (b : Bank) (f : Nat → Nat → Cell) (i j : Nat) (hi : i < 32) (hj : j < 32) (h : |(f i j).acc| < 2 ^ 39) :
    (SMap.get (b.setCells f).acc (32 * i + j) 0).toInt = (f i j).acc := by
  have hd : (32 * i + j) / 32 = i ∧ (32 * i + j) % 32 = j := by omega
  rw [abs_lt] at h
  simp only [Bank.setCells, List.filterMap_map, Function.comp_def]
  rw [get_filterMap _ (fun n => (f (n / 32) (n % 32)).acc = 0) fun n => BitVec.ofInt 40 (f (n / 32) (n % 32)).acc]
  rw [hd.1, hd.2]
  split
  · rw [BitVec.toInt_ofInt, Int.bmod_eq_of_le] <;> omega
  next hn =>
    have : (f i j).acc = 0 := by
      by_contra hne; exact hn ⟨List.mem_range.2 (by omega), hne⟩
    simp [this]

end Sys2Proof.Machine

namespace Sys2Proof.Claims

open Machine

/-- Settles O8: 32 products of at most 1984² each are added exactly, from the empty sums of a bank that START opens. -/
theorem mmaAccumulatesDotProducts : Obligations.MmaAccumulatesDotProducts := by
  intro k owner draw w hstart hwfmt hafmt hmode i j hi hj
  have hb : mmaBank k owner w = openBank owner w := by simp [mmaBank, hstart]
  let prod (q : Nat) : Int := activationAt k 0 w.ta.toNat i q * weightAt k false w.tb.toNat q j
  have hprod (q : Nat) : |prod q| ≤ 1984 * 1984 := by
    rw [abs_mul]
    exact mul_le_mul (abs_bc8Int_le _) (abs_bc8Int_le _) (abs_nonneg _) (by norm_num)
  have hcell : ((openBank owner w).mmaCell k w draw i j) =
      (List.range 32).foldl (fun x q => x.addA (prod q)) ((openBank owner w).cell i j) := by
    simp [Bank.mmaCell, openBank, hwfmt, hafmt, hmode, mmaSteps, Bank.stepInt, prod]
  obtain ⟨hsum, hle⟩ := foldl_addA prod (1984 * 1984) hprod 32 ((openBank owner w).cell i j) rfl (by norm_num)
  have hacc : (mmaResult k owner draw w).acc =
      ((mmaBank k owner w).setCells fun i j => (mmaBank k owner w).mmaCell k w draw i j).acc := by
    simp only [mmaResult]
  rw [hacc, hb, acc_setCells _ _ _ _ hi hj, hcell, hsum]
  rw [hcell, hsum]
  exact hle.trans_lt (by norm_num)

end Sys2Proof.Claims

/-! ### A partition number that names another page's counter (R203, R275) -/

namespace Sys2Proof.Claims

open Machine

/-- A context whose partition number lies so far outside the eight partitions that its PART_MEM is DC_RD_UNITS of DRAM channel 0,
which reads 1. -/
def strayPartition : State :=
  (State.reset.setReg (Page.dram 0) Reg.DC_RD_UNITS 1).setCtx 0
    { part := ((Page.dram 0 - Page.pattern) * 4096 + Reg.DC_RD_UNITS - Reg.PART_MEM) / 16 }

/-- Refutes O25: from `strayPartition` the write's own read of its unit counts DC_RD_UNITS to 2, which closes the channel group to the
context: the write is served and the read after it is refused. -/
theorem not_cacheReadsBackWrites : ¬ Obligations.CacheReadsBackWrites := by
  intro h
  have hread := (h strayPartition (.ctx 0) 0 1 0 0 [0] rfl (by decide) (by decide +kernel) (by decide +kernel)).1
  exact absurd hread (by decide +kernel)

end Sys2Proof.Claims

/-! ### The step and the reset state -/

namespace Sys2Proof.Claims
open Machine

/-- Settles O57: `step` is a match on the queue, and an idle step is a tick. -/
theorem stepTakesTheFrontCommand : Obligations.StepTakesTheFrontCommand := by
  refine ⟨fun s c r => rfl, fun s hs => ?_, fun s hs hp => ?_⟩
  · simp [step, hs]
  · simp [step, hs, State.tick, hp]

theorem inv_stateReset : Inv State.reset := by
  unfold Inv FusesLegal
  and_intros <;> decide +kernel

/-- Settles O59: every table of the reset state is empty, so each read gives its default. -/
theorem resetStateHoldsResetValues : Obligations.ResetStateHoldsResetValues := by
  exact ⟨rfl, rfl, inv_stateReset, fun _ _ => rfl, fun _ => rfl, fun _ => rfl, fun _ => rfl, fun _ => rfl, fun _ => rfl, rfl, rfl, rfl,
    rfl⟩

end Sys2Proof.Claims

/-! ### Fields of registers (R440) -/

namespace Sys2Proof.Machine

/-- The number of a field placed between the bits above it and those below. -/
theorem putBits_eq (v lo w x : Nat) :
    putBits v lo w x = 2 ^ lo * (2 ^ w * (v / 2 ^ (lo + w)) + x % 2 ^ w) + v % 2 ^ lo := by
  have hLow := Nat.div_add_mod v (2 ^ lo)
  have hMid := Nat.div_add_mod (v / 2 ^ lo) (2 ^ w)
  rw [Nat.div_div_eq_div_mul, ← Nat.pow_add] at hMid
  unfold putBits bitsOf
  have hv : v = 2 ^ lo * (2 ^ w * (v / 2 ^ (lo + w))) + v / 2 ^ lo % 2 ^ w * 2 ^ lo + v % 2 ^ lo := by
    conv_lhs => rw [← hLow, ← hMid]
    ring
  have hx : 2 ^ lo * (2 ^ w * (v / 2 ^ (lo + w)) + x % 2 ^ w) =
      2 ^ lo * (2 ^ w * (v / 2 ^ (lo + w))) + x % 2 ^ w * 2 ^ lo := by ring
  omega

theorem testBit_bitsOf (v lo w i : Nat) : (bitsOf v lo w).testBit i = (decide (i < w) && v.testBit (lo + i)) := by
  simp [bitsOf, Nat.testBit_mod_two_pow, Nat.testBit_div_two_pow, Nat.add_comm]

theorem testBit_putBits (v lo w x i : Nat) :
    (putBits v lo w x).testBit i = if lo ≤ i ∧ i < lo + w then x.testBit (i - lo) else v.testBit i := by
  have hTop : x % 2 ^ w < 2 ^ w := Nat.mod_lt _ (by positivity)
  rw [putBits_eq, Nat.testBit_two_pow_mul_add _ (Nat.mod_lt _ (by positivity)), Nat.testBit_two_pow_mul_add _ hTop]
  by_cases hLo : i < lo
  · simp [hLo, Nat.testBit_mod_two_pow, Nat.not_le.2 hLo]
  by_cases hHi : i - lo < w
  · simp [hLo, hHi, Nat.testBit_mod_two_pow, Nat.not_lt.1 hLo, (by omega : i < lo + w)]
  · have hi : i - lo - w + (lo + w) = i := by omega
    rw [if_neg hLo, if_neg hHi, if_neg (by omega), Nat.testBit_div_two_pow, hi]

theorem putBits_lt {v lo w x n : Nat} (hv : v < 2 ^ n) (hw : lo + w ≤ n) : putBits v lo w x < 2 ^ n := by
  refine Nat.lt_pow_two_of_testBit _ fun i hi => ?_
  rw [testBit_putBits, if_neg (by omega)]
  exact Nat.testBit_lt_two_pow (hv.trans_le (Nat.pow_le_pow_right (by decide) hi))

theorem bitsOf_putBits_same (v lo w x : Nat) : bitsOf (putBits v lo w x) lo w = x % 2 ^ w := by
  refine Nat.eq_of_testBit_eq fun i => ?_
  rw [testBit_bitsOf, testBit_putBits, Nat.testBit_mod_two_pow]
  by_cases hi : i < w <;> simp [hi]

theorem bitsOf_putBits_other {v lo w x lo' w' : Nat} (h : lo' + w' ≤ lo ∨ lo + w ≤ lo') :
    bitsOf (putBits v lo w x) lo' w' = bitsOf v lo' w' := by
  refine Nat.eq_of_testBit_eq fun i => ?_
  rw [testBit_bitsOf, testBit_bitsOf, testBit_putBits]
  by_cases hi : i < w'
  · rw [if_neg (by omega)]
  · simp [hi]

theorem bitOf_eq_testBit (v i : Nat) : bitOf v i = v.testBit i := by
  rw [bitOf, Nat.testBit_eq_decide_div_mod_eq, beq_eq_decide]

variable {s : State} {p o p' o' : Nat}

/-! What a register reads after a write of a field of one register. -/

theorem State.reg_setFld (ho : o < 4096) (ho' : o' < 4096) (lo w x : Nat) :
    (s.setFld p o lo w x).reg p' o' =
      if p' = p ∧ o' = o then BitVec.ofNat 32 (putBits (s.reg p o).toNat lo w x) else s.reg p' o' :=
  State.reg_setReg _ _ _ _ _ _ ho ho'

theorem State.toNat_reg_setFld_same {lo w x : Nat} (hw : lo + w ≤ 32) :
    ((s.setFld p o lo w x).reg p o).toNat = putBits (s.reg p o).toNat lo w x := by
  simp only [State.setFld, State.reg_setReg_same, BitVec.toNat_ofNat]
  exact Nat.mod_eq_of_lt (putBits_lt (s.reg p o).isLt hw)

theorem State.fld_setFld_same {lo w x : Nat} (hw : lo + w ≤ 32) : (s.setFld p o lo w x).fld p o lo w = x % 2 ^ w := by
  rw [State.fld, State.toNat_reg_setFld_same hw, bitsOf_putBits_same]

theorem State.fld_setFld_beside {lo w x lo' w' : Nat} (hw : lo + w ≤ 32) (h : lo' + w' ≤ lo ∨ lo + w ≤ lo') :
    (s.setFld p o lo w x).fld p o lo' w' = s.fld p o lo' w' := by
  rw [State.fld, State.toNat_reg_setFld_same hw, bitsOf_putBits_other h, State.fld]

theorem State.reg_setFld_other (ho : o < 4096) (ho' : o' < 4096) (h : ¬ (p' = p ∧ o' = o)) {lo w x : Nat} :
    (s.setFld p o lo w x).reg p' o' = s.reg p' o' := by
  rw [State.reg_setFld ho ho', if_neg h]

theorem State.flag_setFlag_same {i : Nat} (hi : i < 32) (b : Bool) : (s.setFlag p o i b).flag p o i = b := by
  rw [State.flag, bitOf_eq_testBit, State.setFlag, State.toNat_reg_setFld_same (by omega), testBit_putBits, if_pos (by omega)]
  cases b <;> simp [b2n]

theorem State.flag_setFlag_beside {i j : Nat} (hi : i < 32) (h : j ≠ i) (b : Bool) :
    (s.setFlag p o i b).flag p o j = s.flag p o j := by
  rw [State.flag, State.setFlag, State.toNat_reg_setFld_same (by omega), bitOf_eq_testBit, testBit_putBits, if_neg (by omega),
    ← bitOf_eq_testBit, State.flag]

theorem State.reg_setFlag_other (ho : o < 4096) (ho' : o' < 4096) (h : ¬ (p' = p ∧ o' = o)) {i : Nat} {b : Bool} :
    (s.setFlag p o i b).reg p' o' = s.reg p' o' := State.reg_setFld_other ho ho' h

theorem State.reg_countFld_other (ho : o < 4096) (ho' : o' < 4096) (h : ¬ (p' = p ∧ o' = o)) {lo w n : Nat} :
    (s.countFld p o lo w n).reg p' o' = s.reg p' o' := State.reg_setFld_other ho ho' h

theorem State.reg_count_other (ho : o < 4096) (ho' : o' < 4096) (h : ¬ (p' = p ∧ o' = o)) {n : Nat} :
    (s.count p o n).reg p' o' = s.reg p' o' := State.reg_setFld_other ho ho' h

theorem State.toNat_reg_count_same (n : Nat) :
    ((s.count p o n).reg p o).toNat = min ((s.reg p o).toNat + n) (2 ^ 32 - 1) := by
  have hFull : bitsOf (s.reg p o).toNat 0 32 = (s.reg p o).toNat := by
    simp only [bitsOf, pow_zero, Nat.div_one]
    exact Nat.mod_eq_of_lt (s.reg p o).isLt
  have hPut : ∀ v x : Nat, v < 2 ^ 32 → putBits v 0 32 x = x % 2 ^ 32 := fun v x hv => by
    simp only [putBits_eq, pow_zero, Nat.zero_add, one_mul, Nat.div_eq_of_lt hv, Nat.mod_one]
    omega
  rw [State.count, State.countFld, State.toNat_reg_setFld_same (by omega), hPut _ _ (s.reg p o).isLt, State.fld, hFull]
  exact Nat.mod_eq_of_lt (by omega)

/-- A counter that has not come to its end counts on. -/
theorem State.reg_count_same (h : (s.reg p o).toNat < 0xFFFFFFFF) : (s.count p o).reg p o = s.reg p o + 1 := by
  refine BitVec.eq_of_toNat_eq ?_
  rw [State.toNat_reg_count_same, BitVec.toNat_add, show (1 : W32).toNat = 1 from rfl]
  omega

/-! The same where the two registers stand at different offsets. -/

theorem State.reg_setReg_off (ho : o < 4096) (ho' : o' < 4096) (h : o' ≠ o) {v : W32} :
    (s.setReg p o v).reg p' o' = s.reg p' o' := by
  rw [State.reg_setReg _ _ _ _ _ _ ho ho', if_neg fun e => h e.2]

theorem State.reg_setFld_off (ho : o < 4096) (ho' : o' < 4096) (h : o' ≠ o) {lo w x : Nat} :
    (s.setFld p o lo w x).reg p' o' = s.reg p' o' := State.reg_setReg_off ho ho' h

theorem State.reg_setFlag_off (ho : o < 4096) (ho' : o' < 4096) (h : o' ≠ o) {i : Nat} {b : Bool} :
    (s.setFlag p o i b).reg p' o' = s.reg p' o' := State.reg_setReg_off ho ho' h

theorem State.reg_countFld_off (ho : o < 4096) (ho' : o' < 4096) (h : o' ≠ o) {lo w n : Nat} :
    (s.countFld p o lo w n).reg p' o' = s.reg p' o' := State.reg_setReg_off ho ho' h

theorem State.reg_count_off (ho : o < 4096) (ho' : o' < 4096) (h : o' ≠ o) {n : Nat} :
    (s.count p o n).reg p' o' = s.reg p' o' := State.reg_setReg_off ho ho' h

/-! ### States that differ in registers only -/

/-- `t` is `s` but for its registers. -/
def OnlyRegs (s t : State) : Prop := t = { s with regs := t.regs }

namespace OnlyRegs

variable {s t : State} {page off : Nat}

theorem refl : OnlyRegs s s := rfl

theorem setReg {v : W32} (h : OnlyRegs s t) : OnlyRegs s (t.setReg page off v) := by
  have hRegs {r : List (Nat × W32)} (h : OnlyRegs s t) : OnlyRegs s { t with regs := r } := by
    rw [OnlyRegs] at h ⊢
    rw [h]
  exact hRegs h

theorem setFld {lo w x : Nat} (h : OnlyRegs s t) : OnlyRegs s (t.setFld page off lo w x) := h.setReg

theorem setFlag {i : Nat} {b : Bool} (h : OnlyRegs s t) : OnlyRegs s (t.setFlag page off i b) := h.setReg

theorem countFld {lo w n : Nat} (h : OnlyRegs s t) : OnlyRegs s (t.countFld page off lo w n) := h.setReg

theorem count {n : Nat} (h : OnlyRegs s t) : OnlyRegs s (t.count page off n) := h.setReg

end OnlyRegs

/-! ### Refused writes (R444, R474) -/

/-- An ignored write is recorded in the error registers of its page and nowhere else. -/
theorem State.reg_writeRefused_other {src : Nat} (ho' : o' < 4096) (h1 : o' ≠ Reg.PG_ERR_STATUS) (h2 : o' ≠ Reg.PG_ERR_COUNT)
    (h3 : o' ≠ Reg.PG_ERR_ADDR_LO) (h4 : o' ≠ Reg.PG_ERR_ADDR_HI) : (s.writeRefused p o src).reg p' o' = s.reg p' o' := by
  have hBits : ((s.setFlag p Reg.PG_ERR_STATUS 28 true).countFld p Reg.PG_ERR_COUNT 0 16 1).reg p' o' = s.reg p' o' := by
    rw [State.reg_countFld_off (by decide) ho' h2, State.reg_setFlag_off (by decide) ho' h1]
  unfold State.writeRefused State.pgErrAt
  simp only [List.foldl_cons, List.foldl_nil]
  split
  · exact hBits
  · rw [State.reg_setReg_off (by decide) ho' h4, State.reg_setReg_off (by decide) ho' h3, hBits]

theorem State.writeRefused_onlyRegs (src : Nat) : OnlyRegs s (s.writeRefused p o src) := by
  unfold State.writeRefused State.pgErrAt
  simp only [List.foldl_cons, List.foldl_nil]
  split
  · exact OnlyRegs.refl.setFlag.countFld
  · exact OnlyRegs.refl.setFlag.countFld.setReg.setReg

theorem State.flag_writeRefused (src : Nat) : (s.writeRefused p o src).flag p Reg.PG_ERR_STATUS 28 = true := by
  have hBits : ((s.setFlag p Reg.PG_ERR_STATUS 28 true).countFld p Reg.PG_ERR_COUNT 0 16 1).flag p Reg.PG_ERR_STATUS 28 = true := by
    rw [State.flag, State.reg_countFld_off (by decide) (by decide) (by decide)]
    exact State.flag_setFlag_same (by decide) true
  unfold State.writeRefused State.pgErrAt
  simp only [List.foldl_cons, List.foldl_nil]
  split
  · exact hBits
  · rw [State.flag, State.reg_setReg_off (by decide) (by decide) (by decide),
      State.reg_setReg_off (by decide) (by decide) (by decide)]
    exact hBits

theorem State.errAddr_writeRefused (src : Nat) (hp : ownErrAddr p = false) :
    (s.writeRefused p o src).reg p Reg.PG_ERR_ADDR_LO = BitVec.ofNat 32 o ∧
      (s.writeRefused p o src).reg p Reg.PG_ERR_ADDR_HI = BitVec.ofNat 32 src := by
  unfold State.writeRefused State.pgErrAt
  simp only [List.foldl_cons, List.foldl_nil, hp, Bool.false_eq_true, if_false]
  rw [State.reg_setReg_off (by decide) (by decide) (by decide)]
  simp

end Sys2Proof.Machine

/-! ### The timebase and its servo (R184, R185) -/

namespace Sys2Proof.Machine

variable {s : State}

theorem State.lock_setLock (l : Nat) (hl : l < 4) : (s.setLock l).lock = l := by
  have hFld : (s.setFld Page.timebase Reg.TB_STATUS 0 2 l).lock = l := by
    rw [State.lock, State.fld_setFld_same (by decide)]
    omega
  unfold State.setLock
  extract_lets a x b
  have hb : b.lock = l := by
    dsimp only [b]
    split <;> exact hFld
  split
  · rw [State.lock, State.fld, State.reg_count_off (by decide) (by decide) (by decide)]
    exact hb
  · exact hb

theorem State.reg_setLock_other {p o l : Nat} (ho : o < 4096) (h1 : o ≠ Reg.TB_STATUS) (h2 : o ≠ Reg.TB_LOCK_LOSS_COUNT) :
    (s.setLock l).reg p o = s.reg p o := by
  unfold State.setLock
  extract_lets a x b
  have hb : b.reg p o = s.reg p o := by
    dsimp only [b]
    split <;> exact State.reg_setFld_off (by decide) ho h1
  split
  · rw [State.reg_count_off (by decide) ho h2, hb]
  · exact hb

/-- A lock that ends is counted (R184). -/
theorem State.lockLoss_setLock {l : Nat} (hs : s.lock = 2) (hl : l ≠ 2)
    (hc : (s.reg Page.timebase Reg.TB_LOCK_LOSS_COUNT).toNat < 0xFFFFFFFF) :
    (s.setLock l).reg Page.timebase Reg.TB_LOCK_LOSS_COUNT = s.reg Page.timebase Reg.TB_LOCK_LOSS_COUNT + 1 := by
  unfold State.setLock
  extract_lets a x b
  have hb : b.reg Page.timebase Reg.TB_LOCK_LOSS_COUNT = s.reg Page.timebase Reg.TB_LOCK_LOSS_COUNT := by
    dsimp only [b]
    split <;> exact State.reg_setFld_off (by decide) (by decide) (by decide)
  rw [if_pos ⟨hs, hl⟩, State.reg_count_same (by rwa [hb]), hb]

theorem State.setLock_eq (l : Nat) :
    s.setLock l = { s with regs := (s.setLock l).regs, time := if l = 3 then { s.time with good := 0 } else s.time } := by
  unfold State.setLock
  extract_lets a x b
  have hb : b = { s with regs := b.regs, time := if l = 3 then { s.time with good := 0 } else s.time } := by
    dsimp only [b]
    split <;> rfl
  split
  · conv_lhs => rw [hb]
    rfl
  · exact hb

theorem State.pattern_setLock (l : Nat) : (s.setLock l).pattern = s.pattern := by rw [State.setLock_eq]

theorem State.now_setLock (l : Nat) : (s.setLock l).now = s.now := by
  rw [State.setLock_eq]
  simp only [State.now]
  split <;> rfl

theorem State.now_trim_ : s.trim_.now = s.now := by
  unfold State.trim_ State.draw
  rfl

theorem State.lock_trim_ : s.trim_.lock = s.lock := by
  unfold State.trim_ State.draw
  dsimp only
  rw [State.lock, State.setFlag, State.fld_setFld_beside (by decide) (by decide), State.fld,
    State.reg_setFld_off (by decide) (by decide) (by decide), State.reg_setReg_off (by decide) (by decide) (by decide)]
  rfl

theorem State.reg_trim_other {p o : Nat} (ho : o < 4096) (h1 : o ≠ Reg.TB_STATUS) (h2 : o ≠ Reg.TB_INC_LO)
    (h3 : o ≠ Reg.TB_INC_HI) : s.trim_.reg p o = s.reg p o := by
  unfold State.trim_ State.draw
  dsimp only
  rw [State.reg_setFlag_off (by decide) ho h1, State.reg_setFld_off (by decide) ho h3, State.reg_setReg_off (by decide) ho h2]
  rfl

end Sys2Proof.Machine

namespace Sys2Proof.Machine

variable {s : State}

/-- What an update of the servo has made of the state before it steps or trims (R185): the offset and the run of good
updates are recorded and the lock follows them. -/
def State.servoLocked (s : State) (off : Int) : State :=
  let held : Int := if off > 2 ^ 31 - 1 then 2 ^ 31 - 1 else if off < -(2 ^ 31) then -(2 ^ 31) else off
  let good := if off.natAbs ≤ 20 * 256 then min (s.time.good + 1) 8 else 0
  let u : State := { s.setReg Page.timebase Reg.TB_OFFSET (BitVec.ofInt 32 held) with time := { s.time with good := good } }
  if u.lock = 2 then (if off.natAbs > 40 * 256 then u.setLock 1 else u)
  else u.setLock (if u.lock ≠ 3 && good == 8 then 2 else 1)

theorem State.servoUpdate_eq (off : Int) :
    s.servoUpdate off =
      if (s.servoLocked off).fld Page.timebase Reg.TB_STEP_THRESH 0 24 * 256 ≤ off.natAbs then
        if (s.servoLocked off).patternStopped && (s.servoLocked off).flag Page.timebase Reg.TB_CTRL 7 then
          { s.servoLocked off with
            time := { (s.servoLocked off).time with tb := (s.servoLocked off).now + BitVec.ofInt 64 off } }
        else ((s.servoLocked off).setFlag Page.timebase Reg.TB_STATUS 2 true).trim_
      else (s.servoLocked off).trim_ := rfl

/-- The step and the trim that end an update leave the lock as it stands. -/
theorem State.lock_servoUpdate (off : Int) : (s.servoUpdate off).lock = (s.servoLocked off).lock := by
  rw [State.servoUpdate_eq]
  split
  · split
    · rfl
    · rw [State.lock_trim_, State.lock, State.setFlag, State.fld_setFld_beside (by decide) (by decide), State.lock]
  · exact State.lock_trim_

theorem State.reg_servoUpdate_other (off : Int) {p o : Nat} (ho : o < 4096) (h1 : o ≠ Reg.TB_STATUS) (h2 : o ≠ Reg.TB_INC_LO)
    (h3 : o ≠ Reg.TB_INC_HI) : (s.servoUpdate off).reg p o = (s.servoLocked off).reg p o := by
  rw [State.servoUpdate_eq]
  split
  · split
    · rfl
    · rw [State.reg_trim_other ho h1 h2 h3, State.reg_setFlag_off (by decide) ho h1]
  · exact State.reg_trim_other ho h1 h2 h3

/-- A recorded offset and a run of good updates change neither the lock nor another register. -/
theorem State.reg_offset_other {p o : Nat} {v : W32} {x : TimeSt} (ho : o < 4096) (h : o ≠ Reg.TB_OFFSET) :
    State.reg { s.setReg Page.timebase Reg.TB_OFFSET v with time := x } p o = s.reg p o :=
  State.reg_setReg_off (by decide) ho h

theorem State.lock_offset {v : W32} {x : TimeSt} :
    State.lock { s.setReg Page.timebase Reg.TB_OFFSET v with time := x } = s.lock :=
  congrArg (fun r : W32 => bitsOf r.toNat 0 2) (State.reg_offset_other (by decide) (by decide))

theorem State.servoLocked_unlocked (off : Int) (h : s.lock ≠ 2) :
    (s.servoLocked off).lock = if s.lock ≠ 3 ∧ off.natAbs ≤ 20 * 256 ∧ 7 ≤ s.time.good then 2 else 1 := by
  unfold State.servoLocked
  extract_lets held good x y u
  have hu : u.lock = s.lock := State.lock_offset
  rw [hu, if_neg h, State.lock_setLock _ (by split <;> decide)]
  refine if_congr ?_ rfl rfl
  simp only [Bool.and_eq_true, decide_eq_true_eq, beq_iff_eq, good]
  refine and_congr_right fun _ => ?_
  split <;> omega

theorem State.servoLocked_locked (off : Int) (h : s.lock = 2) (hOff : off.natAbs ≤ 40 * 256) :
    (s.servoLocked off).lock = 2 := by
  unfold State.servoLocked
  extract_lets held good x y u
  have hu : u.lock = 2 := by rw [← h]; exact State.lock_offset
  rw [if_pos hu, if_neg (by omega), hu]

theorem State.servoLocked_lost (off : Int) (h : s.lock = 2) (hOff : 40 * 256 < off.natAbs) :
    (s.servoLocked off).lock = 1 ∧
      ((s.reg Page.timebase Reg.TB_LOCK_LOSS_COUNT).toNat < 0xFFFFFFFF →
        (s.servoLocked off).reg Page.timebase Reg.TB_LOCK_LOSS_COUNT = s.reg Page.timebase Reg.TB_LOCK_LOSS_COUNT + 1) := by
  unfold State.servoLocked
  extract_lets held good x y u
  have hu : u.lock = 2 := by rw [← h]; exact State.lock_offset
  have hReg : u.reg Page.timebase Reg.TB_LOCK_LOSS_COUNT = s.reg Page.timebase Reg.TB_LOCK_LOSS_COUNT :=
    State.reg_offset_other (by decide) (by decide)
  rw [if_pos hu, if_pos hOff]
  refine ⟨State.lock_setLock 1 (by decide), fun hc => ?_⟩
  rw [State.lockLoss_setLock hu (by decide) (by rwa [hReg]), hReg]

theorem State.now_servoLocked (off : Int) : (s.servoLocked off).now = s.now := by
  unfold State.servoLocked
  extract_lets held good x y u
  have hu : u.now = s.now := rfl
  split
  · split
    · rw [State.now_setLock, hu]
    · exact hu
  · rw [State.now_setLock, hu]

theorem State.patternStopped_servoLocked (off : Int) : (s.servoLocked off).patternStopped = s.patternStopped := by
  unfold State.servoLocked
  extract_lets held good x y u
  have hu : u.pattern = s.pattern := rfl
  simp only [State.patternStopped]
  split
  · split
    · rw [State.pattern_setLock, hu]
    · rw [hu]
  · rw [State.pattern_setLock, hu]

theorem State.reg_servoLocked_other (off : Int) {p o : Nat} (ho : o < 4096) (h1 : o ≠ Reg.TB_OFFSET) (h2 : o ≠ Reg.TB_STATUS)
    (h3 : o ≠ Reg.TB_LOCK_LOSS_COUNT) : (s.servoLocked off).reg p o = s.reg p o := by
  unfold State.servoLocked
  extract_lets held good x y u
  have hu : u.reg p o = s.reg p o := State.reg_offset_other ho h1
  split
  · split
    · rw [State.reg_setLock_other ho h2 h3, hu]
    · exact hu
  · rw [State.reg_setLock_other ho h2 h3, hu]

/-- The timebase itself moves only in an update of a stopped pattern engine with STEP_EN (R185). -/
theorem State.now_servoUpdate (off : Int) (h : s.patternStopped = false ∨ s.flag Page.timebase Reg.TB_CTRL 7 = false) :
    (s.servoUpdate off).now = s.now := by
  have hNoStep : ((s.servoLocked off).patternStopped && (s.servoLocked off).flag Page.timebase Reg.TB_CTRL 7) = false := by
    rw [State.patternStopped_servoLocked, State.flag,
      State.reg_servoLocked_other off (by decide) (by decide) (by decide) (by decide)]
    exact Bool.and_eq_false_iff.2 h
  rw [State.servoUpdate_eq, hNoStep]
  split
  · rw [if_neg (by decide), State.now_trim_]
    exact State.now_servoLocked off
  · rw [State.now_trim_, State.now_servoLocked]

theorem State.time_writeRefused (p o src : Nat) : (s.writeRefused p o src).time = s.time := by
  rw [State.writeRefused_onlyRegs src]

theorem State.now_reach_lock (t : W64) : (s.reach t).lock = s.lock ∧ (s.reach t).regs = s.regs := by
  unfold State.reach
  split <;> exact ⟨rfl, rfl⟩

theorem State.reach_eq (t : W64) : s.reach t = { s with time := (s.reach t).time } := by
  unfold State.reach
  split <;> rfl

/-- The end of a holdover (R184). -/
theorem State.setLock_holdover {t : W64} (hs : s.lock = 2)
    (hc : (s.reg Page.timebase Reg.TB_LOCK_LOSS_COUNT).toNat < 0xFFFFFFFF) :
    ((s.reach t).setLock 3).lock = 3 ∧ ((s.reach t).setLock 3).time = { (s.reach t).time with good := 0 } ∧
      ((s.reach t).setLock 3).reg Page.timebase Reg.TB_LOCK_LOSS_COUNT = s.reg Page.timebase Reg.TB_LOCK_LOSS_COUNT + 1 ∧
      (s.reach t).setLock 3 = { s with regs := ((s.reach t).setLock 3).regs, time := ((s.reach t).setLock 3).time } := by
  obtain ⟨hLock, hRegs⟩ := State.now_reach_lock (s := s) t
  have hReg : (s.reach t).reg Page.timebase Reg.TB_LOCK_LOSS_COUNT = s.reg Page.timebase Reg.TB_LOCK_LOSS_COUNT := by
    rw [State.reg, hRegs, State.reg]
  refine ⟨State.lock_setLock 3 (by decide), ?_, ?_, ?_⟩
  · rw [State.setLock_eq]
    rfl
  · rw [State.lockLoss_setLock (hLock.trans hs) (by decide) (by rwa [hReg]), hReg]
  · rw [State.setLock_eq, State.reach_eq]

end Sys2Proof.Machine

namespace Sys2Proof.Claims
open Machine

/-- Settles O14: `tbSet` branches on `patternStopped`, the hold limit is `setLock 3`, and an update of the servo is
`servoLocked` followed by a step or a trim, neither of which moves the lock. -/
theorem timebaseIsSetAndDisciplined : Obligations.TimebaseIsSetAndDisciplined := by
  refine ⟨fun s src v => ⟨fun hRun hRunning => ?_, fun h => ?_⟩, fun s hs hc => ?_, fun s off => ?_⟩
  · simp [exec, execTbSet, State.tbSet, State.patternStopped, hRun, hRunning]
  · have hStopped : s.patternStopped = false := by
      rcases h with h | h <;> simp [State.patternStopped, h]
    obtain ⟨hLo, hHi⟩ := State.errAddr_writeRefused (s := s) (o := Reg.TB_SET_LO) (p := Page.timebase) src.val (by decide)
    refine ⟨?_, State.time_writeRefused _ _ _, State.flag_writeRefused _, hLo, hHi⟩
    simp [exec, execTbSet, State.tbSet, hStopped]
  · have hUs (n : Nat) : usTb (1000 * n) = 256000000 * n := by unfold usTb; omega
    refine ⟨_, ?_, State.setLock_holdover hs hc⟩
    simp only [exec, execTbHoldLimitExpiry, hs, if_true, hUs]
  · refine ⟨State.now_servoUpdate off, fun hs ht => ?_, fun hs hOff => ?_, fun hs hOff => ?_⟩
    · rw [State.lock_servoUpdate, State.servoLocked_unlocked off hs] at ht
      split at ht
      · next h => exact ⟨h.2.2, h.2.1⟩
      · exact absurd ht (by decide)
    · rw [State.lock_servoUpdate, State.servoLocked_locked off hs hOff]
    · obtain ⟨hLock, hCount⟩ := State.servoLocked_lost off hs hOff
      rw [State.lock_servoUpdate, State.reg_servoUpdate_other off (by decide) (by decide) (by decide) (by decide)]
      exact ⟨hLock, hCount⟩

end Sys2Proof.Claims

/-! ### What reporting an event changes

Counters, error and interrupt bits, event records, trace records and the packets that carry vectors and requests: a state that an
event is reported of differs from the one before in registers, in outgoing packets and tags, and in the event record buffer. -/

namespace Sys2Proof.Machine

/-- `t` is `s` but for its registers, what leaves the device with its tags, and the event records. -/
def Beside (s t : State) : Prop :=
  t = { s with
    regs := t.regs
    fab := { s.fab with tags := t.fab.tags, epochs := t.fab.epochs, backlog := t.fab.backlog, out := t.fab.out }
    hang := { s.hang with evWr := t.hang.evWr, dumpBuf := t.hang.dumpBuf, traceOut := t.hang.traceOut } }

namespace Beside

variable {s t u : State}

theorem refl (s : State) : Beside s s := rfl

theorem trans (a : Beside s t) (b : Beside t u) : Beside s u := by
  unfold Beside at *
  rw [b, a]

theorem regs (s : State) (r : List (Nat × W32)) : Beside s { s with regs := r } := rfl

theorem setReg {p o : Nat} {v : W32} (h : Beside s t) : Beside s (t.setReg p o v) := h.trans (regs t _)

theorem setFld {p o lo w x : Nat} (h : Beside s t) : Beside s (t.setFld p o lo w x) := h.setReg

theorem setFlag {p o i : Nat} {b : Bool} (h : Beside s t) : Beside s (t.setFlag p o i b) := h.setReg

theorem countFld {p o lo w n : Nat} (h : Beside s t) : Beside s (t.countFld p o lo w n) := h.setReg

theorem count {p o n : Nat} (h : Beside s t) : Beside s (t.count p o n) := h.setReg

theorem ite {c : Prop} [Decidable c] (a : Beside s t) (b : Beside s u) : Beside s (if c then t else u) := by
  split
  · exact a
  · exact b

theorem pgErr {p b : Nat} (h : Beside s t) : Beside s (t.pgErr p b) := h.setFlag.countFld

theorem pgErrAt {p o src : Nat} {l : List Nat} (h : Beside s t) : Beside s (t.pgErrAt p o src l) := by
  unfold State.pgErrAt
  extract_lets x y
  have hx : Beside s x := List.foldlRecOn l _ h fun _ hb _ _ => hb.setFlag
  exact ite hx.countFld hx.countFld.setReg.setReg

theorem writeRefused {p o src : Nat} (h : Beside s t) : Beside s (t.writeRefused p o src) := h.pgErrAt

/-! The parts of the state beside those. -/

theorem time (h : Beside s t) : t.time = s.time := by rw [h]
theorem now (h : Beside s t) : t.now = s.now := by rw [h]; rfl
theorem angles (h : Beside s t) : t.angles = s.angles := by rw [h]
theorem pattern (h : Beside s t) : t.pattern = s.pattern := by rw [h]
theorem cores (h : Beside s t) : t.cores = s.cores := by rw [h]
theorem core (h : Beside s t) (c : Nat) : t.core c = s.core c := by rw [h]; rfl
theorem ctxs (h : Beside s t) : t.ctxs = s.ctxs := by rw [h]
theorem ctx (h : Beside s t) (n : Nat) : t.ctx n = s.ctx n := by rw [h]; rfl
theorem streams (h : Beside s t) : t.streams = s.streams := by rw [h]
theorem stream (h : Beside s t) (n : Nat) : t.stream n = s.stream n := by rw [h]; rfl
theorem qm (h : Beside s t) : t.qm = s.qm := by rw [h]
theorem queue (h : Beside s t) (q : Nat) : t.queue q = s.queue q := by rw [h]; rfl
theorem audio (h : Beside s t) : t.audio = s.audio := by rw [h]
theorem port (h : Beside s t) (p : Nat) : t.port p = s.port p := by rw [h]; rfl
theorem dp (h : Beside s t) : t.dp = s.dp := by rw [h]
theorem mem (h : Beside s t) : t.mem = s.mem := by rw [h]
theorem ce (h : Beside s t) : t.ce = s.ce := by rw [h]
theorem links (h : Beside s t) : t.fab.links = s.fab.links := by rw [h]
theorem link (h : Beside s t) (p : Nat) : t.link p = s.link p := by rw [h]; rfl
theorem node (h : Beside s t) : t.node = s.node := by rw [h]; rfl
theorem pair (h : Beside s t) : t.pair = s.pair := by rw [h]
theorem safety (h : Beside s t) : t.safety = s.safety := by rw [h]
theorem sec (h : Beside s t) : t.sec = s.sec := by rw [h]
theorem pins (h : Beside s t) : t.pins = s.pins := by rw [h]
theorem tap (h : Beside s t) : t.tap = s.tap := by rw [h]
theorem power (h : Beside s t) : t.power = s.power := by rw [h]
theorem free (h : Beside s t) : t.free = s.free := by rw [h]
theorem pending (h : Beside s t) : t.pending = s.pending := by rw [h]

end Beside

/-! ### The registers that reporting writes -/

/-- A register that no report of an event writes: not an interrupt status, a vector's count or masking bits, a trace index or the
count of dropped packets. -/
def quiet (p o : Nat) : Bool :=
  o != Reg.PG_IRQ_STATUS &&
  !(p == Page.queueMgr && (o == Reg.QM_IRQ_COUNT || o == Reg.QM_DB_ERR_COUNT || decide (Reg.QM_VEC_CTRL ≤ o))) &&
  !(p == Page.debug && (o == Reg.TR_WR || o == Reg.TR_DROP_COUNT)) && !(p == Page.fabric && o == Reg.FB_ROUTE_DROP)

/-- `t` is `s` with events reported: every quiet register stays, and no interrupt is taken back. -/
structure Reports (s t : State) : Prop where
  beside : Beside s t
  reg : ∀ {p o : Nat}, o < 4096 → quiet p o = true → t.reg p o = s.reg p o
  irqs : ∀ p i, s.flag p Reg.PG_IRQ_STATUS i = true → t.flag p Reg.PG_IRQ_STATUS i = true

namespace Reports

variable {s t u : State}

theorem refl (s : State) : Reports s s := ⟨.refl s, fun _ _ => rfl, fun _ _ h => h⟩

theorem trans (a : Reports s t) (b : Reports t u) : Reports s u :=
  ⟨a.beside.trans b.beside, fun ho hq => (b.reg ho hq).trans (a.reg ho hq), fun p i h => b.irqs p i (a.irqs p i h)⟩

theorem ite {c : Prop} [Decidable c] (a : Reports s t) (b : Reports s u) : Reports s (if c then t else u) := by
  split
  · exact a
  · exact b

theorem fld (h : Reports s t) {p o lo w : Nat} (ho : o < 4096) (hq : quiet p o = true) : t.fld p o lo w = s.fld p o lo w := by
  rw [State.fld, h.reg ho hq, State.fld]

theorem flag (h : Reports s t) {p o i : Nat} (ho : o < 4096) (hq : quiet p o = true) : t.flag p o i = s.flag p o i := by
  rw [State.flag, h.reg ho hq, State.flag]

/-- A register that is not quiet, nor an interrupt status, written. -/
theorem setReg {p o : Nat} {v : W32} (h : Reports s t) (ho : o < 4096) (hq : quiet p o = false) (hi : o ≠ Reg.PG_IRQ_STATUS) :
    Reports s (t.setReg p o v) := by
  refine h.trans ⟨(Beside.refl t).setReg, fun {p' o'} ho' hq' => ?_, fun p' i hf => ?_⟩
  · rw [State.reg_setReg _ _ _ _ _ _ ho ho', if_neg]
    rintro ⟨rfl, rfl⟩
    rw [hq] at hq'
    exact absurd hq' (by decide)
  · rw [State.flag, State.reg_setReg_off ho (by decide) (Ne.symm hi)]
    exact hf

theorem setFld {p o lo w x : Nat} (h : Reports s t) (ho : o < 4096) (hq : quiet p o = false) (hi : o ≠ Reg.PG_IRQ_STATUS) :
    Reports s (t.setFld p o lo w x) := h.setReg ho hq hi

theorem setFlag {p o i : Nat} {b : Bool} (h : Reports s t) (ho : o < 4096) (hq : quiet p o = false)
    (hi : o ≠ Reg.PG_IRQ_STATUS) : Reports s (t.setFlag p o i b) := h.setReg ho hq hi

theorem count {p o n : Nat} (h : Reports s t) (ho : o < 4096) (hq : quiet p o = false) (hi : o ≠ Reg.PG_IRQ_STATUS) :
    Reports s (t.count p o n) := h.setReg ho hq hi

theorem emit {port vc : Nat} {p : Packet} (h : Reports s t) : Reports s (t.emit port vc p) :=
  h.trans ⟨rfl, fun _ _ => rfl, fun _ _ h => h⟩

theorem send {vc : Nat} {p : Packet} (h : Reports s t) : Reports s (t.send vc p) := by
  unfold State.send
  exact ite h.emit (h.count (by decide) (by decide) (by decide))

theorem broadcast {vc : Nat} {p : Packet} (h : Reports s t) : Reports s (t.broadcast vc p) :=
  List.foldlRecOn [0, 1, 2, 3] _ h fun _ hb _ _ => ite hb.emit hb

theorem setTag {i : Nat} {x : Option Tag} (h : Reports s t) : Reports s (t.setTag i x) :=
  h.trans ⟨rfl, fun _ _ => rfl, fun _ _ h => h⟩

theorem setBacklog {l : List (Nat × Packet × Tag)} (h : Reports s t) :
    Reports s { t with fab := { t.fab with backlog := l } } := h.trans ⟨rfl, fun _ _ => rfl, fun _ _ h => h⟩

theorem setEpochs {l : SMap (BitVec 3)} (h : Reports s t) : Reports s { t with fab := { t.fab with epochs := l } } :=
  h.trans ⟨rfl, fun _ _ => rfl, fun _ _ h => h⟩

theorem issueRequest {vc : Nat} {p : Packet} {x : Tag} (h : Reports s t) : Reports s (t.issueRequest vc p x) := h.setTag.send

theorem request {vc : Nat} {p : Packet} {x : Tag} (h : Reports s t) : Reports s (t.request vc p x) := by
  unfold State.request
  exact ite h.issueRequest h.setBacklog

theorem nextRequest (h : Reports s t) : Reports s t.nextRequest := by
  unfold State.nextRequest
  extract_lets
  split
  · split
    · exact h.setBacklog.issueRequest
    · exact h
  · exact h

theorem freeTag {i : Nat} (h : Reports s t) : Reports s (t.freeTag i) := h.setTag.nextRequest

theorem abandonTag {i : Nat} (h : Reports s t) : Reports s (t.abandonTag i) := h.setTag.setEpochs.nextRequest

theorem dropWaiting {f : Tag → Bool} (h : Reports s t) : Reports s (t.dropWaiting f) := h.setBacklog

theorem writeRemote {vc dst addr : Nat} {data : List Byte} (h : Reports s t) : Reports s (t.writeRemote vc dst addr data) := by
  unfold State.writeRemote
  extract_lets _ _
  split
  · exact h
  · exact h.request

/-- The vectors that an interrupt can name are 128 (R444). -/
theorem fireVector {v : Nat} (h : Reports s t) (hv : v < 128) : Reports s (t.fireVector v) := by
  have hOff : Reg.QM_VEC_CTRL + 16 * v < 4096 := by
    have : Reg.QM_VEC_CTRL = 0x80C := rfl
    omega
  have hNoisy : quiet Page.queueMgr (Reg.QM_VEC_CTRL + 16 * v) = false := by simp [quiet]
  have hNe : Reg.QM_VEC_CTRL + 16 * v ≠ Reg.PG_IRQ_STATUS := by
    have : Reg.QM_VEC_CTRL = 0x80C := rfl
    have : Reg.PG_IRQ_STATUS = 0x00C := rfl
    omega
  have hCount : Reports s (t.count Page.queueMgr Reg.QM_IRQ_COUNT) := h.count (by decide) (by decide) (by decide)
  unfold State.fireVector
  exact ite (hCount.setFlag hOff hNoisy hNe) (ite hCount.writeRemote (hCount.count (by decide) (by decide) (by decide)))

theorem summaryEdge {page : Nat} {a : State} (h : Reports s t) : Reports s (a.summaryEdge t page) := by
  unfold State.summaryEdge
  exact ite (h.fireVector (Nat.mod_lt _ (by decide))) h

theorem irq {page b : Nat} (h : Reports s t) (hb : b < 32) : Reports s (t.irq page b) := by
  refine h.trans (summaryEdge ⟨(Beside.refl t).setFlag, fun {p o} ho hq => ?_, fun p i hf => ?_⟩)
  · refine State.reg_setFlag_off (by decide) ho fun e => ?_
    simp [quiet, e] at hq
  · by_cases hp : p = page
    · subst hp
      by_cases hi : i = b
      · subst hi
        exact State.flag_setFlag_same hb true
      · rwa [State.flag_setFlag_beside hb hi]
    · rw [State.flag, State.reg_setFlag_other (by decide) (by decide) fun e => hp e.1]
      exact hf

theorem trace {src : Nat} {bytes : List Byte} (h : Reports s t) : Reports s (t.trace src bytes) := by
  have hOut {t : State} {l : List (W64 × List Byte)} (h : Reports s t) :
      Reports s { t with hang := { t.hang with traceOut := l } } := h.trans ⟨rfl, fun _ _ => rfl, fun _ _ h => h⟩
  exact ite h (ite (h.count (by decide) (by decide) (by decide)) (hOut (h.setReg (by decide) (by decide) (by decide))))

theorem logEvent {code unit : Nat} {ctx : Option Nat} {gen status arg0 arg1 : Nat} (h : Reports s t) :
    Reports s (t.logEvent code unit ctx gen status arg0 arg1) := by
  have hBuf {t : State} {b : SMap Byte} {n : W32} (h : Reports s t) :
      Reports s { t with hang := { t.hang with dumpBuf := b, evWr := n } } := h.trans ⟨rfl, fun _ _ => rfl, fun _ _ h => h⟩
  unfold State.logEvent
  extract_lets n o old new rep _ s₁
  exact ite (hBuf h) ((hBuf h).trace.irq (by decide))

end Reports

/-- An interrupt that is raised stands in its page (R444). -/
theorem State.flag_irq {s : State} {page b : Nat} (hb : b < 32) : (s.irq page b).flag page Reg.PG_IRQ_STATUS b = true :=
  (Reports.summaryEdge (.refl _)).irqs page b (State.flag_setFlag_same hb true)

end Sys2Proof.Machine

/-! ### Words in the queues and the life of contexts -/

namespace Sys2Proof.Machine

/-- Every word in a queue of `k'` has a word of the same context in that queue of `k`. -/
def Core.Fewer (k k' : Core) : Prop := ∀ q, ∀ e ∈ k'.queue q, ∃ d ∈ k.queue q, d.ctx = e.ctx

/-- No word of context `n` stands in a queue of `k`. -/
def Core.Clear (n : CtxId) (k : Core) : Prop := ∀ q, ∀ e ∈ k.queue q, e.ctx ≠ n

namespace Core.Fewer

variable {k k' k'' : Core}

theorem of_queues (h : k'.queue = k.queue) : Core.Fewer k k' := fun q e he => ⟨e, by rwa [← h], rfl⟩

theorem refl (k : Core) : Core.Fewer k k := of_queues rfl

theorem trans (a : Core.Fewer k k') (b : Core.Fewer k' k'') : Core.Fewer k k'' := fun q e he => by
  obtain ⟨d, hd, hde⟩ := b q e he
  obtain ⟨f, hf, hfd⟩ := a q d hd
  exact ⟨f, hf, hfd.trans hde⟩

theorem clear {n : CtxId} (h : Core.Fewer k k') (hk : k.Clear n) : k'.Clear n := fun q e he => by
  obtain ⟨d, hd, hde⟩ := h q e he
  exact hde ▸ hk q d hd

end Core.Fewer

/-! The registers and tiles of a core lie beside its queues. -/

theorem Core.queue_xSet (k : Core) (i : Nat) (v : W64) : (k.xSet i v).queue = k.queue := by
  unfold Core.xSet
  split <;> rfl

theorem Core.queue_setTok (k : Core) (i n : Nat) : (k.setTok i n).queue = k.queue := rfl

theorem Core.queue_setMask (k : Core) (i : Nat) (v : W32) : (k.setMask i v).queue = k.queue := rfl

theorem Core.queue_setSum (k : Core) (i : Nat) (v : W64) : (k.setSum i v).queue = k.queue := rfl

theorem Core.queue_tilePut (l : List Byte) : ∀ (k : Core) (o : Nat), (k.tilePut o l).queue = k.queue := by
  induction l with
  | nil => exact fun _ _ => rfl
  | cons b r ih => exact fun k o => ih _ _

theorem Core.queue_foldl {α : Type} (l : List α) {f : Core → α → Core} (hf : ∀ k a, (f k a).queue = k.queue) (k : Core) :
    (l.foldl f k).queue = k.queue :=
  List.foldlRecOn (motive := fun k' : Core => k'.queue = k.queue) l f rfl fun k' h a _ => (hf k' a).trans h

theorem Core.queue_restoreBytes (k : Core) (l : List Byte) : (k.restoreBytes l).queue = k.queue := by
  unfold Core.restoreBytes
  extract_lets k₁ k₂ t k₃ k₄
  have h₁ : k₁.queue = k.queue := rfl
  have h₂ : k₂.queue = k₁.queue := Core.queue_foldl _ (fun _ _ => Core.queue_xSet _ _ _) k₁
  clear_value k₂
  have h₃ : k₃.queue = k₂.queue := Core.queue_foldl _ (fun _ _ => Core.queue_setTok _ _ _) k₂
  clear_value k₃
  have h₄ : k₄.queue = k₃.queue := Core.queue_foldl _ (fun _ _ => Core.queue_setMask _ _ _) k₃
  clear_value k₄
  exact (Core.queue_foldl _ (fun _ _ => Core.queue_setSum _ _ _) k₄).trans (h₄.trans (h₃.trans (h₂.trans h₁)))

/-- The running level of recovery, what it resets, and the levels that wait for it (R383). -/
abbrev Hang.levels (h : Hang) := (h.level, h.due, h.more)

/-- `t` is `s` with no new word in a queue, every context as far in its life, and the audio ports, the safety manager and the
levels of recovery as they were. -/
structure Fewer (s t : State) : Prop where
  life : ∀ i, (t.ctx i).st = (s.ctx i).st ∧ (t.ctx i).gen = (s.ctx i).gen
  words : ∀ c, (s.core c).Fewer (t.core c)
  audio : t.audio = s.audio
  safety : t.safety = s.safety
  levels : t.hang.levels = s.hang.levels

/-- The parts of the state that `Fewer` speaks of. -/
abbrev State.work (s : State) := (s.ctxs, s.cores, s.audio, s.safety, s.hang.levels)

namespace Fewer

variable {s t u : State} {c n : Nat}

theorem of_eq (h : t.work = s.work) : Fewer s t := by
  simp only [State.work, Prod.mk.injEq] at h
  obtain ⟨hCtxs, hCores, hAudio, hSafety, hLevel, hDue, hMore⟩ := h
  refine ⟨fun i => ?_, fun c => ?_, hAudio, hSafety, by rw [Hang.levels, hLevel, hDue, hMore]⟩
  · simp only [State.ctx, hCtxs, and_self]
  · simp only [State.core, hCores]
    exact .refl _

theorem refl (s : State) : Fewer s s := of_eq rfl

theorem trans (a : Fewer s t) (b : Fewer t u) : Fewer s u :=
  ⟨fun i => ⟨(b.life i).1.trans (a.life i).1, (b.life i).2.trans (a.life i).2⟩, fun c => (a.words c).trans (b.words c),
    b.audio.trans a.audio, b.safety.trans a.safety, b.levels.trans a.levels⟩

theorem ite {p : Prop} [Decidable p] (a : Fewer s t) (b : Fewer s u) : Fewer s (if p then t else u) := by
  split
  · exact a
  · exact b

theorem foldl {α : Type} {l : List α} {f : State → α → State} (h : Fewer s t) (hf : ∀ u a, Fewer s u → Fewer s (f u a)) :
    Fewer s (l.foldl f t) := List.foldlRecOn l f h fun u hu a _ => hf u a hu

theorem beside (h : Fewer s t) (b : Beside t u) : Fewer s u :=
  h.trans (of_eq (by rw [b]))

theorem frame (h : Fewer s t) (e : u.work = t.work) : Fewer s u := h.trans (of_eq e)

theorem setCore {k : Core} (h : Fewer s t) (hk : (t.core c).Fewer k) : Fewer s (t.setCore c k) := by
  refine h.trans ⟨fun i => ⟨rfl, rfl⟩, fun j => ?_, rfl, rfl, rfl⟩
  rw [State.core_setCore]
  split
  · next e => exact e ▸ hk
  · exact .refl _

theorem modCore {f : Core → Core} (h : Fewer s t) (hf : (t.core c).Fewer (f (t.core c))) : Fewer s (t.modCore c f) :=
  h.setCore hf

/-- A change of a context beside its state and generation. -/
theorem modCtx {f : Ctx → Ctx} (h : Fewer s t) (hf : ∀ x, (f x).st = x.st ∧ (f x).gen = x.gen) : Fewer s (t.modCtx n f) := by
  refine h.trans ⟨fun i => ?_, fun _ => .refl _, rfl, rfl, rfl⟩
  rw [State.modCtx, State.ctx_setCtx]
  split
  · next e => exact e ▸ hf _
  · exact ⟨rfl, rfl⟩

theorem logEvent {code unit gen status arg0 arg1 : Nat} {ctx : Option Nat} (h : Fewer s t) :
    Fewer s (t.logEvent code unit ctx gen status arg0 arg1) := h.beside (Reports.logEvent (.refl t)).beside

/-! The operations of a quench (R216). -/

theorem writeGroup {region x g : Nat} {codes : List Byte} {sc8 : Byte} (h : Fewer s t) :
    Fewer s (t.writeGroup c region x g codes sc8) := by
  unfold State.writeGroup
  refine modCore ?_ (.of_queues rfl)
  unfold State.keepImage
  exact ite (h.frame rfl) h

theorem cutWord {e : QEntry} (h : Fewer s t) : Fewer s (t.cutWord c e) := by
  unfold State.cutWord
  split
  · exact h
  · exact foldl (h.frame rfl) fun _ _ h => h.writeGroup

theorem cutScan {p : QEntry → Bool} (h : Fewer s t) : Fewer s (t.cutScan c p) := h.foldl fun _ _ h => h.cutWord

/-- The core with the words of context `n`, and all that is kept for it, taken away. -/
theorem core_keep {k k' : Core} (hk : ∀ q, k'.queue q = (k.queue q).filter fun e => e.ctx.val != n) :
    k.Fewer k' ∧ ∀ m : CtxId, m.val = n → k'.Clear m := by
  refine ⟨fun q e he => ⟨e, ?_, rfl⟩, fun m hm q e he hem => ?_⟩
  · rw [hk q] at he
    exact (List.mem_filter.1 he).1
  · rw [hk q] at he
    have := (List.mem_filter.1 he).2
    simp [hem, hm] at this

theorem purgeCore (h : Fewer s t) :
    Fewer s (t.purgeCore c n) ∧ ∀ m : CtxId, m.val = n → ((t.purgeCore c n).core c).Clear m := by
  unfold State.purgeCore
  extract_lets u k keep running k'
  have hu : Fewer s u := h.cutScan
  have hKeep : ∀ q, k'.queue q = (k.queue q).filter fun e => e.ctx.val != n := by
    intro q
    cases q <;> rfl
  split
  · refine ⟨setCore (hu.frame rfl) (core_keep (n := n) fun q => ?_).1, fun m hm => ?_⟩
    · cases q <;> rfl
    · rw [State.core_setCore, if_pos rfl]
      refine (core_keep (k := k) (n := n) fun q => ?_).2 m hm
      cases q <;> rfl
  · obtain ⟨hFewer, hClear⟩ := core_keep hKeep
    refine ⟨setCore hu hFewer, fun m hm => ?_⟩
    rw [State.core_setCore, if_pos rfl]
    exact hClear m hm

theorem abandonCtx (h : Fewer s t) : Fewer s (t.abandonCtx n) := by
  unfold State.abandonCtx
  refine foldl (h.beside (Reports.dropWaiting (.refl t)).beside) fun u e hu => ?_
  split
  · exact ite (hu.beside (Reports.abandonTag (.refl u)).beside) hu
  · exact hu

theorem failReplay (h : Fewer s t) : Fewer s (t.failReplay n) := by
  unfold State.failReplay
  split
  · exact ite (logEvent (h.frame rfl)) h
  · exact h

theorem complete {q : QueueId} {id : W32} {opcode status r0 r1 : Nat} (h : Fewer s t) :
    Fewer s (t.complete q id opcode status r0 r1) := h.frame rfl

theorem quenchDone (h : Fewer s t) : Fewer s (t.quenchDone n) := by
  unfold State.quenchDone
  extract_lets x u v
  have hu : Fewer s u := h.foldl fun _ _ h => h.complete
  have hv : Fewer s v := hu.foldl fun _ _ h => h.complete
  exact modCtx hv fun _ => ⟨rfl, rfl⟩

theorem switchIn (h : Fewer s t) : Fewer s (t.switchIn c n) := by
  unfold State.switchIn
  extract_lets k id sv o area k₁ k₂
  have h₁ : k₁.queue = k.queue := Core.queue_restoreBytes _ _
  have h₂ : k₂.queue = k₁.queue := Core.queue_tilePut _ _ _
  exact ite (h.setCore (.of_queues (h₂.trans h₁))) (h.setCore (.of_queues rfl))

theorem scratchPut {o : Nat} {l : List Byte} (h : Fewer s t) : Fewer s (t.scratchPut c o l) := h.modCore (.of_queues rfl)

theorem switchOut {live pc : Nat} {wait : Option (BitVec 5)} (h : Fewer s t) : Fewer s (t.switchOut c live pc wait) := by
  unfold State.switchOut
  extract_lets k bytes
  split
  · exact h
  · extract_lets o u
    have hu : Fewer s u := h.scratchPut
    clear_value u
    refine modCore hu fun q e he => ?_
    cases q with
    | mover =>
      obtain ⟨d, hd, rfl⟩ := List.mem_map.1 he
      refine ⟨d, hd, ?_⟩
      split <;> rfl
    | _ => exact ⟨e, he, rfl⟩

theorem resolveBeat (h : Fewer s t) : Fewer s (t.resolveBeat c) := by
  unfold State.resolveBeat
  extract_lets k
  split
  · split
    · exact h
    · extract_lets cur late k' u
      have hu : Fewer s u := h.setCore (.of_queues (Core.queue_xSet _ _ _))
      clear_value u
      exact ite (hu.frame rfl) hu
  · exact h

theorem askPreempt (h : Fewer s t) : Fewer s (t.askPreempt c) := h.modCore (.of_queues rfl)

theorem notePreempt {since : W64} (h : Fewer s t) : Fewer s (t.notePreempt since) := by
  unfold State.notePreempt
  extract_lets ns
  clear_value ns
  exact h.beside (Beside.refl t).setReg

theorem resched (h : Fewer s t) : Fewer s (t.resched c) := by
  unfold State.resched
  extract_lets k
  split
  · exact h
  · exact h.switchIn.resolveBeat
  · exact h
  · split
    · refine ite (resolveBeat (h.setCore ?_)) (ite h.askPreempt h.switchOut.switchIn.notePreempt.resolveBeat)
      exact .of_queues rfl
    · exact ite h.askPreempt h

theorem addCause {i cause : Nat} (h : Fewer s t) : Fewer s (t.addCause i cause) := h.frame rfl

end Fewer

theorem Core.clear_default (n : CtxId) : ({} : Core).Clear n := fun q e he => by cases q <;> exact absurd he List.not_mem_nil

/-- A core that the state holds no record of has empty queues. -/
theorem State.core_of_not_any {s : State} {c : Nat} (h : ¬ (s.cores.any fun e => e.1 == c) = true) : s.core c = {} := by
  have hNone : ∀ e ∈ s.cores, e.1 ≠ c := fun e he hc => h (List.any_eq_true.2 ⟨e, he, beq_iff_eq.2 hc⟩)
  unfold State.core
  generalize s.cores = l at hNone
  induction l with
  | nil => rfl
  | cons e l ih =>
    rw [SMap.get, if_neg (hNone e List.mem_cons_self)]
    exact ih fun e he => hNone e (List.mem_cons_of_mem _ he)

/-- One core's part of a quench: a core with no record holds no word. -/
def State.purgeIfKnown (n : Nat) (s : State) (c : Nat) : State := if s.cores.any fun e => e.1 == c then s.purgeCore c n else s

theorem Fewer.purgeIfKnown {s t : State} {n c : Nat} (h : Fewer s t) : Fewer s (t.purgeIfKnown n c) := by
  unfold State.purgeIfKnown
  exact ite h.purgeCore.1 h

theorem State.clear_purgeIfKnown (s : State) (n : CtxId) (c : Nat) : ((s.purgeIfKnown n.val c).core c).Clear n := by
  unfold State.purgeIfKnown
  split
  · exact (Fewer.purgeCore (Fewer.refl s)).2 n rfl
  · next h => exact State.core_of_not_any h ▸ Core.clear_default n

/-- After all 32 cores are purged no queue holds a word of the context. -/
theorem State.clear_purgeAll (s : State) (n : CtxId) {c : Nat} (hc : c < 32) :
    (((List.range 32).foldl (State.purgeIfKnown n.val) s).core c).Clear n :=
  foldl_reaches (P := fun t : State => (t.core c).Clear n) s (List.mem_range.2 hc) (fun t => t.clear_purgeIfKnown n c)
    fun t _ _ h => ((Fewer.refl t).purgeIfKnown.words c).clear h

/-- A context as a quench leaves it (R216). -/
def Ctx.quenched (x : Ctx) : Ctx :=
  { x with st := .quenched, gen := x.gen + 1, cutoff := none, listReady := none, ends := [], cause := 0 }

/-- A quench of a context that is there (R216): its words leave every queue, it is marked, and the rest brings nothing back. -/
theorem State.quenchNow_parts (s : State) (n : Nat) (cause : Nat) (hFree : (s.ctx n).st ≠ .free)
    (hQuenched : (s.ctx n).st ≠ .quenched) :
    ∃ u : State, Fewer s u ∧ (∀ m : CtxId, m.val = n → ∀ c, c < 32 → (u.core c).Clear m) ∧
      Fewer (u.modCtx n Ctx.quenched) (s.quenchNow n cause) := by
  unfold State.quenchNow
  split
  · next h => exact absurd h hFree
  · next h => exact absurd h hQuenched
  · extract_lets s₁ on s₂ s₃ s₄ s₅ s₆ _ s₇ s₈ s₉
    have h₂ : Fewer s s₂ := (Fewer.refl s).logEvent.foldl fun _ _ h => h.purgeIfKnown
    have hClear : ∀ m : CtxId, m.val = n → ∀ c, c < 32 → (s₂.core c).Clear m := fun m hm c hc => by
      subst hm
      exact s₁.clear_purgeAll m hc
    have h₃ : Fewer s₂ s₃ := (Fewer.refl s₂).abandonCtx
    clear_value s₃
    have h₄ : Fewer s₂ s₄ := h₃.frame rfl
    have h₆ : Fewer s₅ s₆ := (Fewer.refl s₅).foldl fun _ _ h => Fewer.ite h.addCause h
    clear_value s₆
    have h₇ : Fewer s₅ s₇ := h₆.frame rfl
    have h₉ : Fewer s₅ s₉ := h₇.failReplay.quenchDone
    exact ⟨s₄, h₂.trans h₄, fun m hm c hc => (h₄.words c).clear (hClear m hm c hc), h₉.foldl fun _ _ h => h.resched⟩

/-- A quench carries its context on and clears its words. -/
theorem State.quenchNow_spec (s : State) (n : CtxId) (cause : Nat) (hFree : (s.ctx n.val).st ≠ .free)
    (hQuenched : (s.ctx n.val).st ≠ .quenched) :
    ((s.quenchNow n.val cause).ctx n.val).st = .quenched ∧
      ((s.quenchNow n.val cause).ctx n.val).gen = (s.ctx n.val).gen + 1 ∧
      ∀ c, c < 32 → ((s.quenchNow n.val cause).core c).Clear n := by
  obtain ⟨u, hu, hClear, hEnd⟩ := s.quenchNow_parts n.val cause hFree hQuenched
  have hMarked : (u.modCtx n.val Ctx.quenched).ctx n.val = (u.ctx n.val).quenched := by rw [State.modCtx, State.ctx_setCtx, if_pos rfl]
  obtain ⟨hSt, hGen⟩ := hEnd.life n.val
  refine ⟨hSt.trans (by rw [hMarked]; rfl), hGen.trans ?_, fun c hc => (hEnd.words c).clear (hClear n rfl c hc)⟩
  rw [hMarked]
  exact congrArg (· + 1) (hu.life n.val).2

theorem State.quenchNow_of_gone {s : State} {n : Nat} (cause : Nat) (h : (s.ctx n).st = .free ∨ (s.ctx n).st = .quenched) :
    s.quenchNow n cause = s := by
  unfold State.quenchNow
  rcases h with h | h <;> simp only [h]

/-- A quench leaves every other context in its state, and the audio ports and the safety manager as they were. -/
theorem State.quenchNow_rest (s : State) (n : Nat) (cause : Nat) :
    (∀ i, i ≠ n → ((s.quenchNow n cause).ctx i).st = (s.ctx i).st) ∧ (s.quenchNow n cause).audio = s.audio ∧
      (s.quenchNow n cause).safety = s.safety := by
  by_cases hGone : (s.ctx n).st = .free ∨ (s.ctx n).st = .quenched
  · rw [State.quenchNow_of_gone cause hGone]
    exact ⟨fun _ _ => rfl, rfl, rfl⟩
  · obtain ⟨hFree, hQuenched⟩ := not_or.1 hGone
    obtain ⟨u, hu, -, hEnd⟩ := s.quenchNow_parts n cause hFree hQuenched
    refine ⟨fun i hi => ?_, hEnd.audio.trans hu.audio, hEnd.safety.trans hu.safety⟩
    have hKept : (u.modCtx n Ctx.quenched).ctx i = u.ctx i := by rw [State.modCtx, State.ctx_setCtx, if_neg hi]
    exact (hEnd.life i).1.trans (hKept ▸ (hu.life i).1)

theorem State.levels_quenchNow (s : State) (n : Nat) (cause : Nat) : (s.quenchNow n cause).hang.levels = s.hang.levels := by
  by_cases hGone : (s.ctx n).st = .free ∨ (s.ctx n).st = .quenched
  · rw [State.quenchNow_of_gone cause hGone]
  · obtain ⟨hFree, hQuenched⟩ := not_or.1 hGone
    obtain ⟨u, hu, -, hEnd⟩ := s.quenchNow_parts n cause hFree hQuenched
    exact hEnd.levels.trans hu.levels

end Sys2Proof.Machine

namespace Sys2Proof.Claims
open Machine

/-- Settles O13: the purge clears the queues of all 32 cores, and nothing after it brings a word back or moves a context on
(`Fewer`). -/
theorem quenchRemovesContext : Obligations.QuenchRemovesContext := by
  refine fun s n cause => ⟨fun h => ?_, fun h => ⟨_, rfl, ?_⟩⟩
  · exact congrArg Host.Outcome.next (State.quenchNow_of_gone _ h)
  · have hFree : (s.ctx n.val).st ≠ .free := by rcases h with h | h | h <;> simp [h]
    have hQuenched : (s.ctx n.val).st ≠ .quenched := by rcases h with h | h | h <;> simp [h]
    obtain ⟨hSt, hGen, hClear⟩ := s.quenchNow_spec n _ hFree hQuenched
    refine ⟨hSt, hGen, fun c q hc => List.all_eq_true.2 fun e he => ?_⟩
    simpa using hClear c hc q e he

end Sys2Proof.Claims

/-! ### Protected regions (R278–R281) -/

namespace Sys2Proof.Machine

/-- The parts of DP load lists and of the register PR_CTRL that a write of bit 0 sets or clears. -/
theorem bitOf_or_one (v : W32) : bitOf (v ||| 1).toNat 0 = true := by
  rw [bitOf_eq_testBit, BitVec.testBit_toNat]
  simp

theorem bitOf_andNot_one (v : W32) : bitOf (v &&& ~~~1).toNat 0 = false := by
  rw [bitOf_eq_testBit, BitVec.testBit_toNat]
  simp

end Sys2Proof.Machine

namespace Sys2Proof.Claims
open Machine

/-- Settles O27: the write of PR_CTRL case by case. -/
theorem protectedRegionsEnable : Obligations.ProtectedRegionsEnable := by
  intro s src n v off
  have hOff : off < 4096 := by
    have : Reg.PR_CTRL = 0x108 := rfl
    have := n.isLt
    omega
  have hNe {o : Nat} (ho : o < 0x108) : off ≠ o := by
    have : Reg.PR_CTRL = 0x108 := rfl
    omega
  have hEnable : exec (.prEnable src n v) s = .next (s.prCtrlWrite src.val n.val (v ||| 1)) := rfl
  have hDisable : exec (.prDisable src n v) s = .next (s.prCtrlWrite src.val n.val (v &&& ~~~1)) := rfl
  have hSet := bitOf_or_one v
  have hClear := bitOf_andNot_one v
  rw [hEnable, hDisable]
  generalize v ||| 1 = x at *
  generalize v &&& ~~~1 = y at *
  have hWord : bitsOf x.toNat 0 16 = x.toNat % 65536 := by simp [bitsOf]
  refine ⟨fun hLocked => ?_, fun hLocked hOn hOk => ?_, fun hLocked hOn hOk => ⟨?_, ?_⟩, fun hLocked hOn => ⟨?_, ?_, ?_⟩⟩
  · simp [State.prCtrlWrite, hLocked, off]
  · simp [State.prCtrlWrite, hLocked, hOn, hOk, hSet, hWord, off]
  · simp [State.prCtrlWrite, hLocked, hOn, hOk, hSet, off]
  · have hReg : (s.writeRefused Page.cache off src.val).reg Page.cache off = s.reg Page.cache off :=
      State.reg_writeRefused_other hOff (hNe (by decide)) (hNe (by decide)) (hNe (by decide)) (hNe (by decide))
    rw [State.prOn, State.flag, hReg]
    exact hOn
  · simp [State.prCtrlWrite, hLocked, hOn, hSet]
  · simp [State.prCtrlWrite, hLocked, hOn, hClear, off]
  · exact State.flag_setFlag_same (by decide) false

end Sys2Proof.Claims

/-! ### The coefficient banks of the direct path (R258, R261) -/

namespace Sys2Proof.Machine

/-- A word of a bank after one was put. -/
theorem DirectPath.word_put (d : DirectPath) (b b' : Bool) (i j : Nat) (v : W32) :
    (d.put b i v).word b' j = if j = i ∧ b' = b then v else d.word b' j := by
  have hDflt : (d.put b i v).dflt = d.dflt := by
    unfold DirectPath.put DirectPath.dflt
    cases b <;> simp only [Bool.false_eq_true, if_false, if_true] <;> split_ifs <;> rfl
  by_cases hji : j = i
  · subst hji
    unfold DirectPath.word
    rw [hDflt]
    unfold DirectPath.put
    cases b <;> cases b' <;> simp only [Bool.false_eq_true, if_false, if_true] <;> split_ifs <;> simp_all
  · rw [if_neg fun e => hji e.1]
    unfold DirectPath.word
    rw [hDflt]
    unfold DirectPath.put
    cases b <;> cases b' <;> simp only [Bool.false_eq_true, if_false, if_true] <;> split_ifs <;>
      simp (disch := omega) only [SMap.get_set_other]

end Sys2Proof.Machine

namespace Sys2Proof.Machine

/-- A bank's words copied into the other bank are there afterwards, and the bank stays. -/
theorem DirectPath.word_copy (d : DirectPath) (b : Bool) (l : List Nat) :
    (∀ j, (l.foldl (fun d i => d.put (!b) i (d.word b i)) d).word b j = d.word b j) ∧
      ∀ i ∈ l, (l.foldl (fun d i => d.put (!b) i (d.word b i)) d).word (!b) i = d.word b i := by
  have hSame (e : DirectPath) (i j : Nat) : (e.put (!b) i (e.word b i)).word b j = e.word b j := by
    rw [DirectPath.word_put, if_neg]
    exact fun h => by cases b <;> exact absurd h.2 (by decide)
  induction l generalizing d with
  | nil => exact ⟨fun _ => rfl, fun _ h => absurd h List.not_mem_nil⟩
  | cons i l ih =>
    obtain ⟨hKept, hCopied⟩ := ih (d.put (!b) i (d.word b i))
    refine ⟨fun j => (hKept j).trans (hSame d i j), fun j hj => ?_⟩
    by_cases hjl : j ∈ l
    · exact (hCopied j hjl).trans (hSame d i j)
    · obtain rfl : j = i := (List.mem_cons.1 hj).resolve_right hjl
      have hStays (e : DirectPath) (m : List Nat) (hm : j ∉ m) :
          (m.foldl (fun d i => d.put (!b) i (d.word b i)) e).word (!b) j = e.word (!b) j :=
        List.foldlRecOn (motive := fun d : DirectPath => d.word (!b) j = e.word (!b) j) m _ rfl fun d h i hi => by
          rw [DirectPath.word_put, if_neg fun hji : j = i ∧ _ => hm (hji.1 ▸ hi), h]
      rw [List.foldl_cons, hStays _ l hjl, DirectPath.word_put, if_pos ⟨rfl, rfl⟩]

theorem DirectPath.word_resync (d : DirectPath) (r : BitVec 24) (b : Bool) (i : Nat) :
    ({ d with resync := r } : DirectPath).word b i = d.word b i := rfl

/-- The state after the resync of output `o` (R261). -/
def State.resynced (s : State) (o : Nat) : State :=
  let b := s.dpBank o
  let d := (s.dpOwned o).foldl (fun d i => d.put (!b) i (d.word b i)) s.dp
  { s with dp := { d with resync := d.resync &&& ~~~(BitVec.ofNat 24 (2 ^ o)) } }

/-- A stopped list leaves its cause and its record in DP_LOAD_ERR (R259). -/
theorem State.loadErr_fields (s : State) (c n : Nat) :
    ((s.setFld Page.dpMain Reg.DP_LOAD_ERR 0 4 c).setFld Page.dpMain Reg.DP_LOAD_ERR 4 16 n).fld Page.dpMain Reg.DP_LOAD_ERR 0 4 =
        c % 16 ∧
      ((s.setFld Page.dpMain Reg.DP_LOAD_ERR 0 4 c).setFld Page.dpMain Reg.DP_LOAD_ERR 4 16 n).fld Page.dpMain Reg.DP_LOAD_ERR 4 16 =
        n % 65536 :=
  ⟨(State.fld_setFld_beside (by decide) (by decide)).trans (State.fld_setFld_same (by decide)),
    State.fld_setFld_same (by decide)⟩

end Sys2Proof.Machine

namespace Sys2Proof.Claims
open Machine

/-- Settles O23: the commands case by case, and `word_copy` for the resync. -/
theorem loadListsRun : Obligations.LoadListsRun := by
  intro s src w x queued
  refine ⟨fun hLen => ?_, fun hNone hNode => ?_, fun hLen => ?_, fun x rest hLoads hLeft => ?_, fun o hOn => ?_⟩
  · show Host.Outcome.next s.dpLoadGo = _
    unfold State.dpLoadGo
    rw [if_neg (by omega)]
  · unfold State.askList
    have hQueued : queued.dp.loads = [x] := by simp only [queued, hNone, List.nil_append]
    have hHere : (x.asked || nodeOf x.addr == queued.node) = true := by
      rw [Bool.or_eq_true, beq_iff_eq]
      exact .inr hNode
    rw [hQueued]
    simp only [hHere, if_true]
  · show Host.Outcome.next s.dpLoadGo = _
    unfold State.dpLoadGo
    rw [if_pos hLen]
  · intro got run
    have hExec (t : W64) : exec (.loadListDone t) s = execLoadListDone t s := rfl
    refine ⟨fun t hResync => ?_, fun t hFree => ?_⟩
    · rw [hExec]
      unfold execLoadListDone
      simp only [hLoads, hLeft]
      exact if_pos hResync
    · intro u
      refine ⟨?_, fun hEnd o ho => ?_, fun c n hStop => ?_⟩
      · rw [hExec]
        unfold execLoadListDone
        simp only [hLoads, hLeft]
        exact if_neg (Bool.eq_false_iff.1 hFree)
      · simp only [u, State.loadEnd, hEnd, State.markReady, BitVec.getLsbD_or, ho, Bool.or_true]
      · simp only [u, State.loadEnd, hStop]
        exact State.loadErr_fields _ c n
  · obtain ⟨-, hCopied⟩ := DirectPath.word_copy s.dp (s.dpBank o.val) (s.dpOwned o.val)
    have hRun : exec (.resyncDone o) s = .next (s.resynced o.val) := by
      show execResyncDone o s = _
      unfold execResyncDone
      simp only [hOn]
      rfl
    refine ⟨s.resynced o.val, hRun, ?_, rfl, fun i hi => ?_⟩
    rotate_left
    · exact (DirectPath.word_resync _ _ _ _).trans (hCopied i hi)
    have hBit : (BitVec.ofNat 24 (2 ^ o.val)).getLsbD o.val = true := by
      rw [BitVec.getLsbD_ofNat, Nat.testBit_two_pow_self]
      simp
    show (_ &&& ~~~_ : BitVec 24).getLsbD o.val = false
    rw [BitVec.getLsbD_and, BitVec.getLsbD_not, hBit]
    simp

end Sys2Proof.Claims

/-! ### What stays of a link while others are told that it is gone (R332) -/

namespace Sys2Proof.Machine

/-- A register that neither a report nor the failure of a transaction or of the partner writes. -/
def told (p o : Nat) : Bool := quiet p o && o != Reg.MV_FAIL && o != Reg.QM_PUSH_COUNT && o != Reg.SF_FAULT

/-- `t` is `s` with transactions failed and events reported: every link, every power domain and every register that `told`
names stay. -/
structure LinksStay (s t : State) : Prop where
  links : t.fab.links = s.fab.links
  reg : ∀ {p o : Nat}, o < 4096 → told p o = true → t.reg p o = s.reg p o
  power : t.power = s.power

theorem quiet_of_told {p o : Nat} (h : told p o = true) : quiet p o = true := by
  simp only [told, Bool.and_eq_true] at h
  exact h.1.1.1

namespace LinksStay

variable {s t u : State}

theorem refl (s : State) : LinksStay s s := ⟨rfl, fun _ _ => rfl, rfl⟩

theorem trans (a : LinksStay s t) (b : LinksStay t u) : LinksStay s u :=
  ⟨b.links.trans a.links, fun ho hq => (b.reg ho hq).trans (a.reg ho hq), b.power.trans a.power⟩

theorem ite {c : Prop} [Decidable c] (a : LinksStay s t) (b : LinksStay s u) : LinksStay s (if c then t else u) := by
  split
  · exact a
  · exact b

theorem foldl {α : Type} {l : List α} {f : State → α → State} (h : LinksStay s t)
    (hf : ∀ u, ∀ a ∈ l, LinksStay s u → LinksStay s (f u a)) : LinksStay s (l.foldl f t) :=
  List.foldlRecOn l f h fun u hu a ha => hf u a ha hu

theorem frame (h : LinksStay s t) (hLinks : u.fab.links = t.fab.links) (hRegs : u.regs = t.regs)
    (hPower : u.power = t.power := by rfl) : LinksStay s u :=
  h.trans ⟨hLinks, fun _ _ => by rw [State.reg, hRegs, State.reg], hPower⟩

theorem reports (h : LinksStay s t) (r : Reports t u) : LinksStay s u :=
  h.trans ⟨r.beside.links, fun ho hq => r.reg ho (quiet_of_told hq), r.beside.power⟩

theorem setReg {page o : Nat} {v : W32} (h : LinksStay s t) (ho : o < 4096) (hNot : ∀ p, told p o = false) :
    LinksStay s (t.setReg page o v) := by
  refine h.trans ⟨rfl, fun {p o'} ho' hq => State.reg_setReg_off ho ho' fun e => ?_, rfl⟩
  rw [e, hNot] at hq
  exact absurd hq (by decide)

theorem modStream {i : Nat} {f : Stream → Stream} (h : LinksStay s t) : LinksStay s (t.modStream i f) := h.frame rfl rfl

theorem modCore {c : Nat} {f : Core → Core} (h : LinksStay s t) : LinksStay s (t.modCore c f) := h.frame rfl rfl

theorem modQueue {q : Nat} {f : Queue → Queue} (h : LinksStay s t) : LinksStay s (t.modQueue q f) := h.frame rfl rfl

theorem copyFailed {i o : Nat} (h : LinksStay s t) : LinksStay s (t.copyFailed i o) := by
  unfold State.copyFailed
  exact ite h.modStream h.modStream.modStream

theorem endWaits {f : WaitRec → Bool} (h : LinksStay s t) : LinksStay s (t.endWaits f) := h.frame rfl rfl

theorem latchFail {c n status : Nat} (h : LinksStay s t) : LinksStay s (t.latchFail c n status) :=
  h.modCore.setReg (by decide) fun _ => by simp [told]

theorem noteEntry {q : Nat} (h : LinksStay s t) : LinksStay s (t.noteEntry q) := by
  unfold State.noteEntry
  exact ite (h.frame rfl rfl) h

theorem slotDone {q : Nat} {pushed : Bool} (h : LinksStay s t) : LinksStay s (t.slotDone q pushed) := by
  unfold State.slotDone
  exact ite h (noteEntry (ite (h.modQueue.setReg (by decide) fun _ => by simp [told]) h.modQueue))

theorem respond {p : Packet} {ttype status : Nat} {operand : W64} {data : List Byte} (h : LinksStay s t) :
    LinksStay s (t.respond p ttype status operand data) := h.reports (Reports.refl t).send

theorem slotsDone {fuel : Nat} (h : LinksStay s t) : LinksStay s (t.slotsDone fuel) := by
  induction fuel generalizing t with
  | zero => exact h
  | succ fuel ih =>
    unfold State.slotsDone
    split
    · exact h
    · next w _ =>
      extract_lets m u v
      have hu : LinksStay s u := slotDone (h.frame rfl rfl)
      have hv : LinksStay s v := hu.frame rfl rfl
      refine ih ?_
      split
      · exact hv.respond
      · exact hv

theorem slotAcked {serial : Nat} (h : LinksStay s t) : LinksStay s (t.slotAcked serial) := slotsDone (h.frame rfl rfl)

theorem dumpLanded {serial st : Nat} (h : LinksStay s t) : LinksStay s (t.dumpLanded serial st) := by
  unfold State.dumpLanded
  split
  · split
    · exact ite h (h.frame rfl rfl)
    · exact h
  · exact h

theorem txnFailed {x : Tag} {status : Nat} (h : LinksStay s t) : LinksStay s (t.txnFailed x status) := by
  unfold State.txnFailed
  split
  · exact h.copyFailed
  · extract_lets u
    have hu : LinksStay s u := h.endWaits
    split
    · exact hu.latchFail
    · exact hu
  · exact h
  · exact h.frame rfl rfl
  · exact h.frame rfl rfl
  · exact h.frame rfl rfl
  · exact h.slotAcked
  · exact h.dumpLanded
  · split
    · exact h.latchFail
    · exact h

theorem failTag {i status : Nat} (h : LinksStay s t) : LinksStay s (t.failTag i status) := by
  unfold State.failTag
  split
  · exact h
  · exact txnFailed (h.reports (Reports.refl t).abandonTag)

theorem failTags {f : Tag → Bool} {status : Nat} (h : LinksStay s t) : LinksStay s (t.failTags f status) := by
  unfold State.failTags
  extract_lets gone u v
  have hu : LinksStay s u := h.reports (Reports.refl t).dropWaiting
  have hv : LinksStay s v := hu.foldl fun w e _ hw => by
    split
    · exact ite hw.failTag hw
    · exact hw
  exact hv.foldl fun _ _ _ hw => hw.txnFailed

theorem refuse {p : Packet} {status : Nat} (h : LinksStay s t) : LinksStay s (t.refuse p status) := by
  unfold State.refuse
  split
  · exact h.reports (Reports.refl t).send
  · exact h

theorem requestQuench {n cause : Nat} (h : LinksStay s t) : LinksStay s (t.requestQuench n cause) := by
  unfold State.requestQuench
  split
  · exact h.frame rfl rfl
  · exact h.frame rfl rfl
  · exact h

theorem raiseMech {m : Nat} {ctx : Option Nat} (h : LinksStay s t) (hm : m < 32) : LinksStay s (t.raiseMech m ctx) := by
  unfold State.raiseMech
  extract_lets a b _ u _
  have ha : LinksStay s a := h.setReg (by decide) fun _ => by simp [told]
  have hb : LinksStay s b := ha.reports (Reports.refl a).logEvent
  clear_value b
  have hu : LinksStay s u := ite (hb.frame rfl rfl) hb
  clear_value u
  split
  · exact hu
  · exact hu.frame rfl rfl
  · exact hu.requestQuench
  · exact hu.reports ((Reports.refl u).irq hm)

theorem declareFailed (h : LinksStay s t) : LinksStay s t.declareFailed := by
  unfold State.declareFailed
  exact ite h (raiseMech (h.frame rfl rfl) (by decide))

end LinksStay

/-- A node marked DOWN (R329): beside its place in FB_PEER all is as in the failure of its transactions. -/
theorem State.markDown_told (s : State) (n : Nat) :
    LinksStay (s.setFlag Page.fabric (Reg.FB_PEER + 4 * n) 8 false) (s.markDown n) := by
  unfold State.markDown
  extract_lets bg u fab v w x
  have hv : LinksStay u v := .ite (.refl u) ((LinksStay.refl u).frame rfl rfl)
  have hw : LinksStay u w := hv.failTags
  have hx : LinksStay u x := hw.reports (Reports.refl w).logEvent
  exact .ite hx.declareFailed hx

/-- Every link, every count of ports gone DOWN and every power domain is in `t` as in `s`. -/
structure DownsStay (s t : State) : Prop where
  links : t.fab.links = s.fab.links
  counts : ∀ p : PortId, t.reg (Page.link p.val) Reg.KL_DOWN_COUNT = s.reg (Page.link p.val) Reg.KL_DOWN_COUNT
  power : t.power = s.power

namespace DownsStay

variable {s t u : State}

theorem trans (a : DownsStay s t) (b : DownsStay t u) : DownsStay s u :=
  ⟨b.links.trans a.links, fun p => (b.counts p).trans (a.counts p), b.power.trans a.power⟩

theorem ite {c : Prop} [Decidable c] (a : DownsStay s t) (b : DownsStay s u) : DownsStay s (if c then t else u) := by
  split
  · exact a
  · exact b

theorem of_told (h : LinksStay s t) : DownsStay s t := by
  have hTold : ∀ p : PortId, told (Page.link p.val) Reg.KL_DOWN_COUNT = true := by decide
  exact ⟨h.links, fun p => h.reg (by decide) (hTold p), h.power⟩

theorem frame (h : DownsStay s t) (hLinks : u.fab.links = t.fab.links) (hRegs : u.regs = t.regs)
    (hPower : u.power = t.power := by rfl) : DownsStay s u :=
  h.trans (of_told ((LinksStay.refl t).frame hLinks hRegs hPower))

theorem reports (h : DownsStay s t) (r : Reports t u) : DownsStay s u := h.trans (of_told ((LinksStay.refl t).reports r))

theorem markDown {n : Nat} (h : DownsStay s t) (hn : n < 32) : DownsStay s (t.markDown n) := by
  have hOff : Reg.FB_PEER + 4 * n < 4096 ∧ Reg.KL_DOWN_COUNT ≠ Reg.FB_PEER + 4 * n := by
    have : Reg.FB_PEER = 0x180 := rfl
    have : Reg.KL_DOWN_COUNT = 0x058 := rfl
    omega
  have hFlag : DownsStay t (t.setFlag Page.fabric (Reg.FB_PEER + 4 * n) 8 false) :=
    ⟨rfl, fun _ => State.reg_setFlag_off hOff.1 (by decide) hOff.2, rfl⟩
  exact h.trans (hFlag.trans (of_told (t.markDown_told n)))

theorem sendNodeDown {n : Nat} (h : DownsStay s t) (hn : n < 32) : DownsStay s (t.sendNodeDown n) := by
  unfold State.sendNodeDown State.nodeDownAct
  have hSent {p : Packet} : DownsStay s (t.broadcast 0 p) := h.reports (Reports.refl t).broadcast
  exact ite hSent (hSent.markDown hn)

theorem peerLostAct {who n cause : Nat} (h : DownsStay s t) (hn : n < 32) : DownsStay s (t.peerLostAct who n cause) := by
  unfold State.peerLostAct
  extract_lets u fab v adj cnt reports
  have hu : DownsStay s u := ite (h.markDown hn) h
  have hv : DownsStay s v := hu.frame rfl rfl
  exact ite h (ite hu (ite (hu.sendNodeDown hn) (ite (hv.sendNodeDown hn) hv)))

end DownsStay

variable {s : State}

theorem State.neighbour_lt (p : Nat) : s.neighbour p < 32 := by
  unfold State.neighbour
  extract_lets l
  split
  · split
    · exact BitVec.isLt _
    · decide
  · decide

/-- When a port in state `st` of its bring-up gives up (R301). -/
def Link.timeUp (l : Link) (st : Nat) : W64 :=
  match st with
  | 1 => l.upSince + 256000000
  | 2 => l.upSince + 10240000000
  | 3 => l.since + 5120000
  | _ => l.since + 2560000

theorem Link.bound_eq_timeUp (l : Link) : l.bound = l.timeUp l.st := by
  have h1 : BitVec.ofNat 64 (usTb 1000) = 256000000 := by decide
  have h2 : BitVec.ofNat 64 (usTb 40000) = 10240000000 := by decide
  have h3 : BitVec.ofNat 64 (usTb 20) = 5120000 := by decide
  have h4 : BitVec.ofNat 64 (usTb 10) = 2560000 := by decide
  unfold Link.bound
  rw [h1, h2, h3, h4]
  rfl

/-- What a port that goes DOWN is left with (R301). -/
def Link.down (l : Link) (now : W64) (cause : DownCause) : Link :=
  { l with
    st := 8, since := now, cause := cause, peerHeard := false, rxBuf := [], rxLens := [], pdelayAt := none, replay := [],
    nakSent := false, replays := 0, credits := [], owed := [], sending := [], encOn := false, keys := none, txCount := 0,
    rxCount := 0, offer := none, myOffer := [], eph := 0, peerKey := [], pdelayT1 := none }

/-- A port that was not OFF nor DOWN goes DOWN and is counted; telling the others of it leaves every link (R301, R332). -/
theorem State.goDown_stays (p : PortId) (cause : DownCause) (h0 : (s.link p.val).st ≠ 0) (h8 : (s.link p.val).st ≠ 8) :
    DownsStay ((s.setLink p.val ((s.link p.val).down s.now cause)).count (Page.link p.val) Reg.KL_DOWN_COUNT)
      (s.goDown p.val cause) := by
  have hn := s.neighbour_lt p.val
  unfold State.goDown
  extract_lets l up n a b waiting fab c status d e code pk
  have hc : LinksStay b c := (LinksStay.refl b).frame rfl rfl
  have hd : LinksStay b d := hc.failTags
  have he : LinksStay b e := hd.foldl fun u q _ hu => .ite hu hu.refuse
  rw [if_neg (not_or.2 ⟨h0, h8⟩)]
  exact .ite (.of_told hc) (.ite (.of_told he) (DownsStay.peerLostAct (.of_told (he.reports (Reports.refl e).broadcast)) hn))

end Sys2Proof.Machine

namespace Sys2Proof.Claims
open Machine

/-- Settles O30: each command's condition, and for what DOWN leaves the link as `goDown` sets it, which nothing after it
changes (`DownsStay`). -/
theorem portsGoDownWithCause : Obligations.PortsGoDownWithCause := by
  intro s p l
  refine ⟨fun _ => rfl, fun h => if_pos h, fun st hLo hHi hSt => ?_, fun h cause code hCode hControls hFec => ?_,
    fun src hOn => congrArg _ (if_pos hOn), fun hEnc hCount => if_pos ⟨hEnc, hCount⟩, fun vc q hEnc => ?_, fun cause h0 h8 => ?_⟩
  · show (if 1 ≤ l.st ∧ l.st ≤ 4 then Host.Outcome.next ((s.reach l.bound).goDown p.val .trainFail) else _) =
      .next ((s.reach (l.timeUp st)).goDown p.val .trainFail)
    rw [if_pos (by omega), l.bound_eq_timeUp, hSt]
  · show execLinkReset p _ s = _
    simp only [execLinkReset, hCode, State.goodControl]
    rw [show (s.link p.val).controls = true from hControls]
    simp only [hFec]
    rfl
  · intro fails t
    have hExec : exec (.authFail p vc q) s = .next (if 4 ≤ fails.length then t.goDown p.val .auth else t) := by
      show Host.Outcome.next (if (!l.encOn) = true then s else if 4 ≤ fails.length then t.goDown p.val .auth else t) = _
      rw [hEnc]
      rfl
    rw [hExec]
    exact ⟨fun h => by rw [if_neg (by omega)], fun h => by rw [if_pos h]⟩
  · intro d
    have hStays := s.goDown_stays p cause h0 h8
    have hd : d = l.down s.now cause := by
      have hSame : (s.setLink p.val (l.down s.now cause)).link p.val = l.down s.now cause := by rw [State.link_setLink, if_pos rfl]
      exact (congrArg (fun m : SMap Link => SMap.get m p.val {}) hStays.links).trans hSame
    refine ⟨by rw [hd]; rfl, by rw [hd]; rfl, by rw [hd]; rfl, by rw [hd]; rfl, by rw [hd]; rfl, by rw [hd]; rfl, by rw [hd]; rfl,
      fun hCount => ?_⟩
    exact (hStays.counts p).trans (State.reg_count_same hCount)

end Sys2Proof.Claims

/-! ### Packets that arrive and go on (R315, R322) -/

namespace Sys2Proof.Machine
open Claims

variable {s : State} {port vc : Nat} {p : Packet}

/-- A sender that is known, or has no number yet, teaches nothing (R329). -/
theorem State.learn_of_known (h : p.src = 31 ∨ s.fab.known.contains p.src.toNat = true) : s.learn p = s := by
  refine if_pos (h.imp (fun e => ?_) id)
  rw [e]
  rfl

theorem State.arrive_of_hop (h : DeliveredByHop s port vc p) : s.arrive port vc p = (.deliver, s) := by
  obtain ⟨⟨hUp, hEnc, hMal, hGen, hKnown, hHops⟩, hHop⟩ := h
  have hHops' : p.hops ≠ 31#5 := hHops
  unfold State.arrive
  simp [hUp, hEnc, hMal, hGen, State.learn_of_known hKnown, hHops', hHop]

/-- A broadcast that comes the right way is delivered and sent on. -/
theorem State.arrive_of_all (h : DeliveredToAll s port vc p) : s.arrive port vc p = (.deliver, s.copyOn port vc p) := by
  obtain ⟨⟨hUp, hEnc, hMal, hGen, hKnown, hHops⟩, hHop, hNoRsp, hDst, hRoute, hSync⟩ := h
  have hSync' : p.ttype.toNat ≠ 0x30 := fun e => hSync (BitVec.eq_of_toNat_eq e)
  have hHops' : p.hops ≠ 31#5 := hHops
  unfold State.arrive
  simp [hUp, hEnc, hMal, hGen, State.learn_of_known hKnown, hHops', hHop, hNoRsp, hDst, hRoute, hSync']

theorem State.copyOn_reports (s : State) (port vc : Nat) (p : Packet) : Reports s (s.copyOn port vc p) :=
  List.foldlRecOn [0, 1, 2, 3] _ (Reports.refl s) fun _ hb _ _ => Reports.ite hb.emit hb

/-! ### The place of this device (R323) -/

/-- This device's own ID, and the port to the bridge, are in `t` as in `s`. -/
def SamePlace (s t : State) : Prop :=
  t.fab.nodeId = s.fab.nodeId ∧ t.fab.enumerated = s.fab.enumerated ∧ t.fab.upstream = s.fab.upstream

namespace SamePlace

variable {s t u : State}

theorem refl (s : State) : SamePlace s s := ⟨rfl, rfl, rfl⟩

theorem trans (a : SamePlace s t) (b : SamePlace t u) : SamePlace s u :=
  ⟨b.1.trans a.1, b.2.1.trans a.2.1, b.2.2.trans a.2.2⟩

theorem ite {c : Prop} [Decidable c] (a : SamePlace s t) (b : SamePlace s u) : SamePlace s (if c then t else u) := by
  split
  · exact a
  · exact b

theorem of_beside (h : Beside s t) : SamePlace s t := by
  rw [h]
  exact ⟨rfl, rfl, rfl⟩

theorem nodeUpAct {n : Nat} {bgen : Byte} {data : List Byte} (h : SamePlace s t) : SamePlace s (t.nodeUpAct n bgen data) := by
  unfold State.nodeUpAct
  extract_lets old u fab v w pair
  have hu : SamePlace s u := h.trans (of_beside (Beside.refl t).setReg)
  have hv : SamePlace s v := hu.trans ⟨rfl, rfl, rfl⟩
  have hw : SamePlace s w := ite (hv.trans (of_beside (Beside.refl v).setReg)) hv
  clear_value w
  exact ite h (ite (hw.trans ⟨rfl, rfl, rfl⟩) hw)

theorem announce (h : SamePlace s t) : SamePlace s t.announce := by
  unfold State.announce
  exact ite h (nodeUpAct (h.trans (of_beside (Reports.refl t).broadcast.beside)))

theorem walkDone {w : Walk} (h : SamePlace s t) : SamePlace s (t.walkDone w) := by
  unfold State.walkDone
  extract_lets fab u pk fab' v
  have hu : SamePlace s u := h.trans ⟨rfl, rfl, rfl⟩
  clear_value u
  have hv : SamePlace s v := by
    unfold v
    split
    · exact hu.trans (of_beside (Reports.refl u).emit.beside)
    · exact hu.trans ⟨rfl, rfl, rfl⟩
  exact hv.announce

theorem walkStep {w : Walk} (h : SamePlace s t) : SamePlace s (t.walkStep w) := by
  unfold State.walkStep
  split
  · exact h.trans ⟨rfl, rfl, rfl⟩
  · exact h.walkDone

theorem setRoute {n k : Nat} (h : SamePlace s t) : SamePlace s (t.setRoute n k) := h.trans (of_beside (Beside.refl t).setFld)

theorem routesTo {k : Nat} (h : SamePlace s t) : SamePlace s (t.routesTo k) := by
  unfold State.routesTo
  exact setRoute (List.foldlRecOn (motive := SamePlace s) _ _ h fun _ hu _ _ => hu.setRoute)

end SamePlace

/-- A device that takes an ID keeps it while it walks on. -/
theorem State.enumTake_place (hNew : s.fab.enumerated = false) (hRoom : p.operand.toNat % 32 ≠ 31) :
    (s.enumTake port p).fab.nodeId = p.operand.toNat % 32 ∧ (s.enumTake port p).fab.enumerated = true ∧
      (s.enumTake port p).fab.upstream = port := by
  unfold State.enumTake
  extract_lets t next pk answer fab a b c
  have ht : t.fab.enumerated = s.fab.enumerated := by
    unfold t State.learnPeer
    split <;> rfl
  have hb : SamePlace a b := List.foldlRecOn (motive := SamePlace a) _ _ (.refl a) fun u hu _ _ =>
    .ite (hu.trans ⟨rfl, rfl, rfl⟩) hu
  have hPlace {u : State} (h : SamePlace a u) :
      u.fab.nodeId = p.operand.toNat % 32 ∧ u.fab.enumerated = true ∧ u.fab.upstream = port := h
  have hc : SamePlace a c := hb.routesTo
  clear_value c
  rw [ht, hNew, if_neg Bool.false_ne_true, if_neg hRoom]
  exact hPlace hc.walkStep

/-! ### Nodes that are UP and DOWN (R329) -/

theorem fbPeer_place {n : Nat} (hn : n < 31) : Reg.FB_PEER + 4 * n < 4096 ∧ told Page.fabric (Reg.FB_PEER + 4 * n) = true := by
  have : Reg.FB_PEER = 0x180 := rfl
  refine ⟨by omega, ?_⟩
  have hAll : ∀ n : Fin 31, told Page.fabric (Reg.FB_PEER + 4 * n.val) = true := by decide
  exact hAll ⟨n, hn⟩

theorem State.peerUp_nodeDownAct {n : Nat} (hn : n < 31) (hNode : n ≠ s.node) : (s.nodeDownAct n).peerUp n = false := by
  obtain ⟨hOff, hTold⟩ := fbPeer_place hn
  have hReg := (s.markDown_told n).reg hOff hTold
  rw [State.nodeDownAct, if_neg (by omega), State.peerUp, State.flag, hReg]
  exact State.flag_setFlag_same (by decide) false

/-- The rest of a NODE_UP leaves FB_PEER as it was set. -/
theorem State.fbPeer_nodeUpAct {n : Nat} (hn : n < 31) (bgen : Byte) (data : List Byte) :
    (s.nodeUpAct n bgen data).reg Page.fabric (Reg.FB_PEER + 4 * n) = BitVec.ofNat 32 (bgen.toNat + 256) := by
  have hOffs : Reg.FB_PEER + 4 * n < 4096 ∧ Reg.FB_ADJ + 4 * n < 4096 ∧ Reg.FB_PEER + 4 * n ≠ Reg.FB_ADJ + 4 * n := by
    have : Reg.FB_PEER = 0x180 := rfl
    have : Reg.FB_ADJ = 0x200 := rfl
    omega
  unfold State.nodeUpAct
  extract_lets old u fab v w pair
  have hv : v.reg Page.fabric (Reg.FB_PEER + 4 * n) = BitVec.ofNat 32 (bgen.toNat + 256) := State.reg_setReg_same _ _ _ _
  have hw : w.reg Page.fabric (Reg.FB_PEER + 4 * n) = BitVec.ofNat 32 (bgen.toNat + 256) := by
    unfold w
    split
    · rw [State.reg_setReg_off hOffs.2.1 hOffs.1 hOffs.2.2, hv]
    · exact hv
  rw [if_neg (by omega)]
  split
  · exact hw
  · exact hw

theorem State.peer_nodeUpAct {n : Nat} (hn : n < 31) (bgen : Byte) (data : List Byte) :
    (s.nodeUpAct n bgen data).peerUp n = true ∧ (s.nodeUpAct n bgen data).peerBgen n = bgen.toNat := by
  have hFields : ∀ b : Byte, bitOf (BitVec.ofNat 32 (b.toNat + 256)).toNat 8 = true ∧
      bitsOf (BitVec.ofNat 32 (b.toNat + 256)).toNat 0 8 = b.toNat := fun b => by
    have := b.isLt
    simp only [BitVec.toNat_ofNat, bitOf, bitsOf, beq_iff_eq]
    omega
  simp only [State.peerUp, State.peerBgen, State.flag, State.fld, State.fbPeer_nodeUpAct hn]
  exact hFields bgen

end Sys2Proof.Machine

namespace Sys2Proof.Machine

variable {s : State} {port : PortId} {vc : Fin 8} {p : Packet}

theorem State.enumerated_learnPeer (s : State) (k : Nat) (p : Packet) : (s.learnPeer k p).fab.enumerated = s.fab.enumerated := by
  unfold State.learnPeer
  split <;> rfl

theorem State.walk_learnPeer (s : State) (k : Nat) (p : Packet) : (s.learnPeer k p).fab.walk = s.fab.walk := by
  unfold State.learnPeer
  split <;> rfl

/-- A device that has an ID answers an ENUM at once (R323). -/
theorem State.enumTake_of_enumerated (h : s.fab.enumerated = true) (k : Nat) (p : Packet) :
    s.enumTake k p = (s.learnPeer k p).emit k 0 { (s.learnPeer k p).newPacket 0x61 p.src.toNat with
      tag := p.tag, operand := BitVec.ofNat 64 (p.operand.toNat % 32) } := by
  unfold State.enumTake
  extract_lets t next pk answer fab a b c
  rw [State.enumerated_learnPeer, h, if_pos rfl]
  rfl

theorem State.route_setRoute_same (n k : Nat) : (s.setRoute n k).route n = k % 8 := State.fld_setFld_same (by decide)

theorem State.reg_setRoute_other {n k q o : Nat} (hn : Reg.FB_ROUTE + 4 * n < 4096) (ho : o < 4096) (h : o ≠ Reg.FB_ROUTE + 4 * n) :
    (s.setRoute n k).reg q o = s.reg q o := State.reg_setFld_off hn ho h

/-- The state after a HOST_SWITCH made standby port `i` the active host port (R325). -/
def State.switchedTo (s : State) (i : Nat) : State :=
  let t := { s.modLink i fun l => { l with st := 6 } with fab := { s.fab with hostPort := i, hostActive := true } }
  let t := (t.modLink i fun l => { l with st := 6 }).setRoute 0 i
  t.broadcast 0 (t.newPacket 0x56 31)

theorem State.switchedTo_spec (s : State) (i : PortId) :
    (s.switchedTo i.val).fab.hostPort = i.val ∧ (s.switchedTo i.val).fab.hostActive = true ∧
      ((s.switchedTo i.val).link i.val).st = 6 ∧ (s.switchedTo i.val).route 0 = i.val := by
  unfold State.switchedTo
  extract_lets m fab t u
  have hu : u.fab.hostPort = i.val ∧ u.fab.hostActive = true ∧ (u.link i.val).st = 6 ∧ u.route 0 = i.val := by
    refine ⟨rfl, rfl, ?_, (State.route_setRoute_same _ _).trans (Nat.mod_eq_of_lt (by omega))⟩
    show ((t.modLink i.val fun l => { l with st := 6 }).link i.val).st = 6
    rw [State.modLink, State.link_setLink, if_pos rfl]
  have hSent : Reports u (u.broadcast 0 (u.newPacket 0x56 31)) := (Reports.refl u).broadcast
  obtain ⟨hPort, hActive, hSt, hRoute⟩ := hu
  have hBeside := hSent.beside
  refine ⟨by rw [hBeside, ← hPort], by rw [hBeside, ← hActive], by rw [hBeside.link, hSt], ?_⟩
  rw [← hRoute]
  exact hSent.fld (by decide) (by decide)

theorem State.peerIsHost_beside {t : State} (h : Beside s t) (k : Nat) : t.peerIsHost k = s.peerIsHost k := by
  simp only [State.peerIsHost, h.link]

/-- A HOST_SWITCH that comes on a standby port is delivered (R322). -/
theorem State.arrive_hostSwitch {q : Packet} (hType : q.ttype = 0x56) (hSt : (s.link port.val).st = 7)
    (hEnc : (s.link port.val).encOn = false) (hMal : malformed vc.val q = false) (hGen : s.genMismatch q = false)
    (hKnown : s.fab.known.contains q.src.toNat = true) (hHops : q.hops ≠ 31) (hDst : q.dst = 31) :
    s.arrive port.val vc.val q = (.deliver, s) := by
  have hHops' : q.hops ≠ 31#5 := hHops
  have hHop : hopOnly 0x56 = false := rfl
  have hNoRsp : responseType 0x56 = none := rfl
  unfold State.arrive
  simp [hType, hSt, hEnc, hMal, hGen, State.learn_of_known (.inr hKnown), hHops', hDst, hHop, hNoRsp]

end Sys2Proof.Machine

namespace Sys2Proof.Claims
open Machine

/-- Settles O36: each packet is delivered (`arrive_of_hop`, `arrive_of_all`) and acted on as its handler says; the entries of
FB_PEER are left as the node's report set them. -/
theorem nodesAreFoundAndLost : Obligations.NodesAreFoundAndLost := by
  refine ⟨fun s port vc p => ?_, fun s port vc p => ?_⟩
  · intro as
    have hEnum (h : DeliveredByHop s port.val vc.val (as 0x60)) :
        exec (.enum port vc p) s = .next (s.enumTake port.val (as 0x60)) := by
      show execEnum port vc p s = _
      unfold execEnum
      extract_lets q
      rw [show s.arrive port.val vc.val q = _ from State.arrive_of_hop h]
    refine ⟨fun src v hGo hBridge hWalk hNode => ?_, fun h hNode => ?_, fun h => ⟨hEnum h, State.enumTake_place⟩,
      fun h w hWalk hPort hKeep => ?_⟩
    · have hBit : bitOf v.toNat 0 = true := by rw [bitOf_eq_testBit, BitVec.testBit_toNat, hGo]
      show Host.Outcome.next (s.enumStart v) = _
      unfold State.enumStart
      simp [hBit, hBridge, hWalk, hNode]
    · rw [hEnum h, State.enumTake_of_enumerated hNode]
    · show execEnumDone port vc p s = _
      unfold execEnumDone
      extract_lets q
      rw [show s.arrive port.val vc.val q = _ from State.arrive_of_hop h]
      simp only [State.walk_learnPeer, hWalk, hPort, hKeep, ne_eq, not_true_eq_false, if_false, if_true]
      rfl
  · intro as on
    refine ⟨fun h => ?_, fun h => ?_, fun h => ?_, fun h hHost hActive => ?_,
      fun hSt hEnc hMal hGen hKnown hHops hDst hActive => ?_, fun n hn hNode => State.peerUp_nodeDownAct hn hNode,
      fun n bgen data hn => State.peer_nodeUpAct hn bgen data⟩
    · show execPeerLost port vc p s = _
      unfold execPeerLost
      extract_lets q
      rw [show s.arrive port.val vc.val q = _ from State.arrive_of_all h]
    · show execNodeDown port vc p s = _
      unfold execNodeDown
      extract_lets q
      rw [show s.arrive port.val vc.val q = _ from State.arrive_of_all h]
    · show execNodeUp port vc p s = _
      unfold execNodeUp
      extract_lets q
      rw [show s.arrive port.val vc.val q = _ from State.arrive_of_all h]
    · intro t
      have hBeside : Beside s t := (State.copyOn_reports s port.val vc.val (as 0x56)).beside
      have hSt : (t.link port.val).st ≠ 7 := by rw [hBeside.link, h.1.1]; decide
      have hHost' : t.peerIsHost port.val = false := (State.peerIsHost_beside hBeside _).trans hHost
      have hActive' : t.fab.hostActive = false := by rw [hBeside, ← hActive]
      show execHostSwitch port vc p s = _
      unfold execHostSwitch
      extract_lets q i standby
      rw [show s.arrive port.val vc.val q = (.deliver, t) from State.arrive_of_all h]
      dsimp only
      rw [if_neg hSt, if_neg (Bool.eq_false_iff.1 hHost')]
      have hStandby : standby t = t := by simp only [standby, hActive', Bool.false_and, Bool.false_eq_true, if_false]
      rw [hStandby]
      rfl
    · refine ⟨s.switchedTo port.val, ?_, s.switchedTo_spec port⟩
      show execHostSwitch port vc p s = _
      unfold execHostSwitch
      extract_lets q i standby
      rw [show s.arrive port.val vc.val q = (.deliver, s) from
        State.arrive_hostSwitch rfl hSt hEnc hMal hGen hKnown hHops hDst]
      dsimp only
      rw [if_pos hSt]
      have hStandby : standby s = s := by simp only [standby, hActive, Bool.false_and, Bool.false_eq_true, if_false]
      rw [hStandby]
      rfl

end Sys2Proof.Claims

/-! ### Mechanisms (R372) -/

namespace Sys2Proof.Machine

/-- `t` is `s` but for its registers, what leaves the device, the event records, the safety manager and the contexts. -/
def BesideSafety (s t : State) : Prop :=
  t = { s with
    regs := t.regs
    ctxs := t.ctxs
    safety := t.safety
    fab := { s.fab with tags := t.fab.tags, epochs := t.fab.epochs, backlog := t.fab.backlog, out := t.fab.out }
    hang := { s.hang with evWr := t.hang.evWr, dumpBuf := t.hang.dumpBuf, traceOut := t.hang.traceOut } }

namespace BesideSafety

variable {s t u : State}

theorem refl (s : State) : BesideSafety s s := rfl

theorem trans (a : BesideSafety s t) (b : BesideSafety t u) : BesideSafety s u := by
  unfold BesideSafety at *
  rw [b, a]

theorem of_beside (h : Beside s t) : BesideSafety s t := by
  unfold BesideSafety
  rw [h]

theorem beside (a : BesideSafety s t) (b : Beside t u) : BesideSafety s u := a.trans (of_beside b)

theorem setSafety (h : BesideSafety s t) (x : Safety) : BesideSafety s { t with safety := x } := h.trans rfl

theorem setCtxs (h : BesideSafety s t) (x : SMap Ctx) : BesideSafety s { t with ctxs := x } := h.trans rfl

theorem power (h : BesideSafety s t) : t.power = s.power := by rw [h]
theorem audio (h : BesideSafety s t) : t.audio = s.audio := by rw [h]
theorem cores (h : BesideSafety s t) : t.cores = s.cores := by rw [h]
theorem pair (h : BesideSafety s t) : t.pair = s.pair := by rw [h]
theorem pins (h : BesideSafety s t) : t.pins = s.pins := by rw [h]
theorem sec (h : BesideSafety s t) : t.sec = s.sec := by rw [h]
theorem time (h : BesideSafety s t) : t.time = s.time := by rw [h]

end BesideSafety

variable {s : State} {m : Nat} {ctx : Option Nat}

/-- A raised mechanism recorded, before its class acts. -/
def State.mechLogged (s : State) (m : Nat) (ctx : Option Nat) : State :=
  let s := s.setFlag Page.safety Reg.SF_FAULT m true
  let s := s.logEvent 0x28 0x008 ctx (match ctx with | some n => (s.gen n).toNat | none => 0) 0 m 0
  if s.safety.armed && !s.safety.firstValid then
    { s with safety := { s.safety with firstValid := true, first := m, firstTime := s.now } }
  else s

theorem State.raiseMech_eq (s : State) (m : Nat) (ctx : Option Nat) :
    s.raiseMech m ctx = match (s.mechLogged m ctx).mechClass m, ctx with
      | 0, _ => s.mechLogged m ctx
      | 3, _ => { s.mechLogged m ctx with safety := { (s.mechLogged m ctx).safety with safeDue := true } }
      | 2, some n => (s.mechLogged m ctx).requestQuench n 4
      | _, _ => (s.mechLogged m ctx).irq Page.safety m := rfl

/-- The record of a mechanism is a report beside SF_FAULT and the note of the first fault. -/
theorem State.mechLogged_parts (s : State) (m : Nat) (ctx : Option Nat) :
    ∃ u, Reports (s.setFlag Page.safety Reg.SF_FAULT m true) u ∧
      s.mechLogged m ctx = { u with safety := (s.mechLogged m ctx).safety } ∧
      ∃ v f w, (s.mechLogged m ctx).safety = { s.safety with firstValid := v, first := f, firstTime := w } := by
  unfold State.mechLogged
  extract_lets a b
  have hb : Reports a b := (Reports.refl a).logEvent
  have hSafety : b.safety = s.safety := hb.beside.safety
  clear_value b
  refine ⟨b, hb, ?_⟩
  split
  · exact ⟨rfl, true, m, b.now, congrArg (fun y : Safety => { y with firstValid := true, first := m, firstTime := b.now }) hSafety⟩
  · exact ⟨rfl, _, _, _, hSafety⟩

theorem State.requestQuench_eq (s : State) (n cause : Nat) : s.requestQuench n cause = { s with ctxs := (s.requestQuench n cause).ctxs } := by
  unfold State.requestQuench
  split <;> rfl

theorem State.requestQuench_running {n cause : Nat} (h : (s.ctx n).st = .running) :
    ((s.requestQuench n cause).ctx n).st = .quenching := by
  unfold State.requestQuench
  simp only [h, State.modCtx, State.ctx_setCtx, if_pos]

/-- A raised mechanism writes no quiet register beside SF_FAULT, and its bit stands. -/
theorem State.reg_raiseMech (hm : m < 32) {p o : Nat} (ho : o < 4096) (hq : quiet p o = true) :
    (s.raiseMech m ctx).reg p o = (s.setFlag Page.safety Reg.SF_FAULT m true).reg p o := by
  obtain ⟨u, hu, hEq, -⟩ := s.mechLogged_parts m ctx
  have hLogged : (s.mechLogged m ctx).reg p o = (s.setFlag Page.safety Reg.SF_FAULT m true).reg p o := by
    rw [← hu.reg ho hq, hEq]
    rfl
  rw [State.raiseMech_eq]
  split
  · exact hLogged
  · exact hLogged
  · rw [State.requestQuench_eq]
    exact hLogged
  · rw [((Reports.refl _).irq hm).reg ho hq]
    exact hLogged

theorem State.flag_raiseMech (hm : m < 32) : (s.raiseMech m ctx).flag Page.safety Reg.SF_FAULT m = true := by
  rw [State.flag, State.reg_raiseMech hm (by decide) (by decide)]
  exact State.flag_setFlag_same hm true

/-- A raised mechanism leaves all beside registers, reports, the safety manager and the contexts. -/
theorem State.raiseMech_beside (s : State) (hm : m < 32) : BesideSafety s (s.raiseMech m ctx) := by
  obtain ⟨u, hu, hEq, -⟩ := s.mechLogged_parts m ctx
  have hBeside : Beside s u := (Beside.refl s).setFlag.trans hu.beside
  have hLogged : BesideSafety s (s.mechLogged m ctx) := by
    rw [hEq]
    exact (BesideSafety.of_beside hBeside).setSafety _
  rw [State.raiseMech_eq]
  split
  · exact hLogged
  · exact hLogged.setSafety _
  · rw [State.requestQuench_eq]
    exact hLogged.setCtxs _
  · exact hLogged.beside ((Reports.refl _).irq hm).beside

theorem State.mechClass_mechLogged (k : Nat) : (s.mechLogged m ctx).mechClass k = s.mechClass k := by
  obtain ⟨u, hu, hEq, -⟩ := s.mechLogged_parts m ctx
  have hClass : (s.mechLogged m ctx).reg Page.safety Reg.SF_CLASS = s.reg Page.safety Reg.SF_CLASS := by
    rw [hEq]
    exact (hu.reg (by decide) (by decide)).trans (State.reg_setFlag_off (by decide) (by decide) (by decide))
  simp only [State.mechClass, State.fld, hClass]

theorem State.ctxs_mechLogged (s : State) (m : Nat) (ctx : Option Nat) : (s.mechLogged m ctx).ctxs = s.ctxs := by
  obtain ⟨u, hu, hEq, -⟩ := s.mechLogged_parts m ctx
  rw [hEq]
  exact hu.beside.ctxs

theorem State.safeDue_mechLogged (s : State) (m : Nat) (ctx : Option Nat) :
    (s.mechLogged m ctx).safety.safeDue = s.safety.safeDue := by
  obtain ⟨u, -, -, v, f, w, hSafety⟩ := s.mechLogged_parts m ctx
  rw [hSafety]

/-- A raised mechanism leaves the result of the last self-test. -/
theorem State.lft_raiseMech (s : State) (hm : m < 32) :
    (s.raiseMech m ctx).safety.lftPass = s.safety.lftPass ∧ (s.raiseMech m ctx).safety.lftFailed = s.safety.lftFailed := by
  obtain ⟨u, -, -, v, f, w, hSafety⟩ := s.mechLogged_parts m ctx
  rw [State.raiseMech_eq]
  split
  · rw [hSafety]
    exact ⟨rfl, rfl⟩
  · dsimp only
    rw [hSafety]
    exact ⟨rfl, rfl⟩
  · rw [State.requestQuench_eq]
    dsimp only
    rw [hSafety]
    exact ⟨rfl, rfl⟩
  · rw [((Reports.refl _).irq hm).beside.safety, hSafety]
    exact ⟨rfl, rfl⟩

/-- A mechanism acts by its class (R372): not at all, with a quench request, or with the safe state. -/
theorem State.raiseMech_class (s : State) (m n : Nat) :
    (s.mechClass m = 2 → (s.ctx n).st = .running → ((s.raiseMech m (some n)).ctx n).st = .quenching) ∧
      (s.mechClass m = 3 → (s.raiseMech m (some n)).safety.safeDue = true) ∧
      (s.mechClass m = 0 → (s.raiseMech m (some n)).ctxs = s.ctxs ∧
        (s.raiseMech m (some n)).safety.safeDue = s.safety.safeDue) := by
  have hDue := s.safeDue_mechLogged m (some n)
  have hCtxs := s.ctxs_mechLogged m (some n)
  rw [State.raiseMech_eq, State.mechClass_mechLogged]
  refine ⟨fun h hRun => ?_, fun h => ?_, fun h => ?_⟩
  · rw [h]
    refine State.requestQuench_running ?_
    rw [State.ctx, hCtxs]
    exact hRun
  · rw [h]
    rfl
  · rw [h]
    exact ⟨hCtxs, hDue⟩

theorem State.clkLost_clockLost {k : Nat} (hk : k ≠ 8) : (s.clockLost k).power.clkLost.contains k = true := by
  unfold State.clockLost
  rw [if_neg hk]
  dsimp only
  split
  · next h => exact h
  · simp

theorem State.regs_clockLost (k : Nat) : (s.clockLost k).regs = s.regs := by
  unfold State.clockLost
  split <;> rfl

/-! ### The safe state (R373, R374) -/

/-- A fold of quenches over contexts: those quenched are gone, and the rest of the device is as it was. -/
theorem State.quenchAll_spec (s : State) (cause : Nat) (l : List Nat) (hl : ∀ n ∈ l, n < 64) :
    (∀ n ∈ l, ((l.foldl (fun s n => s.quenchNow n cause) s).ctx n).st = .free ∨
      ((l.foldl (fun s n => s.quenchNow n cause) s).ctx n).st = .quenched) ∧
      (l.foldl (fun s n => s.quenchNow n cause) s).audio = s.audio ∧
      (l.foldl (fun s n => s.quenchNow n cause) s).safety = s.safety := by
  have hKeep (t : State) (n : CtxId) (i : Nat) (h : (t.ctx i).st = .free ∨ (t.ctx i).st = .quenched) :
      ((t.quenchNow n.val cause).ctx i).st = .free ∨ ((t.quenchNow n.val cause).ctx i).st = .quenched := by
    by_cases hi : i = n.val
    · rw [State.quenchNow_of_gone cause (hi ▸ h)]
      exact h
    · rwa [(t.quenchNow_rest n.val cause).1 i hi]
  have hGone (t : State) (n : CtxId) :
      ((t.quenchNow n.val cause).ctx n.val).st = .free ∨ ((t.quenchNow n.val cause).ctx n.val).st = .quenched := by
    by_cases h : (t.ctx n.val).st = .free ∨ (t.ctx n.val).st = .quenched
    · exact hKeep t n n.val h
    · obtain ⟨hFree, hQuenched⟩ := not_or.1 h
      exact .inr (t.quenchNow_spec n cause hFree hQuenched).1
  refine ⟨fun n hn => ?_, ?_⟩
  · exact foldl_reaches (P := fun t : State => (t.ctx n).st = .free ∨ (t.ctx n).st = .quenched) s hn
      (fun t => hGone t ⟨n, hl n hn⟩) fun t i hi h => hKeep t ⟨i, hl i hi⟩ n h
  · refine List.foldlRecOn (motive := fun t : State => t.audio = s.audio ∧ t.safety = s.safety) l _ ⟨rfl, rfl⟩ fun t ht i hi => ?_
    obtain ⟨-, hAudio, hSafety⟩ := t.quenchNow_rest i cause
    exact ⟨hAudio.trans ht.1, hSafety.trans ht.2⟩

theorem State.tollPacket_reports (s : State) (k : Nat) : Reports s (s.tollPacket k) := by
  unfold State.tollPacket
  exact Reports.ite (.refl s) (Reports.refl s).send

/-- The entry into safe state (R374). -/
theorem State.enterSafe_spec (h : s.safety.safe = false) :
    s.enterSafe.safety.safe = true ∧ s.enterSafe.safety.faultN = false ∧ s.enterSafe.safety.tollOut = false ∧
      (∀ p, p < 20 → (s.enterSafe.port p).driving = false) ∧
      ∀ n, n < 64 → (s.enterSafe.ctx n).st = .free ∨ (s.enterSafe.ctx n).st = .quenched := by
  unfold State.enterSafe
  rw [if_neg (Bool.eq_false_iff.1 h)]
  extract_lets x a b c y d
  have hb : b.safety = a.safety ∧ ∀ p, p < 20 → (b.port p).driving = false := by
    refine ⟨List.foldlRecOn (motive := fun t : State => t.safety = a.safety) (List.range 20) _ rfl fun _ ht _ _ => ht,
      fun p hp => ?_⟩
    refine foldl_reaches (P := fun t : State => (t.port p).driving = false) a (List.mem_range.2 hp) (fun t => ?_)
      fun t i _ ht => ?_
    · rw [State.modPort, State.port_setPort, if_pos rfl]
    · rw [State.modPort, State.port_setPort]
      split
      · rfl
      · exact ht
  have hc := (b.tollPacket_reports b.pair.txK).beside
  have hd : d.safety = a.safety ∧ d.audio = b.audio := ⟨hc.safety.trans hb.1, hc.audio⟩
  clear_value d
  obtain ⟨hGone, hAudio, hSafety⟩ := d.quenchAll_spec 4 (List.range 64) fun n hn => List.mem_range.1 hn
  have hSafe := hSafety.trans hd.1
  refine ⟨by rw [hSafe], by rw [hSafe], by rw [hSafe], fun p hp => ?_, fun n hn => hGone n (List.mem_range.2 hn)⟩
  rw [State.port, hAudio, hd.2]
  exact hb.2 p hp

/-- Arming (R372): the write of SF_CTRL with ARM set. -/
theorem State.sfCtrlWrite_arm {src : Nat} {v : W32} (hv : bitOf v.toNat 0 = true) (hLocked : s.locked Page.safety = false)
    (hArmed : s.safety.armed = false) (hSafe : s.safety.safe = false) :
    (s.sfCtrlWrite src v).safety = { s.safety with armed := true, faultN := true } ∧
      (s.sfCtrlWrite src v).flag Page.safety Reg.SF_CTRL 0 = true ∧
      s.sfCtrlWrite src v = { s with regs := (s.sfCtrlWrite src v).regs, safety := (s.sfCtrlWrite src v).safety } := by
  unfold State.sfCtrlWrite
  extract_lets off lft a b x
  have hb : OnlyRegs s b := by
    unfold b
    split
    · exact OnlyRegs.refl.setFlag.setFld
    · exact OnlyRegs.refl.setFlag
  have hFlag : b.flag Page.safety Reg.SF_CTRL 0 = true := by
    have ha : a.flag Page.safety Reg.SF_CTRL 0 = true := by
      rw [← hv]
      exact State.flag_setFlag_same (by decide) _
    unfold b
    split
    · rw [State.flag, State.toNat_reg_setFld_same (by decide), bitOf_eq_testBit, testBit_putBits, if_neg (by decide),
        ← bitOf_eq_testBit]
      exact ha
    · exact ha
  clear_value b
  have hSafety : b.safety = s.safety := by rw [hb]
  have hArm : (bitOf v.toNat 0 && !b.safety.armed && !b.safety.safe) = true := by simp [hv, hSafety, hArmed, hSafe]
  rw [if_neg (Bool.eq_false_iff.1 hLocked), if_pos hArm]
  refine ⟨congrArg (fun y : Safety => { y with armed := true, faultN := true }) hSafety, hFlag, ?_⟩
  rw [hb]

end Sys2Proof.Machine

namespace Sys2Proof.Claims
open Machine

/-- Settles O45: a mechanism by `raiseMech_class`, the safe state by `quenchAll_spec`, and the periodic checks case by case. -/
theorem safetyMechanismsAct : Obligations.SafetyMechanismsAct := by
  intro s
  refine ⟨fun m n => ?_, fun k hk => ?_, fun hDue hSafe => ⟨s.enterSafe, if_pos hDue, State.enterSafe_spec hSafe⟩,
    fun src hLocked hArmed hSafe => ?_, fun k => ?_, fun k => ?_, ?_, fun i => ?_⟩
  · let u : State := if m.val = 1 then s.count Page.clocks Reg.CK_LOSS_COUNT else s
    have hu : u.mechClass m.val = s.mechClass m.val ∧ u.ctxs = s.ctxs ∧ u.safety = s.safety := by
      unfold u
      split
      · refine ⟨?_, rfl, rfl⟩
        have hClass := State.reg_count_off (s := s) (p := Page.clocks) (p' := Page.safety) (o := Reg.CK_LOSS_COUNT)
          (o' := Reg.SF_CLASS) (n := 1) (by decide) (by decide) (by decide)
        simp only [State.mechClass, State.fld, hClass]
      · exact ⟨rfl, rfl, rfl⟩
    obtain ⟨hClass, hCtxs, hSafety⟩ := hu
    obtain ⟨hQuench, hSafe, hNone⟩ := u.raiseMech_class m.val n.val
    have hCtx : u.ctx n.val = s.ctx n.val := by rw [State.ctx, hCtxs, State.ctx]
    rw [hClass, hCtx] at hQuench
    rw [hClass] at hSafe
    rw [hClass, hCtxs, hSafety] at hNone
    exact ⟨u.raiseMech m.val (some n.val), rfl, State.flag_raiseMech (by omega), hQuench, hSafe, hNone⟩
  · let u := (s.count Page.clocks Reg.CK_LOSS_COUNT).clockLost k.val
    refine ⟨u.raiseMech 1 none, rfl, ?_, fun hCount => ?_⟩
    · rw [(u.raiseMech_beside (by decide)).power]
      exact State.clkLost_clockLost hk
    · rw [State.reg_raiseMech (by decide) (by decide) (by decide), State.reg_setFlag_other (by decide) (by decide) (by decide),
        State.reg, State.regs_clockLost]
      exact State.reg_count_same hCount
  · exact ⟨_, rfl, State.sfCtrlWrite_arm (bitOf_or_one _) hLocked hArmed hSafe⟩
  · intro v r ch x slot key hOn hOut hSlot hTaken hMarked a b hA hB
    have hExec : exec (.e2eCheck k) s =
        if a != b then .next ((s.count Page.safety (Reg.SF_E2E_COUNT + 8 * k.val)).raiseMech 6 none) else .next s := by
      show execE2eCheck k s = _
      unfold execE2eCheck
      extract_lets g bad
      have hOn' : (!bitOf v 0 || !ringIsOut r) = false := by
        rw [show bitOf v 0 = true from hOn, show ringIsOut r = true from hOut]
        rfl
      have hBad : bad = (a != b) := by
        unfold bad
        rw [if_neg (Bool.eq_false_iff.1 hMarked), show SMap.get g.commitCrc key none = some a from hA,
          show SMap.get x.playCrc ch none = some b from hB]
      have hIn : ¬ (slot = 0 ∨ x.taken < slot) := not_or.2 ⟨Nat.pos_iff_ne_zero.1 hSlot, Nat.not_lt.2 hTaken⟩
      rw [if_neg (Bool.eq_false_iff.1 hOn'), if_neg hIn, hBad]
    rw [hExec]
    refine ⟨fun hab => ?_, fun hab => ?_⟩
    · rw [hab, bne_self_eq_false, if_neg Bool.false_ne_true]
    · rw [if_pos (bne_iff_ne.2 hab)]
  · intro pg off hLocked
    have hGo : (!s.locked (comparePair k.val).1) = false := by
      rw [show s.locked (comparePair k.val).1 = true from hLocked]
      rfl
    have hExec (g h : Bool) : exec (.configCompare k g h) s =
        match g, h with
        | true, false => .next ((s.setReg pg (off + 0x800) (~~~ s.reg pg off)).count Page.safety Reg.SF_CFG_CORR_COUNT)
        | false, true => .next ((s.setReg pg off (~~~ s.reg pg (off + 0x800))).count Page.safety Reg.SF_CFG_CORR_COUNT)
        | g, _ =>
          if g && s.reg pg off == ~~~ s.reg pg (off + 0x800) then .next s
          else .next (((((s.setReg pg off (regReset pg off)).setReg pg (off + 0x800) (regReset pg (off + 0x800))).count
            Page.safety Reg.SF_CFG_FAULT_COUNT).raiseMech 11 none)) := by
      show (if (!s.locked pg) = true then _ else _) = _
      rw [hGo, if_neg Bool.false_ne_true]
      rfl
    refine ⟨fun hSame => ?_, hExec true false, hExec false true, ?_⟩
    · have hEq : (s.reg pg off == ~~~ s.reg pg (off + 0x800)) = true := beq_iff_eq.2 hSame
      rw [hExec true true]
      simp only [hEq, Bool.and_self, if_true]
    · exact ⟨_, hExec false false, State.flag_raiseMech (by decide)⟩
  · intro u
    have hSafety : u.safety = s.safety := by rw [show u = _ from State.reach_eq _]
    have hMs : msTb = 256000000 := rfl
    have hRun : execLftCycle none s = .next { u with safety := { u.safety with
        lftAt := u.now, lftPass := true, lftFailed := 0, lftCycles := min (u.safety.lftCycles + 1) 0xFFFF } } := by
      unfold execLftCycle
      rw [hMs]
      rfl
    rw [hSafety] at hRun
    exact hRun
  · refine ⟨_, rfl, ?_⟩
    generalize hu : ({ s.reach _ with safety := _ } : State) = u
    obtain ⟨hPass, hFailed⟩ := u.lft_raiseMech (ctx := none) (m := 12) (by decide)
    refine ⟨hPass.trans ?_, hFailed.trans ?_, State.flag_raiseMech (by decide)⟩
    · rw [← hu]
      rfl
    · rw [← hu]

end Sys2Proof.Claims

/-! ### Resets of engines and partitions (R384, R385) -/

namespace Sys2Proof.Machine

/-- What is empty in `k` is empty in `k'`: queues, accumulator banks, masks, sums, tokens and tiles. -/
structure Core.Drains (k k' : Core) : Prop where
  matrixQ : k.matrixQ = [] → k'.matrixQ = []
  vectorQ : k.vectorQ = [] → k'.vectorQ = []
  scanQ : k.scanQ = [] → k'.scanQ = []
  moverQ : k.moverQ = [] → k'.moverQ = []
  banks : k.banks = [] → k'.banks = []
  masks : k.masks = [] → k'.masks = []
  sums : k.sums = [] → k'.sums = []
  tokens : k.tokens = [] → k'.tokens = []
  tiles : k.tiles = [] → k'.tiles = []

theorem Core.Drains.refl (k : Core) : Core.Drains k k := ⟨id, id, id, id, id, id, id, id, id⟩

theorem Core.Drains.trans {k k' k'' : Core} (a : k.Drains k') (b : k'.Drains k'') : k.Drains k'' :=
  ⟨b.matrixQ ∘ a.matrixQ, b.vectorQ ∘ a.vectorQ, b.scanQ ∘ a.scanQ, b.moverQ ∘ a.moverQ, b.banks ∘ a.banks, b.masks ∘ a.masks,
    b.sums ∘ a.sums, b.tokens ∘ a.tokens, b.tiles ∘ a.tiles⟩

/-- What is empty in a core of `s` is empty in `t`, and the levels of recovery stay. -/
structure Drains (s t : State) : Prop where
  cores : ∀ c, (s.core c).Drains (t.core c)
  levels : t.hang.levels = s.hang.levels

namespace Drains

variable {s t u : State} {c : Nat}

theorem of_eq (h : (t.cores, t.hang.levels) = (s.cores, s.hang.levels)) : Drains s t := by
  obtain ⟨hCores, hLevels⟩ := Prod.mk.inj h
  refine ⟨fun c => ?_, hLevels⟩
  simp only [State.core, hCores]
  exact .refl _

theorem refl (s : State) : Drains s s := of_eq rfl

theorem trans (a : Drains s t) (b : Drains t u) : Drains s u :=
  ⟨fun c => (a.cores c).trans (b.cores c), b.levels.trans a.levels⟩

theorem ite {p : Prop} [Decidable p] (a : Drains s t) (b : Drains s u) : Drains s (if p then t else u) := by
  split
  · exact a
  · exact b

theorem foldl {α : Type} {l : List α} {f : State → α → State} (h : Drains s t) (hf : ∀ u a, Drains s u → Drains s (f u a)) :
    Drains s (l.foldl f t) := List.foldlRecOn l f h fun u hu a _ => hf u a hu

theorem frame (h : Drains s t) (e : (u.cores, u.hang.levels) = (t.cores, t.hang.levels)) : Drains s u := h.trans (of_eq e)

theorem beside (h : Drains s t) (b : Beside t u) : Drains s u := h.trans (of_eq (by rw [b]))

theorem modCore {f : Core → Core} (h : Drains s t) (hf : ∀ k : Core, k.Drains (f k)) : Drains s (t.modCore c f) := by
  refine h.trans ⟨fun j => ?_, rfl⟩
  rw [State.modCore, State.core_setCore]
  split
  · next e => exact e ▸ hf _
  · exact .refl _

theorem setReg {p o : Nat} {v : W32} (h : Drains s t) : Drains s (t.setReg p o v) := h.beside (Beside.refl t).setReg

theorem writeGroup {region x g : Nat} {codes : List Byte} {sc8 : Byte} (h : Drains s t) :
    Drains s (t.writeGroup c region x g codes sc8) := by
  unfold State.writeGroup
  refine modCore ?_ fun _ => ⟨id, id, id, id, id, id, id, id, id⟩
  unfold State.keepImage
  exact ite (h.frame rfl) h

theorem cutScan {p : QEntry → Bool} (h : Drains s t) : Drains s (t.cutScan c p) :=
  h.foldl fun u e hu => by
    unfold State.cutWord
    split
    · exact hu
    · exact foldl (hu.frame rfl) fun _ _ h => h.writeGroup

theorem clearCounts {page : Nat} (h : Drains s t) : Drains s (t.clearCounts page) := by
  unfold State.clearCounts
  split
  · exact h
  · exact h.foldl fun _ _ h => ite (h.foldl fun _ _ h => h.setReg) h

theorem finishHead {i op status : Nat} (h : Drains s t) : Drains s (t.finishHead i op status) := by
  unfold State.finishHead
  extract_lets x
  split
  · exact h
  · exact ite (h.frame rfl) h

theorem streamNext {i fuel : Nat} (h : Drains s t) : Drains s (t.streamNext i fuel) := by
  induction fuel generalizing t with
  | zero => exact h
  | succ fuel ih =>
    unfold State.streamNext
    extract_lets x become
    have hBecome (n : Nat) : Drains s (become n) := h.frame rfl
    split
    · exact h
    · split
      · exact hBecome 5
      · exact hBecome 5
      · exact hBecome 3
      · exact ih h.finishHead
      · exact hBecome 4
      · exact ih h.finishHead
      · exact ih h.finishHead
      · exact h

theorem finishWait {i op status : Nat} (h : Drains s t) : Drains s (t.finishWait i op status) := h.finishHead.streamNext

theorem setStream {i : Nat} {x : Stream} (h : Drains s t) : Drains s (t.setStream i x) := h.frame rfl

theorem portAbandon (h : Drains s t) : Drains s (t.portAbandon c) := by
  unfold State.portAbandon
  extract_lets u pair v
  have hu : Drains s u := h.foldl fun u p hu => ite (by unfold State.discardImage; exact ite hu (hu.frame rfl)) hu
  have hv : Drains s v := hu.frame rfl
  exact hv.foldl fun _ _ h => ite h.setStream.finishWait (ite h.setStream.finishWait h)

/-- The reset of an engine empties what it holds, and nothing else is filled (R384). -/
theorem engineClear {e : ResetEngine} (h : Drains s t) : Drains s (t.engineClear c e) := by
  unfold State.engineClear
  extract_lets a b a' b' d f
  have ha : Drains s a := portAbandon (modCore h.cutScan fun _ => ⟨id, id, fun _ => rfl, id, id, id, id, id, id⟩)
  have hb : Drains s b := ha.clearCounts.clearCounts
  have ha' : Drains s a' := portAbandon (modCore h.cutScan fun _ => ⟨id, id, fun _ => rfl, id, id, id, id, id, id⟩)
  have hb' : Drains s b' := ha'.clearCounts.clearCounts
  have hd : Drains s d := h.beside (Reports.refl t).dropWaiting.beside
  have hf : Drains s f := hd.foldl fun u x hu => by
    split
    · exact ite (hu.beside (Reports.refl u).abandonTag.beside) hu
    · exact hu
  clear_value a b a' b' d f
  cases e with
  | matrix => exact clearCounts (modCore h fun _ => ⟨fun _ => rfl, id, id, id, fun _ => rfl, id, id, id, id⟩)
  | vector => exact setReg (clearCounts (modCore h fun _ => ⟨id, fun _ => rfl, id, id, id, fun _ => rfl, fun _ => rfl, id, id⟩))
  | scan => exact hb.setReg
  | statePort => exact hb'.setReg
  | mover => exact setReg (modCore hf fun _ => ⟨id, id, id, fun _ => rfl, id, id, id, id, id⟩)
  | compression => exact h.frame rfl

theorem statReset (h : Drains s t) : Drains s (t.statReset c) := by
  unfold State.statReset
  exact modCore (clearCounts (setReg (foldl h.setReg.setReg.setReg fun _ _ h => h.setReg.setReg)))
    fun _ => ⟨id, id, id, id, id, id, id, id, id⟩

theorem endWaits {f : WaitRec → Bool} (h : Drains s t) : Drains s (t.endWaits f) := h.frame rfl

theorem logEvent {code unit gen status arg0 arg1 : Nat} {ctx : Option Nat} (h : Drains s t) :
    Drains s (t.logEvent code unit ctx gen status arg0 arg1) := h.beside (Reports.refl t).logEvent.beside

end Drains

end Sys2Proof.Machine

namespace Sys2Proof.Machine

variable {s : State} {c : Nat}

theorem State.levels_quenchSuspect (s : State) (n cause : Nat) : (s.quenchSuspect n cause).hang.levels = s.hang.levels := by
  have hAdd : (s.addSuspect n).hang.levels = s.hang.levels := by
    unfold State.addSuspect
    split <;> rfl
  have hQuench := ((s.addSuspect n).levels_quenchNow n cause).trans hAdd
  unfold State.quenchSuspect
  split
  · exact hQuench
  · exact hQuench
  · exact hQuench
  · rfl

theorem State.levels_quenchSuspects (s : State) (l : List Nat) (cause : Nat) :
    (l.foldl (fun s n => s.quenchSuspect n cause) s).hang.levels = s.hang.levels :=
  List.foldlRecOn (motive := fun t : State => t.hang.levels = s.hang.levels) l _ rfl fun t h n _ =>
    (t.levels_quenchSuspect n cause).trans h

/-- A running level that ends, with none waiting, leaves the hang unit idle (R383). -/
theorem State.levelDone_idle {f : Nat × Nat × Nat → Bool} (hf : f (s.hang.level, s.hang.due) = true) (hMore : s.hang.more = []) :
    (s.levelDone f).hang.level = 0 ∧ (s.levelDone f).cores = s.cores := by
  unfold State.levelDone
  extract_lets more x u
  have hNone : more = [] := by simp only [more, hMore, List.filter_nil]
  rw [if_pos (show f (u.hang.level, u.hang.due) = true from hf), hNone]
  exact ⟨rfl, rfl⟩

/-- The reset of an engine whose partition was not reset lately (R384): the suspects are quenched, the engine is cleared, and its
level ends. -/
theorem State.engineReset_parts (c : Nat) (e : ResetEngine) (hLast : s.hang.lastEngineReset = []) :
    ∃ u v : State, Drains (u.engineClear c e) v ∧ v.hang.levels = s.hang.levels ∧
      s.engineReset c e = v.levelDone (engineDue c e) := by
  unfold State.engineReset
  extract_lets again sus a b d code g x h i
  have hAgain : again = none := by
    unfold again
    split
    · rw [hLast]
      rfl
    · rfl
  have ha : a.hang.levels = s.hang.levels := s.levels_quenchSuspects sus 6
  have hb : Drains a b := (Drains.refl a).engineClear
  have hd : Drains b d := .ite (.refl b) (Drains.refl b).statReset
  have hg : Drains b g := hd.endWaits
  have hh : Drains b h := by
    unfold h
    split
    · exact hg.frame rfl
    · exact hg
  have hi : Drains b i := hh.setReg
  rw [hAgain]
  exact ⟨a, _, hi.logEvent, (hi.logEvent.levels.trans hb.levels).trans ha, rfl⟩

theorem State.matrixQ_engineClear (u : State) (c : Nat) :
    ((u.engineClear c .matrix).core c).matrixQ = [] ∧ ((u.engineClear c .matrix).core c).banks = [] := by
  have hStep : Drains (u.modCore c fun k => { k with matrixQ := [], banks := [] }) (u.engineClear c .matrix) :=
    (Drains.refl _).clearCounts
  have hCore := hStep.cores c
  rw [State.modCore_core] at hCore
  exact ⟨hCore.matrixQ rfl, hCore.banks rfl⟩

theorem State.vectorQ_engineClear (u : State) (c : Nat) :
    ((u.engineClear c .vector).core c).vectorQ = [] ∧ ((u.engineClear c .vector).core c).masks = [] ∧
      ((u.engineClear c .vector).core c).sums = [] := by
  have hStep : Drains (u.modCore c fun k => { k with vectorQ := [], masks := [], sums := [] }) (u.engineClear c .vector) :=
    (Drains.refl _).clearCounts.setReg
  have hCore := hStep.cores c
  rw [State.modCore_core] at hCore
  exact ⟨hCore.vectorQ rfl, hCore.masks rfl, hCore.sums rfl⟩

theorem State.scanQ_engineClear (u : State) (c : Nat) : ((u.engineClear c .scan).core c).scanQ = [] := by
  have hStep : Drains ((u.cutScan c fun _ => true).modCore c fun k => { k with scanQ := [], held := [] }) (u.engineClear c .scan) :=
    (Drains.refl _).portAbandon.clearCounts.clearCounts.setReg
  have hCore := hStep.cores c
  rw [State.modCore_core] at hCore
  exact hCore.scanQ rfl

theorem State.moverQ_engineClear (u : State) (c : Nat) : ((u.engineClear c .mover).core c).moverQ = [] := by
  unfold State.engineClear
  extract_lets a b a' b' d f
  have hStep := (Drains.refl (f.modCore c fun k => { k with moverQ := [] })).setReg (p := Page.mover c) (o := Reg.MV_BYTES) (v := 0)
  have hCore := hStep.cores c
  rw [State.modCore_core] at hCore
  exact hCore.moverQ rfl

/-- A core with its queues, banks, tokens and tiles empty. -/
def Core.Bare (k : Core) : Prop := (∀ q, k.queue q = []) ∧ k.banks = [] ∧ k.tokens = [] ∧ k.tiles = []

theorem Core.Drains.bare {k k' : Core} (h : k.Drains k') (hk : k.Bare) : k'.Bare := by
  obtain ⟨hQueues, hBanks, hTokens, hTiles⟩ := hk
  refine ⟨fun q => ?_, h.banks hBanks, h.tokens hTokens, h.tiles hTiles⟩
  cases q with
  | matrix => exact h.matrixQ (hQueues .matrix)
  | vector => exact h.vectorQ (hQueues .vector)
  | scan => exact h.scanQ (hQueues .scan)
  | mover => exact h.moverQ (hQueues .mover)

/-- The engines of a core that a partition reset clears (R385). -/
def State.clearEngines (s : State) (c : Nat) : State :=
  [ResetEngine.matrix, .vector, .scan, .mover].foldl (fun s e => s.engineClear c e) s

theorem State.clearEngines_spec (s : State) (c : Nat) :
    Drains s (s.clearEngines c) ∧ (∀ q, ((s.clearEngines c).core c).queue q = []) ∧ ((s.clearEngines c).core c).banks = [] := by
  have hDrains (t : State) (e : ResetEngine) : Drains t (t.engineClear c e) := (Drains.refl t).engineClear
  unfold State.clearEngines
  simp only [List.foldl_cons, List.foldl_nil]
  have hA := hDrains s .matrix
  obtain ⟨hMatrix, hBanks⟩ := s.matrixQ_engineClear c
  generalize s.engineClear c .matrix = a at *
  have hB := hDrains a .vector
  obtain ⟨hVector, -⟩ := a.vectorQ_engineClear c
  generalize a.engineClear c .vector = b at *
  have hD := hDrains b .scan
  have hScan := b.scanQ_engineClear c
  generalize b.engineClear c .scan = d at *
  have hE := hDrains d .mover
  have hMover := d.moverQ_engineClear c
  generalize d.engineClear c .mover = e at *
  have hBE := (hD.trans hE).cores c
  have hAE := ((hB.trans hD).trans hE).cores c
  refine ⟨((hA.trans hB).trans hD).trans hE, fun q => ?_, hAE.banks hBanks⟩
  cases q with
  | matrix => exact hAE.matrixQ hMatrix
  | vector => exact hBE.vectorQ hVector
  | scan => exact (hE.cores c).scanQ hScan
  | mover => exact hMover

/-- One core's part of a partition reset (R385). -/
def State.coreReset (s : State) (c : Nat) : State :=
  let s := (s.clearEngines c).statReset c
  let s := (s.setReg (Page.ctrl c) Reg.CTRL_ISSUE_COUNT 0).setReg (Page.ctrl c) Reg.CTRL_IMEM_ECC 0
  let s := { s with free := s.free + 1 }.modCore c fun k => { k with
    tokens := [], tiles := [], tilesFree := some s.free, blocked := none, preempt := false, cur := none, stageLatch := [] }
  s.endWaits fun w => w.core == c && (w.kind == 1 || w.kind == 3 || w.kind == 4)

/-- The reset of a core empties it, and fills no other. -/
theorem State.coreReset_spec (s : State) (c : Nat) : Drains s (s.coreReset c) ∧ ((s.coreReset c).core c).Bare := by
  obtain ⟨hE, hQueues, hBanks⟩ := s.clearEngines_spec c
  unfold State.coreReset
  generalize s.clearEngines c = e at *
  extract_lets f g h
  have hF : Drains e f := (Drains.refl e).statReset
  have hG : Drains e g := hF.setReg.setReg
  clear_value g
  have hH : Drains e h := Drains.modCore (hG.frame rfl) fun _ => ⟨id, id, id, id, id, id, id, fun _ => rfl, fun _ => rfl⟩
  have hCore : (h.core c).tokens = [] ∧ (h.core c).tiles = [] := by
    simp only [h, State.modCore_core, and_self]
  refine ⟨(hE.trans hH).endWaits, fun q => ?_, (hH.cores c).banks hBanks, hCore.1, hCore.2⟩
  cases q with
  | matrix => exact (hH.cores c).matrixQ (hQueues .matrix)
  | vector => exact (hH.cores c).vectorQ (hQueues .vector)
  | scan => exact (hH.cores c).scanQ (hQueues .scan)
  | mover => exact (hH.cores c).moverQ (hQueues .mover)

/-- The reset of a partition (R385): each core of it is bare afterwards, and its level ends. -/
theorem State.partitionReset_parts (s : State) (p : Nat) :
    ∃ v : State, v.hang.levels = s.hang.levels ∧
      (∀ c, c ∈ coresOf (s.reg Page.pattern (Reg.PART_CORES + 16 * p)).toNat → (v.core c).Bare) ∧
      ∃ f, f (2, (p, 0)) = true ∧ s.partitionReset p = v.levelDone f := by
  unfold State.partitionReset
  extract_lets cores ctxs a b d
  have ha : a.hang.levels = s.hang.levels := s.levels_quenchSuspects ctxs 6
  have hb : Drains a b := (Drains.refl a).foldl fun u c hu => hu.trans (u.coreReset_spec c).1
  have hBare : ∀ c ∈ cores, (b.core c).Bare := fun c hc =>
    foldl_reaches (P := fun t : State => (t.core c).Bare) a hc (fun t => (t.coreReset_spec c).2) fun t i _ h =>
      ((t.coreReset_spec i).1.cores c).bare h
  have hd : Drains b d := (Drains.refl b).setReg
  refine ⟨_, (hd.logEvent.levels.trans hb.levels).trans ha, fun c hc => (hd.logEvent.cores c).bare (hBare c hc), _, ?_, rfl⟩
  simp

end Sys2Proof.Machine

namespace Sys2Proof.Machine

variable {s : State}

theorem State.reach_hang (t : W64) : (s.reach t).hang = s.hang ∧ (s.reach t).regs = s.regs := by
  exact ⟨by rw [State.reach_eq], (State.now_reach_lock (s := s) t).2⟩

theorem State.safe_enterSafe (s : State) : s.enterSafe.safety.safe = true := by
  by_cases h : s.safety.safe = true
  · unfold State.enterSafe
    rw [if_pos h]
    exact h
  · exact (State.enterSafe_spec (Bool.eq_false_iff.2 h)).1

/-- The time at which a level gives way (R386). -/
theorem State.levelEnd_of_since {e : (Nat × Nat × Nat) × W64}
    (h : (s.hang.dueSince.find? fun e => e.1 == (s.hang.level, s.hang.due)) = some e) :
    s.levelEnd = e.2 + BitVec.ofNat 64 (usTb (levelBound s.hang.level)) := by
  unfold State.levelEnd
  rw [h]

/-- A dump that ends (R396): it is over, and its command is complete. -/
theorem State.dumpComplete_spec (s : State) (j : DumpJob) (flags n : Nat) :
    (s.dumpComplete j flags n).hang.dumping = none ∧ (s.dumpComplete j flags n).hang.dumpInBuf = s.hang.dumpInBuf ∧
      ∀ c, j.cmd = some c → ∃ x, (s.dumpComplete j flags n).qm.done.getLast? = some x ∧ x.queue = c.1 ∧ x.cmdId = c.2 ∧
        x.opcode = 0x60 ∧ x.status = 0 := by
  unfold State.dumpComplete
  extract_lets x a b
  have hb : Beside a b := (Beside.refl a).count.trans (Reports.logEvent (.refl _)).beside
  have hEnd : b.hang.dumping = none ∧ b.hang.dumpInBuf = s.hang.dumpInBuf := by
    rw [hb]
    exact ⟨rfl, rfl⟩
  clear_value b
  cases hCmd : j.cmd with
  | none => exact ⟨hEnd.1, hEnd.2, fun c hc => by cases hc⟩
  | some d =>
    refine ⟨hEnd.1, hEnd.2, fun c hc => ?_⟩
    obtain rfl := Option.some.inj hc
    exact ⟨_, List.getLast?_concat, rfl, rfl, rfl, rfl⟩

/-- An examination of the waits at the present time (R382). -/
def State.examined (u : State) : Host.Outcome State Fault Refusal :=
  let v : State := { u with hang := { u.hang with examAt := u.now } }
  if v.flag Page.hang Reg.HG_CTRL 0 then .next (v.examineCycle.hang.waits.foldl (fun s w => s.examine w) v.examineCycle) else .next v

theorem execHangExamine_eq {u : State} (hu : s.reach (s.hang.examAt + BitVec.ofNat 64 (usTb 10)) = u) :
    execHangExamine s = u.examined := by
  unfold execHangExamine
  rw [hu]
  rfl

/-- What an examination does with detection on and off. -/
theorem State.examined_spec {u : State} (hHang : u.hang = s.hang) (hRegs : u.regs = s.regs) (h : execHangExamine s = u.examined) :
    let v : State := { u with hang := { s.hang with examAt := u.now } };
    (s.flag Page.hang Reg.HG_CTRL 0 = true → exec .hangExamine s =
      .next (v.examineCycle.hang.waits.foldl (fun s w => s.examine w) v.examineCycle)) ∧
    (s.flag Page.hang Reg.HG_CTRL 0 = false → exec .hangExamine s = .next v) := by
  have hExec : exec .hangExamine s = u.examined := h
  rw [hExec]
  intro v
  have hFlag : v.flag Page.hang Reg.HG_CTRL 0 = s.flag Page.hang Reg.HG_CTRL 0 :=
    congrArg (fun r : SMap W32 => bitOf (SMap.get r _ (regReset Page.hang Reg.HG_CTRL)).toNat 0) hRegs
  have hRun : u.examined = if v.flag Page.hang Reg.HG_CTRL 0 then
      .next (v.examineCycle.hang.waits.foldl (fun s w => s.examine w) v.examineCycle) else .next v := by
    unfold State.examined
    rw [hHang]
  rw [hRun, hFlag]
  exact ⟨fun h => if_pos h, fun h => if_neg (Bool.eq_false_iff.1 h)⟩

theorem State.levelDone_of_levels {v : State} {f : Nat × Nat × Nat → Bool} (h : v.hang.levels = s.hang.levels)
    (hf : f (s.hang.level, s.hang.due) = true) (hMore : s.hang.more = []) :
    (v.levelDone f).hang.level = 0 ∧ (v.levelDone f).cores = v.cores := by
  simp only [Hang.levels, Prod.mk.injEq] at h
  obtain ⟨hLevel, hDue, hMore'⟩ := h
  exact State.levelDone_idle (by rw [hLevel, hDue]; exact hf) (hMore'.trans hMore)

/-- The way a level gives way to the next, at the present time (R386). -/
def State.escalated (s : State) : Host.Outcome State Fault Refusal :=
  match s.hang.level with
  | 1 =>
    match if s.hang.due.2 = resetCodeOf .compression then none else s.partOf s.hang.due.1 with
    | some p => .next (s.levelBecomes 2 p 0)
    | none => .next s.chipOrSafe
  | 2 => .next s.chipOrSafe
  | 3 =>
    let s := s.enterSafe
    let s := { s with hang := { s.hang with powerCycleReq := true } }
    .next (s.logEvent 0x14 0x009 none 0 0 0 0)
  | _ => .next s

theorem State.escalated_spec {u : State} (hHang : u.hang = s.hang) (hRegs : u.regs = s.regs) :
    (∀ p, s.hang.level = 1 → s.hang.due.2 ≠ 6 → s.partOf s.hang.due.1 = some p → u.escalated = .next (u.levelBecomes 2 p 0)) ∧
      (s.hang.level = 2 → s.flag Page.hang Reg.HG_CTRL 1 = true → u.escalated = .next (u.levelBecomes 3 2 0)) ∧
      (s.hang.level = 2 → s.flag Page.hang Reg.HG_CTRL 1 = false → u.escalated = .next (u.levelBecomes 0 0 0).enterSafe) ∧
      (s.hang.level = 3 → ∃ t, u.escalated = .next t ∧ t.hang.powerCycleReq = true ∧ t.safety.safe = true) := by
  have hFlag : u.flag Page.hang Reg.HG_CTRL 1 = s.flag Page.hang Reg.HG_CTRL 1 := by simp only [State.flag, State.reg, hRegs]
  have hPart (c : Nat) : u.partOf c = s.partOf c := by simp only [State.partOf, State.reg, hRegs]
  unfold State.escalated
  rw [hHang]
  refine ⟨fun p hLevel hDue hIn => ?_, fun hLevel hChip => ?_, fun hLevel hChip => ?_, fun hLevel => ?_⟩
  · simp only [hLevel, hPart, if_neg (show ¬ s.hang.due.2 = resetCodeOf .compression from hDue), hIn]
  · simp only [hLevel, State.chipOrSafe, hFlag, hChip, if_true]
  · simp only [hLevel, State.chipOrSafe, hFlag, hChip, Bool.false_eq_true, if_false]
  · simp only [hLevel]
    have hSafe := u.safe_enterSafe
    generalize u.enterSafe = v at *
    have hLog : Beside { v with hang := { v.hang with powerCycleReq := true } }
        (State.logEvent { v with hang := { v.hang with powerCycleReq := true } } 0x14 0x009 none 0 0 0 0) :=
      (Reports.logEvent (.refl _)).beside
    refine ⟨_, rfl, ?_, ?_⟩
    · rw [hLog]
    · rw [hLog.safety]
      exact hSafe

/-- The first of the quenched suspects is the one with the lowest number (R389). -/
theorem State.find_suspect {n : Nat} (hn : n < 64) (hSus : s.hang.suspects.contains n = true) (hSt : (s.ctx n).st = .quenched)
    (hLow : ∀ m, m < n → s.hang.suspects.contains m = false ∨ (s.ctx m).st ≠ .quenched) :
    ((List.range 64).find? fun n => s.hang.suspects.contains n && (s.ctx n).st == .quenched) = some n := by
  rw [List.find?_range_eq_some]
  refine ⟨by rw [hSus, hSt]; rfl, List.mem_range.2 hn, fun m hm => ?_⟩
  rcases hLow m hm with h | h
  · rw [h]
    rfl
  · simp [h]

end Sys2Proof.Machine

namespace Sys2Proof.Claims
open Machine

/-- Settles O46: the resets by `Drains`, the levels by `levelBecomes`, and the replay and the dump case by case. -/
theorem hangsReplayAndDumpRun : Obligations.HangsReplayAndDumpRun := by
  refine ⟨fun s => ⟨?_, fun w hw => ?_, fun c hLast hLevel hMore => ⟨fun hDue => ?_, fun hDue => ?_⟩,
    fun p hLevel hDue hMore => ?_, ?_, fun e he => ?_⟩, fun s => ⟨fun n hTurn hn hSus hSt hLow => ?_, fun n hRep => ?_,
    fun j unit hDump hUnit => ⟨fun hDead => ?_, fun hDead => ?_⟩,
    fun j hDump => ⟨fun hSent hDest => ?_, fun hSent hDest hNode hOk => ?_, fun flags n hSent => ?_, fun flags n k hSent => ?_⟩⟩⟩
  · have hUs : BitVec.ofNat 64 (usTb 10) = 2560000 := by decide
    obtain ⟨hHang, hRegs⟩ := State.reach_hang (s := s) (s.hang.examAt + 2560000)
    exact State.examined_spec hHang hRegs (execHangExamine_eq (by rw [hUs]))
  · unfold State.examine
    rw [hw]
    simp
  · obtain ⟨u, v, hDrains, hLevels, hEq⟩ := s.engineReset_parts c.val .matrix hLast
    obtain ⟨hIdle, hCores⟩ := State.levelDone_of_levels (f := engineDue c.val .matrix) hLevels
      (by rw [hLevel, hDue]; simp [engineDue, resetCodeOf]) hMore
    obtain ⟨hQ, hBanks⟩ := u.matrixQ_engineClear c.val
    have hCore := hDrains.cores c.val
    refine ⟨_, congrArg Host.Outcome.next hEq, ?_, ?_, hIdle⟩
    · rw [State.core, hCores]
      exact hCore.matrixQ hQ
    · rw [State.core, hCores]
      exact hCore.banks hBanks
  · obtain ⟨u, v, hDrains, hLevels, hEq⟩ := s.engineReset_parts c.val .vector hLast
    obtain ⟨hIdle, hCores⟩ := State.levelDone_of_levels (f := engineDue c.val .vector) hLevels
      (by rw [hLevel, hDue]; simp [engineDue, resetCodeOf]) hMore
    obtain ⟨hQ, hMasks, hSums⟩ := u.vectorQ_engineClear c.val
    have hCore := hDrains.cores c.val
    refine ⟨_, congrArg Host.Outcome.next hEq, ?_, ?_, ?_, hIdle⟩
    · rw [State.core, hCores]
      exact hCore.vectorQ hQ
    · rw [State.core, hCores]
      exact hCore.masks hMasks
    · rw [State.core, hCores]
      exact hCore.sums hSums
  · obtain ⟨v, hLevels, hBare, f, hf, hEq⟩ := s.partitionReset_parts p.val
    obtain ⟨hIdle, hCores⟩ := State.levelDone_of_levels (f := f) hLevels (by rw [hLevel, hDue]; exact hf) hMore
    refine ⟨_, congrArg Host.Outcome.next hEq, hIdle, fun c hc hBit => ?_⟩
    have hIn : c ∈ coresOf (s.reg Page.pattern (Reg.PART_CORES + 16 * p.val)).toNat :=
      List.mem_filter.2 ⟨List.mem_range.2 hc, hBit⟩
    simp only [State.core, hCores]
    exact hBare c hIn
  · have hExec : exec .resetEscalation s = (s.reach s.levelEnd).escalated := rfl
    obtain ⟨hHang, hRegs⟩ := State.reach_hang (s := s) s.levelEnd
    rw [hExec]
    exact State.escalated_spec hHang hRegs
  · rw [State.levelEnd_of_since he]
    have h1 : BitVec.ofNat 64 (usTb (levelBound 1)) = 51200000 := by decide
    have h2 : BitVec.ofNat 64 (usTb (levelBound 2)) = 512000000 := by decide
    have h3 : BitVec.ofNat 64 (usTb (levelBound 3)) = 384000000000 := by decide
    exact ⟨fun h => by rw [h, h1], fun h => by rw [h, h2], fun h => by rw [h, h3]⟩
  · show execReplayStart s = _
    unfold execReplayStart
    rw [hTurn, State.find_suspect hn hSus hSt hLow]
    rfl
  · intro u u'
    show execCheckpointRestoreDone s = _
    unfold execCheckpointRestoreDone
    rw [hRep]
  · show execDumpAccessTimeout unit s = _
    unfold execDumpAccessTimeout State.deadUnit
    simp only [hDump, if_neg hUnit, hDead, Bool.false_eq_true, if_false]
  · show execDumpAccessTimeout unit s = _
    unfold execDumpAccessTimeout State.deadUnit
    simp only [hDump, if_neg hUnit, hDead, if_true]
  · have hRun : s.dumpEnd = (s.dumpHere j).2.2.dumpComplete j (s.dumpHere j).1 (s.dumpHere j).2.1 := by
      unfold State.dumpEnd
      simp only [hDump, hSent]
      rw [if_neg (by rintro ⟨hFar, hNode⟩; rcases hDest with h | h <;> contradiction)]
    obtain ⟨hOver, hBuf, hCmd⟩ := State.dumpComplete_spec (s.dumpHere j).2.2 j (s.dumpHere j).1 (s.dumpHere j).2.1
    refine ⟨_, congrArg Host.Outcome.next hRun, hOver, fun h => hBuf.trans ?_, hCmd⟩
    unfold State.dumpHere
    rw [if_pos h]
    rfl
  · show Host.Outcome.next s.dumpEnd = _
    unfold State.dumpEnd
    simp only [hDump, hSent]
    rw [if_pos ⟨hDest, hNode⟩, hOk]
    rfl
  · show Host.Outcome.next s.dumpEnd = _
    unfold State.dumpEnd
    simp only [hDump, hSent]
  · show Host.Outcome.next s.dumpEnd = _
    unfold State.dumpEnd
    simp only [hDump, hSent]

end Sys2Proof.Claims

/-! ### The registers of every page (R440) -/

namespace Sys2Proof.Machine

variable {s : State} {pg : Nat}

/-- A register of the header beside PG_IRQ_STATUS is quiet. -/
theorem quiet_header {o : Nat} (ho : o < 0x40) (hIrq : o ≠ Reg.PG_IRQ_STATUS) : quiet pg o = true := by
  have h1 : Reg.QM_IRQ_COUNT = 0x078 := rfl
  have h2 : Reg.QM_DB_ERR_COUNT = 0x070 := rfl
  have h3 : Reg.QM_VEC_CTRL = 0x80C := rfl
  have h4 : Reg.TR_WR = 0x054 := rfl
  have h5 : Reg.TR_DROP_COUNT = 0x058 := rfl
  have h6 : Reg.FB_ROUTE_DROP = 0x054 := rfl
  simp only [quiet, h1, h2, h3, h4, h5, h6, bne_iff_ne, ne_eq, Bool.and_eq_true, Bool.not_eq_true', Bool.and_eq_false_iff,
    Bool.or_eq_false_iff, beq_eq_false_iff_ne, decide_eq_false_iff_not]
  exact ⟨⟨⟨hIrq, .inr ⟨⟨by omega, by omega⟩, by omega⟩⟩, .inr ⟨by omega, by omega⟩⟩, .inr (by omega)⟩

theorem State.pageOn_beside {t : State} (h : Beside s t) (pg : Nat) : t.pageOn pg = s.pageOn pg := by
  simp only [State.pageOn, State.domState, h.power]

/-- A written word of 32 read-write bits is the word written. -/
theorem regWritten_rw (old new : W32) : regWritten false [⟨0, 32, .rw, 0⟩] old new = new := by
  refine BitVec.eq_of_toNat_eq ?_
  have hOld : old.toNat / 2 ^ 32 = 0 := Nat.div_eq_of_lt old.isLt
  have hPut : putBits old.toNat 0 32 (bitsOf new.toNat 0 32) = new.toNat := by
    have := new.isLt
    rw [putBits_eq]
    simp only [bitsOf, Nat.zero_add, hOld]
    omega
  simp only [regWritten, fieldWrite, List.foldl_cons, List.foldl_nil, BitVec.toNat_ofNat]
  rw [hPut]
  exact Nat.mod_eq_of_lt new.isLt

/-- The last register of the header, which software keeps for itself. -/
theorem regAt_scratch (hKind : pageKind pg ≠ none) :
    regAt pg Reg.PG_SCRATCH = some (⟨Reg.PG_SCRATCH, 4, 1, [⟨0, 32, .rw, 0⟩]⟩, 0) := by
  obtain ⟨k, hk⟩ := Option.ne_none_iff_exists'.1 hKind
  rw [regAt, hk]
  rfl

theorem State.regWriteAt_scratch (hKind : pageKind pg ≠ none) (hOn : s.pageOn pg = true) (src : Nat) (v : W32) :
    s.regWriteAt src pg Reg.PG_SCRATCH v = s.summaryEdge (s.setReg pg Reg.PG_SCRATCH v) pg := by
  have hAt := regAt_scratch hKind
  obtain ⟨k, hk⟩ := Option.ne_none_iff_exists'.1 hKind
  have h1 : Reg.PG_SCRATCH ≠ Reg.PG_CTRL := by decide
  have h2 : Reg.PG_SCRATCH ≠ Reg.PG_IRQ_FORCE := by decide
  have h3 : Reg.PG_SCRATCH ≠ Reg.PG_LOCK := by decide
  have h4 : Reg.PG_SCRATCH < 0x40 := by decide
  have hFree : hasAcc [⟨0, 32, .rw, 0⟩] .rwl = false := rfl
  unfold State.regWriteAt
  simp only [hk, hAt, hOn, if_neg h1, if_neg h2, if_neg h3, if_pos h4, hFree, Bool.and_false, Bool.not_true, Bool.false_eq_true,
    if_false, State.store, regWritten_rw]

/-- A register of the header that no block shows otherwise reads as it stands. -/
theorem State.regView_scratch (hKind : pageKind pg ≠ none) (hOn : s.pageOn pg = true) :
    s.regView pg Reg.PG_SCRATCH = s.reg pg Reg.PG_SCRATCH := by
  have hAt := regAt_scratch hKind
  obtain ⟨k, hk⟩ := Option.ne_none_iff_exists'.1 hKind
  have hView : s.viewOf pg k Reg.PG_SCRATCH 0 = none := by
    unfold State.viewOf
    rw [if_pos (by decide), State.viewHeader, if_neg (by decide), if_neg (by decide), if_neg (by decide)]
  have hMask (v : W32) : regMasked [⟨0, 32, .rw, 0⟩] v = v := by
    refine BitVec.eq_of_toNat_eq ?_
    have hv := v.isLt
    simp [regMasked, bitsOf]
    exact hv
  unfold State.regView
  simp only [hOn, hk, hAt, hView, hMask, Bool.not_true, Bool.false_eq_true, if_false]

/-- A written scratch word reads back. -/
theorem State.scratch_spec (hKind : pageKind pg ≠ none) (hOn : s.pageOn pg = true) (src : Nat) (v : W32) :
    (s.regWriteAt src pg Reg.PG_SCRATCH v).reg pg Reg.PG_SCRATCH = v ∧
      (s.regWriteAt src pg Reg.PG_SCRATCH v).regView pg Reg.PG_SCRATCH = v := by
  rw [State.regWriteAt_scratch hKind hOn]
  have hEdge := (Reports.refl (s.setReg pg Reg.PG_SCRATCH v)).summaryEdge (a := s) (page := pg)
  have hReg := (hEdge.reg (by decide) (quiet_header (pg := pg) (o := Reg.PG_SCRATCH) (by decide) (by decide))).trans
    (State.reg_setReg_same _ _ _ _)
  have hOn' : (s.summaryEdge (s.setReg pg Reg.PG_SCRATCH v) pg).pageOn pg = true :=
    (State.pageOn_beside ((Beside.refl s).setReg.trans hEdge.beside) pg).trans hOn
  exact ⟨hReg, (State.regView_scratch hKind hOn').trans hReg⟩

/-- A page whose domain is not ON ignores a write beside PG_CTRL, and reading it changes nothing (R428). -/
theorem State.regAt_off (hOff : s.pageOn pg = false) (src o : Nat) (v : W32) (h : o ≠ Reg.PG_CTRL) :
    s.regWriteAt src pg o v = s ∧ (s.regReadAt pg o).2 = s := by
  refine ⟨?_, ?_⟩
  · unfold State.regWriteAt
    split
    · rw [if_neg h, hOff]
      rfl
    · rfl
  · unfold State.regReadAt
    rw [hOff]
    rfl

/-- A read of the error count clears it (R446). -/
theorem State.regReadAt_errCount (hKind : pageKind pg ≠ none) (hOn : s.pageOn pg = true) :
    (s.regReadAt pg Reg.PG_ERR_COUNT).2 =
      s.setReg pg Reg.PG_ERR_COUNT (BitVec.ofNat 32 (putBits (s.reg pg Reg.PG_ERR_COUNT).toNat 0 16 0)) := by
  obtain ⟨k, hk⟩ := Option.ne_none_iff_exists'.1 hKind
  have hAt : regAt pg Reg.PG_ERR_COUNT = some (⟨Reg.PG_ERR_COUNT, 4, 1, [⟨0, 16, .rc, 0⟩]⟩, 0) := by
    rw [regAt, hk]
    rfl
  have hClears : hasAcc [⟨0, 16, .rc, 0⟩] .rc = true := rfl
  have h1 : ¬ (pg = Page.timebase ∧ Reg.PG_ERR_COUNT = Reg.TB_NOW_LO) := fun h => absurd h.2 (by decide)
  have h2 : ¬ (pg = Page.pattern ∧ Reg.PG_ERR_COUNT = Reg.PT_BAR_NOW_LO) := fun h => absurd h.2 (by decide)
  have h3 : ¬ (pageKind pg = some .apll ∧ Reg.PG_ERR_COUNT = Reg.APLL_STEER_NOW) := fun h => absurd h.2 (by decide)
  unfold State.regReadAt
  simp only [hOn, hAt, hClears, if_neg h1, if_neg h2, if_neg h3, Bool.not_true, Bool.false_eq_true, if_false, if_true, regRead1,
    List.foldl_cons, List.foldl_nil]

/-! ### Forced events (R445) -/

/-- A vector that fires leaves every interrupt status. -/
theorem State.irqStatus_summaryEdge (a t : State) (page p : Nat) :
    (a.summaryEdge t page).reg p Reg.PG_IRQ_STATUS = t.reg p Reg.PG_IRQ_STATUS := by
  have hSend (u : State) (vc : Nat) (q : Packet) : (u.send vc q).reg p Reg.PG_IRQ_STATUS = u.reg p Reg.PG_IRQ_STATUS := by
    unfold State.send
    extract_lets r
    split
    · rfl
    · exact State.reg_count_off (by decide) (by decide) (by decide)
  have hRemote (u : State) (vc dst addr : Nat) (l : List Byte) :
      (u.writeRemote vc dst addr l).reg p Reg.PG_IRQ_STATUS = u.reg p Reg.PG_IRQ_STATUS := by
    unfold State.writeRemote State.request
    extract_lets q q' x
    split
    · rfl
    · split
      · exact hSend _ _ _
      · rfl
  have hFire (u : State) (v : Nat) (hv : v < 128) : (u.fireVector v).reg p Reg.PG_IRQ_STATUS = u.reg p Reg.PG_IRQ_STATUS := by
    have hOff : Reg.QM_VEC_CTRL + 16 * v < 4096 ∧ Reg.PG_IRQ_STATUS ≠ Reg.QM_VEC_CTRL + 16 * v := by
      have : Reg.QM_VEC_CTRL = 0x80C := rfl
      have : Reg.PG_IRQ_STATUS = 0x00C := rfl
      omega
    have hCount : (u.count Page.queueMgr Reg.QM_IRQ_COUNT).reg p Reg.PG_IRQ_STATUS = u.reg p Reg.PG_IRQ_STATUS :=
      State.reg_count_off (by decide) (by decide) (by decide)
    unfold State.fireVector
    extract_lets o w addr
    split
    · exact (State.reg_setFlag_off hOff.1 (by decide) hOff.2).trans hCount
    · split
      · exact (hRemote _ _ _ _ _).trans hCount
      · exact (State.reg_count_off (by decide) (by decide) (by decide)).trans hCount
  unfold State.summaryEdge
  split
  · exact hFire t _ (Nat.mod_lt _ (by decide))
  · rfl

theorem State.irqForce_spec (hKind : pageKind pg ≠ none) (hOn : s.pageOn pg = true) (v : W32) :
    (s.irqForce pg v).fld pg Reg.PG_IRQ_STATUS 0 16 = s.fld pg Reg.PG_IRQ_STATUS 0 16 ||| bitsOf v.toNat 0 16 := by
  have hSome : (pageKind pg).isNone = false := by
    cases h : pageKind pg with
    | none => exact absurd h hKind
    | some k => rfl
  have hLt : (s.fld pg Reg.PG_IRQ_STATUS 0 16 ||| bitsOf v.toNat 0 16) < 2 ^ 16 :=
    Nat.or_lt_two_pow (Nat.mod_lt _ (by decide)) (Nat.mod_lt _ (by decide))
  unfold State.irqForce
  rw [hOn, hSome, if_neg (by decide)]
  rw [State.fld, State.irqStatus_summaryEdge]
  exact (State.fld_setFld_same (by decide)).trans (Nat.mod_eq_of_lt hLt)

/-! ### Locks, ENABLE and region descriptors (R442–R444) -/

theorem State.lockPage_spec (hKind : pageKind pg ≠ none) (hOn : s.pageOn pg = true) :
    s.lockPage pg = (s.setFlag pg Reg.PG_LOCK 0 true).setFlag pg Reg.PG_CTRL 2 false := by
  have hSome : (pageKind pg).isNone = false := by
    cases h : pageKind pg with
    | none => exact absurd h hKind
    | some k => rfl
  rw [State.lockPage, hOn, hSome]
  rfl

/-- A page that takes its lock is locked, with nothing pending. -/
theorem State.lock_taken (s : State) (pg : Nat) :
    ((s.setFlag pg Reg.PG_LOCK 0 true).setFlag pg Reg.PG_CTRL 2 false).locked pg = true ∧
      ((s.setFlag pg Reg.PG_LOCK 0 true).setFlag pg Reg.PG_CTRL 2 false).flag pg Reg.PG_CTRL 2 = false := by
  refine ⟨?_, State.flag_setFlag_same (by decide) false⟩
  rw [State.locked, State.flag, State.reg_setFlag_off (by decide) (by decide) (by decide)]
  exact State.flag_setFlag_same (by decide) true

/-- PG_STATE reads the same with a lock requested. -/
theorem State.readsOn_lockReq (s : State) (pg : Nat) : (s.setFlag pg Reg.PG_CTRL 2 true).readsOn pg = s.readsOn pg := by
  have hReg : (s.setFlag pg Reg.PG_CTRL 2 true).fld pg Reg.PG_STATE 0 3 = s.fld pg Reg.PG_STATE 0 3 := by
    rw [State.fld, State.reg_setFlag_off (by decide) (by decide) (by decide), State.fld]
  unfold State.readsOn
  split
  · next k _ =>
    have hView : (s.setFlag pg Reg.PG_CTRL 2 true).viewState pg k = s.viewState pg k := by
      unfold State.viewState
      rw [hReg]
      rfl
    rw [hView]
  · rfl

theorem State.lockReq_spec (hKind : pageKind pg ≠ none) (hOn : s.pageOn pg = true) (hFree : s.locked pg = false)
    (hReads : s.readsOn pg = true) :
    (s.lockReq pg).locked pg = true ∧ (s.lockReq pg).flag pg Reg.PG_CTRL 2 = false := by
  have hSome : (pageKind pg).isNone = false := by
    cases h : pageKind pg with
    | none => exact absurd h hKind
    | some k => rfl
  have hAsked : (s.setFlag pg Reg.PG_CTRL 2 true).flag pg Reg.PG_CTRL 2 = true := State.flag_setFlag_same (by decide) true
  unfold State.lockReq
  rw [hOn, hFree, hSome, if_neg (by decide)]
  extract_lets t
  rw [if_pos ((s.readsOn_lockReq pg).trans hReads), State.lockPending, if_pos hAsked]
  exact t.lock_taken pg

/-- The lowest bits of a field. -/
theorem bitsOf_low (v lo : Nat) {w w' : Nat} (h : w' ≤ w) : bitsOf v lo w' = bitsOf v lo w % 2 ^ w' := by
  unfold bitsOf
  rw [Nat.mod_mod_of_dvd _ (Nat.pow_dvd_pow 2 h)]

/-- ENABLE of a block without a start sequence (R443). -/
theorem State.simpleEnable_spec (hFree : s.flag pg Reg.PG_CTRL 2 = false) :
    (s.simpleEnable pg true).flag pg Reg.PG_CTRL 0 = true ∧ (s.simpleEnable pg true).fld pg Reg.PG_STATE 0 2 = 2 ∧
      OnlyRegs s (s.simpleEnable pg true) := by
  have hAsked : ((s.setFlag pg Reg.PG_CTRL 0 true).setFld pg Reg.PG_STATE 0 3 2).flag pg Reg.PG_CTRL 2 = false := by
    rw [State.flag, State.reg_setFld_off (by decide) (by decide) (by decide)]
    exact (State.flag_setFlag_beside (by decide) (by decide) true).trans hFree
  have hEq : s.simpleEnable pg true = (s.setFlag pg Reg.PG_CTRL 0 true).setFld pg Reg.PG_STATE 0 3 2 := by
    unfold State.simpleEnable State.lockPending
    simp only [if_true, hAsked, Bool.false_eq_true, if_false]
  rw [hEq]
  refine ⟨?_, ?_, OnlyRegs.refl.setFlag.setFld⟩
  · rw [State.flag, State.reg_setFld_off (by decide) (by decide) (by decide)]
    exact State.flag_setFlag_same (by decide) true
  · have hState : ((s.setFlag pg Reg.PG_CTRL 0 true).setFld pg Reg.PG_STATE 0 3 2).fld pg Reg.PG_STATE 0 3 = 2 :=
      State.fld_setFld_same (by decide)
    rw [State.fld, bitsOf_low _ _ (show 2 ≤ 3 by decide)]
    exact congrArg (· % 2 ^ 2) hState

/-- The write of a region's shape with VALID set (R126). -/
theorem State.regionShapeWrite_valid (s : State) (src c n : Nat) (x : W32) :
    s.regionShapeWrite src c n (BitVec.ofNat 32 (putBits x.toNat 21 1 1)) =
      let off := Reg.ST_REGION_SHAPE + 16 * n
      let held := s.setReg (Page.port c) off (BitVec.ofNat 32 (bitsOf x.toNat 0 21))
      if s.locked (Page.port c) then s.pgErrAt (Page.port c) off src [31]
      else if held.regionLegal c n then held.setFlag (Page.port c) off 21 true else held.writeRefused (Page.port c) off src := by
  have hNat : (BitVec.ofNat 32 (putBits x.toNat 21 1 1)).toNat = putBits x.toNat 21 1 1 := by
    rw [BitVec.toNat_ofNat]
    exact Nat.mod_eq_of_lt (putBits_lt x.isLt (by decide))
  have hBit : bitOf (putBits x.toNat 21 1 1) 21 = true := by
    rw [bitOf_eq_testBit, testBit_putBits, if_pos (by decide)]
    decide
  unfold State.regionShapeWrite
  simp only [hNat, hBit, bitsOf_putBits_other (v := x.toNat) (lo := 21) (w := 1) (x := 1) (lo' := 0) (w' := 21) (by decide),
    Bool.not_true, Bool.false_eq_true, if_false]

end Sys2Proof.Machine

namespace Sys2Proof.Claims
open Machine

/-- Settles O52: each register of the header by its own lemma, and the TAP by its two cases. -/
theorem pageAndTapAccessesAct : Obligations.PageAndTapAccessesAct := by
  refine ⟨fun s src page v => ?_, fun s addr d => ⟨fun h w => ?_, fun hReady hNode => ?_⟩⟩
  · intro pg
    refine ⟨fun hKind hOn => ⟨_, rfl, State.scratch_spec hKind hOn src.val v⟩, fun hKind => ?_, fun reg hKind hOff hReg => ?_,
      fun hKind hOn => ?_, fun hKind hOn _ => ⟨_, rfl, State.irqForce_spec hKind hOn v⟩, fun hKind hOn => ⟨?_, (s.lock_taken pg).1⟩,
      fun hKind hOn hFree hReads => ⟨_, rfl, State.lockReq_spec hKind hOn hFree hReads⟩, fun c n x hOn => ?_,
      fun k hKind hSimple hOn hFree => ?_, fun k hKind hAlways hOff => ?_⟩
    · exact congrArg Host.Outcome.next (regWriteAt_of_pageKind_none hKind s src.val Reg.PG_SCRATCH v)
    · obtain ⟨hWrite, hRead⟩ := State.regAt_off hOff src.val (4 * reg.val) v hReg
      exact ⟨congrArg Host.Outcome.next hWrite, congrArg Host.Outcome.next hRead⟩
    · refine ⟨_, congrArg Host.Outcome.next (State.regReadAt_errCount hKind hOn), ?_, rfl, fun p o ho hNe => ?_⟩
      · exact State.fld_setFld_same (by decide)
      · rw [State.reg_setReg _ _ _ _ _ _ (by decide) ho, if_neg fun h => hNe (Prod.ext h.1 h.2)]
    · exact congrArg Host.Outcome.next (State.lockPage_spec hKind hOn)
    · have hExec : exec (.regionShapeValid src c n x) s =
          .next (s.regionShapeWrite src.val c.val n.val (BitVec.ofNat 32 (putBits x.toNat 21 1 1))) := if_pos hOn
      intro off held
      rw [hExec, State.regionShapeWrite_valid]
      refine ⟨fun hLocked => by rw [hLocked]; rfl, fun hFree hLegal => ?_, fun hFree hIllegal => ?_⟩
      · rw [hFree]
        exact congrArg Host.Outcome.next (if_pos hLegal)
      · rw [hFree]
        exact congrArg Host.Outcome.next (if_neg (Bool.eq_false_iff.1 hIllegal))
    · obtain ⟨hEnable, hState, hRegs⟩ := State.simpleEnable_spec hFree
      have hRun : s.blockEnable src.val pg true = s.simpleEnable pg true := by
        unfold State.blockEnable
        cases k <;> simp_all [simpleBlock, alwaysOn]
      exact ⟨_, congrArg Host.Outcome.next hRun, hEnable, hState, hRegs⟩
    · have hRun : s.blockEnable src.val pg true = s.setFlag pg Reg.PG_STATE 2 true := by
        unfold State.blockEnable
        rw [hKind]
        simp only [hAlways, hOff, Bool.false_eq_true, if_false, Bool.not_false, if_true]
      exact congrArg Host.Outcome.next hRun
  · exact if_pos h
  · have hGo : ¬ (s.sec.boot ≠ 4 ∨ nodeOf addr ≠ s.node) := by
      rintro (h | h)
      · exact h hReady
      · exact h hNode
    intro r w got
    exact ⟨if_neg hGo, if_neg hGo⟩

end Sys2Proof.Claims

/-! ### Issue of a control word (R57–R62) -/

namespace Sys2Proof.Machine
open Claims

variable {s : State} {c : CoreId} {n : CtxId} {op : CtrlOp} {w : CtrlWord}

/-- Taking tokens leaves a core's registers and its program counter. -/
theorem Core.takeTokens_rest (k : Core) (wait : BitVec 8) : (k.takeTokens wait).x = k.x ∧ (k.takeTokens wait).pc = k.pc :=
  List.foldlRecOn (motive := fun k' : Core => k'.x = k.x ∧ k'.pc = k.pc) _ _ ⟨rfl, rfl⟩ fun k' h i _ => by
    split
    · exact h
    · exact h

/-- A word that is issued takes its tokens and does its effect. -/
theorem State.issueCtrl_of_issues (h : Issues s c n op w) :
    s.issueCtrl c.val op w = (s.setCore c.val ((s.core c.val).takeTokens w.wait)).runCtrl c.val n op w := by
  obtain ⟨hIssuer, hEcc, hCause, hWait, hPc⟩ := h
  unfold State.issueCtrl
  simp only [hIssuer, hEcc, State.fetchEcc, hCause, hWait, if_neg (show ¬ 16384 ≤ (s.core c.val).pc by omega), Bool.not_true,
    Bool.false_eq_true, if_false, if_true]

theorem afterIssue_core (s : State) (c : CoreId) (n : CtxId) (w : CtrlWord) :
    (afterIssue s c n w).core c.val = (s.core c.val).takeTokens w.wait := by
  have hCore : (afterIssue s c n w).core c.val = (s.setCore c.val ((s.core c.val).takeTokens w.wait)).core c.val := rfl
  rw [hCore, State.core_setCore, if_pos rfl]

theorem afterIssue_pc (s : State) (c : CoreId) (n : CtxId) (w : CtrlWord) :
    ((afterIssue s c n w).core c.val).pc = (s.core c.val).pc := by
  rw [afterIssue_core, (Core.takeTokens_rest _ _).2]

theorem afterIssue_xGet (s : State) (c : CoreId) (n : CtxId) (w : CtrlWord) (i : Nat) :
    ((afterIssue s c n w).core c.val).xGet i = (s.core c.val).xGet i := by
  rw [afterIssue_core, Core.xGet, (Core.takeTokens_rest _ _).1, Core.xGet]

/-- A program counter inside the instruction memory is not past its end. -/
theorem State.pastEnd_of_lt {i : Nat} (h : (s.core i).pc < 16384) : s.pastEnd i = s := by
  unfold State.pastEnd
  split
  · exact if_pos h
  · rfl

/-- One change of a core after another. -/
theorem State.modCore_modCore (s : State) (i : Nat) (f g : Core → Core) : (s.modCore i f).modCore i g = s.modCore i (g ∘ f) := by
  rw [State.modCore, State.modCore_core, State.modCore, State.setCore_setCore]
  rfl

theorem State.advance_of_lt {i : Nat} (h : (s.core i).pc + 1 < 16384) :
    s.advance i = s.modCore i fun k => { k with pc := k.pc + 1 } := by
  unfold State.advance State.nextPc
  refine State.pastEnd_of_lt ?_
  rw [State.modCore_core]
  exact h

theorem Core.xSet_pc (k : Core) (i : Nat) (v : W64) : (k.xSet i v).pc = k.pc := by
  unfold Core.xSet
  split <;> rfl

/-- A word that writes rd moves on (R71). -/
theorem State.writeRd_of_lt {i : Nat} {rd : BitVec 5} {v : W64} (h : (s.core i).pc + 1 < 16384) :
    s.writeRd i rd v = s.modCore i fun k => { k.xSet rd.toNat v with pc := k.pc + 1 } := by
  unfold State.writeRd
  rw [State.advance_of_lt, State.modCore_modCore]
  · exact congrArg (s.modCore i) (funext fun k => by simp only [Function.comp, Core.xSet_pc])
  · rw [State.modCore_core, Core.xSet_pc]
    exact h

theorem coreTo_eq_modCore (t : State) (c : CoreId) {pc : Nat} {f g : Core → Core}
    (h : ∀ k : Core, k.pc = (t.core c.val).pc → g k = { f k with pc := pc }) : t.modCore c.val g = coreTo t c pc f := by
  rw [State.modCore, coreTo, h _ rfl]

theorem issues_pc_lt (h : Issues s c n op w) : ((afterIssue s c n w).core c.val).pc + 1 < 16384 := by
  obtain ⟨-, -, -, -, hPc⟩ := h
  rwa [afterIssue_pc]

/-- The arithmetic and logic words of R71. -/
def CtrlOp.isAlu : CtrlOp → Bool
  | .add | .sub | .and | .or | .xor | .shl | .shr | .sra | .mul | .slt | .addi | .li => true
  | _ => false

/-- The branches of R71. -/
def CtrlOp.isBranch : CtrlOp → Bool
  | .beq | .bne | .blt | .bge | .bltu | .bgeu => true
  | _ => false

/-- The arithmetic and logic words write what `aluValue` computes. -/
theorem State.issue_alu (h : Issues s c n op w) (hOp : op.isAlu = true) :
    s.issueCtrl c.val op w = coreTo (afterIssue s c n w) c ((s.core c.val).pc + 1) fun k =>
      k.xSet w.rd.toNat (aluValue op ((s.core c.val).xGet w.rs1.toNat) ((s.core c.val).xGet w.rs2.toNat) w.imm) := by
  have hRun : s.issueCtrl c.val op w = (afterIssue s c n w).writeRd c.val w.rd
      (aluValue op (((afterIssue s c n w).core c.val).xGet w.rs1.toNat) (((afterIssue s c n w).core c.val).xGet w.rs2.toNat)
        w.imm) := by
    rw [State.issueCtrl_of_issues h]
    cases op <;> first | exact absurd hOp Bool.false_ne_true | rfl
  rw [hRun, afterIssue_xGet, afterIssue_xGet, State.writeRd_of_lt (issues_pc_lt h)]
  exact coreTo_eq_modCore _ c fun k hk => by rw [hk, afterIssue_pc]

/-- A branch moves to its target where its condition holds (R71). -/
theorem State.issue_branch (h : Issues s c n op w) (hOp : op.isBranch = true)
    (hTarget : (BitVec.ofNat 64 (s.core c.val).pc + w.imm).toNat < 16384) :
    s.issueCtrl c.val op w = coreTo (afterIssue s c n w) c
      (if branchTaken op ((s.core c.val).xGet w.rs1.toNat) ((s.core c.val).xGet w.rs2.toNat) then
        (BitVec.ofNat 64 (s.core c.val).pc + w.imm).toNat else (s.core c.val).pc + 1) id := by
  have hRun : s.issueCtrl c.val op w =
      if branchTaken op (((afterIssue s c n w).core c.val).xGet w.rs1.toNat) (((afterIssue s c n w).core c.val).xGet w.rs2.toNat)
      then (afterIssue s c n w).jump c.val n.val (((afterIssue s c n w).core c.val).pcWord + w.imm)
      else (afterIssue s c n w).advance c.val := by
    rw [State.issueCtrl_of_issues h]
    cases op <;> first | exact absurd hOp Bool.false_ne_true | rfl
  rw [hRun, afterIssue_xGet, afterIssue_xGet, Core.pcWord, afterIssue_pc]
  split
  · unfold State.jump
    rw [if_pos hTarget]
    exact coreTo_eq_modCore _ c fun _ _ => rfl
  · rw [State.advance_of_lt (issues_pc_lt h)]
    exact coreTo_eq_modCore _ c fun k hk => by rw [hk, afterIssue_pc]; rfl

/-- JAL and JALR write the next word's index and move (R71). -/
theorem State.runJump_of_lt {t : State} {target : W64} {rd : BitVec 5} (h : target.toNat < 16384) :
    t.runJump c.val n.val rd target =
      coreTo t c target.toNat fun k => k.xSet rd.toNat (BitVec.ofNat 64 ((t.core c.val).pc + 1)) := by
  unfold State.runJump
  rw [if_pos h]
  refine coreTo_eq_modCore _ c fun k hk => ?_
  have hNext : k.pcWord + 1 = BitVec.ofNat 64 ((t.core c.val).pc + 1) := by
    rw [Core.pcWord, hk]
    exact (BitVec.ofNat_add _ _).symm
  rw [hNext]

theorem State.issue_jal (h : Issues s c n .jal w) (hTarget : (BitVec.ofNat 64 (s.core c.val).pc + w.imm).toNat < 16384) :
    s.issueCtrl c.val .jal w = coreTo (afterIssue s c n w) c (BitVec.ofNat 64 (s.core c.val).pc + w.imm).toNat fun k =>
      k.xSet w.rd.toNat (BitVec.ofNat 64 ((s.core c.val).pc + 1)) := by
  have hRun : s.issueCtrl c.val .jal w =
      (afterIssue s c n w).runJump c.val n.val w.rd (((afterIssue s c n w).core c.val).pcWord + w.imm) := by
    rw [State.issueCtrl_of_issues h]
    rfl
  rw [Core.pcWord, afterIssue_pc] at hRun
  rw [hRun, State.runJump_of_lt hTarget, afterIssue_pc]

theorem State.issue_jalr (h : Issues s c n .jalr w) (hTarget : ((s.core c.val).xGet w.rs1.toNat + w.imm).toNat < 16384) :
    s.issueCtrl c.val .jalr w = coreTo (afterIssue s c n w) c ((s.core c.val).xGet w.rs1.toNat + w.imm).toNat fun k =>
      k.xSet w.rd.toNat (BitVec.ofNat 64 ((s.core c.val).pc + 1)) := by
  have hRun : s.issueCtrl c.val .jalr w =
      (afterIssue s c n w).runJump c.val n.val w.rd (((afterIssue s c n w).core c.val).xGet w.rs1.toNat + w.imm) := by
    rw [State.issueCtrl_of_issues h]
    rfl
  rw [afterIssue_xGet] at hRun
  rw [hRun, State.runJump_of_lt hTarget, afterIssue_pc]

end Sys2Proof.Machine

namespace Sys2Proof.Claims
open Machine

/-- Settles O1: every word goes through `issue_alu`; what is left is the value each computes. -/
theorem arithmeticWordsWriteRd : Obligations.ArithmeticWordsWriteRd := by
  intro s c n w a b hA hB t
  have hAlu {op : CtrlOp} (h : Issues s c n op w) (hOp : op.isAlu = true) :
      Host.Outcome.next (s.issueCtrl c.val op w) = (.next (t (aluValue op a b w.imm)) : Host.Outcome State Fault Refusal) := by
    rw [State.issue_alu h hOp, hA, hB]
  have hShift : (b.setWidth 6).toNat = b.toNat % 64 := by rw [BitVec.toNat_setWidth]
  have hMul : BitVec.ofNat 64 (a.toNat * b.toNat) = a * b := by
    rw [BitVec.ofNat_mul, BitVec.ofNat_toNat, BitVec.ofNat_toNat, BitVec.setWidth_eq, BitVec.setWidth_eq]
  have hSlt : (if a.toInt < b.toInt then 1 else 0 : W64) = if a.slt b then 1 else 0 := by
    simp only [BitVec.slt, decide_eq_true_eq]
  rw [hShift, hMul, hSlt]
  exact ⟨fun h => hAlu h rfl, fun h => hAlu h rfl, fun h => hAlu h rfl, fun h => hAlu h rfl, fun h => hAlu h rfl,
    fun h => hAlu h rfl, fun h => hAlu h rfl, fun h => hAlu h rfl, fun h => hAlu h rfl, fun h => hAlu h rfl,
    fun h => hAlu h rfl, fun h => hAlu h rfl⟩

/-- Settles O2: the branches by `issue_branch`, where the condition is what `branchTaken` decides, and the two jumps. -/
theorem transferWordsMove : Obligations.TransferWordsMove := by
  refine ⟨fun s c n w a b hA hB => ?_, fun s c n w target hTarget => ⟨fun h hEq => ?_, fun h hEq => ?_⟩⟩
  · intro target hTarget t
    have hBranch {op : CtrlOp} (h : Issues s c n op w) (hOp : op.isBranch = true) {p : Prop} [Decidable p]
        (hp : branchTaken op a b = decide p) :
        Host.Outcome.next (s.issueCtrl c.val op w) = (.next (t p) : Host.Outcome State Fault Refusal) := by
      rw [State.issue_branch h hOp hTarget, hA, hB, hp]
      simp only [decide_eq_true_eq]
      rfl
    refine ⟨fun h => hBranch h rfl ?_, fun h => hBranch h rfl ?_, fun h => hBranch h rfl ?_, fun h => hBranch h rfl ?_,
      fun h => hBranch h rfl ?_, fun h => hBranch h rfl ?_⟩
    · exact beq_eq_decide a b
    · simp [branchTaken, bne, beq_eq_decide]
    · rfl
    · simp [branchTaken, BitVec.slt, ← decide_not]
    · rfl
    · simp [branchTaken, BitVec.ult, ← decide_not]
  · subst hEq
    exact congrArg Host.Outcome.next (State.issue_jal h hTarget)
  · subst hEq
    exact congrArg Host.Outcome.next (State.issue_jalr h hTarget)

end Sys2Proof.Claims

/-! ### The words that read or write a core's scratchpad and records (R71, R83, R89, R116) -/

namespace Sys2Proof.Machine
open Claims

variable {s : State} {c : CoreId} {n : CtxId} {op : CtrlOp} {w : CtrlWord}

/-- Taking tokens changes the token counts alone. -/
theorem Core.takeTokens_eq (k : Core) (wait : BitVec 8) :
    k.takeTokens wait = { k with tokens := (k.takeTokens wait).tokens } :=
  List.foldlRecOn (motive := fun k' : Core => k' = { k with tokens := k'.tokens }) _ _ rfl fun k' h t _ => by
    split
    · rw [h]
      rfl
    · exact h

/-- After issue a core differs in its token counts alone. -/
theorem afterIssue_core_eq (s : State) (c : CoreId) (n : CtxId) (w : CtrlWord) :
    (afterIssue s c n w).core c.val = { s.core c.val with tokens := ((s.core c.val).takeTokens w.wait).tokens } := by
  rw [afterIssue_core]
  exact Core.takeTokens_eq _ _

theorem afterIssue_reg (s : State) (c : CoreId) (n : CtxId) (w : CtrlWord) {p o : Nat} (ho : o < 4096)
    (h : o ≠ Reg.CTRL_ISSUE_COUNT) : (afterIssue s c n w).reg p o = s.reg p o :=
  State.reg_count_off (s := s.setCore c.val ((s.core c.val).takeTokens w.wait)) (p := Page.ctrl c.val) (by decide) ho h

theorem afterIssue_moversAt (s : State) (c : CoreId) (n : CtxId) (w : CtrlWord) (o len : Nat) (writes : Bool) :
    (afterIssue s c n w).moversAt c.val o len writes = s.moversAt c.val o len writes := by
  unfold State.moversAt
  rw [afterIssue_core_eq]
  rfl

theorem afterIssue_scratchGet (s : State) (c : CoreId) (n : CtxId) (w : CtrlWord) (o len : Nat) :
    (afterIssue s c n w).scratchGet c.val o len = memGet (s.core c.val).scratch o len := by
  rw [State.scratchGet, afterIssue_core_eq]

/-- The state once a value that nothing constrains is drawn. -/
def State.drawn (s : State) : State := { s with free := s.free + 1 }

/-- A read beside no rival moves the value and changes nothing. -/
theorem State.readRaced_false (s : State) (v : W64) : s.readRaced false v = (v, s) := rfl

/-- A read beside a rival moves some value and draws it. -/
theorem State.readRaced_true (s : State) (v : W64) :
    ∃ v', s.readRaced true v = (v', s.drawn) := ⟨_, rfl⟩

theorem State.scratchRead_of_alone {i o : Nat} (h : s.moversAt i o 8 true = []) :
    s.scratchRead i o = (BitVec.ofNat 64 (leNat (s.scratchGet i o 8)), s) := by
  rw [State.scratchRead, h]
  rfl

theorem State.scratchRead_of_rival {i o : Nat} (h : s.moversAt i o 8 true ≠ []) :
    ∃ v, s.scratchRead i o = (v, s.drawn) := by
  rw [State.scratchRead, show (!(s.moversAt i o 8 true).isEmpty) = true by simpa using h]
  exact State.readRaced_true _ _

/-- A word that writes rd, with the value drawn or not, ends as `coreTo` says. -/
theorem State.runRead_eq {t t' : State} {v : W64} (h : t'.core c.val = t.core c.val) (hPc : (t.core c.val).pc + 1 < 16384) :
    State.runRead c.val w.rd (v, t') = coreTo t' c ((t.core c.val).pc + 1) fun k => k.xSet w.rd.toNat v := by
  rw [State.runRead, State.writeRd_of_lt (by rw [h]; exact hPc)]
  exact coreTo_eq_modCore _ c fun k hk => by rw [hk, h]

theorem runRead_afterIssue (h : Issues s c n op w) (v : W64) :
    State.runRead c.val w.rd (v, afterIssue s c n w) =
      coreTo (afterIssue s c n w) c ((s.core c.val).pc + 1) fun k => k.xSet w.rd.toNat v := by
  rw [State.runRead_eq rfl (issues_pc_lt h), afterIssue_pc]

theorem runRead_drawn (h : Issues s c n op w) (v : W64) :
    State.runRead c.val w.rd (v, (afterIssue s c n w).drawn) =
      (coreTo (afterIssue s c n w) c ((s.core c.val).pc + 1) fun k => k.xSet w.rd.toNat v).drawn := by
  have hEq := State.runRead_eq (w := w) (v := v) (t := afterIssue s c n w) (t' := (afterIssue s c n w).drawn) rfl
    (issues_pc_lt h)
  rw [afterIssue_pc] at hEq
  exact hEq

/-! The effect of each word after issue. -/

theorem State.issue_ld (h : Issues s c n .ld w) {o : Nat} (ho : ((s.core c.val).xGet w.rs1.toNat + w.imm).toNat = o)
    (hAlign : o % 8 = 0) (hIn : o + 8 ≤ 0x400000) :
    s.issueCtrl c.val .ld w = State.runRead c.val w.rd ((afterIssue s c n w).scratchRead c.val o) := by
  have hRun : s.issueCtrl c.val .ld w = (afterIssue s c n w).runLd c.val n.val w := by
    rw [State.issueCtrl_of_issues h]
    rfl
  rw [hRun, State.runLd, afterIssue_xGet, ho]
  exact if_pos ⟨hAlign, by omega⟩

theorem State.issue_st (h : Issues s c n .st w) {o : Nat} (ho : ((s.core c.val).xGet w.rs1.toNat + w.imm).toNat = o)
    (hAlign : o % 8 = 0) (hIn : o + 8 ≤ 0x400000) :
    s.issueCtrl c.val .st w =
      ((afterIssue s c n w).scratchWrite c.val o ((s.core c.val).xGet w.rs2.toNat)).advance c.val := by
  have hRun : s.issueCtrl c.val .st w = (afterIssue s c n w).runSt c.val n.val w := by
    rw [State.issueCtrl_of_issues h]
    rfl
  rw [hRun, State.runSt, afterIssue_xGet, afterIssue_xGet, ho]
  exact if_pos ⟨hAlign, by omega⟩

theorem State.scratchWrite_of_alone {i o : Nat} {v : W64} (h : s.moversAt i o 8 false = []) :
    s.scratchWrite i o v = s.scratchPut i o (leBytes 8 v.toNat) := by
  rw [State.scratchWrite, h]
  rfl

theorem State.issue_sumrd (h : Issues s c n .sumrd w) :
    s.issueCtrl c.val .sumrd w =
      State.runRead c.val w.rd ((afterIssue s c n w).readSummary c.val (w.imm.toNat % 256)) := by
  rw [State.issueCtrl_of_issues h]
  rfl

theorem State.issue_wlread (h : Issues s c n .wlread w) :
    s.issueCtrl c.val .wlread w = State.runRead c.val w.rd ((afterIssue s c n w).wlWord c.val (w.imm.toNat % 65536)) := by
  rw [State.issueCtrl_of_issues h]
  rfl

theorem State.issue_strd (h : Issues s c n .strd w) :
    s.issueCtrl c.val .strd w = State.runRead c.val w.rd ((afterIssue s c n w).readRaced
      ((s.core c.val).recordBusy w.imm.toNat) ((afterIssue s c n w).strdValue c.val w.imm.toNat)) := by
  have hRun : s.issueCtrl c.val .strd w = State.runRead c.val w.rd ((afterIssue s c n w).readRaced
      (((afterIssue s c n w).core c.val).recordBusy w.imm.toNat) ((afterIssue s c n w).strdValue c.val w.imm.toNat)) := by
    rw [State.issueCtrl_of_issues h]
    rfl
  rw [hRun, afterIssue_core_eq]
  rfl

theorem afterIssue_wlWord_some {l : CurList} (h : (s.core c.val).cur = some l) (i : Nat) :
    (afterIssue s c n w).wlWord c.val i =
      (afterIssue s c n w).scratchRead c.val (s.wlOffset c.val l.slot l.bar + 8 * i) := by
  have hCur : ((afterIssue s c n w).core c.val).cur = some l := by
    rw [afterIssue_core_eq]
    exact h
  have hOff : (afterIssue s c n w).wlOffset c.val l.slot l.bar = s.wlOffset c.val l.slot l.bar := by
    have hc := c.isLt
    simp only [State.wlOffset, State.fld, afterIssue_reg s c n w (p := Page.streams) (o := Reg.WL_BASE + 8 * c.val)
      (by simp only [Reg.WL_BASE]; omega) (by simp only [Reg.WL_BASE, Reg.CTRL_ISSUE_COUNT]; omega),
      afterIssue_reg s c n w (p := Page.streams) (o := Reg.WL_STRIDE + 8 * c.val)
      (by simp only [Reg.WL_STRIDE]; omega) (by simp only [Reg.WL_STRIDE, Reg.CTRL_ISSUE_COUNT]; omega)]
  simp only [State.wlWord, hCur, hOff]

theorem afterIssue_readSummary_none {sel : Nat} (h : (s.core c.val).summaryWord sel = none) :
    (afterIssue s c n w).readSummary c.val sel = ((s.core c.val).summary sel, afterIssue s c n w) := by
  unfold State.readSummary
  rw [afterIssue_core_eq]
  simp only [show Core.summaryWord { s.core c.val with tokens := ((s.core c.val).takeTokens w.wait).tokens } sel = none from h]
  rfl

/-- Beside a word that writes the summary, the read gives the old value or the new one (R119). -/
theorem afterIssue_readSummary_some {sel : Nat} {e : QEntry} (h : (s.core c.val).summaryWord sel = some e) :
    ∃ v, (afterIssue s c n w).readSummary c.val sel = (v, (afterIssue s c n w).drawn) ∧
      (v = (s.core c.val).summary sel ∨
        v = (((afterIssue s c n w).drawn.runVector c.val e.op e.w).core c.val).summary sel) := by
  have hOld : ((afterIssue s c n w).core c.val).summary sel = (s.core c.val).summary sel := by
    rw [afterIssue_core_eq]
    rfl
  have hWord : ((afterIssue s c n w).core c.val).summaryWord sel = some e := by
    rw [afterIssue_core_eq]
    exact h
  unfold State.readSummary
  simp only [hWord, hOld]
  refine ⟨_, rfl, ?_⟩
  split
  · exact .inr rfl
  · exact .inl rfl

theorem afterIssue_strdValue (s : State) (c : CoreId) (n : CtxId) (w : CtrlWord) (imm : Nat) :
    (afterIssue s c n w).strdValue c.val imm = s.strdValue c.val imm := by
  have hTile : bitsOf imm 8 6 < 64 := Nat.mod_lt _ (by decide)
  have hReg {o : Nat} (ho : o < 4096) (h : o ≠ Reg.CTRL_ISSUE_COUNT) := afterIssue_reg s c n w (p := Page.stat c.val) ho h
  unfold State.strdValue
  dsimp only
  rw [hReg (o := Reg.LAYER_ABSMAX) (by decide) (by decide), hReg (o := Reg.LAYER_SAT_COUNT) (by decide) (by decide),
    hReg (o := Reg.LAYER_NAN_COUNT) (by decide) (by decide),
    hReg (o := Reg.TILE_ABSMAX + 8 * bitsOf imm 8 6) (by simp only [Reg.TILE_ABSMAX]; omega)
      (by simp only [Reg.TILE_ABSMAX, Reg.CTRL_ISSUE_COUNT]; omega),
    hReg (o := Reg.TILE_COUNT + 8 * bitsOf imm 8 6) (by simp only [Reg.TILE_COUNT]; omega)
      (by simp only [Reg.TILE_COUNT, Reg.CTRL_ISSUE_COUNT]; omega)]

/-- MVFAIL reads the status of its context and clears it (R89). -/
theorem runMvfail_afterIssue (h : Issues s c n op w) :
    (afterIssue s c n w).runMvfail c.val n.val w.rd = coreTo (afterIssue s c n w) c ((s.core c.val).pc + 1) fun k =>
      { k with mvfail := SMap.set k.mvfail n.val 0 0 }.xSet w.rd.toNat
        ((SMap.get k.mvfail n.val 0).setWidth 64) := by
  unfold State.runMvfail
  dsimp only
  rw [State.writeRd_of_lt (by rw [State.modCore_core]; exact issues_pc_lt h), State.modCore_modCore]
  unfold State.modCore coreTo
  simp only [Function.comp, afterIssue_pc]

end Sys2Proof.Machine

namespace Sys2Proof.Claims
open Machine

/-- Settles O3: after issue each word reads what the state before issue holds, and beside a rival it draws. -/
theorem scratchpadAndRecordWordsAccess : Obligations.ScratchpadAndRecordWordsAccess := by
  refine ⟨fun s c n w o ho hAlign hIn => ⟨fun h hAlone => ?_, fun h hRival => ?_, fun h hAlone => ?_⟩,
    fun s c n w => ?_⟩
  · rw [← afterIssue_moversAt s c n w] at hAlone
    refine congrArg Host.Outcome.next ?_
    rw [State.issue_ld h ho hAlign hIn, State.scratchRead_of_alone hAlone, runRead_afterIssue h, afterIssue_scratchGet]
  · rw [← afterIssue_moversAt s c n w] at hRival
    obtain ⟨v, hv⟩ := State.scratchRead_of_rival hRival
    refine ⟨v, congrArg Host.Outcome.next ?_⟩
    rw [State.issue_ld h ho hAlign hIn, hv, runRead_drawn h]
    rfl
  · rw [← afterIssue_moversAt s c n w] at hAlone
    refine congrArg Host.Outcome.next ?_
    rw [State.issue_st h ho hAlign hIn, State.scratchWrite_of_alone hAlone, State.scratchPut, State.advance_of_lt, State.modCore_modCore]
    · exact coreTo_eq_modCore _ c fun k hk => by simp only [Function.comp, hk, afterIssue_pc]
    · rw [State.modCore_core]
      exact issues_pc_lt h
  · intro k p t sel tile
    refine ⟨fun h hNone => ?_, fun e h hSome => ?_, fun h hBusy => ?_, fun h => ⟨fun hCur => ?_, fun l hCur => ⟨fun hAlone => ?_, fun hRival => ?_⟩⟩,
      fun h hFree => ?_, fun h => ?_⟩
    · have hRun : exec (.sumrd c w) s = .next (t (k.summary sel)) := by
        refine congrArg Host.Outcome.next ?_
        rw [State.issue_sumrd h, afterIssue_readSummary_none hNone]
        exact runRead_afterIssue h _
      refine ⟨fun hSel => ?_, fun i hi hSel => ?_⟩
      · rw [hRun, Core.summary, if_pos hSel]
      · rw [hRun, Core.summary, if_neg (by omega), show sel - 16 = i by omega]
    · obtain ⟨v, hv, hOr⟩ := afterIssue_readSummary_some (c := c) (n := n) (w := w) hSome
      refine ⟨v, congrArg Host.Outcome.next ?_, hOr⟩
      rw [State.issue_sumrd h, hv]
      exact runRead_drawn h v
    · obtain ⟨v, hv⟩ := (afterIssue s c n w).readRaced_true ((afterIssue s c n w).strdValue c.val w.imm.toNat)
      refine ⟨v, congrArg Host.Outcome.next ?_⟩
      rw [State.issue_strd h, hBusy, hv]
      exact runRead_drawn h v
    · refine congrArg Host.Outcome.next ?_
      rw [State.issue_wlread h, State.wlWord, afterIssue_core_eq]
      simp only [show (s.core c.val).cur = none from hCur]
      exact runRead_afterIssue h _
    · rw [← afterIssue_moversAt s c n w] at hAlone
      refine congrArg Host.Outcome.next ?_
      rw [State.issue_wlread h, afterIssue_wlWord_some hCur, State.scratchRead_of_alone hAlone, afterIssue_scratchGet]
      exact runRead_afterIssue h _
    · rw [← afterIssue_moversAt s c n w] at hRival
      obtain ⟨v, hv⟩ := State.scratchRead_of_rival hRival
      refine ⟨v, congrArg Host.Outcome.next ?_⟩
      rw [State.issue_wlread h, afterIssue_wlWord_some hCur, hv]
      exact runRead_drawn h v
    · have hRun : exec (.strd c w) s = .next (t (s.strdValue c.val w.imm.toNat)) := by
        refine congrArg Host.Outcome.next ?_
        rw [State.issue_strd h, hFree, afterIssue_strdValue]
        exact runRead_afterIssue h _
      rw [hRun]
      have hTile : bitsOf w.imm.toNat 8 6 = tile := rfl
      refine ⟨fun hSel => ?_, fun hSel => ?_, fun hSel => ?_, fun hSel => ?_, fun hSel => ?_⟩ <;>
        simp only [State.strdValue, hSel, hTile, p]
    · refine congrArg Host.Outcome.next ?_
      rw [State.issueCtrl_of_issues h]
      exact runMvfail_afterIssue h
end Sys2Proof.Claims

/-! ### The words that hold or move the control core (R71, R83, R167, R209) -/

namespace Sys2Proof.Machine
open Claims

variable {s : State} {c : CoreId} {n : CtxId} {op : CtrlOp} {w : CtrlWord}

theorem State.issuer_eq_some {i : Nat} (h : s.issuer i = some n) :
    (s.core i).ctx = some n ∧ (s.core i).blocked = none ∧ s.runs n.val = true := by
  unfold State.issuer at h
  dsimp only at h
  split at h
  next m hCtx hBlocked =>
    split at h
    next hRuns =>
      obtain rfl := Option.some.inj h
      simp only [Bool.and_eq_true] at hRuns
      exact ⟨hCtx, hBlocked, hRuns.1.1⟩
    next => cases h
  next => cases h

theorem afterIssue_ctx (h : Issues s c n op w) : ((afterIssue s c n w).core c.val).ctx = some n := by
  rw [afterIssue_core_eq]
  exact (State.issuer_eq_some h.1).1

theorem afterIssue_blocked (h : Issues s c n op w) : ((afterIssue s c n w).core c.val).blocked = none := by
  rw [afterIssue_core_eq]
  exact (State.issuer_eq_some h.1).2.1

theorem core_coreTo (t : State) (c : CoreId) (pc : Nat) (f : Core → Core) :
    (coreTo t c pc f).core c.val = { f (t.core c.val) with pc := pc } := by
  rw [coreTo, State.core_setCore, if_pos rfl]

/-- A word that blocks its core leaves it behind the word (R71). -/
theorem block_afterIssue (s : State) (c : CoreId) (n : CtxId) (w : CtrlWord) (x : Blocked) :
    (((afterIssue s c n w).nextPc c.val).modCore c.val fun k => { k with blocked := some x }) =
      coreTo (afterIssue s c n w) c ((s.core c.val).pc + 1) fun k => { k with blocked := some x } := by
  rw [State.nextPc, State.modCore_modCore]
  exact coreTo_eq_modCore _ c fun k hk => by rw [Function.comp, hk, afterIssue_pc]

theorem nextPc_afterIssue (s : State) (c : CoreId) (n : CtxId) (w : CtrlWord) :
    (afterIssue s c n w).nextPc c.val = coreTo (afterIssue s c n w) c ((s.core c.val).pc + 1) id :=
  coreTo_eq_modCore _ c fun k hk => by rw [hk, afterIssue_pc]; rfl

theorem advance_afterIssue (h : Issues s c n op w) :
    (afterIssue s c n w).advance c.val = coreTo (afterIssue s c n w) c ((s.core c.val).pc + 1) id := by
  rw [State.advance_of_lt (issues_pc_lt h)]
  exact coreTo_eq_modCore _ c fun k hk => by rw [hk, afterIssue_pc]; rfl

/-- The rescheduling of a core in BEATWAIT for which no context is ready. -/
theorem State.resched_of_none {i : Nat} (hCtx : (s.core i).ctx = some n) (h : s.bestReady i = none) : s.resched i = s := by
  unfold State.resched
  simp only [hCtx, h]

/-- The rescheduling of a core in BEATWAIT for which its own context is the best. -/
theorem State.resched_of_same {i : Nat} {rd : BitVec 5} (hCtx : (s.core i).ctx = some n) (h : s.bestReady i = some n.val)
    (hBlocked : (s.core i).blocked = some (.beatWait rd)) :
    s.resched i = (s.setCore i { s.core i with preempt := false }).resolveBeat i := by
  unfold State.resched
  simp only [hCtx, h, hBlocked, if_true]

theorem layerClear_core (s : State) (i j : Nat) : (s.layerClear i).core j = s.core j := rfl

/-- STLB clears the layer record and names the layer (R83). -/
theorem runStlb_afterIssue (h : Issues s c n op w) :
    (afterIssue s c n w).runStlb c.val w.imm = coreTo (((afterIssue s c n w).layerClear c.val).setReg (Page.stat c.val)
      Reg.LAYER_ID (BitVec.ofNat 32 (w.imm.toNat % 256))) c ((s.core c.val).pc + 1) id := by
  have hId : (w.imm.setWidth 8).setWidth 32 = BitVec.ofNat 32 (w.imm.toNat % 256) :=
    BitVec.eq_of_toNat_eq (by simp only [BitVec.toNat_setWidth, BitVec.toNat_ofNat])
  have hPc : ((((afterIssue s c n w).layerClear c.val).setReg (Page.stat c.val) Reg.LAYER_ID
      (BitVec.ofNat 32 (w.imm.toNat % 256))).core c.val).pc = (s.core c.val).pc := afterIssue_pc s c n w
  obtain ⟨-, -, -, -, hLast⟩ := h
  rw [State.runStlb, hId, State.advance_of_lt (by rw [hPc]; exact hLast)]
  exact coreTo_eq_modCore _ c fun k hk => by rw [hk, hPc]; rfl

theorem pastEnd_coreTo {t : State} {pc : Nat} (h : pc < 16384) (f : Core → Core) :
    (coreTo t c pc f).pastEnd c.val = coreTo t c pc f :=
  State.pastEnd_of_lt (by rw [core_coreTo]; exact h)

/-- A pre-emption point without a request goes on (R209). -/
theorem runPoint_of_quiet (h : Issues s c n op w) (hPre : (s.core c.val).preempt = false) :
    (afterIssue s c n w).runPoint c.val n.val w.imm = coreTo (afterIssue s c n w) c ((s.core c.val).pc + 1) id := by
  obtain ⟨-, -, -, -, hLast⟩ := h
  unfold State.runPoint
  dsimp only
  rw [nextPc_afterIssue, core_coreTo, afterIssue_core_eq]
  simp only [id, hPre, Bool.false_and, Bool.false_eq_true, if_false]
  exact pastEnd_coreTo (by omega) id

/-- A pre-emption point with a request of a best-effort context waits at its point (R209). -/
theorem runPoint_of_preempt (h : Issues s c n op w) (hPre : (s.core c.val).preempt = true) (hBe : s.isBE n.val = true) :
    (afterIssue s c n w).runPoint c.val n.val w.imm =
      (((coreTo (afterIssue s c n w) c ((s.core c.val).pc + 1) fun k => { k with
        blocked := some (.point (w.imm.toNat % 65536) none), pointAt := s.now }).pointWithdraw c.val n.val
          (s.core c.val).pc).tryPoint c.val).pastEnd c.val := by
  have hRuns : s.runs n.val = true := (State.issuer_eq_some h.1).2.2
  have hNow : (coreTo (afterIssue s c n w) c ((s.core c.val).pc + 1) id).now = s.now := rfl
  have hBe' : (coreTo (afterIssue s c n w) c ((s.core c.val).pc + 1) id).isBE n.val = true := hBe
  have hRuns' : (coreTo (afterIssue s c n w) c ((s.core c.val).pc + 1) id).runs n.val = true := hRuns
  have hPre' : ((coreTo (afterIssue s c n w) c ((s.core c.val).pc + 1) id).core c.val).preempt = true := by
    rw [core_coreTo, afterIssue_core_eq]
    exact hPre
  unfold State.runPoint
  dsimp only
  rw [nextPc_afterIssue, hPre', hBe', hRuns', hNow, afterIssue_pc]
  rw [Bool.and_self, Bool.and_self, if_pos rfl]
  refine congrArg (fun t => ((State.pointWithdraw t c.val n.val (s.core c.val).pc).tryPoint c.val).pastEnd c.val) ?_
  rw [State.modCore, core_coreTo]
  exact State.setCore_setCore _ _ _ _

/-- Whether a context has nothing outstanding on a core depends on the queues alone. -/
theorem afterIssue_idle (s : State) (c : CoreId) (n : CtxId) (w : CtrlWord) :
    ((afterIssue s c n w).core c.val).idle n.val = (s.core c.val).idle n.val := by
  rw [afterIssue_core_eq]
  rfl

theorem State.addCause_core (s : State) (i b j : Nat) : (s.addCause i b).core j = s.core j := rfl

theorem State.reportEnd_core (s : State) (i j : Nat) : (s.reportEnd i).core j = s.core j := by
  unfold State.reportEnd
  split
  · rfl
  next l _ =>
    extract_lets m off late t k
    have hT : t.core j = s.core j := rfl
    split
    · exact hT
    · exact List.foldlRecOn (motive := fun t' : State => t'.core j = s.core j) _ _ hT fun t' h e _ => by
        extract_lets w verdict
        split
        · exact h
        · rw [State.addCause_core, h]

theorem State.tryEnd_of_idle {i : Nat} (hCtx : (s.core i).ctx = some n) (hIdle : (s.core i).idle n.val = true) :
    s.tryEnd i = ((s.setCore i { s.core i with blocked := none }).reportEnd i).pastEnd i := by
  unfold State.tryEnd
  simp only [hCtx, hIdle, if_true]

theorem State.tryEnd_of_busy {i : Nat} (hCtx : (s.core i).ctx = some n) (hIdle : (s.core i).idle n.val = false) :
    s.tryEnd i = s.setCore i { s.core i with blocked := some .endWait } := by
  unfold State.tryEnd
  simp only [hCtx, hIdle, Bool.false_eq_true, if_false]

theorem coreTo_id_of_unblocked {t : State} {pc : Nat} (h : (t.core c.val).blocked = none) :
    (coreTo t c pc id).setCore c.val { (coreTo t c pc id).core c.val with blocked := none } = coreTo t c pc id := by
  rw [core_coreTo, coreTo, State.setCore_setCore, ← h]
  rfl

/-- END with nothing outstanding reports the stage (R167). -/
theorem tryEnd_afterIssue (h : Issues s c n op w) (hIdle : (s.core c.val).idle n.val = true) :
    ((afterIssue s c n w).nextPc c.val).tryEnd c.val =
      (coreTo (afterIssue s c n w) c ((s.core c.val).pc + 1) id).reportEnd c.val := by
  have ⟨_, _, _, _, hPc⟩ := h
  rw [nextPc_afterIssue, State.tryEnd_of_idle (n := n), coreTo_id_of_unblocked (afterIssue_blocked h), State.pastEnd_of_lt]
  · rw [State.reportEnd_core, core_coreTo]
    exact hPc
  · rw [core_coreTo]
    exact afterIssue_ctx h
  · rw [core_coreTo]
    exact (afterIssue_idle s c n w).trans hIdle

theorem tryEnd_afterIssue_of_busy (h : Issues s c n op w) (hIdle : (s.core c.val).idle n.val = false) :
    ((afterIssue s c n w).nextPc c.val).tryEnd c.val =
      coreTo (afterIssue s c n w) c ((s.core c.val).pc + 1) fun k => { k with blocked := some .endWait } := by
  rw [nextPc_afterIssue, State.tryEnd_of_busy (n := n), core_coreTo, coreTo, State.setCore_setCore]
  · rfl
  · rw [core_coreTo]
    exact afterIssue_ctx h
  · rw [core_coreTo]
    exact (afterIssue_idle s c n w).trans hIdle

end Sys2Proof.Machine

namespace Sys2Proof.Claims
open Machine

/-- Settles O4: a word that blocks leaves its core behind it with the reason; the others move on or report. -/
theorem waitingWordsBlock : Obligations.WaitingWordsBlock := by
  intro s c n w k goes
  have hRun {op : CtrlOp} (h : Issues s c n op w) {t : State}
      (hT : (s.setCore c.val ((s.core c.val).takeTokens w.wait)).runCtrl c.val n op w = t) :
      Host.Outcome.next (s.issueCtrl c.val op w) = (.next t : Host.Outcome State Fault Refusal) := by
    rw [State.issueCtrl_of_issues h, hT]
  refine ⟨fun h => hRun h (advance_afterIssue h), fun h => hRun h (advance_afterIssue h),
    fun h => hRun h (block_afterIssue s c n w .brk),
    fun h => hRun h (block_afterIssue s c n w (.reheat (w.imm.toNat % 256) w.rd)),
    fun h hNone => hRun h ?_, fun h hSame => hRun h ?_, fun h => hRun h ?_, fun h hPre => hRun h ?_,
    fun h hPre hBe => hRun h ?_, fun h hIdle => hRun h ?_, fun h hIdle => hRun h ?_⟩
  · exact (congrArg (State.resched · c.val) (block_afterIssue s c n w (.beatWait w.rd))).trans
      (State.resched_of_none (by rw [core_coreTo]; exact afterIssue_ctx h) hNone)
  · refine ((congrArg (State.resched · c.val) (block_afterIssue s c n w (.beatWait w.rd))).trans
      (State.resched_of_same (by rw [core_coreTo]; exact afterIssue_ctx h) hSame (by rw [core_coreTo]))).trans ?_
    refine congrArg (State.resolveBeat · c.val) ?_
    rw [core_coreTo]
    exact State.setCore_setCore _ _ _ _
  · exact runStlb_afterIssue h
  · exact runPoint_of_quiet h hPre
  · exact runPoint_of_preempt h hPre hBe
  · exact tryEnd_afterIssue h hIdle
  · exact tryEnd_afterIssue_of_busy h hIdle

end Sys2Proof.Claims

/-! ### The end of a tile word (R62) -/

namespace Sys2Proof.Machine
open Claims

variable {s : State} {c : CoreId} {n : CtxId}

theorem Core.tok_setTok_same (k : Core) (t v : Nat) : (k.setTok t v).tok t = v := by
  rw [Core.tok, Core.setTok, SMap.get_set, if_pos rfl]

/-- A signal below the limit of 15 adds 1 (R62). -/
theorem State.signalToken_of_lt {i t pc : Nat} (hCtx : (s.core i).ctx = some n) (h : (s.core i).tok t < 15) :
    s.signalToken i n.val t pc = s.setCore i ((s.core i).setTok t ((s.core i).tok t + 1)) := by
  have hN : Fin.ofNat 64 n.val = n := Fin.ext (Nat.mod_eq_of_lt n.isLt)
  unfold State.signalToken
  simp only [hCtx, hN, if_true, if_neg (show ¬ (s.core i).tok t = 15 by omega)]

/-- A signal at the limit of 15 is a fault (R62). -/
theorem State.signalToken_of_full {i t pc : Nat} (hCtx : (s.core i).ctx = some n) (h : (s.core i).tok t = 15) :
    s.signalToken i n.val t pc = s.coreFault i n.val causeToken pc := by
  have hN : Fin.ofNat 64 n.val = n := Fin.ext (Nat.mod_eq_of_lt n.isLt)
  unfold State.signalToken
  simp only [hCtx, hN, h, if_true]

/-- A fault of a core stands in its CTRL_FAULT, asks for the quench of its context, and leaves the cores (R92). -/
theorem State.coreFault_spec (s : State) (i : Nat) (n : CtxId) (cause pc : Nat) :
    (∀ j, (s.coreFault i n.val cause pc).core j = s.core j) ∧
    (s.coreFault i n.val cause pc).reg (Page.ctrl i) Reg.CTRL_FAULT =
      BitVec.ofNat 32 (cause + 256 * (pc % 16384) + 0x400000 * n.val) ∧
    ((s.ctx n.val).st = .running → ((s.coreFault i n.val cause pc).ctx n.val).st = .quenching) := by
  have hWord : cause + bitsOf pc 0 14 * 2 ^ 8 + bitsOf n.val 0 6 * 2 ^ 22 = cause + 256 * (pc % 16384) + 0x400000 * n.val := by
    have hn := n.isLt
    simp only [bitsOf]
    omega
  unfold State.coreFault
  dsimp only
  rw [hWord]
  refine ⟨fun j => ?_, ?_, fun hRun => State.requestQuench_running hRun⟩
  · rw [State.requestQuench_eq]
    rfl
  · rw [State.requestQuench_eq]
    exact State.reg_setReg_same _ _ _ _

/-- A word that nothing raced does its work and is done (R62). -/
theorem State.completeWord_of_clean {q : EngineId} {e : QEntry} (h : e.raced = false) :
    s.completeWord c.val q e = if e.w.sigv then
      (wordDone (s.runWord c.val q e) c q e).signalToken c.val e.ctx.val e.w.sig.toNat e.pc
      else wordDone (s.runWord c.val q e) c q e := by
  unfold State.completeWord
  rw [h]
  rfl

end Sys2Proof.Machine

namespace Sys2Proof.Claims
open Machine

/-- Settles O10: the word that completes is the one `completable` names; the signal by `signalToken_of_lt` and `_of_full`. -/
theorem completedWordSignalsToken : Obligations.CompletedWordSignalsToken := by
  refine ⟨?_, fun s c t pc n hCtx => ⟨fun h => ?_, fun h => ?_⟩⟩
  · intro s c q e u hWord hClean ends
    have hRun {v : State} (hWork : u.runWord c.val q e = v) : exec (.wordComplete c q) s = .next (ends v) := by
      show execWordComplete c q s = _
      unfold execWordComplete
      dsimp only
      rw [show State.completable (if q = .mover then s.returnHere c.val (s.hereRounds c.val) else s) c.val q = some e from hWord]
      dsimp only
      rw [State.completeWord_of_clean hClean, ← hWork]
    refine ⟨fun hq hOp => hRun ?_, fun hq hOp => hRun ?_, fun hq => hRun ?_, fun hq => hRun ?_, fun hq => hRun ?_⟩ <;> subst hq
    · exact if_pos hOp
    · exact if_neg (by rw [hOp]; decide)
    · rfl
    · rfl
    · show (if e.raced then _ else u) = u
      rw [hClean]
      rfl
  · rw [State.signalToken_of_lt hCtx h]
    refine ⟨rfl, ?_⟩
    rw [State.core_setCore, if_pos rfl, Core.tok_setTok_same]
  · rw [State.signalToken_of_full hCtx h]
    obtain ⟨hCore, hReg, hQuench⟩ := s.coreFault_spec c n causeToken pc
    exact ⟨hCore c, hReg, hQuench⟩

end Sys2Proof.Claims

/-! ### Issue and start of a tile word (R59–R62) -/

namespace Sys2Proof.Machine
open Claims

variable {s : State} {c : CoreId} {n : CtxId} {op : TileOp} {w : TileWord} {ecc : List Ecc}

theorem Core.queue_setQueue_same (k : Core) (q : EngineId) (l : List QEntry) : (k.setQueue q l).queue q = l := by
  cases q <;> rfl

theorem Core.queue_setQueue_other (k : Core) {q q' : EngineId} (h : q' ≠ q) (l : List QEntry) :
    (k.setQueue q l).queue q' = k.queue q' := by
  cases q <;> cases q' <;> first | exact absurd rfl h | rfl

theorem Core.setQueue_rest (k : Core) (q : EngineId) (l : List QEntry) :
    (k.setQueue q l).tokens = k.tokens ∧ (k.setQueue q l).banks = k.banks := by
  cases q <;> exact ⟨rfl, rfl⟩

/-- The core holds the words of `l` in the queue of engine `q` and no others. -/
def Core.OnlyIn (k : Core) (q : EngineId) (l : List QEntry) : Prop := ∀ q', k.queue q' = if q' = q then l else []

theorem Core.OnlyIn.here {k : Core} {q : EngineId} {l : List QEntry} (h : k.OnlyIn q l) : k.queue q = l := by
  rw [h q, if_pos rfl]

theorem Core.OnlyIn.there {k : Core} {q q' : EngineId} {l : List QEntry} (h : k.OnlyIn q l) (hq : q' ≠ q) : k.queue q' = [] := by
  rw [h q', if_neg hq]

theorem Core.OnlyIn.setQueue {k : Core} {q : EngineId} {l : List QEntry} (h : k.OnlyIn q l) (l' : List QEntry) :
    (k.setQueue q l').OnlyIn q l' := fun q' => by
  split
  next hq => rw [hq, Core.queue_setQueue_same]
  next hq => rw [Core.queue_setQueue_other _ hq, h.there hq]

/-- A word meets no running word where its engine's queue is the only one that holds any (R61). -/
theorem Core.OnlyIn.rivals {k : Core} {e : QEntry} {l : List QEntry} (h : k.OnlyIn e.op.engine l) : k.rivals e = [] := by
  have hRunning : k.running e.op.engine = [] := by
    refine List.flatMap_eq_nil_iff.2 fun q hq => ?_
    rw [h.there (by simpa using (List.mem_filter.1 hq).2)]
    rfl
  rw [Core.rivals, hRunning]
  rfl

/-! #### Issue -/

/-- A word that is legal leaves no record of a fault (R70, R140). -/
theorem State.tileFault_of_none {i : Nat} (h : (s.tileFault i op w).1 = none) : s.tileFault i op w = (none, s) := by
  unfold State.tileFault at h ⊢
  split
  next hCause =>
    rw [hCause] at h
    cases h
  next hCause =>
    rw [hCause] at h
    dsimp only at h ⊢
    split at h
    · cases h
    next hBad => rw [if_neg hBad]

/-- A tile word that issues enters its queue (R59). -/
theorem State.issueTile_of_issues (h : IssuesTile s c n op w) :
    s.issueTile c.val op w (storeEcc op ecc) = ((queued s c n op w ecc).pump c.val).advance c.val := by
  obtain ⟨hIssuer, hEcc, hFault, hRoom, hPc⟩ := h
  unfold State.issueTile
  simp only [hIssuer, hEcc, State.fetchEcc, State.tileFault_of_none hFault, if_neg (show ¬ 16384 ≤ (s.core c.val).pc by omega),
    Bool.not_true, Bool.false_eq_true, if_false]
  unfold State.enqueue
  dsimp only
  rw [if_neg (by omega)]
  rfl

theorem exec_tileCommand (s : State) (op : TileOp) (c : CoreId) (w : TileWord) (ecc : List Ecc) :
    exec (tileCommand op c w ecc) s = .next (s.issueTile c.val op w (storeEcc op ecc)) := by
  cases op <;> rfl

/-! #### Start -/

/-- After issue the core differs in its queue and its issue record: tokens and banks stay. -/
theorem queued_core (s : State) (c : CoreId) (n : CtxId) (op : TileOp) (w : TileWord) (ecc : List Ecc) :
    let k := (queued s c n op w ecc).core c.val
    let k' := (s.core c.val).setQueue op.engine ((s.core c.val).queue op.engine ++ [s.entryOf c.val n op w (storeEcc op ecc)])
    (∀ q, k.queue q = k'.queue q) ∧ k.tokens = (s.core c.val).tokens ∧ k.banks = (s.core c.val).banks := by
  intro k k'
  have hCore : k = { k' with
      blocked := none, nextSeq := (s.core c.val).nextSeq + 1,
      issuedBar := if (s.core c.val).issuedBar.contains (engineCode op.engine, n.val) then (s.core c.val).issuedBar
        else (s.core c.val).issuedBar ++ [(engineCode op.engine, n.val)] } := by
    simp only [k, queued, State.core_count, State.core_setCore, if_true]
    rfl
  obtain ⟨hTokens, hBanks⟩ := Core.setQueue_rest (s.core c.val) op.engine
    ((s.core c.val).queue op.engine ++ [s.entryOf c.val n op w (storeEcc op ecc)])
  rw [hCore]
  refine ⟨fun q => ?_, hTokens, hBanks⟩
  cases q <;> rfl

theorem queued_onlyIn (h : ∀ q, (s.core c.val).queue q = []) :
    ((queued s c n op w ecc).core c.val).OnlyIn op.engine [s.entryOf c.val n op w (storeEcc op ecc)] := fun q => by
  rw [(queued_core s c n op w ecc).1 q]
  split
  next hq => rw [hq, Core.queue_setQueue_same, h, List.nil_append]
  next hq => rw [Core.queue_setQueue_other _ hq, h]

theorem Core.takeTokens_onlyIn {k : Core} {q : EngineId} {l : List QEntry} (h : k.OnlyIn q l) (wait : BitVec 8) :
    (k.takeTokens wait).OnlyIn q l := fun q' => by
  rw [Core.takeTokens_eq, ← h q']
  cases q' <;> rfl

/-- A word that starts alone on its core is marked as started, and meets no other (R61). -/
theorem startEntry_onlyIn {i : Nat} {e : QEntry} (h : (s.core i).OnlyIn e.op.engine [e]) :
    s.startEntry i e.op.engine e = (((s.endWait 1 i (waitEngine e.op) e.ctx).modCore i fun k => k.takeTokens e.w.wait).modQ i
      e.op.engine e.seq fun x => { x with started := true }) ∧
    ((s.startEntry i e.op.engine e).core i).OnlyIn e.op.engine [{ e with started := true }] := by
  have hTaken := Core.takeTokens_onlyIn h e.w.wait
  have hOnly : ((((s.endWait 1 i (waitEngine e.op) e.ctx).modCore i fun k => k.takeTokens e.w.wait).modQ i
      e.op.engine e.seq fun x => { x with started := true }).core i).OnlyIn e.op.engine [{ e with started := true }] := by
    unfold State.modQ
    rw [State.modCore_core, State.modCore_core, show (s.endWait 1 i (waitEngine e.op) e.ctx).core i = s.core i from rfl,
      hTaken.here]
    rw [List.map_singleton, if_pos rfl]
    exact hTaken.setQueue _
  have hStart : s.startEntry i e.op.engine e = (((s.endWait 1 i (waitEngine e.op) e.ctx).modCore i fun k =>
      k.takeTokens e.w.wait).modQ i e.op.engine e.seq fun x => { x with started := true }) := by
    unfold State.startEntry State.markRivals
    dsimp only
    rw [hOnly.rivals]
  exact ⟨hStart, hStart ▸ hOnly⟩

theorem State.beginWait_core (s : State) (kind i engine : Nat) (n : CtxId) (obj : W64) (j : Nat) :
    (s.beginWait kind i engine n obj).core j = s.core j := by
  unfold State.beginWait
  split
  · rfl
  · unfold State.addWait
    split <;> rfl

/-- Words that all run leave a pump nothing to do. -/
theorem State.queuePump_of_started {i : Nat} {q : EngineId} (l : List QEntry) (h : ∀ e ∈ l, e.started = true) :
    ∀ before, s.queuePump i q before l = s := by
  induction l with
  | nil => exact fun _ => rfl
  | cons e r ih =>
    intro before
    unfold State.queuePump
    rw [if_pos (h e List.mem_cons_self)]
    exact ih (fun x hx => h x (List.mem_cons_of_mem _ hx)) _

theorem State.tryHead_of_started {i : Nat} {q q' : EngineId} {e : QEntry} (h : (s.core i).OnlyIn q [e])
    (hStarted : q' = q → e.started = true) : s.tryHead i q' = s := by
  refine State.queuePump_of_started _ (fun x hx => ?_) []
  rw [h q'] at hx
  split at hx
  next hq => rw [List.mem_singleton.1 hx, hStarted hq]
  next => cases hx

theorem State.moverParts_of_nil {i : Nat} (h : (s.core i).moverQ = []) :
    (s.mvContinue i).moverPump i [] ((s.mvContinue i).core i).moverQ = s := by
  have hContinue : s.mvContinue i = s := by
    unfold State.mvContinue
    rw [h]
    rfl
  rw [hContinue, h]
  rfl

/-- The head of a queue that holds one word starts it where its context runs and its tokens are there (R61, R62). -/
theorem State.tryHead_of_one {i : Nat} {q : EngineId} {e : QEntry} (h : (s.core i).OnlyIn q [e]) (hStarted : e.started = false)
    (hRuns : s.runs e.ctx.val = true) (hWait : (s.core i).waitMet e.w.wait = true) : s.tryHead i q = s.engineStart i q e := by
  unfold State.tryHead
  rw [h.here]
  unfold State.queuePump
  simp only [hStarted, hRuns, hWait, List.all_nil, Bool.not_true, Bool.or_self, Bool.false_eq_true, if_false, if_true]
  split
  · exact State.queuePump_of_started [] (fun _ hx => absurd hx (List.not_mem_nil)) _
  · rfl

/-- A word that nothing withholds starts and keeps its engine busy (R61, R75, R143). -/
theorem State.engineStart_of_free {i : Nat} {q : EngineId} {e : QEntry}
    (hFoot : e.op = .mma → ((s.core i).bank (e.w.f 32 2)).isOpen = true → e.w.b 34 = false →
      footprintBad ((s.core i).bank (e.w.f 32 2)) e.w = false)
    (hUnread : (s.startEntry i q e).pair.unread = []) (hImporting : (s.startEntry i q e).pair.importing = []) :
    s.engineStart i q e = (s.startEntry i q e).beginWait 3 i (waitEngine e.op) e.ctx (BitVec.ofNat 64 e.seq) := by
  have hFits : ¬ (e.op = .mma ∧ ((s.core i).bank (e.w.f 32 2)).isOpen ∧ !e.w.b 34 ∧
      footprintBad ((s.core i).bank (e.w.f 32 2)) e.w) := by
    rintro ⟨hMma, hOpen, hNext, hBad⟩
    rw [hFoot hMma hOpen (by simpa using hNext)] at hBad
    cases hBad
  have hFree : (s.startEntry i q e).mustHold i e = false := by
    unfold State.mustHold
    dsimp only
    rw [hUnread, hImporting]
    exact Bool.and_false _
  unfold State.engineStart
  dsimp only
  rw [if_neg hFits, hFree, if_neg (fun h => absurd h.2 Bool.false_ne_true)]

/-- A mover word starts alone where its context runs and its tokens are there: its transactions are issued (R84–R86). -/
theorem State.moverParts_of_one {i : Nat} {e : QEntry} (h : (s.core i).OnlyIn .mover [e]) (hEngine : e.op.engine = .mover)
    (hStarted : e.started = false) (hRaced : e.raced = false) (hRuns : s.runs e.ctx.val = true)
    (hWait : (s.core i).waitMet e.w.wait = true) (hAligned : mvMisaligned e = false) :
    (s.mvContinue i).moverPump i [] ((s.mvContinue i).core i).moverQ =
      (if e.op = .semwait then (s.startEntry i .mover e).beginWait 2 i 5 e.ctx (mvAddr e)
        else s.startEntry i .mover e).mvIssueAll i e (mvTxns e) := by
  have hQueue : (s.core i).moverQ = [e] := h.here
  have hContinue : s.mvContinue i = s := by
    unfold State.mvContinue
    rw [hQueue, List.foldl_cons, List.foldl_nil, hStarted]
    rfl
  have hStart : s.moverStart i e = (if e.op = .semwait then (s.startEntry i .mover e).beginWait 2 i 5 e.ctx (mvAddr e)
      else s.startEntry i .mover e).mvIssueAll i e (mvTxns e) := by
    have hOnly := (startEntry_onlyIn (by rw [hEngine]; exact h)).2
    rw [hEngine] at hOnly
    have hQ : ((if e.op = .semwait then (s.startEntry i .mover e).beginWait 2 i 5 e.ctx (mvAddr e)
        else s.startEntry i .mover e).core i).moverQ = [{ e with started := true }] := by
      split
      · rw [State.beginWait_core]
        exact hOnly.here
      · exact hOnly.here
    unfold State.moverStart
    rw [hAligned, if_neg Bool.false_ne_true]
    dsimp only
    rw [hQ]
    simp only [List.any_cons, List.any_nil, hRaced, Bool.and_false, Bool.or_false, State.raceAround, Bool.false_eq_true, if_false]
  rw [hContinue, hQueue]
  unfold State.moverPump
  simp only [hStarted, hRuns, hWait, State.moverReady, List.all_nil, Bool.not_true, Bool.or_self, Bool.false_eq_true, if_false,
    if_true]
  rw [hStart]
  split
  · split
    · rfl
    · rfl
  · rfl

/-! #### A word issued on an empty core -/

theorem queued_runs (s : State) (c : CoreId) (n : CtxId) (op : TileOp) (w : TileWord) (ecc : List Ecc) (m : Nat) :
    (queued s c n op w ecc).runs m = s.runs m := rfl

theorem queued_waitMet (s : State) (c : CoreId) (n : CtxId) (op : TileOp) (w : TileWord) (ecc : List Ecc) (wait : BitVec 8) :
    ((queued s c n op w ecc).core c.val).waitMet wait = (s.core c.val).waitMet wait := by
  have hTok (t : Nat) : ((queued s c n op w ecc).core c.val).tok t = (s.core c.val).tok t := by
    rw [Core.tok, Core.tok, (queued_core s c n op w ecc).2.1]
  unfold Core.waitMet
  exact congrArg (List.range 8).all (funext fun t => by rw [hTok])

theorem queued_bank (s : State) (c : CoreId) (n : CtxId) (op : TileOp) (w : TileWord) (ecc : List Ecc) (b : Nat) :
    ((queued s c n op w ecc).core c.val).bank b = (s.core c.val).bank b := by
  simp only [Core.bank, (queued_core s c n op w ecc).2.2]

theorem pump_queued (h : IssuesTile s c n op w) (hAlone : StartsAtOnce s c op w) (hEngine : op.engine ≠ .mover) :
    (queued s c n op w ecc).pump c.val = begun s c n op w ecc := by
  obtain ⟨hEmpty, hWait, hUnread, hImporting, hFoot⟩ := hAlone
  have hRuns := (State.issuer_eq_some h.1).2.2
  have hOnly : ((queued s c n op w ecc).core c.val).OnlyIn op.engine [s.entryOf c.val n op w (storeEcc op ecc)] :=
    queued_onlyIn hEmpty
  obtain ⟨hStart, hStartOnly⟩ := startEntry_onlyIn (e := s.entryOf c.val n op w (storeEcc op ecc)) hOnly
  have hHead : (queued s c n op w ecc).tryHead c.val op.engine = begun s c n op w ecc := by
    rw [State.tryHead_of_one hOnly rfl hRuns ((queued_waitMet s c n op w ecc _).trans hWait)]
    refine State.engineStart_of_free ?_ ?_ ?_
    · rw [queued_bank]
      exact hFoot
    · exact (congrArg (fun t : State => t.pair.unread) hStart).trans hUnread
    · exact (congrArg (fun t : State => t.pair.importing) hStart).trans hImporting
  have hBegun : ((begun s c n op w ecc).core c.val).OnlyIn op.engine
      [{ s.entryOf c.val n op w (storeEcc op ecc) with started := true }] := by
    unfold begun
    rw [State.beginWait_core]
    exact hStartOnly
  have hRest (q : EngineId) : (begun s c n op w ecc).tryHead c.val q = begun s c n op w ecc :=
    State.tryHead_of_started hBegun fun _ => rfl
  have hOther {q : EngineId} (hq : q ≠ op.engine) : (queued s c n op w ecc).tryHead c.val q = queued s c n op w ecc :=
    State.tryHead_of_started hOnly fun hq' => absurd hq' hq
  have hHeads : (((queued s c n op w ecc).tryHead c.val .matrix).tryHead c.val .vector).tryHead c.val .scan =
      begun s c n op w ecc := by
    cases hE : op.engine with
    | matrix => rw [← hE, hHead, hRest, hRest]
    | vector => rw [hOther (by rw [hE]; decide), ← hE, hHead, hRest]
    | scan => rw [hOther (by rw [hE]; decide), hOther (by rw [hE]; decide), ← hE, hHead]
    | mover => exact absurd hE hEngine
  unfold State.pump
  dsimp only
  rw [hHeads]
  exact State.moverParts_of_nil (hBegun.there (q' := .mover) (Ne.symm hEngine))

theorem pump_queued_mover (h : IssuesTile s c n op w) (hAlone : StartsAtOnce s c op w) (hEngine : op.engine = .mover)
    (hAligned : mvMisaligned (s.entryOf c.val n op w []) = false) :
    (queued s c n op w []).pump c.val =
      (if op = .semwait then (started s c n op w []).beginWait 2 c.val 5 n (mvAddr (s.entryOf c.val n op w []))
        else started s c n op w []).mvIssueAll c.val (s.entryOf c.val n op w []) (mvTxns (s.entryOf c.val n op w [])) := by
  obtain ⟨hEmpty, hWait, -, -, -⟩ := hAlone
  have hRuns := (State.issuer_eq_some h.1).2.2
  have hEcc : storeEcc op [] = [] := by
    unfold storeEcc
    split <;> rfl
  have hOnly : ((queued s c n op w []).core c.val).OnlyIn op.engine [s.entryOf c.val n op w (storeEcc op [])] :=
    queued_onlyIn hEmpty
  rw [hEcc, hEngine] at hOnly
  have hOther {q : EngineId} (hq : q ≠ .mover) : (queued s c n op w []).tryHead c.val q = queued s c n op w [] :=
    State.tryHead_of_started hOnly fun hq' => absurd hq' hq
  unfold State.pump
  dsimp only
  rw [hOther (by decide), hOther (by decide), hOther (by decide)]
  rw [State.moverParts_of_one hOnly hEngine rfl rfl hRuns ((queued_waitMet s c n op w [] _).trans hWait) hAligned]
  unfold started
  rw [hEcc, hEngine]
  rfl

end Sys2Proof.Machine

namespace Sys2Proof.Claims
open Machine

/-- Settles O5: issue by `issueTile_of_issues`; a word issued on an empty core starts by `pump_queued`. -/
theorem tileWordsQueueAndRun : Obligations.TileWordsQueueAndRun := by
  refine ⟨fun s c n op w ecc h => ?_, fun s c n op w ecc hEngine h hAlone => ?_, fun s c n op w hEngine h hAlone => ?_⟩
  · rw [exec_tileCommand, State.issueTile_of_issues h]
  · rw [exec_tileCommand, State.issueTile_of_issues h, pump_queued h hAlone hEngine]
  · intro e t hAligned
    rw [exec_tileCommand, State.issueTile_of_issues h, pump_queued_mover h hAlone hEngine hAligned]

end Sys2Proof.Claims

/-! ### Replies, timeouts and failures of the mover's transactions (R89, R92) -/

namespace Sys2Proof.Machine
open Claims

variable {s : State}

/-- A reply in time frees its tag and lands, or latches its status (R89). -/
theorem State.txnReply_of_tag {i status : Nat} {operand : W64} {data : List Byte} {x : Tag} (h : s.tag i = some x)
    (hKind : x.kind ≠ .semWait) :
    s.txnReply i status operand data =
      if (if s.tooLate x then 0x0B else status) = 0 then (s.freeTag i).replyLands x operand data
      else (s.freeTag i).txnFailed x (if s.tooLate x then 0x0B else status) := by
  unfold State.txnReply
  simp only [h, hKind, false_and, if_false]

/-- A wait answered BUSY keeps its tag (R313). -/
theorem State.txnReply_busy {i : Nat} {operand : W64} {data : List Byte} {x : Tag} (h : s.tag i = some x)
    (hKind : x.kind = .semWait) : s.txnReply i 0x10 operand data = s.setTag i (some { x with busy := true }) := by
  unfold State.txnReply
  simp only [h, hKind, and_self, if_true]

theorem completionCode_ne_zero {b : Byte} (h : b ≠ 0) : completionCode b ≠ 0 := by
  unfold completionCode
  split
  · intro h0
    exact h (BitVec.eq_of_toNat_eq h0)
  · decide

theorem State.tag_reach (s : State) (t : W64) (i : Nat) : (s.reach t).tag i = s.tag i := by
  rw [State.reach_eq]
  rfl

/-- A failure that is latched: the first since MVFAIL stays, MV_FAIL names the latest (R89, R92). -/
theorem State.latchFail_spec (s : State) (c : Nat) (n : CtxId) {status : Nat} (h : status < 256) :
    (SMap.get (s.core c).mvfail n.val 0 = 0 →
      SMap.get ((s.latchFail c n.val status).core c).mvfail n.val 0 = BitVec.ofNat 8 status) ∧
    (SMap.get (s.core c).mvfail n.val 0 ≠ 0 → (s.latchFail c n.val status).core c = s.core c) ∧
    ((s.latchFail c n.val status).reg (Page.mover c) Reg.MV_FAIL).toNat = status + 256 * n.val := by
  have hn := n.isLt
  unfold State.latchFail
  dsimp only
  rw [State.core_setReg, State.modCore_core, State.reg_setReg_same, BitVec.toNat_ofNat]
  refine ⟨fun h0 => ?_, fun h0 => if_neg h0, Nat.mod_eq_of_lt (by omega)⟩
  rw [if_pos h0, SMap.get_set, if_pos rfl]

end Sys2Proof.Machine

namespace Sys2Proof.Claims
open Machine

/-- Settles O11: what a reply does to a tag is `txnReply_of_tag`; a timeout abandons it; failures latch by `latchFail_spec`. -/
theorem transactionsEnd : Obligations.TransactionsEnd := by
  refine ⟨fun s tag x hTag => ?_, fun s c n status _ hLt => s.latchFail_spec c n hLt⟩
  intro on
  have hReply {status : Byte} {data : List Byte} {t : State}
      (h : s.txnReply tag.val (completionCode status) (BitVec.ofNat 64 (natAt data 0 8)) data = t) :
      exec (.transactionReply tag status data) s = .next (on t) := by
    show execTransactionReply tag status data s = _
    unfold execTransactionReply
    simp only [hTag, h, on]
    cases x.core <;> rfl
  refine ⟨fun data hKind hTime => hReply ?_, fun status data hStatus hKind hTime => hReply ?_,
    fun status data hKind hLate => hReply ?_, fun data hKind => hReply ?_, fun hKind => ?_, fun hKind hHere hCore => ?_,
    fun hBusy => ?_⟩
  · rw [State.txnReply_of_tag hTag hKind, hTime]
    exact if_pos rfl
  · rw [State.txnReply_of_tag hTag hKind, hTime]
    exact if_neg (completionCode_ne_zero hStatus)
  · rw [State.txnReply_of_tag hTag hKind, hLate]
    exact if_neg (Nat.succ_ne_zero 10)
  · exact State.txnReply_busy hTag hKind
  · show execTransactionTimeout tag s = _
    unfold execTransactionTimeout
    simp only [hTag, hKind, true_or, if_true]
  · intro u
    obtain ⟨c, hc⟩ := Option.ne_none_iff_exists'.1 hCore
    have hTime : usTb (s.mvTimeout x) = 256000 * s.mvTimeout x := Nat.mul_comm _ _
    have hFail : u.failTag tag.val 0x0B = (u.abandonTag tag.val).txnFailed x 0x0B := by
      unfold State.failTag
      rw [State.tag_reach, hTag]
    show execTransactionTimeout tag s = _
    unfold execTransactionTimeout
    simp only [hTag, hKind, hHere, hc, hTime, or_self, if_false, Option.isSome_some, if_true, on]
    exact congrArg (fun t : State => Host.Outcome.next (t.settle c.val)) hFail
  · show execSemWaitReissue tag s = _
    unfold execSemWaitReissue
    simp only [hTag, hBusy, if_true]

end Sys2Proof.Claims

/-! ### Events of the control core, STAT_CTRL and the reheat decision (R50, R55, R207) -/

namespace Sys2Proof.Machine
open Claims

variable {s : State}

/-- The records of the first `m` tiles cleared (R55). -/
def State.clearTiles (s : State) (c m : Nat) : State :=
  (List.range m).foldl (fun s t => (s.setReg (Page.stat c) (Reg.TILE_ABSMAX + 8 * t) 0).setReg (Page.stat c)
    (Reg.TILE_COUNT + 8 * t) 0) s

theorem State.clearTiles_succ (s : State) (c m : Nat) :
    s.clearTiles c (m + 1) = ((s.clearTiles c m).setReg (Page.stat c) (Reg.TILE_ABSMAX + 8 * m) 0).setReg (Page.stat c)
      (Reg.TILE_COUNT + 8 * m) 0 := by
  rw [State.clearTiles, List.range_succ, List.foldl_append]
  rfl

theorem State.clearTiles_onlyRegs (s : State) (c m : Nat) : OnlyRegs s (s.clearTiles c m) := by
  induction m with
  | zero => rfl
  | succ m ih =>
    rw [State.clearTiles_succ]
    exact ih.setReg.setReg

/-- A register of a STAT page holds 0 where it is of a cleared tile, and what it held before elsewhere (R55). -/
theorem State.reg_clearTiles (s : State) (c : Nat) {m : Nat} (hm : m ≤ 64) {page off : Nat} (ho : off < 4096) :
    (s.clearTiles c m).reg page off =
      if page = Page.stat c ∧ ∃ i, i < m ∧ (off = Reg.TILE_ABSMAX + 8 * i ∨ off = Reg.TILE_COUNT + 8 * i) then 0
      else s.reg page off := by
  induction m with
  | zero => exact (if_neg fun ⟨_, i, hi, _⟩ => Nat.not_lt_zero i hi).symm
  | succ m ih =>
    rw [State.clearTiles_succ, State.reg_setReg _ _ _ _ _ _ (by simp only [Reg.TILE_COUNT]; omega) ho,
      State.reg_setReg _ _ _ _ _ _ (by simp only [Reg.TILE_ABSMAX]; omega) ho, ih (by omega)]
    by_cases hPage : page = Page.stat c
    · by_cases hCount : off = Reg.TILE_COUNT + 8 * m
      · rw [if_pos ⟨hPage, hCount⟩, if_pos ⟨hPage, m, by omega, .inr hCount⟩]
      · rw [if_neg fun h => hCount h.2]
        by_cases hMax : off = Reg.TILE_ABSMAX + 8 * m
        · rw [if_pos ⟨hPage, hMax⟩, if_pos ⟨hPage, m, by omega, .inl hMax⟩]
        · rw [if_neg fun h => hMax h.2]
          refine if_congr (and_congr_right fun _ => exists_congr fun i => ?_) rfl rfl
          refine ⟨fun ⟨hi, h⟩ => ⟨by omega, h⟩, fun ⟨hi, h⟩ => ⟨?_, h⟩⟩
          rcases Nat.lt_succ_iff_lt_or_eq.1 hi with hlt | rfl
          · exact hlt
          · exact absurd h (not_or.2 ⟨hMax, hCount⟩)
    · simp only [hPage, false_and, if_false]

/-- TILE_CLEAR clears every tile record and nothing else (R55). -/
theorem State.tileClear_spec (s : State) (c : Nat) :
    OnlyRegs s (s.tileClear c) ∧
    (∀ i, i < 64 → (s.tileClear c).reg (Page.stat c) (Reg.TILE_ABSMAX + 8 * i) = 0 ∧
      (s.tileClear c).reg (Page.stat c) (Reg.TILE_COUNT + 8 * i) = 0) ∧
    ∀ page off, off < 4096 →
      (∀ i, i < 64 → ¬ (page = Page.stat c ∧ (off = Reg.TILE_ABSMAX + 8 * i ∨ off = Reg.TILE_COUNT + 8 * i))) →
      (s.tileClear c).reg page off = s.reg page off := by
  have hClear : s.tileClear c = s.clearTiles c 64 := rfl
  rw [hClear]
  refine ⟨s.clearTiles_onlyRegs c 64, fun i hi => ⟨?_, ?_⟩, fun page off ho h => ?_⟩
  · rw [State.reg_clearTiles s c (Nat.le_refl _) (by simp only [Reg.TILE_ABSMAX]; omega), if_pos ⟨rfl, i, hi, .inl rfl⟩]
  · rw [State.reg_clearTiles s c (Nat.le_refl _) (by simp only [Reg.TILE_COUNT]; omega), if_pos ⟨rfl, i, hi, .inr rfl⟩]
  · rw [State.reg_clearTiles s c (Nat.le_refl _) ho, if_neg fun ⟨hPage, i, hi, h'⟩ => h i hi ⟨hPage, h'⟩]

/-- The reheat decision (R50): what it answers, what it charges and what it counts. -/
theorem State.reheatDecide_spec (s : State) (c i : Nat) (be : Bool) :
    let p := Page.stat c
    let th := (s.reg p (Reg.REHEAT_THRESH + 8 * i)).toNat
    let cost := s.fld p (Reg.REHEAT_COST + 8 * i) 0 28
    let ro := if be then Reg.REHEAT_REMAIN_BE else Reg.REHEAT_REMAIN_RT
    let d := s.reheatDecide c i be
    let wants := bitOf th 31 = true ∧ bitsOf th 0 16 < (s.reg p Reg.LAYER_SAT_COUNT).toNat
    (d.1 = true ↔ wants ∧ cost ≤ s.fld p ro 0 28) ∧
    (d.1 = true → d.2.fld p ro 0 28 = s.fld p ro 0 28 - cost) ∧
    (wants → s.fld p ro 0 28 < cost → (s.reg p Reg.REHEAT_DENIED_COUNT).toNat < 0xFFFFFFFF →
      d.2.reg p Reg.REHEAT_DENIED_COUNT = s.reg p Reg.REHEAT_DENIED_COUNT + 1 ∧ d.2.fld p ro 0 28 = s.fld p ro 0 28) := by
  intro p th cost ro d wants
  have hRo : ro < 4096 ∧ ro ≠ Reg.LAYER_ID ∧ ro ≠ Reg.REHEAT_RUN_COUNT ∧ ro ≠ Reg.REHEAT_DENIED_COUNT := by
    unfold ro
    cases be <;> decide
  obtain ⟨hLt, hId, hRun, hDenied⟩ := hRo
  let u := s.modCore c fun k => { k with beatLatch := k.beatLatch.filter fun j => j != i }
  have hd : d = if !bitOf th 31 || decide ((s.reg p Reg.LAYER_SAT_COUNT).toNat ≤ bitsOf th 0 16) then (false, u)
      else if cost ≤ s.fld p ro 0 28 then
        (true, ((u.setFld p ro 0 28 (s.fld p ro 0 28 - cost)).count p Reg.REHEAT_RUN_COUNT).setFlag p Reg.LAYER_ID 8 true)
      else (false, u.count p Reg.REHEAT_DENIED_COUNT) := rfl
  have hWants : wants ↔ ¬ ((!bitOf th 31 || decide ((s.reg p Reg.LAYER_SAT_COUNT).toNat ≤ bitsOf th 0 16)) = true) := by
    simp [wants]
  clear_value d ro
  by_cases hw : wants
  · rw [if_neg (hWants.1 hw)] at hd
    by_cases hCost : cost ≤ s.fld p ro 0 28
    · rw [if_pos hCost] at hd
      subst hd
      refine ⟨⟨fun _ => ⟨hw, hCost⟩, fun _ => rfl⟩, fun _ => ?_, fun _ hLess => absurd hCost (by omega)⟩
      have hOff : ((((u.setFld p ro 0 28 (s.fld p ro 0 28 - cost)).count p Reg.REHEAT_RUN_COUNT).setFlag p Reg.LAYER_ID 8
          true).reg p ro) = (u.setFld p ro 0 28 (s.fld p ro 0 28 - cost)).reg p ro := by
        rw [State.reg_setFlag_off (by decide) hLt hId, State.reg_count_off (by decide) hLt hRun]
      have hSmall : s.fld p ro 0 28 < 2 ^ 28 := Nat.mod_lt _ (by decide)
      show State.fld _ p ro 0 28 = _
      rw [State.fld, hOff]
      exact (State.fld_setFld_same (by decide)).trans (Nat.mod_eq_of_lt (by omega))
    · rw [if_neg hCost] at hd
      subst hd
      refine ⟨⟨fun h => absurd h Bool.false_ne_true, fun h => absurd h.2 hCost⟩, fun h => absurd h Bool.false_ne_true,
        fun _ _ hCount => ⟨?_, ?_⟩⟩
      · exact State.reg_count_same (s := u) hCount
      · show State.fld _ p ro 0 28 = _
        rw [State.fld, State.reg_count_off (by decide) hLt hDenied]
        rfl
  · rw [if_pos (not_not.1 fun h => hw (hWants.2 h))] at hd
    subst hd
    exact ⟨⟨fun h => absurd h Bool.false_ne_true, fun h => absurd h.1 hw⟩, fun h => absurd h Bool.false_ne_true,
      fun h => absurd h hw⟩

end Sys2Proof.Machine

namespace Sys2Proof.Claims
open Machine

/-- Settles O12: each event by its definition, STAT_CTRL by `tileClear_spec`, the decision by `reheatDecide_spec`. -/
theorem coreEventsAct : Obligations.CoreEventsAct := by
  refine ⟨fun s c => ⟨rfl, fun m n hCtx hBe => ?_, fun live resume hPoint => ?_, fun region slot e hHeld hUnread hImporting => ?_,
    fun n i rd hCtx hPoint hDue => ?_⟩, fun s c => ⟨rfl, s.tileClear c.val, rfl, s.tileClear_spec c.val⟩,
    fun s c i be _ => s.reheatDecide_spec c i be⟩
  · intro t hBest hNe hRank hBlocked hPre
    have hCore : t.core c.val = { s.core c.val with ready := (s.core c.val).ready.filter (· != m.val) ++ [m.val] } := s.modCore_core _ _
    have hRank' : t.rank n.val = t.rank m.val := hRank
    have hBlocked' : (t.core c.val).blocked = none := by rw [hCore]; exact hBlocked
    have hPre' : (t.core c.val).preempt = false := by rw [hCore]; exact hPre
    show execBeSliceExpiry c s = _
    unfold execBeSliceExpiry
    simp only [hCtx, hBe, Bool.not_true, Bool.false_eq_true, if_false]
    change (match t.bestReady c.val with
      | some n' => if n' ≠ m.val ∧ t.rank n' = t.rank m.val then
          match (t.core c.val).blocked with
          | some (.beatWait _) => Host.Outcome.next (t.resched c.val)
          | _ => .next (t.askPreempt c.val)
        else .next (t.resched c.val)
      | none => .next t) = _
    rw [hBest]
    dsimp only
    rw [if_pos ⟨fun h => hNe (Fin.ext h), hRank'⟩, hBlocked']
    dsimp only
    rw [State.askPreempt, State.modCore, State.modCore, hPre', if_neg Bool.false_ne_true]
    rfl
  · intro u
    have hUs : usTb (s.atomWait c.val) = 256000 * s.atomWait c.val := Nat.mul_comm _ _
    show execAtomWaitExpiry c s = _
    unfold execAtomWaitExpiry
    rw [hPoint, hUs]
    rfl
  · show execMirroredReadHoldRelease c region slot s = _
    unfold execMirroredReadHoldRelease
    dsimp only
    have hMine : (region.val == region.val && slot.val == slot.val) = true := by rw [beq_self_eq_true, beq_self_eq_true]; rfl
    rw [hUnread, hImporting, if_neg (by decide), State.modCore, hHeld, List.filter_cons, List.filter_cons, hMine, if_pos rfl,
      if_neg (by decide), List.filter_nil, List.filter_nil]
    rfl
  · intro d
    show Host.Outcome.next (s.reheat c.val) = _
    unfold State.reheat
    simp only [hCtx, hPoint, hDue, if_true]
    rfl

end Sys2Proof.Claims

/-! ### Angle timebases (R187–R191) -/

namespace Sys2Proof.Machine
open Claims

variable {s : State}

/-- A tooth after position 0 is known advances the angle by one position (R188). -/
theorem State.tooth_of_tracking {a : Nat} (hMode : s.angMode a = 1) (hSt : (s.angle a).st = 2)
    (hZero : (s.angle a).seenZero = true) (hIndex : (s.angle a).indexSeen = false) (hTeeth : 0 < (s.angle a).teeth) :
    s.tooth a = (s.setAngle (a + 2) (s.angle a)).setAngle a { s.angle a with
      resuming := false, tTooth := s.now, period := (s.now - (s.angle a).tTooth).toNat, span := 1,
      theta := (s.angle a).theta - BitVec.ofNat 32 (toothAngle (s.angN a) (s.angle a).pos)
        + BitVec.ofNat 32 (toothAngle (s.angN a) ((s.angle a).pos + 1)),
      pos := (s.angle a).pos + 1, counted := (s.angle a).counted + 1, teeth := (s.angle a).teeth + 1 } := by
  unfold State.tooth
  dsimp only
  generalize s.angle a = x at *
  obtain ⟨st, theta, tTooth, period, span, pos, counted, seenZero, indexSeen, teeth, held, resuming, waiting, applied⟩ := x
  dsimp only at hSt hZero hIndex hTeeth ⊢
  subst hSt hZero hIndex
  have hNone : (teeth = 0) = False := eq_false (by omega)
  have hNow (x : Angle) : (s.setAngle (a + 2) x).now = s.now := rfl
  simp [hMode, hNone, hNow]

theorem State.angCommit_of_fresh {a : Nat} (hMode : s.angMode a = 3)
    (h : ∀ t0 a0 r0, (s.angle a).applied = some (t0, a0, r0) →
      t0.toNat < (s.reg64 Page.angle (Reg.ANG_HS_T_LO + 0x40 * a) (Reg.ANG_HS_T_HI + 0x40 * a)).toNat) :
    s.angCommit a = s.setAngle a { s.angle a with
      waiting := some (s.reg64 Page.angle (Reg.ANG_HS_T_LO + 0x40 * a) (Reg.ANG_HS_T_HI + 0x40 * a),
        s.reg Page.angle (Reg.ANG_HS_ANGLE + 0x40 * a), s.reg Page.angle (Reg.ANG_HS_RATE + 0x40 * a)) } := by
  unfold State.angCommit
  simp only [hMode, ne_eq, not_true, if_false]
  split
  next t0 a0 r0 hApplied =>
    have hLt := h t0 a0 r0 hApplied
    exact if_neg (by rw [decide_eq_true_eq]; omega)
  next => rfl

theorem State.angCommit_of_stale {a : Nat} (hMode : s.angMode a = 3) {t0 : W64} {a0 r0 : W32}
    (hApplied : (s.angle a).applied = some (t0, a0, r0))
    (h : (s.reg64 Page.angle (Reg.ANG_HS_T_LO + 0x40 * a) (Reg.ANG_HS_T_HI + 0x40 * a)).toNat ≤ t0.toNat) :
    s.angCommit a = s.count Page.angle (Reg.ANG_STALE_COUNT + 0x40 * a) := by
  unfold State.angCommit
  simp only [hMode, hApplied, h, decide_true, ne_eq, not_true, if_true, if_false]

end Sys2Proof.Machine

namespace Sys2Proof.Claims
open Machine

/-- Settles O15: a tooth by `tooth_of_tracking`, a commit by `angCommit_of_fresh` and `angCommit_of_stale`. -/
theorem angleFollowsTeethAndSamples : Obligations.AngleFollowsTeethAndSamples := by
  refine ⟨fun s a falling widthNs => ?_, fun s src a hMode => ?_⟩
  · intro x
    refine ⟨fun h => ?_, fun hMode hFall hFilter hSt hZero hIndex hTeeth => ?_, fun hMode hFilter h => ?_, fun h => ?_⟩
    · show execAngTooth a falling widthNs s = _
      unfold execAngTooth
      dsimp only
      refine if_neg ?_
      rw [Bool.and_eq_true, Bool.and_eq_true, beq_iff_eq, decide_eq_true_eq]
      rintro ⟨⟨-, hFall⟩, hFilter⟩
      rcases h with h | h
      · exact h hFall
      · omega
    · refine Eq.trans ?_ (congrArg Host.Outcome.next (State.tooth_of_tracking hMode hSt hZero hIndex hTeeth))
      show execAngTooth a falling widthNs s = _
      unfold execAngTooth
      dsimp only
      refine if_pos ?_
      rw [hMode, hFall, beq_self_eq_true, decide_eq_true hFilter]
      rfl
    · show execAngIndex a widthNs s = _
      unfold execAngIndex
      rw [hMode, decide_eq_true hFilter, if_pos (by decide), State.index]
      exact congrArg Host.Outcome.next (if_pos h)
    · intro u t
      have hUs (ms : Nat) : usTb (1000 * ms) = 256000000 * ms := by simp only [usTb]; omega
      have hAngle : t.angle a.val = { x with st := 3, held := u.angleNow a.val, resuming := false, period := 0 } := by
        rw [State.angle, ((Reports.refl _).irq (by omega)).beside.angles]
        exact (State.angle_setAngle _ _ _ _).trans (if_pos rfl)
      refine ⟨?_, by rw [hAngle], ?_, ?_, State.flag_irq (by omega)⟩
      · show execAngTimeout a s = _
        unfold execAngTimeout
        dsimp only
        rw [if_pos h, hUs]
      · unfold State.angleRate
        rw [hAngle]
        exact if_pos (.inr rfl)
      · show State.angleNow t a.val = _
        rw [State.angleNow, hAngle]
        exact if_pos (show (3 : Nat) ≠ 2 by decide)
  · intro x o t ang rate
    refine ⟨fun h => ?_, fun t0 a0 r0 h hLt => ?_, fun t0 a0 r0 h hLe => ?_, fun t1 a1 r1 h => ?_⟩
    · refine congrArg Host.Outcome.next (State.angCommit_of_fresh hMode fun t0 a0 r0 h' => ?_)
      rw [show (s.angle a.val).applied = none from h] at h'
      cases h'
    · refine congrArg Host.Outcome.next (State.angCommit_of_fresh hMode fun t0' a0' r0' h' => ?_)
      rw [show (s.angle a.val).applied = some (t0, a0, r0) from h] at h'
      cases h'
      exact hLt
    · exact congrArg Host.Outcome.next (State.angCommit_of_stale hMode h hLe)
    · intro s1
      show execAngSampleApply a s = _
      unfold execAngSampleApply
      dsimp only
      rw [show (s.angle a.val).waiting = some (t1, a1, r1) from h]
      exact if_pos hMode

end Sys2Proof.Claims

/-! ### The pattern table and its switch (R200, R201) -/

namespace Sys2Proof.Machine
open Claims

variable {s : State}

theorem State.ptWord_ptPut {b b' : Bool} {e e' k w : Nat} (he : e < 512) (he' : e' < 512) (hk : k < 4) (hw : w < 4) (v : W32) :
    (s.ptPut b e k v).ptWord b' e' w = if b' = b ∧ e' = e ∧ w = k then v else s.ptWord b' e' w := by
  have hKey : (2048 * b2n b' + 4 * e' + w = 2048 * b2n b + 4 * e + k) ↔ (b' = b ∧ e' = e ∧ w = k) := by
    refine ⟨fun h => ?_, fun ⟨hb, he, hw⟩ => by rw [hb, he, hw]⟩
    cases b <;> cases b' <;> simp only [b2n, Bool.false_eq_true, if_false, if_true] at h <;>
      first | exact ⟨rfl, by omega, by omega⟩ | omega
  unfold State.ptWord State.ptPut
  dsimp only
  rw [SMap.get_set]
  exact if_congr hKey rfl rfl

/-- The four words of an entry written one after another (R200). -/
def State.ptPutAll (s : State) (b : Bool) (e : Nat) (v : Nat → W32) : State :=
  (((s.ptPut b e 0 (v 0)).ptPut b e 1 (v 1)).ptPut b e 2 (v 2)).ptPut b e 3 (v 3)

theorem State.ptEntry_eq (s : State) (b : Bool) (e : Nat) :
    s.ptEntry b e = [(s.ptWord b e 0).toNat, (s.ptWord b e 1).toNat, (s.ptWord b e 2).toNat, (s.ptWord b e 3).toNat] := rfl

theorem State.ptEntry_ptPutAll_same {b : Bool} {e : Nat} (he : e < 512) (v : Nat → W32) :
    (s.ptPutAll b e v).ptEntry b e = [(v 0).toNat, (v 1).toNat, (v 2).toNat, (v 3).toNat] := by
  rw [State.ptEntry_eq]
  simp [State.ptPutAll, State.ptWord_ptPut he he]

theorem State.ptEntry_ptPutAll_other {b b' : Bool} {e e' : Nat} (he : e < 512) (he' : e' < 512) (h : (b', e') ≠ (b, e))
    (v : Nat → W32) : (s.ptPutAll b e v).ptEntry b' e' = s.ptEntry b' e' := by
  have hOther (t : State) {k w : Nat} (hk : k < 4) (hw : w < 4) (x : W32) : (t.ptPut b e k x).ptWord b' e' w = t.ptWord b' e' w := by
    rw [State.ptWord_ptPut he he' hk hw, if_neg fun ⟨hb, he, _⟩ => h (by rw [hb, he])]
  rw [State.ptEntry_eq, State.ptEntry_eq]
  simp only [State.ptPutAll, hOther _ (show 0 < 4 by decide), hOther _ (show 1 < 4 by decide), hOther _ (show 2 < 4 by decide),
    hOther _ (show 3 < 4 by decide), show 0 < 4 by decide, show 1 < 4 by decide, show 2 < 4 by decide, show 3 < 4 by decide]

/-- What word 3 of an entry stores (R200). -/
def State.heldThen (s : State) (v : W32) (i : Nat) : W32 := if i = 3 then v else SMap.get s.pattern.held i 0

/-- A write of PT_ENTRY outside the active bank and without a pending switch (R200). -/
theorem State.ptEntryWrite_of_free (src w : Nat) (v : W32)
    (h : s.flag Page.pattern Reg.PT_ENTRY_SEL 9 ≠ s.pattern.bank) (hSwitch : s.pattern.pendingSwitch = false) :
    s.ptEntryWrite src w v = if w < 3 then { s with pattern := { s.pattern with held := SMap.set s.pattern.held w v 0 } } else
      { s with pattern := { (s.ptPutAll (s.flag Page.pattern Reg.PT_ENTRY_SEL 9) (s.fld Page.pattern Reg.PT_ENTRY_SEL 0 9)
        (s.heldThen v)).pattern with held := [] } } := by
  unfold State.ptEntryWrite State.ptSel
  simp only [h, hSwitch, decide_false, Bool.or_self, Bool.false_eq_true, if_false]
  rfl

theorem State.ptEntryWrite_of_refused (src w : Nat) (v : W32)
    (h : s.flag Page.pattern Reg.PT_ENTRY_SEL 9 = s.pattern.bank ∨ s.pattern.pendingSwitch = true) :
    s.ptEntryWrite src w v = s.writeRefused Page.pattern (Reg.PT_ENTRY + 4 * w) src := by
  unfold State.ptEntryWrite State.ptSel
  dsimp only
  refine if_pos ?_
  rw [Bool.or_eq_true, decide_eq_true_eq]
  exact h

end Sys2Proof.Machine

namespace Sys2Proof.Claims
open Machine

/-- Settles O16: a write of an entry by `ptEntryWrite_of_free`, a switch request by the check of the whole bank. -/
theorem patternTableIsCheckedWhole : Obligations.PatternTableIsCheckedWhole := by
  refine ⟨fun s src v => ?_, fun s src => ⟨fun hNone hCheck => ?_, fun code e hCode he hNone hCheck => ?_, fun hPending => ?_⟩⟩
  · intro e b held
    have he : e < 512 := Nat.mod_lt _ (by decide)
    refine ⟨fun hBank hSwitch => ⟨fun i hi => ?_, _,
        congrArg Host.Outcome.next ((s.ptEntryWrite_of_free src.val 3 v hBank hSwitch).trans (if_neg (by decide))), rfl,
        ?_, rfl, fun b' e' he' hOther => ?_⟩, fun i h => congrArg Host.Outcome.next (s.ptEntryWrite_of_refused _ _ _ h), rfl⟩
    · exact congrArg Host.Outcome.next ((s.ptEntryWrite_of_free src.val i.val v hBank hSwitch).trans (if_pos hi))
    · exact State.ptEntry_ptPutAll_same he (s.heldThen v)
    · exact State.ptEntry_ptPutAll_other he he' hOther (s.heldThen v)
  · show Host.Outcome.next (s.switchWrite src.val) = _
    unfold State.switchWrite State.requestSwitch
    rw [hNone, hCheck]
    rfl
  · refine ⟨(s.setFld Page.pattern Reg.PT_STATUS 3 4 code).setFld Page.pattern Reg.PT_STATUS 7 9 e, ?_, rfl, ?_, ?_⟩
    · show Host.Outcome.next (s.switchWrite src.val) = _
      unfold State.switchWrite State.requestSwitch
      rw [hNone, hCheck]
      rfl
    · rw [State.fld_setFld_beside (by decide) (.inl (by decide)), State.fld_setFld_same (by decide)]
      exact Nat.mod_eq_of_lt hCode
    · rw [State.fld_setFld_same (by decide)]
      exact Nat.mod_eq_of_lt he
  · show Host.Outcome.next (s.switchWrite src.val) = _
    unfold State.switchWrite State.requestSwitch
    rw [hPending]
    rfl

end Sys2Proof.Claims

/-! ### Starts, stops and bar boundaries of the pattern engine (R193, R194, R201) -/

namespace Sys2Proof.Machine
open Claims

variable {s : State}

/-- The pattern once a bar has started: its number, and the bank where a switch was due (R201). -/
theorem State.pattern_startBar (s : State) (b : Nat) :
    let due := s.pattern.pendingSwitch && decide (s.pattern.switchT.toNat < (s.barStart b).toNat)
    (s.startBar b).pattern = { s.pattern with
      bar := b, acted := 0, bank := if due then !s.pattern.bank else s.pattern.bank,
      pendingSwitch := if due then false else s.pattern.pendingSwitch } := by
  intro due
  have hCount (t : State) (n : Nat) : (if n = 0 then t else t.count Page.pattern Reg.PT_BEAT_DROP_COUNT n).pattern =
      t.pattern := by
    split <;> rfl
  unfold State.startBar
  dsimp only
  rw [hCount]
  dsimp only
  cases hDue : due
  · rw [if_neg (by rw [show (_ && _) = due from rfl, hDue]; decide)]
    rfl
  · rw [if_pos (show (_ && _) = true from hDue)]
    split <;> rfl

/-- The first bar of a start lies at least 10 µs ahead (R194). -/
theorem State.firstBar_ahead (h : 0 < s.barUnits) :
    s.now.toNat + 2560000 ≤
      (s.reg64 Page.pattern Reg.PT_EPOCH_LO Reg.PT_EPOCH_HI).toNat * 256 + s.firstBar * s.barUnits := by
  have hUs : usTb 10 = 2560000 := rfl
  unfold State.firstBar
  dsimp only
  rw [hUs, Nat.max_eq_left h]
  generalize s.barUnits = b at *
  generalize (s.reg64 Page.pattern Reg.PT_EPOCH_LO Reg.PT_EPOCH_HI).toNat * 256 = e
  generalize s.now.toNat = t
  split
  · omega
  · have hDiv := Nat.div_add_mod (t + 2560000 - e + b - 1) b
    have hMod := Nat.mod_lt (t + 2560000 - e + b - 1) h
    rw [Nat.mul_comm b] at hDiv
    omega

theorem State.pattern_reach (s : State) (t : W64) : (s.reach t).pattern = s.pattern := by
  rw [State.reach_eq]

end Sys2Proof.Machine

namespace Sys2Proof.Claims
open Machine

/-- Settles O17: each event by its definition; what a bar takes over is `pattern_startBar`. -/
theorem barsFollowInOrder : Obligations.BarsFollowInOrder := by
  refine ⟨fun s src => ⟨fun hRun hRunning => ?_, fun hRun hRunning => ?_, fun hRun => ?_, fun h => State.firstBar_ahead h⟩,
    fun s => ⟨fun hRunning hLast => ?_, fun hRun hRunning => ?_, fun hRunning hLast => ?_⟩⟩
  · show Host.Outcome.next (s.runWrite true) = _
    unfold State.runWrite
    simp only [hRun, hRunning, Bool.false_eq_true, if_true, if_false]
  · show Host.Outcome.next (s.runWrite true) = _
    unfold State.runWrite
    simp only [hRun, hRunning, Bool.false_eq_true, if_true, if_false]
  · show Host.Outcome.next (s.runWrite false) = _
    unfold State.runWrite
    simp only [hRun, Bool.false_eq_true, if_true, if_false]
  · intro b T u
    have hBar := u.pattern_startBar b
    refine ⟨?_, by rw [hBar], by rw [hBar], fun hSwitch hT => ?_, fun h => ?_⟩
    · show execBarBoundary s = _
      unfold execBarBoundary
      rw [hRunning, hLast]
      rfl
    · rw [hBar]
      simp only [hSwitch, hT, decide_true, Bool.and_self, if_true, and_self]
    · have hNot : (u.pattern.pendingSwitch && decide (u.pattern.switchT.toNat < (u.barStart b).toNat)) = false := by
        rcases h with h | h
        · rw [h]
          rfl
        · rw [decide_eq_false (by omega), Bool.and_false]
      rw [hBar]
      simp only [hNot, Bool.false_eq_true, if_false, and_self]
  · intro T s1
    refine ⟨?_, by rw [State.pattern_startBar]⟩
    show execPatternStart s = _
    unfold execPatternStart
    dsimp only
    rw [hRun, hRunning, State.pattern_reach]
    rfl
  · intro T u
    show execPatternStop s = _
    unfold execPatternStop
    dsimp only
    rw [hRunning, hLast, show ((s.reach s.nextT).endBar s.pattern.bar s.nextT).boundaryWork s.nextT = u from rfl]
    clear_value u
    exact if_pos rfl

end Sys2Proof.Claims

/-! ### The beats (R197–R202) -/

namespace Sys2Proof.Machine
open Claims

variable {s : State} {e : Nat} {n : Nat} {w : List Nat}

/-- What a beat does before its own work: the timebase reaches its instant, and the entry has acted (R198). -/
theorem State.beatAct_beside (s : State) (e type n : Nat) (w : List Nat) :
    Beside { s.reach (s.beatTime w) with pattern := { (s.reach (s.beatTime w)).pattern with acted := e + 1 } }
      (s.beatAct e type n w) :=
  ((Reports.refl _).trace).beside

theorem State.dropAll_beatAct (s : State) (e type n : Nat) (w : List Nat) :
    (s.beatAct e type n w).pattern.dropAll = s.pattern.dropAll := by
  rw [(s.beatAct_beside e type n w).pattern]
  show (s.reach (s.beatTime w)).pattern.dropAll = s.pattern.dropAll
  rw [s.pattern_reach]

theorem State.now_reach (s : State) {t : W64} (h : s.now.toNat ≤ t.toNat) : (s.reach t).now = t := by
  unfold State.reach
  split
  · rfl
  next hNot => exact BitVec.eq_of_toNat_eq (by omega)

theorem State.now_beatAct {type : Nat} (h : s.now.toNat ≤ (s.beatTime w).toNat) : (s.beatAct e type n w).now = s.beatTime w := by
  rw [State.now, (s.beatAct_beside e type n w).time]
  exact State.now_reach s h

end Sys2Proof.Machine

namespace Sys2Proof.Claims
open Machine

/-- Settles O18: each beat by its definition on the state that `beatAct` leaves. -/
theorem beatsAct : Obligations.BeatsAct := by
  intro s e w n slot
  refine ⟨fun c hBeat => ?_, fun ecc hBeat hRun => ?_, fun c hBeat => ?_, fun hBeat hDrop => ?_, fun hBeat hDrop => ?_,
    State.now_beatAct⟩
  · intro t hRun hBe hCores hPart hStage
    have hActs : exec (.stageStartBeat e) s =
        .next (match SMap.get (t.core c).stageLatch (4 * n + slot) none with
          | some _ => t.count Page.pattern Reg.PT_BEAT_OVERRUN_COUNT
          | none => (t.setCore c { t.core c with
              stageLatch := SMap.set (t.core c).stageLatch (4 * n + slot) (some { t := s.beatTime w, bar := t.pattern.bar })
                none }).resched c) := by
      show execStageStartBeat e s = _
      unfold execStageStartBeat
      rw [hBeat]
      dsimp only
      rw [show bitsOf (w.getD 1 0) 0 6 = n from rfl, show bitsOf (w.getD 1 0) 6 2 = slot from rfl,
        show s.beatAct e.val 1 n w = t from rfl, hRun, hBe, hCores, if_neg (by decide), List.foldl_cons, List.foldl_nil, hPart,
        hStage]
      rfl
    refine ⟨fun hNone => ?_, fun hSome => ?_⟩
    · rw [hActs, hNone]
      rfl
    · obtain ⟨l, hl⟩ := Option.ne_none_iff_exists'.1 hSome
      rw [hActs, hl]
  · show execCutoffBeat _ s = _
    unfold execCutoffBeat
    rw [hBeat]
    exact if_neg (not_not.2 hRun)
  · intro t i hRun hCores hPart hLatch
    show execStatBeat e s = _
    unfold execStatBeat
    rw [hBeat]
    dsimp only
    rw [show bitsOf (w.getD 1 0) 0 6 = n from rfl, show s.beatAct e.val 3 n w = t from rfl, if_neg (not_not.2 hRun), hCores,
      List.foldl_cons, List.foldl_nil, hPart, State.modCore, State.modCore]
    rw [show bitsOf (w.getD 1 0) 8 8 = i from rfl, hLatch]
    rfl
  · intro t
    show execSwapBeat e s = _
    unfold execSwapBeat
    rw [hBeat]
    dsimp only
    rw [State.dropAll_beatAct, hDrop]
    rfl
  · intro t
    show execMirrorBeat e s = _
    unfold execMirrorBeat
    rw [hBeat]
    dsimp only
    rw [State.dropAll_beatAct, hDrop]
    rfl

end Sys2Proof.Claims

/-! ### Start and stop of audio ports (R226, R244–R246) -/

namespace Sys2Proof.Machine
open Claims

variable {s : State} {p : Nat}

/-! #### What the parts of a start or a stop leave unchanged -/

theorem State.bankDrop_eq (s : State) (p : Nat) : ∃ a, s.bankDrop p = { s with audio := { s.audio with asrc := a } } :=
  List.foldlRecOn (motive := fun t : State => ∃ a, t = { s with audio := { s.audio with asrc := a } }) _ _ ⟨_, rfl⟩
    fun t h b _ => by
      obtain ⟨a, rfl⟩ := h
      extract_lets v
      split
      · exact ⟨_, rfl⟩
      · exact ⟨_, rfl⟩

theorem State.phaseDrop_eq (s : State) (p : Nat) : ∃ a, s.phaseDrop p = { s with audio := { s.audio with aplls := a } } :=
  List.foldlRecOn (motive := fun t : State => ∃ a, t = { s with audio := { s.audio with aplls := a } }) _ _ ⟨_, rfl⟩
    fun t h b _ => by
      obtain ⟨a, rfl⟩ := h
      split
      · exact ⟨_, rfl⟩
      · exact ⟨_, rfl⟩

/-- The loss of the timebase's port changes registers and the timebase alone. -/
theorem State.tbPortLost_spec (s : State) (p : Nat) :
    (s.tbPortLost p).audio = s.audio ∧
    ∀ q o, o < 4096 → o ≠ Reg.TB_STATUS → o ≠ Reg.TB_LOCK_LOSS_COUNT → (s.tbPortLost p).reg q o = s.reg q o := by
  unfold State.tbPortLost
  split
  · exact ⟨rfl, fun _ _ _ _ _ => rfl⟩
  · extract_lets t
    split
    · refine ⟨?_, fun q o ho h1 h2 => ?_⟩
      · rw [State.setLock_eq]
      · rw [State.reg_setLock_other ho h1 h2]
        rfl
    · exact ⟨rfl, fun _ _ _ _ _ => rfl⟩

/-- A port that stops leaves its bank, its APLL's phase and the timebase (R231, R232, R245). -/
def State.portGone (s : State) (p : Nat) : State := ((s.bankDrop p).phaseDrop p).tbPortLost p

theorem State.portGone_spec (s : State) (p : Nat) :
    (s.portGone p).audio.ports = s.audio.ports ∧
    ∀ q o, o < 4096 → o ≠ Reg.TB_STATUS → o ≠ Reg.TB_LOCK_LOSS_COUNT → (s.portGone p).reg q o = s.reg q o := by
  obtain ⟨a, ha⟩ := s.bankDrop_eq p
  obtain ⟨b, hb⟩ := (s.bankDrop p).phaseDrop_eq p
  obtain ⟨hAudio, hReg⟩ := ((s.bankDrop p).phaseDrop p).tbPortLost_spec p
  refine ⟨?_, fun q o ho h1 h2 => ?_⟩
  · rw [State.portGone, hAudio, hb, ha]
  · rw [State.portGone, hReg q o ho h1 h2, hb, ha]
    rfl

theorem State.port_of_ports {s t : State} (h : t.audio.ports = s.audio.ports) (q : Nat) : t.port q = s.port q := by
  rw [State.port, h, State.port]

/-- Records dropped at a start change registers, streams and queues (R239). -/
theorem State.ringRestart_eq (s : State) (i : Nat) :
    ∃ r st q, s.ringRestart i = { s with regs := r, streams := st, qm := q } :=
  List.foldlRecOn (motive := fun t : State => ∃ r st q, t = { s with regs := r, streams := st, qm := q }) _ _ ⟨_, _, _, rfl⟩
    fun t h b _ => by
      obtain ⟨r, st, q, rfl⟩ := h
      exact ⟨_, _, _, rfl⟩

theorem State.ringsRestart_eq (s : State) (l : List Nat) :
    ∃ r st q, l.foldl (fun (s : State) (i : Nat) => s.ringRestart i) s = { s with regs := r, streams := st, qm := q } :=
  List.foldlRecOn (motive := fun t : State => ∃ r st q, t = { s with regs := r, streams := st, qm := q }) _ _ ⟨_, _, _, rfl⟩
    fun t h b _ => by
      obtain ⟨r, st, q, rfl⟩ := h
      obtain ⟨r', st', q', h'⟩ := State.ringRestart_eq { s with regs := r, streams := st, qm := q } b
      exact ⟨r', st', q', h'⟩

/-! #### The clocks of a port -/

/-- State and clocks of a port. -/
def Port.clocking (x : Port) : Nat × Bool × Bool × W64 := (x.st, x.clocks, x.clkPresent, x.clockT)

theorem State.modPort_port (s : State) (p : Nat) (f : Port → Port) :
    (s.modPort p f).port p = f (s.port p) ∧ ∀ q, q ≠ p → (s.modPort p f).port q = s.port q :=
  ⟨(State.port_setPort _ _ _ _).trans (if_pos rfl), fun _ hq => (State.port_setPort _ _ _ _).trans (if_neg hq)⟩

theorem State.sendZeros_port (s : State) (p : Nat) :
    ((s.sendZeros p).port p).clocking = (s.port p).clocking ∧ ∀ q, q ≠ p → (s.sendZeros p).port q = s.port q := by
  unfold State.sendZeros
  split
  · exact ⟨rfl, fun _ _ => rfl⟩
  · extract_lets w
    obtain ⟨hHere, hOther⟩ := s.modPort_port p fun x => { x with
      queue := [], out := (List.range (s.txSlots p)).foldl (fun m k => SMap.set m k (s.driven p k w) none) x.out }
    refine ⟨?_, hOther⟩
    rw [hHere]
    rfl

/-- STANDBY taken over (R228) changes what the port drives, and nothing else. -/
theorem State.applyStandby_port (s : State) (p : Nat) :
    (∃ b d, (s.applyStandby p).port p = { s.port p with standby := b, driving := d }) ∧
    ∀ q, q ≠ p → (s.applyStandby p).port q = s.port q := by
  unfold State.applyStandby
  dsimp only
  exact ⟨⟨_, _, (State.port_setPort _ _ _ _).trans (if_pos rfl)⟩, fun _ hq => (State.port_setPort _ _ _ _).trans (if_neg hq)⟩

/-- The clocks of a port run (R244): its state stays, and no other port is touched. -/
theorem State.clocksRun_spec (s : State) (p : Nat) (master : Bool) :
    ((s.clocksRun p master).port p).clocking = ((s.port p).st, master, true, s.now) ∧
    ∀ q, q ≠ p → (s.clocksRun p master).port q = s.port q := by
  unfold State.clocksRun
  extract_lets t
  obtain ⟨hHere, hOther⟩ := s.modPort_port p fun x => { x with clocks := master, clkPresent := true, clockT := s.now }
  obtain ⟨hMap, hMapOther⟩ := t.modPort_port p fun x => { x with
    map := (List.range 16).foldl (fun m k => SMap.set m k (t.reg (Page.audio p) (Reg.AP_MAP + 4 * k)) 0) [] }
  obtain ⟨hZero, hZeroOther⟩ := (t.takeMap p).sendZeros_port p
  obtain ⟨⟨b, d, hStandby⟩, hStandbyOther⟩ := ((t.takeMap p).sendZeros p).applyStandby_port p
  refine ⟨?_, fun q hq => ?_⟩
  · rw [hStandby]
    refine hZero.trans ((congrArg Port.clocking hMap).trans ?_)
    rw [show t.port p = _ from hHere]
    rfl
  · rw [hStandbyOther q hq, hZeroOther q hq]
    exact (hMapOther q hq).trans (hOther q hq)

/-! #### Start -/

/-- A port that starts, before its clocks run (R244). -/
def Port.starting (x : Port) (standby : Bool) : Port :=
  { x with
    st := 1, pend := false, clocks := false, clkPresent := false, filling := false, returning := false, lastBlock := false,
    lineStuck := false, standby := standby, driving := false, startT := none, taken := 0 }

theorem State.portStart_spec (s : State) (p : Nat) :
    (s.portStart p).port p = (s.port p).starting (s.flag (Page.audio p) Reg.AP_CTRL 0) ∧
    ∀ q, q ≠ p → (s.portStart p).port q = s.port q := by
  obtain ⟨a, ha⟩ := s.bankDrop_eq p
  have hStart (q : Nat) : (s.portStart p).port q =
      ((s.bankDrop p).modPort p fun x => x.starting (s.flag (Page.audio p) Reg.AP_CTRL 0)).port q := by
    unfold State.portStart
    extract_lets t
    split <;> rfl
  obtain ⟨hHere, hOther⟩ := (s.bankDrop p).modPort_port p fun x => x.starting (s.flag (Page.audio p) Reg.AP_CTRL 0)
  refine ⟨?_, fun q hq => ?_⟩
  · rw [hStart, hHere, ha]
    rfl
  · rw [hStart, hOther q hq, ha]
    rfl

theorem OnlyRegs.trans {s t u : State} (h : OnlyRegs s t) (h' : OnlyRegs t u) : OnlyRegs s u := by
  rw [OnlyRegs] at *
  rw [h', h]

/-- An error recorded with its address changes the error registers of its page alone (R445). -/
theorem State.pgErrAt_onlyRegs (s : State) (pg off src : Nat) (l : List Nat) : OnlyRegs s (s.pgErrAt pg off src l) := by
  have hBits : OnlyRegs s (l.foldl (fun s b => s.setFlag pg Reg.PG_ERR_STATUS b true) s) :=
    List.foldlRecOn (motive := OnlyRegs s) _ _ .refl fun _ h _ _ => h.setFlag
  unfold State.pgErrAt
  extract_lets t u
  have hCount : OnlyRegs s u := hBits.countFld
  split
  · exact hCount
  · exact hCount.setReg.setReg

theorem State.reg_pgErrAt_other {pg off src : Nat} {l : List Nat} {q o : Nat} (ho : o < 4096) (h1 : o ≠ Reg.PG_ERR_COUNT)
    (h2 : o ≠ Reg.PG_ERR_ADDR_LO) (h3 : o ≠ Reg.PG_ERR_ADDR_HI) :
    (s.pgErrAt pg off src l).reg q o = (l.foldl (fun s b => s.setFlag pg Reg.PG_ERR_STATUS b true) s).reg q o := by
  unfold State.pgErrAt
  extract_lets t u
  have hCount : u.reg q o = t.reg q o := State.reg_countFld_off (by decide) ho h1
  split
  · exact hCount
  · rw [State.reg_setReg_off (by decide) ho h3, State.reg_setReg_off (by decide) ho h2, hCount]

/-- A refused enable (R244): ENABLE is clear and the refusal recorded. -/
theorem State.refuseEnable_spec (s : State) (pg src : Nat) :
    let t := (s.setFlag pg Reg.PG_CTRL 0 false).pgErrAt pg Reg.PG_CTRL src [27, 1]
    OnlyRegs s t ∧ t.flag pg Reg.PG_CTRL 0 = false ∧ t.flag pg Reg.PG_ERR_STATUS 27 = true ∧
      t.flag pg Reg.PG_ERR_STATUS 1 = true := by
  intro t
  let u := s.setFlag pg Reg.PG_CTRL 0 false
  have hReg {o : Nat} (ho : o < 4096) (h1 : o ≠ Reg.PG_ERR_COUNT) (h2 : o ≠ Reg.PG_ERR_ADDR_LO) (h3 : o ≠ Reg.PG_ERR_ADDR_HI)
      (i : Nat) : t.flag pg o i = ((u.setFlag pg Reg.PG_ERR_STATUS 27 true).setFlag pg Reg.PG_ERR_STATUS 1 true).flag pg o i := by
    rw [State.flag, State.reg_pgErrAt_other ho h1 h2 h3, State.flag]
    rfl
  refine ⟨(OnlyRegs.setFlag .refl).trans (u.pgErrAt_onlyRegs _ _ _ _), ?_, ?_, ?_⟩
  · rw [hReg (by decide) (by decide) (by decide) (by decide), State.flag, State.reg_setFlag_off (by decide) (by decide) (by decide),
      State.reg_setFlag_off (by decide) (by decide) (by decide)]
    exact State.flag_setFlag_same (by decide) false
  · rw [hReg (by decide) (by decide) (by decide) (by decide), State.flag_setFlag_beside (by decide) (by decide)]
    exact State.flag_setFlag_same (by decide) true
  · rw [hReg (by decide) (by decide) (by decide) (by decide)]
    exact State.flag_setFlag_same (by decide) true

/-- What a port's way to ON leaves after its own fields are set (R244). -/
theorem State.reg_lockPending {q o : Nat} (ho : o < 4096) (hLock : o ≠ Reg.PG_LOCK) (hCtrl : o ≠ Reg.PG_CTRL) :
    (s.lockPending p).reg q o = s.reg q o := by
  unfold State.lockPending
  split
  · rw [State.reg_setFlag_off (by decide) ho hCtrl, State.reg_setFlag_off (by decide) ho hLock]
  · rfl

theorem State.lockPending_onlyRegs (s : State) (p : Nat) : OnlyRegs s (s.lockPending p) := by
  unfold State.lockPending
  split <;> rfl

/-- A port that has just gone ON (R244). -/
def Port.on (x : Port) (now : W64) (free : Nat) : Port :=
  { x with
    st := 2, frames := 0, taken := 0, blockSeq := 0, discont := true, discontTx := true, startT := some now, contT := now,
    openSlots := [], prevSample := [], queue := [], rate := 0, rateOk := false, playCrc := [], lastReal := none, gridK := none,
    errTo := 0, pdm := { free := free }, mods := [] }

/-- The streams of a port that goes ON begin anew (R239). -/
def State.streamsRestart (s : State) (p : Nat) : State :=
  match inRing p with
  | some r => (s.streamsFrom r).foldl (fun (s : State) (i : Nat) => s.ringRestart i) s
  | none => s

/-- What a port does at the instant at which it goes ON (R244). -/
def State.portTurnsOn (s : State) (p : Nat) : State :=
  let t := (s.takeMap p).modPort p fun x => x.on s.now s.free
  (((({ t with free := s.free + 112 }.streamsRestart p).applyStandby p).irq (Page.audio p) 0).lockPending (Page.audio p))

theorem execPortOn_eq {p : AudioPort} (hSt : (s.port p.val).st = 1) (hClk : (s.port p.val).clkPresent = true) :
    execPortOn p s =
      .next ((s.reach (BitVec.ofNat 64 (max (s.apStart p.val) (s.startReady p.val)))).portTurnsOn p.val) := by
  unfold execPortOn
  dsimp only
  rw [hSt, hClk]
  exact if_neg (by decide)

theorem State.streamsRestart_spec (s : State) (p : Nat) : (s.streamsRestart p).audio = s.audio ∧ (s.streamsRestart p).time = s.time := by
  unfold State.streamsRestart
  split
  next r _ =>
    obtain ⟨a, b, c, h⟩ := s.ringsRestart_eq (s.streamsFrom r)
    rw [h]
    exact ⟨rfl, rfl⟩
  next => exact ⟨rfl, rfl⟩

theorem State.portTurnsOn_spec (s : State) (p : Nat) :
    (∃ x b d, ((s.portTurnsOn p).port p) = { Port.on x s.now s.free with standby := b, driving := d }) ∧
    (s.portTurnsOn p).now = s.now ∧ (s.portTurnsOn p).flag (Page.audio p) Reg.PG_IRQ_STATUS 0 = true ∧
    ∀ q, q ≠ p → (s.portTurnsOn p).port q = s.port q := by
  unfold State.portTurnsOn
  extract_lets t
  obtain ⟨hOn, hOnOther⟩ := (s.takeMap p).modPort_port p fun x => x.on s.now s.free
  obtain ⟨-, hMapOther⟩ := s.modPort_port p fun x => { x with
    map := (List.range 16).foldl (fun m k => SMap.set m k (s.reg (Page.audio p) (Reg.AP_MAP + 4 * k)) 0) [] }
  generalize hu : ({ t with free := s.free + 112 } : State) = u
  obtain ⟨hAudio, hTime⟩ := u.streamsRestart_spec p
  obtain ⟨⟨b, d, hStandby⟩, hStandbyOther⟩ := (u.streamsRestart p).applyStandby_port p
  have hRaised := Reports.irq (page := Page.audio p) (.refl ((u.streamsRestart p).applyStandby p)) (show 0 < 32 by decide)
  generalize hv : (((u.streamsRestart p).applyStandby p).irq (Page.audio p) 0) = v at hRaised
  have hLock := v.lockPending_onlyRegs (Page.audio p)
  have hPort (q : Nat) : (v.lockPending (Page.audio p)).port q = ((u.streamsRestart p).applyStandby p).port q := by
    rw [hLock]
    exact State.port_of_ports (congrArg Audio.ports hRaised.beside.audio) q
  have hRestart (q : Nat) : (u.streamsRestart p).port q = t.port q := by
    rw [State.port_of_ports (congrArg Audio.ports hAudio), ← hu]
    rfl
  refine ⟨⟨(s.takeMap p).port p, b, d, ?_⟩, ?_, ?_, fun q hq => ?_⟩
  · rw [hPort, hStandby, hRestart, show t.port p = _ from hOn]
  · rw [hLock, State.now]
    show v.time.tb = s.now
    rw [hRaised.beside.time]
    show (u.streamsRestart p).time.tb = s.now
    rw [hTime, ← hu]
    rfl
  · rw [State.flag, State.reg_lockPending (by decide) (by decide) (by decide), ← hv]
    exact State.flag_irq (by decide)
  · rw [hPort, hStandbyOther q hq, hRestart]
    exact (hOnOther q hq).trans (hMapOther q hq)

/-! #### Stop -/

/-- ENABLE and its pending mark cleared (R245). -/
def State.disabled (s : State) (p : Nat) : State :=
  (s.setFlag (Page.audio p) Reg.PG_STATE 2 false).setFlag (Page.audio p) Reg.PG_CTRL 0 false

theorem State.reg_disabled (s : State) (p : Nat) {q o : Nat} (ho : o < 4096) (h1 : o ≠ Reg.PG_STATE) (h2 : o ≠ Reg.PG_CTRL) :
    (s.disabled p).reg q o = s.reg q o := by
  rw [State.disabled, State.reg_setFlag_off (by decide) ho h2, State.reg_setFlag_off (by decide) ho h1]

/-- Whether port p fills a ring that is valid (R246). -/
def State.fillsRing (s : State) (p : Nat) : Bool := match inRing p with | some r => (s.ringShape r).valid | none => false

theorem State.fillsRing_disabled (s : State) (p : AudioPort) : (s.disabled p.val).fillsRing p.val = s.fillsRing p.val := by
  unfold State.fillsRing
  split
  next r hr =>
    have hLt : r < 30 := by
      have hp := p.isLt
      simp only [inRing] at hr
      split at hr
      · cases hr
        omega
      · split at hr
        · cases hr
          omega
        · cases hr
    have hReg : (s.disabled p.val).reg Page.audioBuf (Reg.RING_SHAPE + 16 * r) = s.reg Page.audioBuf (Reg.RING_SHAPE + 16 * r) :=
      s.reg_disabled p.val (by simp only [Reg.RING_SHAPE]; omega) (by simp only [Reg.RING_SHAPE, Reg.PG_STATE]; omega)
        (by simp only [Reg.RING_SHAPE, Reg.PG_CTRL]; omega)
    simp only [State.ringShape, hReg]
  next => rfl

theorem State.apFmt_disabled (s : State) (p : Nat) : (s.disabled p).apFmt p = s.apFmt p := by
  rw [State.apFmt, State.reg_disabled s p (by decide) (by decide) (by decide), State.apFmt]

/-- What a disable does to a port that is ON, in terms of the state without ENABLE. -/
theorem State.portDisable_of_on (hSt : (s.port p).st = 2) :
    s.portDisable p =
      let t := (s.disabled p).setPort p
        { s.port p with st := 3, lastBlock := (s.disabled p).portRx p && (s.disabled p).fillsRing p, stopT := s.now }
      if (s.disabled p).portTdm p then t else t.sendZeros p := by
  unfold State.portDisable
  extract_lets t u x
  have hx : x.st = 2 := hSt
  rw [hx]
  rfl

/-- A disable of a port that is ON (R245, R246). -/
theorem State.portDisable_on {p : AudioPort} (hSt : (s.port p.val).st = 2) :
    s.portDisable p.val =
      let t := (s.disabled p.val).setPort p.val
        { s.port p.val with st := 3, lastBlock := s.portRx p.val && s.fillsRing p.val, stopT := s.now }
      if s.portTdm p.val then t else t.sendZeros p.val := by
  have hRx : (s.disabled p.val).portRx p.val = s.portRx p.val := by
    rw [State.portRx, State.apFmt_disabled, State.portRx]
  have hTdm : (s.disabled p.val).portTdm p.val = s.portTdm p.val := by
    rw [State.portTdm, State.apFmt_disabled, State.portTdm]
  rw [State.portDisable_of_on hSt, hRx, hTdm, State.fillsRing_disabled]

/-- A disable of a port that starts (R245). -/
theorem State.portDisable_starting (hSt : (s.port p).st = 1) :
    s.portDisable p =
      ((s.disabled p).setPort p { s.port p with st := 3, lastBlock := false, stopT := s.now }).sendZeros p := by
  unfold State.portDisable
  extract_lets t u x
  have hx : x.st = 1 := hSt
  rw [hx]
  rfl

/-- A port that is OFF again (R245). -/
theorem State.portStopped_spec (h : (s.port p).pend = false) :
    (s.portStopped p).port p = portOff (s.port p) ∧ (s.portStopped p).flag (Page.audio p) Reg.PG_IRQ_STATUS 0 = true ∧
    ∀ q, q ≠ p → (s.portStopped p).port q = s.port q := by
  obtain ⟨hHere, hOther⟩ := s.modPort_port p portOff
  obtain ⟨hPorts, -⟩ := (s.modPort p portOff).portGone_spec p
  have hStopped : s.portStopped p = ((s.modPort p portOff).portGone p).irq (Page.audio p) 0 := by
    unfold State.portStopped
    dsimp only
    rw [h]
    rfl
  have hRaised := Reports.irq (page := Page.audio p) (.refl ((s.modPort p portOff).portGone p)) (show 0 < 32 by decide)
  have hPort (q : Nat) : (s.portStopped p).port q = (s.modPort p portOff).port q := by
    rw [hStopped, hRaised.beside.port, State.port_of_ports hPorts]
  refine ⟨(hPort p).trans hHere, ?_, fun q hq => (hPort q).trans (hOther q hq)⟩
  rw [hStopped]
  exact State.flag_irq (by decide)

theorem State.muteLeft_of_none (h : (s.port p).openSlots = []) : s.muteLeft p = s := by
  unfold State.muteLeft
  rw [h]
  rfl

theorem State.port_reach (s : State) (t : W64) (q : Nat) : (s.reach t).port q = s.port q := by
  rw [State.reach_eq]
  rfl

theorem execPortStopDone_spec {p : AudioPort} (hSt : (s.port p.val).st = 3) (hLast : (s.port p.val).lastBlock = false)
    (hPend : (s.port p.val).pend = false) (hOpen : (s.port p.val).openSlots = []) :
    ∃ t, execPortStopDone p s = .next t ∧ t.port p.val = portOff (s.port p.val) ∧
      t.flag (Page.audio p.val) Reg.PG_IRQ_STATUS 0 = true ∧ ∀ q, q ≠ p.val → t.port q = s.port q := by
  unfold execPortStopDone
  dsimp only
  rw [hSt, hLast, State.muteLeft_of_none hOpen, if_neg (by decide)]
  generalize hu : (s.reach _).reach _ = u
  have hPort (q : Nat) : u.port q = s.port q := by
    rw [← hu, State.port_reach, State.port_reach]
  obtain ⟨hHere, hFlag, hOther⟩ := State.portStopped_spec (s := u) (p := p.val) (by rw [hPort, hPend])
  exact ⟨_, rfl, by rw [hHere, hPort], hFlag, fun q hq => by rw [hOther q hq, hPort]⟩

theorem State.portBlockReset_spec (h : s.pageOn (Page.audio p) = true) :
    (s.portBlockReset p).port p = portOff (s.port p) ∧ (s.portBlockReset p).flag (Page.audio p) Reg.PG_CTRL 0 = false ∧
    ∀ q, q ≠ p → (s.portBlockReset p).port q = s.port q := by
  have hReset : s.portBlockReset p = ((s.setFlag (Page.audio p) Reg.PG_CTRL 0 false).portGone p).modPort p portOff := by
    unfold State.portBlockReset
    rw [h]
    rfl
  obtain ⟨hPorts, hReg⟩ := (s.setFlag (Page.audio p) Reg.PG_CTRL 0 false).portGone_spec p
  obtain ⟨hHere, hOther⟩ := ((s.setFlag (Page.audio p) Reg.PG_CTRL 0 false).portGone p).modPort_port p portOff
  rw [hReset]
  refine ⟨?_, ?_, fun q hq => ?_⟩
  · rw [hHere, State.port_of_ports hPorts]
    rfl
  · show State.flag ((s.setFlag (Page.audio p) Reg.PG_CTRL 0 false).portGone p) _ _ _ = false
    rw [State.flag, hReg _ _ (by decide) (by decide) (by decide)]
    exact State.flag_setFlag_same (by decide) false
  · rw [hOther q hq, State.port_of_ports hPorts]
    rfl

end Sys2Proof.Machine

namespace Sys2Proof.Claims
open Machine

/-- Settles O19: a start by `portStart_spec`, `clocksRun_spec` and `portTurnsOn_spec`; a stop by `portDisable_on` and `portStopped_spec`. -/
theorem portsStartAndStop : Obligations.PortsStartAndStop := by
  refine ⟨fun s src p => ?_, fun s src p => ?_⟩
  · intro pg x
    refine ⟨fun hOn hSt hOk => ?_, fun hOn hSt hOk => ?_, fun hOn hSt => ?_, fun hSt hMaster hClocks hSource => ?_,
      fun hSt hClk => ?_⟩
    · intro t
      obtain ⟨hHere, hOther⟩ := (s.setFlag pg Reg.PG_CTRL 0 true).portStart_spec p.val
      refine ⟨?_, by rw [hHere]; rfl, by rw [hHere]; rfl, by rw [hHere]; rfl, by rw [hHere]; rfl, by rw [hHere]; rfl,
        fun q hq => hOther q.val fun h => hq (Fin.ext h)⟩
      show Host.Outcome.next (s.portEnable src.val p.val) = _
      unfold State.portEnable
      simp only [show s.pageOn (Page.audio p.val) = true from hOn, show (s.port p.val).st = 0 from hSt, hOk, Bool.not_true,
        Bool.false_eq_true, if_false, if_true]
      rfl
    · obtain ⟨hRegs, hCtrl, h27, h1⟩ := s.refuseEnable_spec pg src.val
      refine ⟨_, ?_, hRegs, hCtrl, h27, h1⟩
      show Host.Outcome.next (s.portEnable src.val p.val) = _
      unfold State.portEnable
      simp only [show s.pageOn (Page.audio p.val) = true from hOn, show (s.port p.val).st = 0 from hSt, hOk, Bool.not_true,
        Bool.false_eq_true, if_false]
      rfl
    · show Host.Outcome.next (s.portEnable src.val p.val) = _
      unfold State.portEnable
      simp only [show s.pageOn (Page.audio p.val) = true from hOn, show (s.port p.val).st = 3 from hSt, Bool.not_true,
        Bool.false_eq_true, if_false]
      rfl
    · intro t
      obtain ⟨hHere, hOther⟩ := s.clocksRun_spec p.val true
      have hSt' := congrArg Prod.fst hHere
      have hClocks' := congrArg (·.2.1) hHere
      refine ⟨?_, hSt'.trans hSt, hClocks', congrArg (·.2.2.1) hHere, congrArg (·.2.2.2) hHere,
        fun q hq => hOther q.val fun h => hq (Fin.ext h)⟩
      show execPortClockStart p s = _
      unfold execPortClockStart
      simp only [show (s.port p.val).st = 1 from hSt, hMaster, show (s.port p.val).clocks = false from hClocks, hSource,
        decide_true, Bool.not_false, Bool.and_self, if_true]
      rfl
    · intro T
      obtain ⟨⟨y, b, d, hHere⟩, hNow, hFlag, hOther⟩ := (s.reach T).portTurnsOn_spec p.val
      have hPorts (q : Nat) : (s.reach T).port q = s.port q := by
        rw [State.reach_eq]
        rfl
      refine ⟨_, execPortOn_eq hSt hClk, by rw [hHere]; rfl, by rw [hHere]; rfl, by rw [hHere]; rfl, hNow, ?_, hFlag,
        fun q hq => ?_⟩
      · rw [hHere, hNow]
        rfl
      · rw [hOther q.val fun h => hq (Fin.ext h), hPorts]
  · intro pg x cleared ringValid stop
    refine ⟨fun hSt => ?_, fun hSt => ?_, fun hSt hLast hPend hOpen => ?_, fun hOn => ?_⟩
    · exact congrArg Host.Outcome.next (State.portDisable_on hSt)
    · exact congrArg Host.Outcome.next (State.portDisable_starting hSt)
    · obtain ⟨t, hRun, hHere, hFlag, hOther⟩ := execPortStopDone_spec hSt hLast hPend hOpen
      exact ⟨t, hRun, hHere, hFlag, fun q hq => hOther q.val fun h => hq (Fin.ext h)⟩
    · obtain ⟨hHere, hFlag, hOther⟩ := State.portBlockReset_spec hOn
      exact ⟨_, rfl, hHere, hFlag, fun q hq => hOther q.val fun h => hq (Fin.ext h)⟩

end Sys2Proof.Claims

/-! ### An interrupt that leaves the device (R344, R446) -/

namespace Sys2Proof.Claims
open Machine

/-- The summary of interrupts fires vector 0, which is not masked and is a write to the host, and node 0 is reached over link 0,
which is UP. -/
def reporting : State :=
  ((((State.reset.setFlag Page.device Reg.DV_IRQ_CTRL 7 true).setReg Page.queueMgr Reg.QM_VEC_CTRL 0).setFlag Page.fabric
    Reg.FB_PEER 8 true).setFld Page.fabric Reg.FB_ROUTE 0 3 0).setLink 0 { st := 6 }

/-- APLL 0 is locked and its interrupt is enabled. -/
def lossReported : State := (reporting.setApll 0 { locked := true }).setReg (Page.apll 0) Reg.PG_IRQ_ENABLE 1

/-- Refutes O20: the loss of an APLL's lock that is reported over the link changes the fabric too: from `lossReported` the vector's
write takes a tag or waits for one. -/
theorem not_audioEventsAct : ¬ Obligations.AudioEventsAct := by
  intro h
  obtain ⟨-, -, -, hSingle⟩ := h
  obtain ⟨-, hLost, -⟩ := hSingle lossReported
  obtain ⟨t, hExec, -, -, hOnly, -⟩ := hLost 0 (by decide +kernel)
  have hFab : t.fab.tags.length + t.fab.backlog.length = 0 := by
    rw [hOnly]
    exact show lossReported.fab.tags.length + lossReported.fab.backlog.length = 0 by decide +kernel
  have hSent : (match exec (.apllLockLost 0) lossReported with
      | .next t => decide (t.fab.tags.length + t.fab.backlog.length = 0)
      | _ => true) = false := by decide +kernel
  rw [hExec] at hSent
  dsimp only at hSent
  rw [hFab] at hSent
  exact absurd hSent (by decide)

end Sys2Proof.Claims

/-! ### The direct filter path (R252–R264) -/

namespace Sys2Proof.Machine
open Claims

variable {s : State}

/-- `t` is `s` with frames played: the path, the states of the ports and the quiet registers stay. -/
structure Plays (s t : State) : Prop where
  dp : t.dp = s.dp
  st : ∀ q, (t.port q).st = (s.port q).st
  reg : ∀ {p o : Nat}, o < 4096 → quiet p o = true → o ≠ Reg.AP_CLIP_COUNT → t.reg p o = s.reg p o

namespace Plays

variable {t u : State}

theorem refl (s : State) : Plays s s := ⟨rfl, fun _ => rfl, fun _ _ _ => rfl⟩

theorem trans (a : Plays s t) (b : Plays t u) : Plays s u :=
  ⟨b.dp.trans a.dp, fun q => (b.st q).trans (a.st q), fun ho hq h => (b.reg ho hq h).trans (a.reg ho hq h)⟩

theorem setPort {p : Nat} {x : Port} (h : Plays s t) (hSt : x.st = (t.port p).st) : Plays s (t.setPort p x) := by
  refine h.trans ⟨rfl, fun q => ?_, fun _ _ _ => rfl⟩
  rw [State.port_setPort]
  split
  next hq => rw [hq, hSt]
  next => rfl

theorem reports (h : Plays s t) (h' : Reports t u) : Plays s u :=
  h.trans ⟨h'.beside.dp, fun q => by rw [h'.beside.port], fun ho hq _ => h'.reg ho hq⟩

theorem clipCount {p n : Nat} (h : Plays s t) : Plays s (t.count p Reg.AP_CLIP_COUNT n) :=
  h.trans ⟨rfl, fun _ => rfl, fun ho _ hc => State.reg_count_off (by decide) ho hc⟩

theorem blockFlag {d : RingShape} {f m : Nat} (h : Plays s t) : Plays s (t.blockFlag d f m) :=
  h.trans ⟨rfl, fun _ => rfl, fun _ _ _ => rfl⟩

theorem sendSerial {p k : Nat} {v : W32} (h : Plays s t) : Plays s (t.sendSerial p k v) := h.setPort rfl

theorem sendPdm {p k : Nat} {v : W32} (h : Plays s t) : Plays s (t.sendPdm p k v) := by
  unfold State.sendPdm
  extract_lets x
  split
  · exact h.setPort rfl
  · split
    exact h.setPort rfl

theorem foldl {α : Type} {f : State → α → State} {l : List α} (h : Plays s t)
    (hf : ∀ u a, Plays s u → Plays s (f u a)) : Plays s (l.foldl f t) :=
  List.foldlRecOn (motive := Plays s) l f h fun u hu a _ => hf u a hu

theorem sendFrame {p : Nat} {f : TxFrame} (h : Plays s t) : Plays s (t.sendFrame p f) := by
  unfold State.sendFrame
  split
  next u clips heq =>
    have hu : Plays s u := by
      refine (congrArg (fun a : State × Nat => Plays s a.1) heq).mp ?_
      refine List.foldlRecOn (motive := fun a : State × Nat => Plays s a.1) _ _ h fun acc ha k _ => ?_
      dsimp only
      split
      · exact ha.sendSerial
      · exact ha.sendPdm
    extract_lets v
    have hv : Plays s v := hu.clipCount.reports (Reports.irq (.refl _) (by decide))
    split
    · exact hu
    · split
      · exact hv.blockFlag
      · exact hv

theorem sendDue {p t' : Nat} (h : Plays s t) : Plays s (t.sendDue p t') := by
  unfold State.sendDue
  split
  exact Plays.foldl (h.setPort rfl) fun _ _ h => h.sendFrame

theorem sendAllDue (h : Plays s t) : Plays s t.sendAllDue := h.foldl fun _ _ h => h.sendDue

end Plays

/-- The edge of a path frame is reached (R252): the path's edge and inputs are taken, and what is due is played. -/
theorem State.dpReach_spec (s : State) (edge : W64) (inputs : List PortFrame) :
    (s.dpReach edge inputs).dp.st = s.dp.st ∧ (∀ q, ((s.dpReach edge inputs).port q).st = (s.port q).st) ∧
    (s.dpReach edge inputs).framePort = s.framePort ∧
    (s.dpReach edge inputs).fld Page.dpMain Reg.DP_PHASE 0 16 = s.fld Page.dpMain Reg.DP_PHASE 0 16 := by
  unfold State.dpReach
  extract_lets t old keep
  have hRegs : t.regs = s.regs := by
    unfold t
    rw [State.reach_eq]
  have hDp : t.dp = s.dp := by
    unfold t
    rw [State.reach_eq]
  have hPort (q : Nat) : t.port q = s.port q := State.port_reach _ _ _
  clear_value t old keep
  have hPlays := Plays.sendAllDue (.refl { t with dp := { t.dp with edge := some edge, recent := keep } })
  have hReg {o : Nat} (ho : o < 4096) (hq : quiet Page.dpMain o = true) (hc : o ≠ Reg.AP_CLIP_COUNT) :
      (State.sendAllDue { t with dp := { t.dp with edge := some edge, recent := keep } }).reg Page.dpMain o =
        s.reg Page.dpMain o := by
    rw [hPlays.reg ho hq hc, State.reg, State.reg, ← hRegs]
  refine ⟨?_, fun q => ?_, ?_, ?_⟩
  · rw [hPlays.dp]
    show t.dp.st = s.dp.st
    rw [hDp]
  · rw [hPlays.st]
    exact congrArg Port.st (hPort q)
  · rw [State.framePort, State.fld, hReg (by decide) (by decide) (by decide)]
    rfl
  · rw [State.fld, hReg (by decide) (by decide) (by decide)]
    rfl

/-- An enable of the path from OFF records the frame cost and starts where the checks pass (R263). -/
theorem State.dpEnable_of_off {src : Nat} (hOn : s.pageOn Page.dpMain = true) (hSt : s.dp.st = 0) :
    s.dpEnable src =
      let costed := s.setFld Page.dpMain Reg.DP_COST 0 24 s.dpCost
      let begun : DirectPath := { s.dp with st := 1, pend := false, edge := none, recent := [], pipe := [] }
      if costed.dpEnableOk then { costed.setFlag Page.dpMain Reg.PG_CTRL 0 true with
        dp := if s.flag Page.dpMain Reg.DP_CTRL 13 then { begun with
          coef0 := [], coef1 := [], sec0 := [], sec1 := [], mu0 := [], mu1 := [], lam0 := [], lam1 := [], bankFree := none,
          hist := [], fhist := [] } else begun }
      else (costed.setFlag Page.dpMain Reg.PG_CTRL 0 false).enableRefused Page.dpMain src := by
  have hClear : ((s.setFld Page.dpMain Reg.DP_COST 0 24 s.dpCost).setFlag Page.dpMain Reg.PG_CTRL 0 true).flag Page.dpMain
      Reg.DP_CTRL 13 = s.flag Page.dpMain Reg.DP_CTRL 13 := by
    rw [State.flag, State.reg_setFlag_off (by decide) (by decide) (by decide),
      State.reg_setFld_off (by decide) (by decide) (by decide), State.flag]
  unfold State.dpEnable
  simp only [hOn, hSt, hClear, Bool.not_true, Bool.false_eq_true, if_false]
  rfl

/-- An enable of the path while it stops is remembered (R263). -/
theorem State.dpEnable_of_stopping {src : Nat} (hOn : s.pageOn Page.dpMain = true) (hSt : s.dp.st = 3) :
    s.dpEnable src = { s.setFlag Page.dpMain Reg.PG_CTRL 0 true with dp := { s.dp with pend := true } } := by
  unfold State.dpEnable
  dsimp only
  rw [if_neg (by rw [hOn]; decide)]
  split
  next h => omega
  next => rfl
  next _ h => exact absurd hSt h

theorem State.dp_lockPending (s : State) (pg : Nat) : (s.lockPending pg).dp = s.dp := by
  rw [s.lockPending_onlyRegs pg]

/-- A frame that the path takes (R252): a new edge with the frame port's clocks there. -/
theorem execPathFrame_of_new {edge : W64} {inputs : List PortFrame} {ecc : List DpFault}
    (hEdge : ∀ e, s.dp.edge = some e → e.toNat < edge.toNat) (hClk : (s.port s.framePort).clkPresent = true)
    (hSt : s.dp.st ≠ 0) :
    execPathFrame edge inputs ecc s =
      let ek := edge + BitVec.ofNat 64 (256 * s.fld Page.dpMain Reg.DP_PHASE 0 16)
      let u := s.dpReach edge inputs
      let t := if s.dp.st = 1 && (s.port s.framePort).st = 2 then
          State.lockPending { u with dp := { u.dp with st := 2, firstFrame := true } } Page.dpMain else u
      if t.dp.st = 2 then .next (t.dpRun edge ek ecc) else if t.dp.st = 3 then .next (t.dpStopFrame edge) else .next t := by
  obtain ⟨hSt', hPorts, hFrame, hPhase⟩ := s.dpReach_spec edge inputs
  have hNs : nsTb (s.fld Page.dpMain Reg.DP_PHASE 0 16) = 256 * s.fld Page.dpMain Reg.DP_PHASE 0 16 := Nat.mul_comm _ _
  unfold execPathFrame
  extract_lets again u ek dp t ek' t'
  have hAgain : again = false := by
    unfold again
    split
    next e he => exact decide_eq_false (by have := hEdge e he; omega)
    next => rfl
  rw [if_neg (by rw [hAgain, hClk, decide_eq_false hSt]; decide)]
  have hEk : ek = ek' := by
    unfold ek ek'
    rw [hPhase, hNs]
  have hT : t = t' := by
    unfold t t'
    rw [hSt', hFrame, hPorts]
  rw [hEk, hT]

/-- A frame of a path that stops (R263). -/
theorem State.dpStopFrame_dp {edge : W64} (h : 0 < s.dp.stopIn) : (s.dpStopFrame edge).dp =
    { s.dp with stopIn := s.dp.stopIn - 1, pipe := ((s.dpPlace edge, []) :: s.dp.pipe).take 4 } := by
  unfold State.dpStopFrame
  rw [if_pos (by omega)]
  rfl

/-- A frame of a path that is ON goes one frame on (R256). -/
theorem State.dpFrame_frame (s : State) (edge ek : W64) : (s.dpFrame edge ek).dp.frame = s.dp.frame + 1 := by
  unfold State.dpFrame
  extract_lets k at_ rs es mask hist t used u ys adapting v m
  split
  rfl

end Sys2Proof.Machine

namespace Sys2Proof.Claims
open Machine

/-- Settles O22: an enable by `dpEnable_of_off`, a frame by `execPathFrame_of_new`. -/
theorem directPathRuns : Obligations.DirectPathRuns := by
  refine ⟨fun s src hOn => ?_, fun s edge inputs ecc hEdge hClk => ?_⟩
  · intro pg costed begun
    refine ⟨fun hSt hOk hFlag => ?_, fun hSt hOk hFlag => ?_, fun hSt hOk => ?_, fun hSt => ?_, fun hSt => ?_, ?_⟩
    · show Host.Outcome.next (s.dpEnable src.val) = _
      rw [State.dpEnable_of_off hOn hSt, if_pos hOk, hFlag]
      rfl
    · show Host.Outcome.next (s.dpEnable src.val) = _
      rw [State.dpEnable_of_off hOn hSt, if_pos hOk, hFlag]
      rfl
    · show Host.Outcome.next (s.dpEnable src.val) = _
      rw [State.dpEnable_of_off hOn hSt]
      have hNot : (s.setFld Page.dpMain Reg.DP_COST 0 24 s.dpCost).dpEnableOk ≠ true := fun h => Bool.false_ne_true (hOk.symm.trans h)
      exact congrArg Host.Outcome.next (if_neg hNot)
    · show Host.Outcome.next (s.dpEnable src.val) = _
      rw [State.dpEnable_of_stopping hOn hSt]
    · show Host.Outcome.next s.dpDisable = _
      unfold State.dpDisable
      extract_lets t u
      have hu : u.dp.st = 2 := hSt
      rw [hu]
      rfl
    · show Host.Outcome.next s.dpBlockReset = _
      unfold State.dpBlockReset
      rw [hOn]
      rfl
  · intro u ek
    obtain ⟨hSt', -, -, -⟩ := s.dpReach_spec edge inputs
    refine ⟨fun hSt => ?_, fun hSt hPort => ?_, fun hSt => ?_, fun hStop => State.dpStopFrame_dp hStop, s.dpFrame_frame edge ek⟩
    · show execPathFrame edge inputs ecc s = _
      rw [execPathFrame_of_new hEdge hClk (by omega), hSt]
      dsimp only
      rw [if_neg (show ¬ (decide (2 = 1) && _) = true by simp), if_pos (hSt'.trans hSt)]
    · show execPathFrame edge inputs ecc s = _
      rw [execPathFrame_of_new hEdge hClk (by omega), hSt, hPort]
      dsimp only
      rw [if_pos (show (decide (1 = 1) && decide (2 = 2)) = true by decide), State.dp_lockPending, if_pos rfl]
    · show execPathFrame edge inputs ecc s = _
      rw [execPathFrame_of_new hEdge hClk (by omega), hSt]
      dsimp only
      rw [if_neg (show ¬ (decide (3 = 1) && _) = true by simp), if_neg (by rw [hSt', hSt]; decide), if_pos (hSt'.trans hSt)]

end Sys2Proof.Claims

/-! ### Requests to DRAM and to the cache (R269, R275–R277) -/

namespace Sys2Proof.Claims
open Machine

/-- Settles O24: a clean access is served as it stands, a corrected error is counted first, and a refusal changes nothing. -/
theorem memoryRequestsServed : Obligations.MemoryRequestsServed := by
  intro s q a len serve answered
  refine ⟨?_, ?_, fun hRefused => ?_, fun hServed hMiss => ?_, fun w hServed hHit => ?_⟩
  · show execDramAccess q .clean s = _
    unfold execDramAccess
    dsimp only
    rw [ite_self]
    rfl
  · show execCacheAccess q .clean s = _
    unfold execCacheAccess
    dsimp only
    by_cases hRefused : s.dramRefuses q.who a len = true
    · exact if_pos hRefused
    · rw [if_neg (show ¬ s.dramRefuses q.who a len = true from hRefused)]
      cases s.hitWay (q.addr.toNat / 256) <;> rfl
  · have hServe : serve s = (0x0D, [], s) := by
      unfold serve State.cacheServe
      exact if_pos hRefused
    rw [hServe]
    exact ⟨rfl, rfl⟩
  · intro t
    have hHere : (s.dramRefuses q.who a len || (s.hitWay (a / 256)).isSome) = false := by
      rw [hServed, hMiss]
      rfl
    show execDramAccess q .corrected s = _
    unfold execDramAccess
    dsimp only
    rw [if_neg (show ¬ (s.dramRefuses q.who a len || (s.hitWay (a / 256)).isSome) = true by rw [hHere]; decide)]
    rfl
  · intro t
    show execCacheAccess q .corrected s = _
    unfold execCacheAccess
    dsimp only
    rw [if_neg (show ¬ s.dramRefuses q.who a len = true by rw [hServed]; decide),
      show s.hitWay (q.addr.toNat / 256) = some w from hHit]
    rfl

end Sys2Proof.Claims

/-! ### The compression engine's jobs (R292–R296) -/

namespace Sys2Proof.Machine
open Claims

variable {s : State}

/-- A described job of a live context: it queues, or the 65th is refused (R292). -/
theorem State.jobGo_of_live {j : CeJob} {ok : Bool} (hDesc : s.jobDesc = (j, ok)) (hSt : (s.ctx j.ctx).st ≠ .free)
    (hGen : s.gen j.ctx = j.gen) :
    s.jobGo = if 64 ≤ s.ce.jobs.length then
        (s.count Page.compression Reg.CE_JOB_REFUSED_COUNT).jobReport { j with status := 0x10, finished := true }
      else State.cePump { s with ce := { s.ce with jobs := s.ce.jobs ++ [j], next := s.ce.next + 1 } } := by
  unfold State.jobGo
  rw [hDesc]
  dsimp only
  rw [if_neg (not_or.2 ⟨hSt, not_not.2 hGen⟩)]

/-- What a lane's block becomes where its result is not raw and there is room for it (R294, R295). -/
theorem State.blockCoded_of_room {j : CeJob} {b : CeBlock} {out : List Byte} {code cycles : Nat}
    (hOut : (if j.op = 0 then let (o, c, n) := s.blockDecoded b; (o, c, n, false) else blockEncoded b) = (out, code, cycles, false))
    (hHeld : b.held = none) (hRoom : s.ce.outFill + out.length ≤ 262144) :
    s.blockCoded j b = ((s.count Page.compression Reg.CE_LANE_CYCLES cycles).modBlock
      { b with lane := none, out := some (out, code) }).cePump := by
  have hBlock : ({ b with held := none, lane := none, out := some (out, code) } : CeBlock) =
      { b with lane := none, out := some (out, code) } := by rw [← hHeld]
  have hFits : ¬ ceQueueBytes < s.ce.outFill + out.length := Nat.not_lt.2 hRoom
  unfold State.blockCoded
  rw [hOut]
  dsimp only
  rw [if_neg hFits, if_neg Bool.false_ne_true, hHeld, hBlock]

end Sys2Proof.Machine

namespace Sys2Proof.Claims
open Machine

/-- Settles O28: a description by `jobGo_of_live`, a block by `blockCoded_of_room`, a finished job by its definition. -/
theorem compressionJobsRun : Obligations.CompressionJobsRun := by
  intro s src
  refine ⟨fun j ok hDesc hSt hGen hRoom => ?_, fun j ok hDesc hSt hGen hFull => ?_, fun lane j rest b hJobs hBlock => ⟨?_, ?_, ?_⟩,
    fun j rest hJobs hDone hWaits => ?_, fun j rest hJobs hDone hWaits => ?_⟩
  · exact congrArg Host.Outcome.next ((State.jobGo_of_live hDesc hSt hGen).trans (if_neg (by omega)))
  · exact congrArg Host.Outcome.next ((State.jobGo_of_live hDesc hSt hGen).trans (if_pos hFull))
  · show execBlockCode lane s = _
    unfold execBlockCode
    rw [hJobs, hBlock]
  · intro out code cycles hOp hDecoded hHeld hRoom
    refine State.blockCoded_of_room ?_ hHeld hRoom
    rw [if_pos hOp, hDecoded]
  · intro out code cycles hOp hEncoded hHeld hRoom
    refine State.blockCoded_of_room ?_ hHeld hRoom
    rw [if_neg hOp, hEncoded]
  · show execCeJobDone s = _
    unfold execCeJobDone
    rw [hJobs]
    dsimp only
    rw [hDone, hWaits]
    rfl
  · show execCeJobDone s = _
    unfold execCeJobDone
    rw [hJobs]
    dsimp only
    rw [hDone, hWaits]
    rfl

end Sys2Proof.Claims

/-! ### Link bring-up and key agreement (R300–R303, R318–R320) -/

namespace Sys2Proof.Machine
open Claims

variable {s : State}

/-- An enable of a stopped port within its receive buffer starts it (R300). -/
theorem State.linkEnable_of_off {src p : Nat} (hOn : s.pageOn (Page.link p) = true) (hSum : s.creditSum p ≤ 1024)
    (hSt : (s.link p).st = 0) : s.linkEnable src p = (s.setLink p { s.link p with enabled := true }).startDetect p := by
  unfold State.linkEnable
  extract_lets l t
  rw [if_neg (by rw [hOn]; decide), if_neg (by omega)]
  exact if_pos (by rw [show l.st = 0 from hSt]; rfl)

theorem State.linkEnable_of_wide {src p : Nat} (hOn : s.pageOn (Page.link p) = true) (hSum : 1024 < s.creditSum p) :
    s.linkEnable src p = s.enableRefused (Page.link p) src := by
  unfold State.linkEnable
  extract_lets l t
  rw [if_neg (by rw [hOn]; decide), if_pos hSum]

theorem State.link_startDetect (s : State) (p : Nat) : (s.startDetect p).link p =
    { s.link p with
      st := 1, ctrl := s.reg (Page.link p) Reg.KL_CTRL, peer := none, peerHeard := false, txSeq := 0, rxSeq := 0, rxAny := false,
      replay := [], upSince := s.now, since := s.now, rxPos := 0, rxBad := false, txFlit := [], txBytes := [], txNum := 0,
      txWord := [] } :=
  (State.link_setLink _ _ _ _).trans (if_pos rfl)

/-- An EXCHANGE flit of a peer that this port may talk to (R302). -/
theorem State.exchangeTake_of_accepted {i : Nat} {x : ExchangeInfo} (hSt : (s.link i).st = 4)
    (hHost : x.host = true → s.sec.bridgeEn = true) (hEnc : bitOf (s.link i).ctrl.toNat 2 = true → x.encOffer = true) :
    s.exchangeTake i x =
      let t := s.setLink i { s.link i with
        peer := some x, peerHeard := x.ackSeen,
        credits := x.credits.zipIdx.foldl (fun (m : SMap Nat) e => SMap.set m e.2 e.1.toNat 0) [] }
      let u := if x.nodeId = 31 then t else t.setFld Page.fabric (Reg.FB_PEER + 4 * x.nodeId.toNat) 0 8 x.bgen.toNat
      if !x.ackSeen then u
      else if bitOf (s.link i).ctrl.toNat 1 && x.encOffer then
        (u.modLink i fun l => { l with st := 5, since := u.now }).sendOffer i
      else u.enterUp i := by
  have hNode : (x.nodeId.toNat = 31) = (x.nodeId = 31) :=
    propext ⟨fun h => BitVec.eq_of_toNat_eq h, fun h => by rw [h]; rfl⟩
  have hHost' : ¬ (x.host && !s.sec.bridgeEn) = true := by
    cases h : x.host
    · exact Bool.false_ne_true
    · rw [hHost h]
      decide
  have hEnc' : ¬ (bitOf (s.link i).ctrl.toNat 2 && !x.encOffer) = true := by
    cases h : bitOf (s.link i).ctrl.toNat 2
    · simp
    · rw [hEnc h]
      decide
  unfold State.exchangeTake
  extract_lets l credits t n u
  rw [if_neg (not_not.2 hSt), if_neg (show ¬ (x.host && !t.sec.bridgeEn) = true from hHost'),
    if_neg (show ¬ (bitOf l.ctrl.toNat 2 && !x.encOffer) = true from hEnc')]
  have hU : u = if x.nodeId = 31 then t else t.setFld Page.fabric (Reg.FB_PEER + 4 * x.nodeId.toNat) 0 8 x.bgen.toNat := by
    unfold u n
    simp only [hNode]
  rw [hU]

theorem State.link_reach (s : State) (t : W64) (q : Nat) : (s.reach t).link q = s.link q := by
  rw [State.reach_eq]
  rfl

/-- An EXCHANGE flit that is sent again says the same (R302). -/
theorem State.exchangePayload_resent (s : State) (p : Nat) (at_ : W64) :
    (s.setLink p { s.link p with exchAt := at_ }).exchangePayload p = s.exchangePayload p := by
  unfold State.exchangePayload
  dsimp only
  rw [State.link_setLink, if_pos rfl]
  rfl

end Sys2Proof.Machine

namespace Sys2Proof.Claims
open Machine

/-- Settles O29: bring-up by `linkEnable_of_off` and `exchangeTake_of_accepted`, key agreement by the checks of each packet. -/
theorem linksComeUp : Obligations.LinksComeUp := by
  refine ⟨fun s src p => ?_, fun s port p => ?_⟩
  · intro pg l
    refine ⟨fun hOn hSum hSt => ⟨congrArg Host.Outcome.next (State.linkEnable_of_off hOn hSum hSt), ?_⟩,
      fun hOn hSum => congrArg Host.Outcome.next (State.linkEnable_of_wide hOn hSum), fun hSt => ?_, fun fast swap inv hSt hFast => ?_,
      fun hSt => ?_, fun hSt => ?_, fun h x hSt hFec => ?_, fun x hSt hHost hEnc => ?_, fun hSt hEnabled hCause hOn => ?_,
      fun hHeld => ?_⟩
    · rw [State.link_startDetect, State.link_setLink, if_pos rfl]
      rfl
    · show execLinkDetectDone p s = _
      unfold execLinkDetectDone
      exact if_pos hSt
    · show execLinkTrainDone p fast swap inv s = _
      unfold execLinkTrainDone
      refine if_pos ⟨hSt, ?_⟩
      cases fast
      · rfl
      · obtain ⟨hCoeffs, hBit⟩ := hFast rfl
        rw [show (s.link p.val).coeffs = true from hCoeffs, show bitOf (s.link p.val).ctrl.toNat 0 = true from hBit]
        rfl
    · intro t
      show execLinkAlignDone p s = _
      unfold execLinkAlignDone
      exact if_pos hSt
    · intro t u
      have hUs : BitVec.ofNat 64 (usTb 1) = 256000 := by decide
      show execExchangeResend p s = _
      unfold execExchangeResend
      dsimp only
      rw [hUs, if_neg (not_not.2 hSt)]
      have hLink : t.link p.val = l := State.link_reach _ _ _
      have hU : (t.modLink p.val fun l => { l with exchAt := t.now }) = u := by
        rw [State.modLink, hLink]
      have hPayload : u.exchangePayload p.val = t.exchangePayload p.val := by
        rw [← hU]
        exact t.exchangePayload_resent p.val t.now
      rw [hPayload, ← hU]
    · have hControls : (s.link p.val).controls = true := by
        rw [Link.controls, hSt]
        rfl
      show Host.Outcome.next (s.goodControl p.val h fun s => s.exchangeTake p.val x) = _
      unfold State.goodControl
      rw [hControls, if_neg (by decide)]
      dsimp only
      rw [hFec, if_neg (by decide)]
    · intro credits t u
      have hTake : s.exchangeTake p.val x = if !x.ackSeen then u
          else if bitOf l.ctrl.toNat 1 && x.encOffer then (u.modLink p.val fun l => { l with st := 5, since := u.now }).sendOffer p.val
          else u.enterUp p.val := State.exchangeTake_of_accepted hSt hHost hEnc
      refine ⟨fun hSeen => ?_, fun hSeen hPlain => ?_, fun hSeen hOffer hPeer => ?_⟩
      · rw [hTake, if_pos (by rw [hSeen]; rfl)]
      · have hNot : ¬ (bitOf l.ctrl.toNat 1 && x.encOffer) = true := by
          rw [Bool.and_eq_true]
          rintro ⟨h1, h2⟩
          rcases hPlain with h | h
          · exact Bool.false_ne_true (h.symm.trans h1)
          · exact Bool.false_ne_true (h.symm.trans h2)
        rw [hTake, if_neg (by rw [hSeen]; decide), if_neg hNot]
      · rw [hTake, if_neg (by rw [hSeen]; decide), if_pos (by rw [hOffer, hPeer]; rfl)]
    · have hUs : BitVec.ofNat 64 (usTb 10) = 2560000 := by decide
      show execLinkRestart p s = _
      unfold execLinkRestart
      dsimp only
      rw [hUs]
      exact if_pos ⟨hSt, hEnabled, hCause, hOn⟩
    · intro t
      show execLinkControllerRelease s = _
      unfold execLinkControllerRelease
      rw [hHeld]
      rfl
  · intro i l key hSt
    refine ⟨fun hData hLen hWlen hZ => ?_, fun hOffer hMine hData hLen hWlen hZ => ?_, ?_, rfl⟩
    · show execKeyOffer port p s = _
      unfold execKeyOffer
      dsimp only
      rw [if_neg (not_not.2 hSt), if_neg (by simp [hData, hLen, hWlen, hZ])]
      split
      · rfl
      · rfl
    · show execKeyConfirm port p s = _
      unfold execKeyConfirm
      dsimp only
      rw [if_neg (by
        simp only [Option.isNone_iff_eq_none, List.isEmpty_iff]
        exact not_or.2 ⟨not_not.2 hSt, not_or.2 ⟨hOffer, hMine⟩⟩), if_neg (by simp [hData, hLen, hWlen, hZ])]
      split
      · rfl
      · rfl
    · have hUs : BitVec.ofNat 64 (usTb 2000) = 512000000 := by decide
      show execKeyingTimeout port s = _
      unfold execKeyingTimeout
      dsimp only
      rw [hUs]
      exact if_pos hSt

end Sys2Proof.Claims

/-! ### Flits, ACKs and replays (R303–R309) -/

namespace Sys2Proof.Machine
open Claims

variable {s : State} {p : Nat}

/-- The place of a flit in its codeword moves on, whatever the codeword (R303). -/
theorem State.link_fecFlit (s : State) (p errs : Nat) :
    ∃ pos bad, (s.fecFlit p errs).2.link p = { s.link p with rxPos := pos, rxBad := bad } := by
  refine ⟨((s.link p).rxPos + 1) % 5, if (s.link p).rxPos == 0 || (s.link p).rxPos == 2 then decide (15 < errs)
    else (s.link p).rxBad, ?_⟩
  unfold State.fecFlit
  dsimp only
  split
  · rw [State.link_setLink, if_pos rfl]
  · split
    · exact (State.link_setLink _ _ _ _).trans (if_pos rfl)
    · exact (State.link_setLink _ _ _ _).trans (if_pos rfl)

/-- The flit in which a codeword begins tells whether it can be corrected (R303). -/
theorem State.fecFlit_of_first {errs : Nat} (h : (s.link p).rxPos = 0) :
    s.fecFlit p errs = (decide (15 < errs),
      (s.setLink p { s.link p with rxPos := 1, rxBad := decide (15 < errs) }).count (Page.link p)
        (if 15 < errs then Reg.KL_FEC_UNCORR else Reg.KL_FEC_CORR) (if 15 < errs then 1 else errs)) := by
  unfold State.fecFlit
  dsimp only
  rw [h]
  by_cases hErrs : 15 < errs
  · simp [hErrs]
  · simp [hErrs]

theorem State.fecFlit_of_second {errs : Nat} (h : (s.link p).rxPos = 1) :
    s.fecFlit p errs = ((s.link p).rxBad, s.setLink p { s.link p with rxPos := 2 }) := by
  unfold State.fecFlit
  dsimp only
  rw [h]
  simp

theorem Link.controls_of_carries {l : Link} (h : l.carries = true) : l.controls = true := by
  rw [Link.controls, h, Bool.or_true]

/-- What comes before the first element with a key is dropped. -/
theorem dropWhile_ne_append {α β : Type} [BEq β] [LawfulBEq β] (f : α → β) (before after : List α) (e : α)
    (h : ∀ x ∈ before, f x ≠ f e) : (before ++ e :: after).dropWhile (fun x => f x != f e) = e :: after := by
  rw [List.dropWhile_append_of_pos (fun x hx => bne_iff_ne.2 (h x hx)), List.dropWhile_cons_of_neg]
  simp

/-- An ACK empties the retry buffer up to the flit it names (R306). -/
theorem State.takeAck_of_named {h : FlitHead} {before after : List (BitVec 12 × List Byte)} {e : BitVec 12 × List Byte}
    (hValid : h.ackValid = true) (hAck : h.ack = e.1) (hReplay : (s.link p).replay = before ++ e :: after)
    (hBefore : ∀ x ∈ before, x.1 ≠ e.1) :
    s.takeAck p h = s.setLink p { s.link p with
      replay := after, replays := 0, ackAt := s.now,
      credits := SMap.set (s.link p).credits h.creditVc.val
        (SMap.get (s.link p).credits h.creditVc.val 0 + h.creditCount.toNat) 0 } := by
  have hAny : (before ++ e :: after).any (fun x => x.1 == e.1) = true :=
    List.any_eq_true.2 ⟨e, by simp, beq_self_eq_true _⟩
  unfold State.takeAck
  dsimp only
  rw [hAck, hReplay, hValid, if_pos ⟨rfl, hAny⟩, dropWhile_ne_append Prod.fst before after e hBefore]
  rfl

theorem State.takeAck_of_none {h : FlitHead} (hValid : h.ackValid = false) :
    s.takeAck p h = s.setLink p { s.link p with
      credits := SMap.set (s.link p).credits h.creditVc.val
        (SMap.get (s.link p).credits h.creditVc.val 0 + h.creditCount.toNat) 0 } := by
  unfold State.takeAck
  dsimp only
  rw [hValid, if_neg fun h => Bool.false_ne_true h.1]

/-- The retry buffer is sent again from the flit that is named, and the port goes DOWN the 16th time (R306). -/
theorem State.replayFrom_of_named {before after : List (BitVec 12 × List Byte)} {e : BitVec 12 × List Byte}
    (hReplay : (s.link p).replay = before ++ e :: after) (hBefore : ∀ x ∈ before, x.1 ≠ e.1) :
    s.replayFrom p e.1 =
      let n := if (s.link p).replays ≠ 0 ∧ (s.link p).replaySeq = e.1 then (s.link p).replays + 1 else 1
      let t := ((e :: after).foldl (fun (s : State) x => s.control p 4 x.1.toNat)
        (s.setLink p { s.link p with replays := n, replaySeq := e.1, ackAt := s.now })).count (Page.link p) Reg.KL_REPLAY_COUNT
      if 16 ≤ n then t.goDown p .replay else t := by
  unfold State.replayFrom
  dsimp only
  rw [hReplay, dropWhile_ne_append Prod.fst before after e hBefore, if_neg (by rw [List.isEmpty_cons]; decide)]

/-- A CONTROL flit of a codeword that can be corrected (R303, R306). -/
theorem State.goodControl_of_good {h : FlitHead} {act : State → State} (hControls : (s.link p).controls = true)
    (hFec : (s.fecFlit p h.errs).1 = false) :
    s.goodControl p h act = act ((s.fecFlit p h.errs).2.takeAck p h) := by
  unfold State.goodControl
  rw [hControls, if_neg (by decide)]
  dsimp only
  rw [hFec, if_neg (by decide)]

/-! #### DATA and NULL flits -/

theorem State.takeFlit_of_bad {p : PortId} {f : List Byte} {errs : Nat} {data : Bool} (hCarries : (s.link p.val).carries = true)
    (hBad : (s.fecFlit p.val errs).1 = true) :
    s.takeFlit p f errs data = if data then (s.fecFlit p.val errs).2.nakOnce p.val else (s.fecFlit p.val errs).2 := by
  obtain ⟨pos, bad, hLink⟩ := s.link_fecFlit p.val errs
  have hStill : ((s.fecFlit p.val errs).2.link p.val).carries = true := by
    rw [hLink]
    exact hCarries
  unfold State.takeFlit
  dsimp only
  rw [Link.controls_of_carries hCarries, if_neg (by decide), hBad, if_pos rfl, hStill, Bool.and_true]

theorem State.takeFlit_of_crc {p : PortId} {f : List Byte} {errs : Nat} {data : Bool} (hCarries : (s.link p.val).carries = true)
    (hGood : (s.fecFlit p.val errs).1 = false) (hCrc : flitCrcOk f = false) :
    s.takeFlit p f errs data = if data then ((s.fecFlit p.val errs).2.count (Page.link p.val) Reg.KL_CRC_ERR).nakOnce p.val
      else (s.fecFlit p.val errs).2.count (Page.link p.val) Reg.KL_CRC_ERR := by
  obtain ⟨pos, bad, hLink⟩ := s.link_fecFlit p.val errs
  have hStill : (((s.fecFlit p.val errs).2.count (Page.link p.val) Reg.KL_CRC_ERR).link p.val).carries = true := by
    rw [State.link_count, hLink]
    exact hCarries
  unfold State.takeFlit
  dsimp only
  rw [Link.controls_of_carries hCarries, if_neg (by decide), hGood, if_neg (by decide), hCrc, if_pos (by decide), hStill, Bool.and_true]

theorem State.takeFlit_of_data {p : PortId} {f : List Byte} {errs : Nat} (hCarries : (s.link p.val).carries = true)
    (hGood : (s.fecFlit p.val errs).1 = false) (hCrc : flitCrcOk f = true) (hType : flitField f 0 4 = 1) :
    s.takeFlit p f errs true = if flitField f 12 12 = (s.link p.val).rxSeq.toNat then
      ((s.fecFlit p.val errs).2.takeAck p.val (headOf f errs)).takeData p f
      else (s.fecFlit p.val errs).2.nakOnce p.val := by
  obtain ⟨pos, bad, hLink⟩ := s.link_fecFlit p.val errs
  have hStill : ((s.fecFlit p.val errs).2.link p.val).carries = true := by
    rw [hLink]
    exact hCarries
  have hSeq : ((s.fecFlit p.val errs).2.link p.val).rxSeq = (s.link p.val).rxSeq := by rw [hLink]
  unfold State.takeFlit
  dsimp only
  rw [Link.controls_of_carries hCarries, if_neg (by decide), hGood, if_neg (by decide), hCrc, if_neg (by decide), hType]
  change (if (!((s.fecFlit p.val errs).2.link p.val).carries) = true then (s.fecFlit p.val errs).2
    else if flitField f 12 12 = ((s.fecFlit p.val errs).2.link p.val).rxSeq.toNat then
      ((s.fecFlit p.val errs).2.takeAck p.val (headOf f errs)).takeData p f
    else (s.fecFlit p.val errs).2.nakOnce p.val) = _
  rw [hStill, if_neg (by decide), hSeq]

theorem State.takeFlit_of_null {p : PortId} {f : List Byte} {errs : Nat} {data : Bool} (hCarries : (s.link p.val).carries = true)
    (hGood : (s.fecFlit p.val errs).1 = false) (hCrc : flitCrcOk f = true) (hType : flitField f 0 4 = 0) :
    s.takeFlit p f errs data = (s.fecFlit p.val errs).2.takeAck p.val (headOf f errs) := by
  unfold State.takeFlit
  dsimp only
  rw [Link.controls_of_carries hCarries, if_neg (by decide), hGood, if_neg (by decide), hCrc, if_neg (by decide), hType]
  rfl

end Sys2Proof.Machine

namespace Sys2Proof.Claims
open Machine

/-- Settles O31: a codeword by `fecFlit_of_first` and `_of_second`, a flit by the case of `takeFlit`, a replay by
`replayFrom_of_named`. -/
theorem flitsAreRetried : Obligations.FlitsAreRetried := by
  intro s p f errs l pg g u hCarries
  refine ⟨fun h => ?_, fun h => ?_, fun h => ⟨congrArg Host.Outcome.next (State.takeFlit_of_bad (data := true) hCarries h),
      congrArg Host.Outcome.next (State.takeFlit_of_bad (data := false) hCarries h)⟩,
    fun h hCrc => ⟨congrArg Host.Outcome.next (State.takeFlit_of_crc (data := true) hCarries h hCrc),
      congrArg Host.Outcome.next (State.takeFlit_of_crc (data := false) hCarries h hCrc)⟩,
    fun h hCrc hType => ⟨fun hSeq => ?_, fun hSeq => ?_⟩,
    fun h hCrc hType => congrArg Host.Outcome.next (State.takeFlit_of_null hCarries h hCrc hType), rfl,
    fun h hValid => State.takeAck_of_none hValid,
    fun h before after e hValid hAck hReplay hBefore => State.takeAck_of_named hValid hAck hReplay hBefore,
    fun h seq hFec => ?_, fun before after e hReplay hBefore => ?_⟩
  · have hg : g = _ := State.fecFlit_of_first h
    exact ⟨congrArg Prod.fst hg, congrArg Prod.snd hg⟩
  · have hg : g = _ := State.fecFlit_of_second h
    exact ⟨congrArg Prod.fst hg, congrArg Prod.snd hg⟩
  · exact congrArg Host.Outcome.next ((State.takeFlit_of_data hCarries h hCrc hType).trans (if_pos hSeq))
  · exact congrArg Host.Outcome.next ((State.takeFlit_of_data hCarries h hCrc hType).trans (if_neg hSeq))
  · exact congrArg Host.Outcome.next (State.goodControl_of_good (Link.controls_of_carries hCarries) hFec)
  · intro n t
    have hReplayed : s.replayFrom p.val e.1 = if 16 ≤ n then t.goDown p.val .replay else t :=
      State.replayFrom_of_named hReplay hBefore
    refine ⟨fun hn => hReplayed.trans (if_neg (by omega)), fun hn => hReplayed.trans (if_pos hn), fun hNil => ?_⟩
    have hUs : BitVec.ofNat 64 (usTb 2) = 512000 := by decide
    show execReplayTimeout p s = _
    unfold execReplayTimeout
    rw [hUs]
    dsimp only
    rw [show (s.link p.val).replay = e :: after by rw [hReplay, hNil, List.nil_append]]
    exact if_pos hCarries

end Sys2Proof.Claims

/-! ### Packets on their way (R315, R322, R330) -/

namespace Sys2Proof.Machine
open Claims

variable {s : State} {port vc : Nat} {p : Packet}

/-- A malformed packet is counted, and answered where it is for this device (R315). -/
theorem State.arrive_of_malformed (hUp : (s.link port).st = 6) (hEnc : (s.link port).encOn = false) (hMal : malformed vc p = true) :
    (s.arrive port vc p).2 = if p.dst.toNat = s.node then (s.count (Page.link port) Reg.KL_MALFORMED).refuse p 0x0E
      else s.count (Page.link port) Reg.KL_MALFORMED := by
  unfold State.arrive
  simp only [hUp, hEnc, hMal, ne_eq, not_true, false_and, Bool.false_eq_true, if_false, if_true]

theorem State.arrive_of_old (hUp : (s.link port).st = 6) (hEnc : (s.link port).encOn = false) (hMal : malformed vc p = false)
    (hGen : s.genMismatch p = true) : (s.arrive port vc p).2 = s.genDrop p := by
  unfold State.arrive
  simp [hUp, hEnc, hMal, hGen]

theorem State.arrive_of_last_hop (hUp : (s.link port).st = 6) (hEnc : (s.link port).encOn = false) (hMal : malformed vc p = false)
    (hGen : s.genMismatch p = false) (hKnown : s.fab.known.contains p.src.toNat = true) (hHops : p.hops = 31) :
    (s.arrive port vc p).2 = s.count Page.fabric Reg.FB_ROUTE_DROP := by
  have hHops' : p.hops = 31#5 := hHops
  unfold State.arrive
  simp [hUp, hEnc, hMal, hGen, State.learn_of_known (.inr hKnown), hHops']

/-- A packet for another node goes on (R322). -/
theorem State.arrive_of_passing (h : Passes s port vc p) (hHop : hopOnly p.ttype.toNat = false) (hDst : p.dst ≠ 31)
    (hNode : p.dst.toNat ≠ s.node) (hEnum : s.fab.enumerated = true) (hType : p.ttype ≠ 0x56) :
    (s.arrive port vc p).2 = s.forward vc p := by
  obtain ⟨hUp, hEnc, hMal, hGen, hKnown, hHops⟩ := h
  have hHops' : p.hops ≠ 31#5 := hHops
  have hDst' : p.dst ≠ 31#5 := hDst
  have hType' : p.ttype.toNat ≠ 0x56 := fun e => hType (BitVec.eq_of_toNat_eq e)
  unfold State.arrive
  simp [hUp, hEnc, hMal, hGen, State.learn_of_known hKnown, hHops', hHop, hDst', hNode, hEnum, hType']

/-- A request that is answered has no place in a broadcast (R316). -/
theorem State.arrive_of_request_to_all (h : Passes s port vc p) (hHop : hopOnly p.ttype.toNat = false)
    (hRsp : responseType p.ttype.toNat ≠ none) (hDst : p.dst = 31) : (s.arrive port vc p).2 = s.refuse p 0x0D := by
  obtain ⟨hUp, hEnc, hMal, hGen, hKnown, hHops⟩ := h
  have hHops' : p.hops ≠ 31#5 := hHops
  have hSome : (responseType p.ttype.toNat).isSome = true := Option.isSome_iff_ne_none.2 hRsp
  unfold State.arrive
  simp [hUp, hEnc, hMal, hGen, State.learn_of_known hKnown, hHops', hHop, hDst, hSome]

/-- A packet copied to the ports of a list that are UP and did not bring it. -/
theorem State.out_copies (l : List Nat) (s : State) (arrived vc : Nat) (p : Packet) :
    (l.foldl (fun (s : State) k => if k ≠ arrived ∧ s.linkUp k then s.emit k vc { p with hops := p.hops + 1 } else s) s).fab.out =
      s.fab.out ++ (l.filter fun k => decide (k ≠ arrived) && s.linkUp k).map fun k =>
        ⟨k, vc, { p with hops := p.hops + 1, enc := (s.link k).encOn }⟩ := by
  induction l generalizing s with
  | nil => simp
  | cons k l ih =>
    rw [List.foldl_cons, ih]
    by_cases hk : k ≠ arrived ∧ s.linkUp k = true
    · rw [if_pos hk, List.filter_cons_of_pos (by simp [hk])]
      show (s.fab.out ++ [_]) ++ _ = _
      rw [List.append_assoc]
      rfl
    · rw [if_neg hk, List.filter_cons_of_neg (by simpa using hk)]

end Sys2Proof.Machine

namespace Sys2Proof.Claims
open Machine

/-- Settles O32: each way of a packet through `arrive`, and the copies of a broadcast by `out_copies`. -/
theorem packetsForwarded : Obligations.PacketsForwarded := by
  intro s port vc p
  refine ⟨fun hUp hEnc hMal hNode => ?_, fun hUp hEnc hMal hNode => ?_,
    fun hUp hEnc hMal hGen => congrArg Host.Outcome.next (State.arrive_of_old hUp hEnc hMal hGen),
    fun hUp hEnc hMal hGen hKnown hHops => congrArg Host.Outcome.next (State.arrive_of_last_hop hUp hEnc hMal hGen hKnown hHops),
    fun h hHop hDst hNode hEnum hType => ?_,
    fun h hHop hRsp hDst => congrArg Host.Outcome.next (State.arrive_of_request_to_all h hHop hRsp hDst),
    fun h => ⟨congrArg Host.Outcome.next (congrArg Prod.snd (State.arrive_of_all h)), ?_⟩⟩
  · exact congrArg Host.Outcome.next ((State.arrive_of_malformed hUp hEnc hMal).trans (if_neg hNode))
  · exact congrArg Host.Outcome.next ((State.arrive_of_malformed hUp hEnc hMal).trans (if_pos hNode))
  · intro r
    have hForward : exec (.packetForward port vc p) s = .next (s.forward vc.val p) :=
      congrArg Host.Outcome.next (State.arrive_of_passing h hHop hDst hNode hEnum hType)
    refine ⟨fun hr => ?_, fun hr => ?_⟩
    · rw [hForward, State.forward]
      exact congrArg Host.Outcome.next (if_pos (by simpa using hr))
    · rw [hForward, State.forward]
      exact congrArg Host.Outcome.next (if_neg (by simpa using hr))
  · exact State.out_copies [0, 1, 2, 3] s port.val vc.val p

end Sys2Proof.Claims

/-! ### Requests and responses for this device (R312–R314, R317) -/

namespace Sys2Proof.Machine
open Claims

variable {s : State} {port vc : Nat} {p : Packet}

/-- After READY a packet for this device is delivered as it stands. -/
theorem State.arrive_of_delivered (h : Delivered s port vc p) : s.arrive port vc p = (.deliver, s) := by
  obtain ⟨⟨hUp, hEnc, hMal, hGen, hKnown, hHops⟩, hHop, hDst, hNode, hBoot⟩ := h
  have hHops' : p.hops ≠ 31#5 := hHops
  have hDst' : p.dst ≠ 31#5 := hDst
  have hBoot' : s.bootDenies p = false := by simp [State.bootDenies, hBoot]
  unfold State.arrive
  simp [hUp, hEnc, hMal, hGen, State.learn_of_known hKnown, hHops', hHop, hDst', hNode, hBoot']

theorem State.serveRead_of_request (who : Requester) {vc : Nat} (hVc : vc ≠ 7) (src a n : Nat) :
    s.serveRead who vc src a n = s.busRead who vc a n := if_neg (by simp [hVc])

theorem State.answerRead_of_request {vc : Nat} (hVc : vc ≠ 7) (p : Packet) :
    s.answerRead vc p =
      let r := s.busRead (requesterOf p) vc p.addr.toNat p.operand.toNat
      r.2.2.respond p 0x20 r.1 0 (if r.1 = 0 then r.2.1 else []) := by
  unfold State.answerRead
  rw [State.serveRead_of_request _ hVc]

/-- A response for an outstanding transaction ends it, and its core goes on. -/
theorem State.takeResponse_of_delivered {t : Nat} {x : Tag}
    (h : Delivered s port vc { p with ttype := BitVec.ofNat 8 t }) (hTag : s.tag p.tag.toNat = some x) :
    s.takeResponse port vc t p =
      let ended := s.txnReply p.tag.toNat (completionCode p.status) p.operand p.data
      x.core.elim ended fun c => ended.settle c.val := by
  unfold State.takeResponse
  dsimp only
  rw [State.arrive_of_delivered h]
  dsimp only
  rw [hTag]
  dsimp only
  cases x.core
  · rw [Option.elim_none]
  · rw [Option.elim_some]

/-- A withdrawal is answered by 0 or 1. -/
theorem State.semCancel_le_one (s : State) (n node tag : Nat) : (s.semCancel n node tag).1 ≤ 1 := by
  unfold State.semCancel
  dsimp only
  split
  · exact Nat.zero_le 1
  · exact Nat.le_refl 1

theorem State.semWait_of_allowed {n count : Nat} (req : Packet) (hCount : count ≤ (s.sem n).toNat)
    (hOlder : (s.fab.waits.any fun w => w.sem == n) = false) : s.semWait n count req = (0, s.grant ⟨n, count, req⟩) := by
  unfold State.semWait
  rw [if_pos (by simp [hCount, hOlder])]

theorem State.semWait_behind {n : Nat} (count : Nat) (req : Packet)
    (hOlder : (s.fab.waits.any fun w => w.sem == n) = true) (hRoom : s.fab.waits.length < 4096) :
    s.semWait n count req = (0, { s with fab := { s.fab with waits := s.fab.waits ++ [⟨n, count, req⟩] } }) := by
  unfold State.semWait
  rw [if_neg (by simp only [hOlder, Bool.not_true, Bool.and_false, Bool.false_eq_true, not_false_eq_true]), if_pos hRoom]

end Sys2Proof.Machine

namespace Sys2Proof.Claims
open Machine

/-- Settles O33: a delivered request is performed for its requester by definition; what is left is which requests a management packet
may make. -/
theorem requestsAnswered : Obligations.RequestsAnswered := by
  intro s port vc p as who a
  refine ⟨fun h hVc => ?_, ?_, fun h => ?_, fun h => ?_, fun h => ?_, fun h hSrc hRegs => ?_, fun h hSrc hRegs => ?_, fun h hSrc => ?_,
    fun h => congrArg Host.Outcome.next (congrArg Prod.snd (State.arrive_of_delivered h))⟩
  · show execRead port vc p s = _
    unfold execRead
    dsimp only
    rw [State.arrive_of_delivered h]
    exact congrArg Host.Outcome.next (State.answerRead_of_request hVc _)
  · intro w h
    show execStateDebugRead port vc p s = _
    unfold execStateDebugRead
    dsimp only
    rw [State.arrive_of_delivered h]
  · show execWrite port vc p s = _
    unfold execWrite
    dsimp only
    rw [State.arrive_of_delivered h]
    rfl
  · show execAtomicAdd port vc p s = _
    unfold execAtomicAdd
    dsimp only
    rw [State.arrive_of_delivered h]
    rfl
  · show execAtomicCas port vc p s = _
    unfold execAtomicCas
    dsimp only
    rw [State.arrive_of_delivered h]
    rfl
  · obtain ⟨page, off, hRegs⟩ := hRegs
    show execMgmtRead port vc p s = _
    unfold execMgmtRead
    dsimp only
    rw [State.arrive_of_delivered h]
    dsimp only
    rw [show regionOf p.addr.toNat = .regs page off from hRegs]
    dsimp only
    rw [if_pos (by rw [hSrc]; rfl)]
  · obtain ⟨page, off, hRegs⟩ := hRegs
    show execMgmtWrite port vc p s = _
    unfold execMgmtWrite
    dsimp only
    rw [State.arrive_of_delivered h]
    dsimp only
    rw [show regionOf p.addr.toNat = .regs page off from hRegs]
    dsimp only
    rw [if_pos (by rw [hSrc]; rfl)]
  · show execMgmtRead port vc p s = _
    unfold execMgmtRead
    dsimp only
    rw [State.arrive_of_delivered h]
    dsimp only
    rw [if_neg (by rw [beq_eq_false_iff_ne.2 hSrc, Bool.false_and]; exact Bool.false_ne_true)]
    rfl

/-- Settles O35: a delivered semaphore packet, push or response is performed by definition, a wait by its two cases. -/
theorem semaphoresPushesAndResponses : Obligations.SemaphoresPushesAndResponses := by
  refine ⟨fun s port vc p n => ?_, fun s port vc p x => ?_⟩
  · intro as
    refine ⟨fun hSem => ⟨fun h => ?_, fun h => ⟨fun hCount hOlder => ?_, fun hOlder hRoom => ?_⟩, fun h => ?_⟩, fun h => ⟨fun l hData => ?_, fun hData => ?_⟩⟩
    · show execSemSignal port vc p s = _
      unfold execSemSignal
      dsimp only
      rw [State.arrive_of_delivered h]
      dsimp only
      rw [hSem]
      rfl
    · show execSemWait port vc p s = _
      unfold execSemWait
      dsimp only
      rw [State.arrive_of_delivered h]
      dsimp only
      rw [hSem]
      exact congrArg (fun r : Nat × State => Host.Outcome.next r.2) (State.semWait_of_allowed _ hCount hOlder)
    · show execSemWait port vc p s = _
      unfold execSemWait
      dsimp only
      rw [State.arrive_of_delivered h]
      dsimp only
      rw [hSem]
      exact congrArg (fun r : Nat × State => Host.Outcome.next r.2) (State.semWait_behind _ _ hOlder hRoom)
    · refine ⟨?_, State.semCancel_le_one _ _ _ _⟩
      show execSemCancel port vc p s = _
      unfold execSemCancel
      dsimp only
      rw [State.arrive_of_delivered h]
      dsimp only
      rw [hSem]
      rfl
    · have hPush : execQpush port vc p s = .next (match (s.pushFor p.addr.toNat p.src.toNat false l (some (as 0x17))).1 with
          | some st => (s.pushFor p.addr.toNat p.src.toNat false l (some (as 0x17))).2.respond (as 0x17) 0x21 st 0 []
          | none => (s.pushFor p.addr.toNat p.src.toNat false l (some (as 0x17))).2) := by
        unfold execQpush
        dsimp only
        rw [State.arrive_of_delivered h]
        dsimp only
        rw [hData] <;> rfl
      refine ⟨fun hr => hPush.trans ?_, fun st hr => hPush.trans ?_⟩ <;> rw [hr]
    · show execQpush port vc p s = _
      unfold execQpush
      dsimp only
      rw [State.arrive_of_delivered h]
      dsimp only
      rw [hData]
  · intro as ended t hTag
    have ht : x.core.elim ended (fun c => ended.settle c.val) = t := by
      unfold t
      cases x.core
      · rw [Option.elim_none]
      · rw [Option.elim_some]
    have hTaken {ty : Nat} (h : Delivered s port.val vc.val { p with ttype := BitVec.ofNat 8 ty }) :
        Host.Outcome.next (s.takeResponse port.val vc.val ty p) = (.next t : Host.Outcome State Fault Refusal) :=
      congrArg Host.Outcome.next ((State.takeResponse_of_delivered h hTag).trans ht)
    exact ⟨fun h => hTaken h, fun h => hTaken h, fun h => hTaken h, fun h => hTaken h⟩

end Sys2Proof.Claims

/-! ### Queues, vectors and completion records (R339–R347, R354, R355) -/

namespace Sys2Proof.Machine
open Claims

/-- `t` has the queue manager and the node ID of `s`: what a memory access leaves. -/
def QueuesStay (s t : State) : Prop := t.qm = s.qm ∧ t.node = s.node

namespace QueuesStay

variable {s t u : State}

theorem refl (s : State) : QueuesStay s s := ⟨rfl, rfl⟩

theorem trans (a : QueuesStay s t) (b : QueuesStay t u) : QueuesStay s u := ⟨b.1.trans a.1, b.2.trans a.2⟩

theorem beside (h : QueuesStay s t) (b : Beside t u) : QueuesStay s u := h.trans ⟨b.qm, b.node⟩

theorem ite {c : Prop} [Decidable c] (a : QueuesStay s t) (b : QueuesStay s u) : QueuesStay s (if c then t else u) := by
  split
  · exact a
  · exact b

theorem snd {α : Type} {r : α × State} {a : α} (h : QueuesStay s r.2) (e : r = (a, t)) : QueuesStay s t := by
  rw [e] at h
  exact h

theorem queue (h : QueuesStay s t) (q : Nat) : t.queue q = s.queue q := by
  rw [State.queue, h.1, State.queue]

theorem raiseMech {m : Nat} {ctx : Option Nat} (h : QueuesStay s t) (hm : m < 32) : QueuesStay s (t.raiseMech m ctx) := by
  refine h.trans ?_
  have hBeside := t.raiseMech_beside hm (ctx := ctx)
  unfold BesideSafety at hBeside
  rw [hBeside]
  exact ⟨rfl, rfl⟩

theorem unitRead {i : Nat} {who : Requester} (h : QueuesStay s t) : QueuesStay s (t.unitRead i who).2 := by
  unfold State.unitRead
  extract_lets a
  split
  · exact raiseMech (t := (a.countFld _ _ _ _ _).setReg64 _ _ _ _) h (by decide)
  · exact h

theorem evict {set w : Nat} (h : QueuesStay s t) : QueuesStay s (t.evict set w) := by
  unfold State.evict
  split
  · exact h
  · split
    · exact h
    · exact h

theorem cacheServe {who : Requester} {write : Bool} {a len mask : Nat} {data : List Byte} (h : QueuesStay s t) :
    QueuesStay s (t.cacheServe who write a len data mask).2.2 := by
  unfold State.cacheServe
  extract_lets _ _ _ b d whole
  have hd : QueuesStay s d := h
  split
  · exact h
  · split
    · split
      · exact h
      · split
        · exact h
        · exact h
    · split
      next got e heq =>
        have he : QueuesStay s e := by
          split at heq
          · exact snd (r := (some data, d)) hd heq
          · exact hd.unitRead.snd heq
        split
        · exact he
        · extract_lets new
          split
          · split
            · exact he
            · exact he
          · exact he.evict

theorem writePiece {who : Requester} {a : Nat} {l : List Byte} (h : QueuesStay s t) : QueuesStay s (t.writePiece who a l).2 := by
  unfold State.writePiece
  extract_lets r
  have hr : QueuesStay s r.2.2 := h.cacheServe
  split
  · exact hr
  · split
    · exact h
    · exact h
  · exact h

theorem writeSpan {who : Requester} {a : Nat} {l : List Byte} (h : QueuesStay s t) : QueuesStay s (t.writeSpan who a l).2 :=
  List.foldlRecOn (motive := fun r : Nat × State => QueuesStay s r.2) (pieces a l.length) _ h fun _ h _ _ => h.writePiece

end QueuesStay

/-- A vector's signal reaches no queue, whatever number the queue gives for its vector. -/
theorem Beside.fireVector {s t : State} {v : Nat} (h : Beside s t) : Beside s (t.fireVector v) := by
  unfold State.fireVector
  exact ite h.count.setFlag (ite (h.count.trans (Reports.refl _).writeRemote.beside) h.count.count)

theorem State.unsig_fireQueue (s : State) (q : Nat) : ((s.fireQueue q).queue q).unsig = 0 := by
  rw [State.fireQueue, ((Beside.refl _).fireVector).queue, State.modQueue, State.queue_setQueue, if_pos rfl]

/-- A slot of this device's memory is written at once, and PI advances (R340). -/
theorem State.writeSlotOf_here {s : State} {q : Nat} {answer : Option Packet} {bytes : Nat → List Byte}
    (hOut : s.slotsOut q = 0) (hValid : (s.queue q).valid = true)
    (hHere : nodeOf ((s.queue q).slotAddr (s.queue q).pi.toNat) = s.node) :
    (s.writeSlotOf q false answer bytes).2 =
      ((s.writeSpan .sys (localOf ((s.queue q).slotAddr (s.queue q).pi.toNat)) (bytes (s.queue q).pi.toNat)).2.modQueue q
        fun y => { y with pi := y.pi + 1 }).noteEntry q := by
  have hValid' (l : List Byte) (a : Nat) : ((s.writeSpan .sys a l).2.queue q).valid = true := by
    rw [(QueuesStay.refl s).writeSpan.queue, hValid]
  unfold State.writeSlotOf
  dsimp only
  rw [hOut, Nat.add_zero, if_pos hHere]
  unfold State.slotDone
  rw [if_neg (by rw [hValid' _ _]; exact Bool.false_ne_true)]
  rfl

/-- A doorbell of a queue that it may move is held against the ring's length (R342). -/
theorem State.doorbell_of_passed {s : State} {src q : Nat} {v : W64} (hValid : (s.queue q).valid = true)
    (hHost : (s.queue q).hostOnly = true → src = 0) (hIdx : v.toNat < 2 ^ 32) (hType : (s.queue q).qtype ≠ 2) :
    (s.doorbell src q v).2 =
      let x := s.queue q
      let idx : W32 := v.setWidth 32
      let bad := (s.count Page.queueMgr Reg.QM_DB_ERR_COUNT).setFlag Page.queueMgr Reg.QM_FLAGS 2 true
      if x.qtype = 0 then
        if (idx - x.pi).toNat ≤ x.entries ∧ (idx - x.ci).toNat ≤ x.entries then s.setQueue q { x with pi := idx } else bad
      else if (idx - x.ci).toNat ≤ x.entries ∧ (x.pi - idx).toNat ≤ x.entries then s.setQueue q { x with ci := idx } else bad := by
  have hMay : ¬ ((!(s.queue q).valid || ((s.queue q).hostOnly && decide (src ≠ 0))) = true) := by
    cases hh : (s.queue q).hostOnly
    · simp [hValid]
    · simp [hValid, hHost hh]
  have hCheck : ¬ ((decide ((s.queue q).qtype = 2) || decide (v.toNat / 2 ^ 32 ≠ 0)) = true) := by
    rw [Nat.div_eq_of_lt hIdx, decide_eq_false hType]
    exact Bool.false_ne_true
  unfold State.doorbell
  dsimp only
  rw [if_neg hMay, if_neg hCheck]
  split
  · split
    · rfl
    · rfl
  · split
    · rfl
    · rfl

/-- The two admin queues as an enable allocates them (R341). -/
theorem State.queue_admin (s : State) (x y : Queue) (p o i : Nat) (b : Bool) :
    let t := ((s.setQueue 0 x).setQueue 1 y).setFlag p o i b
    t.queue 0 = x ∧ t.queue 1 = y ∧ ∀ j, 2 ≤ j → t.queue j = s.queue j := by
  intro t
  have hQueue (j : Nat) : t.queue j = if j = 1 then y else if j = 0 then x else s.queue j :=
    (State.queue_setQueue _ _ _ _).trans (congrArg (ite _ _) (State.queue_setQueue _ _ _ _))
  refine ⟨(hQueue 0).trans rfl, (hQueue 1).trans rfl, fun j hj => ?_⟩
  rw [hQueue, if_neg (by omega), if_neg (by omega)]

end Sys2Proof.Machine

namespace Sys2Proof.Claims
open Machine

/-- Settles O38: the doorbell and the completion by the cases of their checks; the queue manager is no part of what a memory access or a
vector's signal changes. -/
theorem queuesKeepTheirIndices : Obligations.QueuesKeepTheirIndices := by
  intro s src q v x idx
  refine ⟨fun hValid hHost hIdx hType => ?_, fun hValid hHost hIdx hType hCi hPi => ?_, fun hValid => ?_,
    fun hFires => ⟨if_pos hFires, State.unsig_fireQueue s q.val⟩, fun hValid hIrq hUs t hFirst => ?_, fun c hDone hValid => ?_,
    fun i => rfl, fun w hOff hOn => ?_⟩
  · have hBell := State.doorbell_of_passed hValid hHost hIdx (by rw [hType]; decide)
    rw [if_pos hType] at hBell
    exact ⟨fun hPi hCi => congrArg Host.Outcome.next (hBell.trans (if_pos ⟨hPi, hCi⟩)),
      fun hFar => congrArg Host.Outcome.next (hBell.trans (if_neg fun h => Nat.not_le.2 hFar h.2))⟩
  · have hPushed : x.qtype ≠ 2 := by omega
    have hRead : x.qtype ≠ 0 := by omega
    have hBell := State.doorbell_of_passed hValid hHost hIdx hPushed
    rw [if_neg hRead] at hBell
    exact congrArg Host.Outcome.next (hBell.trans (if_pos ⟨hCi, hPi⟩))
  · show Host.Outcome.next (s.doorbell src.val q.val v).2 = _
    unfold State.doorbell
    dsimp only
    rw [if_pos (by rw [show (s.queue q.val).valid = false from hValid]; rfl)]
  · have hAt : x.firesAt = some (t + BitVec.ofNat 64 (x.coalUs * 256000)) := by
      unfold Queue.firesAt
      rw [if_pos (by simp [hValid, hIrq, hUs]), hFirst]
      rfl
    show execCoalesceTimeout q s = _
    unfold execCoalesceTimeout
    rw [hAt]
  · have hExec : exec (.completionWrite q) s = if s.noRoom c.cq then .next (s.setFlag Page.queueMgr Reg.QM_FLAGS 0 true) else
        .next ({ s with qm := { s.qm with done := s.qm.done.erase c } }.writeSlotOf c.cq false none
          fun i => completionBytes c ((s.queue c.cq).phase i)).2 := by
      show execCompletionWrite q s = _
      unfold execCompletionWrite
      rw [hDone]
      dsimp only
      rw [if_neg (by rw [hValid]; exact Bool.false_ne_true)]
    refine ⟨fun hFull => hExec.trans (if_pos hFull), fun hRoom => ?_⟩
    have hNot : ¬ s.noRoom c.cq = true := by rw [hRoom]; exact Bool.false_ne_true
    intro t
    refine ⟨hExec.trans (if_neg hNot), fun hOut hHere => (hExec.trans (if_neg hNot)).trans ?_⟩
    exact congrArg Host.Outcome.next (State.writeSlotOf_here (s := t) hOut hValid hHere)
  · intro shape sq cq hLs hLs' hLc hLc' hSq hCq
    have hOn' : bitOf w.toNat 0 = true := by
      rw [BitVec.getLsbD, Nat.testBit_eq_decide_div_mod_eq] at hOn
      simpa [bitOf] using hOn
    have hEnable : exec (.qmAdminEnable src w) s = .next (((s.setQueue 0
        { valid := true, qtype := 0, hostOnly := true, log2 := bitsOf shape 0 5, esize16 := 3, cq := 1, ringAddr := sq }).setQueue 1
        { valid := true, qtype := 1, hostOnly := true, log2 := bitsOf shape 8 5, esize16 := 1, ringAddr := cq,
          vec := bitsOf shape 16 7, irqEn := bitOf shape 23, coalCount := bitsOf shape 24 8 }).setFlag
        Page.queueMgr Reg.QM_ADMIN_CTRL 0 true) := by
      show Host.Outcome.next (s.adminEnable src.val w) = _
      unfold State.adminEnable
      dsimp only
      rw [if_neg (by rw [hOff]; exact Bool.false_ne_true), if_neg (by rw [hOn']; exact Bool.noConfusion),
        if_pos ⟨hLs, hLs', hLc, hLc', hSq, hCq⟩]
    have hQueues := State.queue_admin s
        { valid := true, qtype := 0, hostOnly := true, log2 := bitsOf shape 0 5, esize16 := 3, cq := 1, ringAddr := sq }
        { valid := true, qtype := 1, hostOnly := true, log2 := bitsOf shape 8 5, esize16 := 1, ringAddr := cq,
          vec := bitsOf shape 16 7, irqEn := bitOf shape 23, coalCount := bitsOf shape 24 8 } Page.queueMgr Reg.QM_ADMIN_CTRL 0 true
    obtain ⟨h0, h1, hRest⟩ := hQueues
    refine ⟨_, hEnable, State.flag_setFlag_same (by decide) true, ?_⟩
    rw [h0, h1]
    exact ⟨rfl, rfl, rfl, rfl, rfl, rfl, rfl, rfl, rfl, rfl, rfl, rfl, hRest⟩

end Sys2Proof.Claims

/-! ### Commands (R345–R348, R373): their common checks, and the register and queue commands -/

namespace Sys2Proof.Machine
open Claims

variable {s : State} {c : CmdSlot} {op : Nat} {used : List (Nat × Nat)} {body : State → State}

theorem State.command_of_waiting (h : s.startable c = false) : s.command c op used body = s := by
  unfold State.command
  rw [if_pos (by rw [h]; rfl)]

theorem State.command_of_startable (h : s.startable c = true) :
    s.command c op used body = if s.safety.safe && op != 1 && op != 0x60 then completed s c op 0x13 0 0
      else if c.reserved used then completed s c op 0x0E 0 0 else body (s.flight c op) := by
  unfold State.command
  rw [if_neg (by rw [h]; exact Bool.false_ne_true)]
  rfl

/-- A command whose checks pass does its work in flight (R346). -/
theorem State.command_of_starts (h : Starts s c used) : s.command c op used body = body (s.flight c op) := by
  obtain ⟨hStart, hSafe, hRsvd⟩ := h
  rw [State.command_of_startable hStart, if_neg (by rw [hSafe]; exact Bool.false_ne_true),
    if_neg (by rw [hRsvd]; exact Bool.false_ne_true)]

/-- REG_READ and DUMP run in safe state as well (R373). -/
theorem State.command_in_safe_state (hStart : s.startable c = true) (hRsvd : c.reserved used = false) (hOp : op = 1 ∨ op = 0x60) :
    s.command c op used body = body (s.flight c op) := by
  have hOpen : ¬ (s.safety.safe && op != 1 && op != 0x60) = true := by
    obtain rfl | rfl := hOp
    · rw [bne_self_eq_false, Bool.and_false, Bool.false_and]
      exact Bool.false_ne_true
    · rw [bne_self_eq_false, Bool.and_false]
      exact Bool.false_ne_true
  rw [State.command_of_startable hStart, if_neg hOpen, if_neg (by rw [hRsvd]; exact Bool.false_ne_true)]

theorem State.cmdReg_flight (s : State) (c : CmdSlot) (op a n : Nat) : (s.flight c op).cmdReg a n = s.cmdReg a n := rfl

theorem State.regDenied_flight (s : State) (c : CmdSlot) (op : Nat) (link : Bool) (src page off len : Nat) :
    (s.flight c op).regDenied link src page off len = s.regDenied link src page off len := rfl

theorem State.newQueueOk_flight (s : State) (c : CmdSlot) (op : Nat) (d : CmdSlot) : (s.flight c op).newQueueOk d = s.newQueueOk d := rfl

theorem State.freeQueue_flight (s : State) (c : CmdSlot) (op : Nat) : (s.flight c op).freeQueue = s.freeQueue := rfl

theorem State.queue_flight (s : State) (c : CmdSlot) (op q : Nat) : (s.flight c op).queue q = s.queue q := rfl

theorem State.queueBound_flight (s : State) (c : CmdSlot) (op q : Nat) : (s.flight c op).queueBound q = s.queueBound q := rfl

/-- A command that completes leaves its record and is in flight no more (R347). -/
theorem State.completed_record (s : State) (c : CmdSlot) {op : Nat} (status r0 r1 : Nat) :
    ∃ x, (completed s c op status r0 r1).qm.done = s.qm.done ++ [x] ∧
      x.queue = c.queue ∧ x.cmdId = c.cmdId ∧ x.opcode = BitVec.ofNat 8 op ∧ x.status = BitVec.ofNat 8 status ∧
      x.result0 = BitVec.ofNat 64 r0 ∧ x.result1 = BitVec.ofNat 64 r1 ∧ x.tDone = s.now ∧
      (completed s c op status r0 r1).qm.inFlight.length = s.qm.inFlight.length := by
  refine ⟨_, rfl, rfl, rfl, rfl, rfl, rfl, rfl, rfl, ?_⟩
  refine (List.length_eraseP_of_mem (List.mem_append_right s.qm.inFlight (List.mem_singleton_self _)) ?_).trans ?_
  · simp
  · simp

end Sys2Proof.Machine

namespace Sys2Proof.Claims
open Machine

/-- Settles O39: every command's work by `State.command_of_starts`, and by its definition what the work is. -/
theorem registerAndQueueCommandsComplete : Obligations.RegisterAndQueueCommandsComplete := by
  refine ⟨fun s c => ⟨fun h => congrArg Host.Outcome.next (State.command_of_starts h), fun hStart hSafe => ?_,
    fun hStart hSafe hRsvd => ?_, fun h => ⟨congrArg Host.Outcome.next (State.command_of_waiting h),
      congrArg Host.Outcome.next (State.command_of_waiting h), congrArg Host.Outcome.next (State.command_of_waiting h)⟩,
    fun page off hStart hRsvd hReg hOne hFour => ?_, fun page off h hReg hMay => ?_,
    fun op status r0 r1 _ => State.completed_record s c status r0 r1⟩, fun s c => ?_⟩
  · refine congrArg Host.Outcome.next ((State.command_of_startable hStart).trans (if_pos ?_))
    rw [hSafe]
    rfl
  · refine congrArg Host.Outcome.next ((State.command_of_startable hStart).trans ?_)
    rw [if_neg (by rw [hSafe]; exact Bool.false_ne_true), if_pos hRsvd]
  · refine congrArg Host.Outcome.next ((State.command_in_safe_state hStart hRsvd (.inl rfl)).trans ?_)
    dsimp only
    rw [State.cmdReg_flight, hReg]
    exact if_neg (by omega)
  · refine congrArg Host.Outcome.next ((State.command_of_starts h).trans ?_)
    dsimp only
    rw [State.cmdReg_flight, hReg]
    dsimp only
    rw [State.regDenied_flight, hMay, if_neg Bool.false_ne_true]
  · intro create
    refine ⟨fun q h hOk hFree hName hValid => ⟨?_, rfl, rfl⟩, fun q h hOk hFree hName hRange hValid => ?_,
      fun q h hName hTwo hRange hValid => ?_, ?_⟩
    · have hId : (decide (32767 < c.nat 0x08 2) && c.nat 0x08 2 != 0xFFFF) = false := by
        obtain ⟨hq, hlt⟩ | ⟨hq, _⟩ := hName
        · rw [decide_eq_false (by omega), Bool.false_and]
        · rw [hq]
          rfl
      have hq : (if c.nat 0x08 2 = 0xFFFF then s.freeQueue else c.nat 0x08 2) = q := by
        obtain ⟨hq, hlt⟩ | ⟨hAny, hq⟩ := hName
        · rw [if_neg (by omega), hq]
        · rw [if_pos hAny, hq]
      refine congrArg Host.Outcome.next ((State.command_of_starts h).trans ?_)
      dsimp only
      rw [State.newQueueOk_flight, State.freeQueue_flight, hOk, hId, if_neg (show ¬ (!true || false) = true from Bool.false_ne_true),
        if_neg hFree, hq, State.queue_flight,
        hValid, if_neg Bool.false_ne_true]
    · have hId : (decide (32767 < c.nat 0x08 2) && c.nat 0x08 2 != 0xFFFF) = false := by
        rw [decide_eq_false (by omega), Bool.false_and]
      refine congrArg Host.Outcome.next ((State.command_of_starts h).trans ?_)
      dsimp only
      rw [State.newQueueOk_flight, State.freeQueue_flight, hOk, hId, if_neg (show ¬ (!true || false) = true from Bool.false_ne_true),
        if_neg hFree,
        if_neg (show ¬ c.nat 0x08 2 = 0xFFFF by omega), hName, State.queue_flight, if_pos hValid]
      rfl
    · have hDestroy : exec (.queueDestroy c) s = .next (if s.queueBound q then completed s c 0x11 0x10 0 0
          else ((s.flight c 0x11).setQueue q {}).finish c 0x11 0 0 0) := by
        refine congrArg Host.Outcome.next ((State.command_of_starts h).trans ?_)
        dsimp only
        rw [hName, State.queue_flight, State.queueBound_flight, hValid, if_neg (by simp; omega)]
        rfl
      exact ⟨fun hBound => by rw [hDestroy, hBound, if_neg Bool.false_ne_true],
        fun hBound => by rw [hDestroy, if_pos hBound]⟩
    · intro q f g l t x hTurn hFetch hStart
      show execCommandFetch q f g s = _
      unfold execCommandFetch
      dsimp only
      rw [if_neg (not_not_intro hTurn), hFetch]
      exact if_pos hStart

end Sys2Proof.Claims

/-! ### Context commands (R204–R206, R211, R216, R217, R348, R391) -/

namespace Sys2Proof.Machine
open Claims

variable {s : State} {c : CmdSlot} {n op : Nat} {body : Nat → State → State}

theorem State.ctx_flight (s : State) (c : CmdSlot) (op n : Nat) : (s.flight c op).ctx n = s.ctx n := rfl

theorem State.gen_flight (s : State) (c : CmdSlot) (op n : Nat) : (s.flight c op).gen n = s.gen n := rfl

theorem State.streamsOf_flight (s : State) (c : CmdSlot) (op n : Nat) : (s.flight c op).streamsOf n = s.streamsOf n := rfl

theorem State.freeCtx_flight (s : State) (c : CmdSlot) (op : Nat) : (s.flight c op).freeCtx = s.freeCtx := rfl

/-- A command that names a live context by its number and its generation does its work (R217, R348). -/
theorem State.ctxCommand_of_named (h : NamesCtx s c n) : s.ctxCommand c op body = body n (s.flight c op) := by
  obtain ⟨hStarts, hName, hRange, hGen, hLive⟩ := h
  refine (State.command_of_starts hStarts).trans ?_
  dsimp only
  rw [hName, State.ctx_flight, State.gen_flight, if_neg]
  rintro (h | h | h)
  · omega
  · exact hLive h
  · exact h hGen

theorem State.ctxCommand_of_stale (h : Starts s c [(0x08, 1), (0x09, 1)]) (hGen : c.nat 0x09 1 ≠ (s.gen (c.nat 0x08 1)).toNat) :
    s.ctxCommand c op body = completed s c op 0x0E 0 0 :=
  (State.command_of_starts h).trans (if_pos (.inr (.inr hGen)))

theorem State.setCtx_setCtx (s : State) (n : Nat) (x y : Ctx) : (s.setCtx n x).setCtx n y = s.setCtx n y := by
  unfold State.setCtx
  dsimp only
  rw [SMap.set_set]

/-- A quench of a running or stopped context is requested, and the command waits for it (R216). -/
theorem State.modCtx_requestQuench {cause : Nat} (f : Ctx → Ctx) (h : (s.ctx n).st = .running ∨ (s.ctx n).st = .stopped) :
    (s.requestQuench n cause).modCtx n f = s.setCtx n (f { s.ctx n with st := .quenching, cause := cause }) := by
  have hReq : s.requestQuench n cause = s.setCtx n { s.ctx n with st := .quenching, cause := cause } := by
    unfold State.requestQuench
    obtain h | h := h
    · rw [h]
      rfl
    · rw [h]
      rfl
  rw [hReq, State.modCtx, State.setCtx_setCtx, State.ctx_setCtx, if_pos rfl]

end Sys2Proof.Machine

namespace Sys2Proof.Claims
open Machine

/-- Settles O40: each command's checks once, by `State.ctxCommand_of_named`; what a command then does it says itself. -/
theorem contextCommandsComplete : Obligations.ContextCommandsComplete := by
  intro s c n x
  refine ⟨?_, fun h hSt => ?_, fun h hSt => ?_, fun h hIdle hSt hStopped => ?_, fun h hSt => ?_, fun h hSt => ?_,
    fun h hSt hNone => ?_, fun h hGen => ⟨congrArg Host.Outcome.next (State.ctxCommand_of_stale h hGen),
      congrArg Host.Outcome.next (State.ctxCommand_of_stale h hGen), congrArg Host.Outcome.next (State.ctxCommand_of_stale h hGen),
      congrArg Host.Outcome.next (State.ctxCommand_of_stale h hGen)⟩⟩
  · intro id sec cls part prio off h hName hCls hPart hPrio hNone hFree hImage hSec hClass hSave u
    have hId : ¬ ((63 < id ∧ id ≠ 0xFF) ∨ 2 < cls ∨ 7 < part ∨ 3 < prio ∨ (cls ≠ 1 ∧ prio ≠ 0)) := by
      rintro (h | h | h | h | ⟨h, hp⟩)
      · omega
      · omega
      · omega
      · omega
      · exact hp (hNone h)
    have hLeft : ¬ (id = 0xFF ∧ 63 < s.freeCtx) := by omega
    have hn : (if id = 0xFF then s.freeCtx else id) = n := by
      obtain ⟨hq, hlt⟩ | ⟨hAny, hq, _⟩ := hName
      · rw [if_neg (by omega), hq]
      · rw [if_pos hAny, hq]
    have hOk : ¬ (s.qm.imageState ≠ 2 ∨ (s.section_ sec).isNone = true ∨ s.classOk sec cls part = false ∨ s.saveOk sec cls off = false) := by
      rintro (h | h | h | h)
      · exact h hImage
      · rw [Option.isNone_iff_eq_none] at h
        rw [h] at hSec
        exact Bool.false_ne_true hSec
      · exact Bool.false_ne_true (h.symm.trans hClass)
      · exact Bool.false_ne_true (h.symm.trans hSave)
    refine congrArg Host.Outcome.next ((State.command_of_starts h).trans ?_)
    dsimp only
    rw [if_neg hId, State.freeCtx_flight, if_neg hLeft, hn, State.ctx_flight, if_neg (not_not_intro hFree)]
    exact if_neg hOk
  · refine congrArg Host.Outcome.next ((State.ctxCommand_of_named h).trans ?_)
    rw [State.ctx_flight]
    obtain hSt | hSt := hSt
    · rw [show (s.ctx n).st = _ from hSt]
      rfl
    · rw [show (s.ctx n).st = _ from hSt]
      rfl
  · refine congrArg Host.Outcome.next ((State.ctxCommand_of_named h).trans ?_)
    rw [State.ctx_flight, show (s.ctx n).st = _ from hSt]
    rfl
  · have hIdle' : ¬ ((s.streamsOf n).any fun i => (s.stream i).st != 2) = true := by
      rw [List.any_eq_true]
      rintro ⟨i, hi, hne⟩
      have := List.all_eq_true.1 hIdle i hi
      rw [bne, this] at hne
      exact Bool.false_ne_true hne
    refine congrArg Host.Outcome.next ((State.ctxCommand_of_named h).trans ?_)
    dsimp only
    rw [State.streamsOf_flight]
    refine (if_neg hIdle').trans ?_
    rw [State.ctx_flight, show (s.ctx n).st = _ from hSt]
    exact if_pos hStopped
  · refine congrArg Host.Outcome.next ((State.ctxCommand_of_named h).trans ?_)
    have hWait := State.modCtx_requestQuench (s := s.flight c 0x33) (cause := 5)
      (fun x => { x with quenchReq := x.quenchReq ++ [(c.queue, c.cmdId, 0)] }) hSt
    dsimp only
    rw [State.ctx_flight]
    obtain hSt | hSt := hSt
    · rw [show (s.ctx n).st = _ from hSt]
      exact hWait
    · rw [show (s.ctx n).st = _ from hSt]
      exact hWait
  · refine congrArg Host.Outcome.next ((State.ctxCommand_of_named h).trans ?_)
    dsimp only
    rw [State.ctx_flight, show (s.ctx n).st = _ from hSt]
    rfl
  · have hIdle : ¬ (!((s.ctx n).st == .stopped || (s.ctx n).st == .quenched) || !(s.streamsOf n).isEmpty) = true := by
      rw [hNone]
      obtain hSt | hSt := hSt
      · rw [show (s.ctx n).st = _ from hSt]
        exact Bool.false_ne_true
      · rw [show (s.ctx n).st = _ from hSt]
        exact Bool.false_ne_true
    refine ⟨_, congrArg Host.Outcome.next ((State.ctxCommand_of_named h).trans (if_neg hIdle)), ?_⟩
    have hCtx (m : Nat) : (((s.flight c 0x34).clearSuspect n).setCtx n { gen := x.gen }).ctx m =
        if m = n then { gen := x.gen } else s.ctx m := State.ctx_setCtx _ _ _ _
    refine ⟨(congrArg Ctx.st (hCtx n)).trans ?_, (congrArg Ctx.gen (hCtx n)).trans ?_, fun m hm => (hCtx m).trans (if_neg hm)⟩
    · rw [if_pos rfl]
    · rw [if_pos rfl]

end Sys2Proof.Claims

/-! ### Image, table, pattern and dump commands (R200, R201, R285, R351, R396, R408) -/

namespace Sys2Proof.Machine
open Claims

variable {s : State} {c : CmdSlot}

theorem State.bankCheck_flight (op : Nat) (b : Bool) (e prev mirrors fuel : Nat) :
    (s.flight c op).bankCheck b e prev mirrors fuel = s.bankCheck b e prev mirrors fuel := by
  induction fuel generalizing e prev mirrors with
  | zero => rfl
  | succ fuel ih =>
    simp only [State.bankCheck, ih]
    rfl

/-- Words put into the entries of one bank leave the other bank's (R200). -/
theorem State.ptEntry_ptPut_other {b b' : Bool} {e e' k : Nat} (he : e < 512) (he' : e' < 512) (hk : k < 4) (hb : b' ≠ b) (v : W32) :
    (s.ptPut b e k v).ptEntry b' e' = s.ptEntry b' e' := by
  have hWord {w : Nat} (hw : w < 4) : (s.ptPut b e k v).ptWord b' e' w = s.ptWord b' e' w := by
    rw [State.ptWord_ptPut he he' hk hw, if_neg fun h => hb h.1]
  rw [State.ptEntry_eq, State.ptEntry_eq, hWord (by decide), hWord (by decide), hWord (by decide), hWord (by decide)]

theorem State.ptEntry_putEntries {first n : Nat} (hRange : first + n ≤ 512) (l : List Byte) {e : Nat} (he : e < 512) :
    (s.putEntries first l n).ptEntry s.pattern.bank e = s.ptEntry s.pattern.bank e := by
  have hKept : (s.putEntries first l n).pattern.bank = s.pattern.bank ∧
      (s.putEntries first l n).ptEntry s.pattern.bank e = s.ptEntry s.pattern.bank e := by
    refine List.foldlRecOn (motive := fun t : State => t.pattern.bank = s.pattern.bank ∧
      t.ptEntry s.pattern.bank e = s.ptEntry s.pattern.bank e) (List.range (4 * n)) _ ⟨rfl, rfl⟩ ?_
    rintro t ⟨hBank, hEntry⟩ k hk
    have hLt : first + k / 4 < 512 := by
      have := List.mem_range.1 hk
      omega
    refine ⟨hBank, (State.ptEntry_ptPut_other hLt he (Nat.mod_lt _ (by decide)) ?_ _).trans hEntry⟩
    rw [hBank]
    exact fun h => Bool.not_ne_self _ h.symm
  exact hKept.2

end Sys2Proof.Machine

namespace Sys2Proof.Claims
open Machine

/-- Settles O41: each command's checks by `State.command_of_starts`, and the entries of a pattern by `State.ptEntry_putEntries`. -/
theorem loadCommandsComplete : Obligations.LoadCommandsComplete := by
  intro s c f
  refine ⟨fun l u h hNone hFree => ?_, fun h t l u hStarts hSlot => ?_, ?_, fun h hNone hCheck => ?_, fun hStart hRsvd hZero => ?_⟩
  · intro a hFetch r
    have hIdle : ¬ ((s.flight c 0x20).qm.imageState ≠ 0 ∨ ((s.flight c 0x20).ctxs.any fun e => e.2.st != .free) = true) := by
      rintro (h | h)
      · exact h hNone
      · obtain ⟨e, he, hne⟩ := List.any_eq_true.1 h
        rw [bne, List.all_eq_true.1 hFree e he] at hne
        exact Bool.false_ne_true hne
    have hRange : (if nodeOf a = u.node then (localOf a, localOf a + c.nat 0x10 8) else (0, 0)) =
        (if nodeOf a = u.node then localOf a else 0, if nodeOf a = u.node then localOf a + c.nat 0x10 8 else 0) := by
      split
      · rfl
      · rfl
    refine congrArg Host.Outcome.next ((State.command_of_starts h).trans ((if_neg hIdle).trans ?_))
    dsimp only
    rw [hFetch]
    show (match (if nodeOf a = u.node then (localOf a, localOf a + c.nat 0x10 8) else (0, 0)) with
      | (lo, hi) => _) = _
    rw [hRange]
  · intro a hAlign hHead hBody r
    refine congrArg Host.Outcome.next ((State.command_of_starts hStarts).trans ((if_neg ?_).trans ?_))
    · rintro (h | h)
      · omega
      · exact h hAlign
    · rw [hHead]
      show (match t.fetchBytes a (16 + min (natAt h 2 2) 256 / 2) f with
        | (0, l, s) => _
        | (e, _, s) => _) = _
      rw [hBody]
      rfl
  · intro first n h hPos hRange hNone l u hFetch
    refine ⟨congrArg Host.Outcome.next ((State.command_of_starts h).trans ((if_neg ?_).trans ((if_neg ?_).trans ?_))),
      fun e he => State.ptEntry_putEntries hRange l he⟩
    · omega
    · rw [show (s.flight c 0x50).pattern.pendingSwitch = false from hNone]
      exact Bool.false_ne_true
    · rw [hFetch]
      rfl
  · have hSwitch : (s.flight c 0x51).requestSwitch =
        (0, 0, { s.flight c 0x51 with pattern := { s.pattern with pendingSwitch := true, switchT := s.now } }) := by
      unfold State.requestSwitch
      rw [show (s.flight c 0x51).pattern = s.pattern from rfl, State.bankCheck_flight, hNone, hCheck, if_neg Bool.false_ne_true]
      rfl
    refine ⟨{ s.flight c 0x51 with
      pattern := { s.pattern with pendingSwitch := true, switchT := s.now }
      qm := { (s.flight c 0x51).qm with switchCmd := some (c.queue, c.cmdId) } },
      congrArg Host.Outcome.next ((State.command_of_starts h).trans ?_), rfl, rfl⟩
    dsimp only
    rw [hSwitch]
    rfl
  · have hDump : exec (.dump c) s = .next (if s.hang.dumping.isSome = true then completed s c 0x60 0x10 0 0
        else (s.flight c 0x60).dumpStart (some (c.queue, c.cmdId)) 0 (c.nat 0x10 8) 0) := by
      refine congrArg Host.Outcome.next ((State.command_in_safe_state hStart hRsvd (.inr rfl)).trans ?_)
      dsimp only
      rw [hZero]
      exact if_neg Bool.false_ne_true
    refine ⟨fun hNone => by rw [hDump, hNone]; exact congrArg Host.Outcome.next (if_neg Bool.false_ne_true), fun hBusy => ?_⟩
    rw [hDump, if_pos hBusy]

end Sys2Proof.Claims

/-! ### Pair configuration, bind records and audits (R356, R357, R361, R365) -/

namespace Sys2Proof.Machine
open Claims

variable {s : State}

/-- What a write of MR_CTRL with EN keeps of the written word (R356). -/
def mrCtrlKept (v : W32) : Nat := bitsOf v.toNat 0 7 + 256 * bitsOf v.toNat 8 11

theorem mrCtrlKept_lt (v : W32) : mrCtrlKept v < 2 ^ 32 := by
  have h0 : bitsOf v.toNat 0 7 < 2 ^ 7 := Nat.mod_lt _ (by decide)
  have h8 : bitsOf v.toNat 8 11 < 2 ^ 11 := Nat.mod_lt _ (by decide)
  unfold mrCtrlKept
  omega

theorem bitOf_mrCtrlKept {v : W32} (h : v.getLsbD 0 = true) : bitOf (mrCtrlKept v) 0 = true := by
  rw [BitVec.getLsbD, Nat.testBit_eq_decide_div_mod_eq, decide_eq_true_eq] at h
  have h0 : v.toNat % 2 = 1 := by rwa [pow_zero, Nat.div_one] at h
  rw [bitOf, beq_iff_eq, mrCtrlKept, bitsOf]
  omega

theorem or_one_of_enable {v : W32} (h : v.getLsbD 0 = true) : v ||| 1 = v := by
  refine BitVec.eq_of_getLsbD_eq fun i hi => ?_
  rw [BitVec.getLsbD_or]
  obtain rfl | hi0 := Nat.eq_zero_or_pos i
  · rw [h, Bool.true_or]
  · rw [show (1 : W32).getLsbD i = false by simp [BitVec.getLsbD_one]; omega, Bool.or_false]

/-- What MR_CTRL asks of a value with EN: a partner that is another node, and a split of the streams (R356). -/
def PairLegal (s : State) (w : Nat) : Prop :=
  bitsOf w 2 5 ≠ 0 ∧ bitsOf w 2 5 ≠ 31 ∧ bitsOf w 2 5 ≠ s.node ∧ bitsOf w 8 11 ≠ 0

theorem not_pairLegal_iff (s : State) (w : Nat) :
    (bitsOf w 2 5 == 0 || bitsOf w 2 5 == 31 || bitsOf w 2 5 == s.node || bitsOf w 8 11 == 0) = true ↔ ¬ PairLegal s w := by
  simp only [PairLegal, Bool.or_eq_true, beq_iff_eq]
  omega

theorem State.mrCtrlWrite_of_legal {src : Nat} {v : W32} (hLock : s.locked Page.mirror = false) (hEn : v.getLsbD 0 = true)
    (hLegal : PairLegal s (mrCtrlKept v)) :
    s.mrCtrlWrite src v =
      let t := s.setReg Page.mirror Reg.MR_CTRL (BitVec.ofNat 32 (mrCtrlKept v))
      if s.pairOn then t else
        { t with pair := { t.pair with
            st := 0, missRun := 0, pinRun := 0, linkRun := 0, pinToll := false, linkToll := false, pinNext := 0, linkNext := 0,
            sensing := false, driven := false, rxK := tollWindow t.side t.now.toNat } } := by
  have hKept : bitsOf v.toNat 0 7 + 2 ^ 8 * bitsOf v.toNat 8 11 = mrCtrlKept v := rfl
  unfold State.mrCtrlWrite
  dsimp only
  rw [hLock, if_neg Bool.false_ne_true, hKept, bitOf_mrCtrlKept hEn, Bool.true_and,
    if_neg fun h => (not_pairLegal_iff s _).1 h hLegal]
  cases s.pairOn
  · rfl
  · rfl

theorem State.mrCtrlWrite_of_illegal {src : Nat} {v : W32} (hLock : s.locked Page.mirror = false) (hEn : v.getLsbD 0 = true)
    (hLegal : ¬ PairLegal s (mrCtrlKept v)) :
    s.mrCtrlWrite src v = (s.setFlag Page.mirror Reg.MR_CTRL 0 false).writeRefused Page.mirror Reg.MR_CTRL src := by
  have hKept : bitsOf v.toNat 0 7 + 2 ^ 8 * bitsOf v.toNat 8 11 = mrCtrlKept v := rfl
  unfold State.mrCtrlWrite
  dsimp only
  rw [hLock, if_neg Bool.false_ne_true, hKept, bitOf_mrCtrlKept hEn, Bool.true_and, if_pos ((not_pairLegal_iff s _).2 hLegal)]

/-! The words of a bind record (R361). -/

/-- Words held from word `j` on. -/
def heldWords (m : SMap W32) (l : List W32) (j : Nat) : SMap W32 := (l.zipIdx j).foldl (fun m e => SMap.set m e.2 e.1 0) m

theorem get_heldWords (m : SMap W32) (l : List W32) (j k : Nat) :
    SMap.get (heldWords m l j) k 0 = if j ≤ k ∧ k < j + l.length then l.getD (k - j) 0 else SMap.get m k 0 := by
  induction l generalizing m j with
  | nil => rw [if_neg (by simp)]; rfl
  | cons x l ih =>
    refine (ih (SMap.set m j x 0) (j + 1)).trans ?_
    rw [SMap.get_set, List.length_cons]
    by_cases hk : k = j
    · rw [if_neg (by omega), if_pos hk, if_pos (by omega), hk, Nat.sub_self]
      rfl
    · rw [if_neg hk]
      refine if_ctx_congr (by omega) (fun h => ?_) fun _ => rfl
      rw [show k - j = (k - (j + 1)) + 1 by omega]
      rfl

theorem State.foldl_bindWord (l : List W32) (s : State) (j : Nat) (h : j + l.length ≤ 15) :
    (l.zipIdx j).foldl (fun s e => s.bindWord e.2 e.1) s = { s with pair := { s.pair with bind := heldWords s.pair.bind l j } } := by
  induction l generalizing s j with
  | nil => rfl
  | cons x l ih =>
    rw [List.length_cons] at h
    have hStep : s.bindWord j x = { s with pair := { s.pair with bind := SMap.set s.pair.bind j x 0 } } := if_neg (by omega)
    rw [List.zipIdx_cons, List.foldl_cons, hStep, ih _ _ (by omega)]
    rfl

/-- A whole bind record written: its words are held, and the record is accepted (R361). -/
theorem State.bindWords_eq {words : List W32} (h : words.length = 16) :
    (words.take 16).zipIdx.foldl (fun s e => s.bindWord e.2 e.1) s =
      State.bindAccept { s with pair := { s.pair with bind := heldWords s.pair.bind words 0 } } words := by
  obtain ⟨l, x, rfl⟩ : ∃ l x, words = l ++ [x] := (List.eq_nil_or_concat' words).resolve_left (by rintro rfl; simp at h)
  have hl : l.length = 15 := by simpa using h
  have hWords : ((List.range 16).map fun k => SMap.get (heldWords s.pair.bind (l ++ [x]) 0) k 0) = l ++ [x] := by
    refine List.ext_getElem (by simp [hl]) fun k hk hk' => ?_
    rw [List.getElem_map, List.getElem_range, get_heldWords, if_pos ⟨Nat.zero_le k, by omega⟩, Nat.sub_zero,
      List.getD_eq_getElem _ _ hk']
  have hHeld : SMap.set (heldWords s.pair.bind l 0) 15 x 0 = heldWords s.pair.bind (l ++ [x]) 0 := by
    unfold heldWords
    rw [List.zipIdx_append, List.foldl_append, hl]
    rfl
  rw [List.take_of_length_le (Nat.le_of_eq h), List.zipIdx_append, List.foldl_append, s.foldl_bindWord l 0 (by omega), hl]
  show State.bindWord _ 15 x = _
  unfold State.bindWord
  rw [if_pos rfl, hHeld, hWords]

end Sys2Proof.Machine

namespace Sys2Proof.Claims
open Machine

/-- Settles O43: the write of MR_CTRL by its one check, a bind record by what its sixteen words leave held, an audit by definition. -/
theorem pairConfigurationActs : Obligations.PairConfigurationActs := by
  intro s src
  refine ⟨fun v hLock hEn => ?_, fun words hWords => ?_, fun v => ?_⟩
  · have hExec : exec (.mrCtrlEnable src v) s = .next (s.mrCtrlWrite src.val v) :=
      congrArg (fun v => Host.Outcome.next (s.mrCtrlWrite src.val v)) (or_one_of_enable hEn)
    intro w legal
    refine ⟨fun hLegal hOff => ?_, fun hLegal hOn => ?_, fun hLegal => ?_⟩
    · rw [State.mrCtrlWrite_of_legal hLock hEn hLegal] at hExec
      dsimp only at hExec
      rw [hOff, if_neg Bool.false_ne_true] at hExec
      have hReg : (s.setReg Page.mirror Reg.MR_CTRL (BitVec.ofNat 32 w)).reg Page.mirror Reg.MR_CTRL = BitVec.ofNat 32 w :=
        State.reg_setReg_same _ _ _ _
      have hNat : (BitVec.ofNat 32 w).toNat = w := Nat.mod_eq_of_lt (mrCtrlKept_lt v)
      refine ⟨_, hExec, hReg, ?_, ?_, rfl, rfl, rfl, rfl⟩
      · exact (congrArg (fun x : W32 => bitOf x.toNat 0) hReg).trans ((congrArg (bitOf · 0) hNat).trans (bitOf_mrCtrlKept hEn))
      · exact (congrArg (fun x : W32 => bitsOf x.toNat 2 5) hReg).trans (congrArg (bitsOf · 2 5) hNat)
    · rw [State.mrCtrlWrite_of_legal hLock hEn hLegal] at hExec
      dsimp only at hExec
      rw [hOn, if_pos rfl] at hExec
      exact hExec
    · rw [State.mrCtrlWrite_of_illegal hLock hEn hLegal] at hExec
      refine ⟨_, hExec, ?_, State.flag_writeRefused _, OnlyRegs.refl.setFlag.trans (State.writeRefused_onlyRegs _)⟩
      rw [State.pairOn, State.flag, State.reg_writeRefused_other (by decide) (by decide) (by decide) (by decide) (by decide)]
      exact State.flag_setFlag_same (by decide) false
  · intro i
    have hHeld (k : Nat) (hk : k < 16) : SMap.get (heldWords s.pair.bind words 0) k 0 = words.getD k 0 := by
      rw [get_heldWords, if_pos ⟨Nat.zero_le k, by omega⟩, Nat.sub_zero]
    have hExec : exec (.mrBindInWrite src words) s = .next (if s.ownHalf.1 ≤ i ∧ i < s.ownHalf.2 then
          State.count { s with pair := { s.pair with bind := heldWords s.pair.bind words 0 } } Page.mirror Reg.MR_BIND_ERR
        else { s with pair := { s.pair with bind := heldWords s.pair.bind words 0, binds := s.pair.binds ++ [words] } }) :=
      congrArg Host.Outcome.next (State.bindWords_eq hWords)
    by_cases hOwn : s.ownHalf.1 ≤ i ∧ i < s.ownHalf.2
    · rw [if_pos hOwn] at hExec
      exact ⟨_, hExec, hHeld, fun _ _ => rfl, fun h => absurd hOwn h⟩
    · rw [if_neg hOwn] at hExec
      exact ⟨_, hExec, hHeld, fun hLo hHi => absurd ⟨hLo, hHi⟩ hOwn, fun _ => rfl⟩
  · intro i
    exact ⟨fun hFree => congrArg Host.Outcome.next (if_pos hFree), fun hLive => congrArg Host.Outcome.next (if_neg hLive)⟩

end Sys2Proof.Claims

/-! ### Tolls, windows and the takeover (R312, R360, R366–R369) -/

namespace Sys2Proof.Machine
open Claims

variable {s t : State}

theorem quiet_fb_peer {n : Nat} (hn : n < 32) : Reg.FB_PEER + 4 * n < 4096 ∧ quiet Page.fabric (Reg.FB_PEER + 4 * n) = true := by
  revert n
  decide

theorem State.partner_lt (s : State) : s.partner < 32 := Nat.mod_lt _ (by decide)

/-- A report leaves the pair's registers, the partner's generation and the window that is open. -/
theorem Reports.pairOn (h : Reports s t) : t.pairOn = s.pairOn := h.flag (by decide) (by decide)

theorem Reports.partner (h : Reports s t) : t.partner = s.partner := h.fld (by decide) (by decide)

theorem Reports.peerBgen (h : Reports s t) {n : Nat} (hn : n < 32) : t.peerBgen n = s.peerBgen n := by
  obtain ⟨hOff, hQuiet⟩ := quiet_fb_peer hn
  exact h.fld hOff hQuiet

theorem Reports.tollNow (h : Reports s t) : t.tollNow = s.tollNow := by
  have hSide : t.side = s.side := h.fld (by decide) (by decide)
  rw [State.tollNow, State.tollNow, h.beside.pair, h.beside.now, hSide]

theorem State.tollPacket_beside (s : State) (k : Nat) : Beside s (s.tollPacket k) := by
  unfold State.tollPacket
  exact Beside.ite (.refl s) (Reports.refl s).send.beside

theorem State.now_le_reach (s : State) (t : W64) : s.now.toNat ≤ (s.reach t).now.toNat := by
  unfold State.reach
  split
  next h => exact Nat.le_of_lt h
  next => exact Nat.le_refl _

/-- The number of the next toll of this device (R367). -/
def State.nextToll (s : State) : Nat := max s.pair.txK ((s.now.toNat + msTb - 1 - s.side * usTb 500) / msTb)

/-- Toll `k` sent at the instant `t`. -/
def State.tolled (s : State) (k : Nat) (t : W64) : State :=
  { (s.reach t).tollPacket k with
    pair := { ((s.reach t).tollPacket k).pair with txK := k + 1 }
    safety := { ((s.reach t).tollPacket k).safety with tollOut := true } }

theorem State.tolled_spec (s : State) (k : Nat) (t : W64) : (s.tolled k t).pair.txK = k + 1 ∧
    (s.tolled k t).safety = { s.safety with tollOut := true } ∧ s.now.toNat ≤ (s.tolled k t).now.toNat := by
  have hBeside := (s.reach t).tollPacket_beside k
  have hSafety : ((s.reach t).tollPacket k).safety = s.safety := hBeside.safety.trans (by rw [s.reach_eq])
  have hNow : s.now.toNat ≤ ((s.reach t).tollPacket k).now.toNat := by
    rw [hBeside.now]
    exact s.now_le_reach t
  exact ⟨rfl, congrArg (fun y : Safety => { y with tollOut := true }) hSafety, hNow⟩

theorem execTollSend_of_armed (hArmed : s.safety.armed = true) (hSafe : s.safety.safe = false) :
    execTollSend s = .next (s.tolled s.nextToll (BitVec.ofNat 64 (s.nextToll * msTb + s.side * usTb 500))) := by
  unfold execTollSend
  rw [if_neg (by rw [hArmed, hSafe]; exact Bool.false_ne_true)]
  rfl

/-- A declaration of the partner's failure (R368). -/
theorem State.declareFailed_spec (hOn : s.pairOn = true) (hSt : s.pair.st ≠ 2) :
    s.declareFailed.pair.st = 2 ∧ s.declareFailed.pair.sensing = true ∧ s.declareFailed.flag Page.safety Reg.SF_FAULT 9 = true := by
  have hDo : ¬ (!s.flag Page.mirror Reg.MR_CTRL 0 || s.pair.st == 2) = true := by
    rw [show s.flag Page.mirror Reg.MR_CTRL 0 = true from hOn, beq_eq_false_iff_ne.2 hSt]
    exact Bool.false_ne_true
  unfold State.declareFailed
  rw [if_neg hDo]
  dsimp only
  refine ⟨?_, ?_, State.flag_raiseMech (by decide)⟩
  · rw [(State.raiseMech_beside _ (by decide)).pair]
  · rw [(State.raiseMech_beside _ (by decide)).pair]

theorem State.pair_reach (s : State) (t : W64) : (s.reach t).pair = s.pair := by rw [s.reach_eq t]

theorem State.pairOn_reach (s : State) (t : W64) : (s.reach t).pairOn = s.pairOn := by
  rw [s.reach_eq t]
  rfl

theorem State.pairOn_count (p n : Nat) {o : Nat} (ho : o < 4096 ∧ o ≠ Reg.MR_CTRL) : (s.count p o n).pairOn = s.pairOn := by
  rw [State.pairOn, State.flag, State.reg_count_off ho.1 (by decide) (Ne.symm ho.2)]
  rfl

theorem State.pairOn_raiseMech {m : Nat} {ctx : Option Nat} (hm : m < 32) : (s.raiseMech m ctx).pairOn = s.pairOn := by
  rw [State.pairOn, State.flag, State.reg_raiseMech hm (by decide) (by decide),
    State.reg_setFlag_other (by decide) (by decide) (by decide)]
  rfl

/-- The windows in a row silent on both paths, at the end of one (R368). -/
def Pair.silentRun (q : Pair) : Nat := if q.pinToll || q.linkToll then 0 else min (q.missRun + 1) 3

/-- A pair's record as window `k` opens. -/
def Pair.opening (q : Pair) (k : Nat) : Pair :=
  { q with
    missRun := q.silentRun
    pinRun := if q.pinToll then 0 else min (q.pinRun + 1) 4
    linkRun := if q.linkToll then 0 else min (q.linkRun + 1) 4
    pinOk := q.pinToll, linkOk := q.linkToll
    pinToll := q.pinNext == k + 1, linkToll := q.linkNext == k + 1, pinNext := 0, linkNext := 0, rxK := k }

/-- The missed tolls of a window counted. -/
def State.windowCounted (s : State) : State :=
  let s' := if s.pair.pinToll then s else s.count Page.mirror Reg.MR_TOLL_MISS_PIN
  if s.pair.linkToll then s' else s'.count Page.mirror Reg.MR_TOLL_MISS_LINK

/-- The path mechanisms raised where a path alone is silent (R368). -/
def State.pathsRaised (s : State) : State :=
  let s' := if s.pair.pinRun = 3 ∧ s.pair.missRun < 3 then s.raiseMech 7 none else s
  if s.pair.linkRun = 3 ∧ s.pair.missRun < 3 then s'.raiseMech 8 none else s'

/-- The window that is open ends, and window `k` opens. -/
def State.windowTurned (s : State) (k : Nat) : State :=
  State.pathsRaised { s.windowCounted with pair := s.pair.opening k }

theorem State.pairOn_windowCounted (s : State) : s.windowCounted.pairOn = s.pairOn := by
  unfold State.windowCounted
  extract_lets u
  have hu : u.pairOn = s.pairOn := by
    unfold u
    split
    · rfl
    · exact State.pairOn_count _ _ (by decide)
  split
  · exact hu
  · exact (State.pairOn_count _ _ (by decide)).trans hu

theorem State.pathsRaised_spec (s : State) : s.pathsRaised.pairOn = s.pairOn ∧ s.pathsRaised.pair = s.pair := by
  unfold State.pathsRaised
  extract_lets u
  have hu : u.pairOn = s.pairOn ∧ u.pair = s.pair := by
    unfold u
    split
    · exact ⟨State.pairOn_raiseMech (by decide), (State.raiseMech_beside _ (by decide)).pair⟩
    · exact ⟨rfl, rfl⟩
  split
  · exact ⟨(State.pairOn_raiseMech (by decide)).trans hu.1, (State.raiseMech_beside _ (by decide)).pair.trans hu.2⟩
  · exact hu

theorem State.windowTurned_spec (s : State) (k : Nat) :
    (s.windowTurned k).pairOn = s.pairOn ∧ (s.windowTurned k).pair = s.pair.opening k := by
  obtain ⟨hOn, hPair⟩ := State.pathsRaised_spec { s.windowCounted with pair := s.pair.opening k }
  exact ⟨hOn.trans s.pairOn_windowCounted, hPair⟩

/-- The window that opens at the end of the one that is open. -/
def State.windowAfter (s : State) : Nat := max (s.pair.rxK + 1) (tollWindow s.windowCounted.side s.windowCounted.now.toNat)

theorem State.lt_windowAfter (s : State) : s.pair.rxK < s.windowAfter := lt_max_of_lt_left (Nat.lt_succ_self _)

theorem execTollWindowEnd_eq {u : State} (hOn : s.pairOn = true)
    (hu : s.reach (BitVec.ofNat 64 (tollEnd s.side s.pair.rxK)) = u) :
    execTollWindowEnd s =
      if u.pair.silentRun = 3 then .next (u.windowTurned u.windowAfter).declareFailed else .next (u.windowTurned u.windowAfter) := by
  unfold execTollWindowEnd
  rw [if_neg (by rw [hOn]; exact Bool.false_ne_true), hu]
  rfl

/-! The takeover drive (R369): what each of its ports is left with. -/

/-- A takeover port with STANDBY clear, in its register and in its state. -/
def Driven (s : State) (p : Nat) : Prop := s.flag (Page.audio p) Reg.AP_CTRL 0 = false ∧ (s.port p).standby = false

/-- STANDBY of one port taken back, and taken over at once. -/
def State.driveOne (s : State) (p : Nat) : State := (s.setFlag (Page.audio p) Reg.AP_CTRL 0 false).applyStandby p

theorem State.driven_driveOne (s : State) (p : Nat) : Driven (s.driveOne p) p := by
  have hFlag : (s.setFlag (Page.audio p) Reg.AP_CTRL 0 false).flag (Page.audio p) Reg.AP_CTRL 0 = false :=
    State.flag_setFlag_same (by decide) false
  refine ⟨hFlag, ?_⟩
  unfold State.driveOne State.applyStandby
  dsimp only
  rw [State.port_setPort, if_pos rfl]
  exact hFlag

theorem Driven.driveOne {p q : Nat} (h : Driven s p) (hq : p ≠ q) : Driven (s.driveOne q) p := by
  obtain ⟨hReg, hPort⟩ := h
  refine ⟨?_, (congrArg Port.standby (((s.setFlag (Page.audio q) Reg.AP_CTRL 0 false).applyStandby_port q).2 p hq)).trans hPort⟩
  refine (congrArg (fun w : W32 => bitOf w.toNat 0) (State.reg_setFlag_other (by decide) (by decide) ?_)).trans hReg
  rintro ⟨hPage, -⟩
  exact hq (Nat.add_left_cancel hPage)

theorem State.driven_foldl (l : List Nat) (s : State) {p : Nat} (h : Driven s p ∨ p ∈ l) : Driven (l.foldl State.driveOne s) p := by
  induction l generalizing s with
  | nil => exact h.resolve_right List.not_mem_nil
  | cons q l ih =>
    refine ih _ ?_
    by_cases hq : p = q
    · exact .inl (hq ▸ s.driven_driveOne p)
    · obtain h | h := h
      · exact .inl (h.driveOne hq)
      · exact .inr ((List.mem_cons.1 h).resolve_left hq)

theorem State.pair_drive (l : List Nat) (s : State) : (l.foldl State.driveOne s).pair = s.pair := by
  induction l generalizing s with
  | nil => rfl
  | cons q l ih => exact ih _

theorem State.mem_takeoverPorts {b : Nat} (hb : b < 12) (h : bitOf (s.fld Page.mirror Reg.MR_TAKEOVER_PORTS 0 14) b = true) :
    b ∈ s.takeoverPorts := by
  refine List.mem_filterMap.2 ⟨b, List.mem_range.2 (by omega), ?_⟩
  rw [if_pos h, if_pos hb]

end Sys2Proof.Machine

namespace Sys2Proof.Claims
open Machine

/-- Settles O44: a toll and a pulse count by the window that is open; the declaration and the drive by their specifications. -/
theorem partnerIsWatched : Obligations.PartnerIsWatched := by
  intro s port vc p as
  refine ⟨fun h => ?_, fun h hOn hSrc => ?_, fun hArmed hSafe => ?_, fun ns hOn hNs => ?_, fun ns hNs => ?_, fun hOn hPin hLink => ?_,
    fun hOn hPin hLink hRun hSt => ?_, fun hSensing => ⟨fun hSenses => ?_, fun edges hEdges => ?_⟩⟩
  · show execMirror port vc p s = _
    unfold execMirror
    dsimp only
    rw [State.arrive_of_delivered h]
  · intro seq status u hGen hNow hSeq
    have hu : Reports s u := (Reports.refl s).trace
    have hPair : u.pair = s.pair := hu.beside.pair
    have hWindow : u.tollNow = s.pair.rxK := hu.tollNow.trans hNow
    have hToll : exec (.toll port vc p) s =
        if (!u.pairOn || decide (p.src.toNat ≠ u.partner) || decide (bitsOf status 8 8 ≠ u.peerBgen u.partner)) = true then .next u
        else if (bitOf status 1 && (decide (seq = u.tollNow % 2 ^ 32) || decide (seq = (u.tollNow + 1) % 2 ^ 32))) = true then
          .next u.declareFailed
        else if decide (seq = u.tollNow % 2 ^ 32) = true then .next { u with pair := { u.pair with
          linkToll := u.pair.linkToll || u.tollNow == u.pair.rxK
          linkNext := if u.tollNow = u.pair.rxK then u.pair.linkNext else u.tollNow + 1
          st := if u.pair.st = 0 then 1 else u.pair.st } }
        else .next u := by
      show execToll port vc p s = _
      unfold execToll
      dsimp only
      rw [State.arrive_of_delivered h]
    have hPassed : ¬ (!u.pairOn || decide (p.src.toNat ≠ u.partner) || decide (bitsOf status 8 8 ≠ u.peerBgen u.partner)) = true := by
      rw [hu.pairOn, hu.partner, hu.peerBgen s.partner_lt]
      simp [hOn, hSrc, hGen]
    rw [if_neg hPassed, hWindow, ← hSeq, decide_eq_true rfl, Bool.true_or, Bool.and_true, if_pos rfl, hPair, if_pos rfl,
      beq_self_eq_true, Bool.or_true] at hToll
    refine ⟨fun hStatus => ?_, fun hStatus => ?_⟩
    · rw [hToll, hStatus, if_neg Bool.false_ne_true, hPair]
    · rw [hToll, if_pos hStatus]
  · obtain ⟨hTx, hSafety, hNow⟩ := s.tolled_spec (s.nextToll) (BitVec.ofNat 64 (s.nextToll * msTb + s.side * usTb 500))
    refine ⟨_, execTollSend_of_armed hArmed hSafe, ?_, hSafety, hNow⟩
    rw [hTx]
    exact Nat.succ_le_succ (Nat.le_max_left _ _)
  · have hPulse : exec (.tollInPulse ns) s = .next { s with pair := { s.pair with
        pinToll := s.pair.pinToll || s.tollNow == s.pair.rxK
        pinNext := if s.tollNow = s.pair.rxK then s.pair.pinNext else s.tollNow + 1
        st := if s.pair.st = 0 then 1 else s.pair.st } } := by
      show execTollInPulse ns s = _
      unfold execTollInPulse
      rw [if_pos (by rw [hOn, decide_eq_true hNs]; rfl)]
    refine ⟨fun hNow => ?_, fun hNow => ?_⟩
    · rw [hPulse, if_pos hNow, beq_iff_eq.2 hNow, Bool.or_true]
    · rw [hPulse, if_neg hNow, beq_eq_false_iff_ne.2 hNow, Bool.or_false]
  · show execTollInPulse ns s = _
    unfold execTollInPulse
    rw [if_neg (by simp; omega)]
  · obtain ⟨u, hu⟩ : ∃ u, s.reach (BitVec.ofNat 64 (tollEnd s.side s.pair.rxK)) = u := ⟨_, rfl⟩
    have hPair : u.pair = s.pair := hu ▸ s.pair_reach _
    have hSilent : u.pair.silentRun = 0 := by rw [Pair.silentRun, hPair, hPin, Bool.true_or, if_pos rfl]
    obtain ⟨-, hTurned⟩ := u.windowTurned_spec u.windowAfter
    refine ⟨_, (execTollWindowEnd_eq hOn hu).trans (if_neg (by rw [hSilent]; decide)), ?_⟩
    rw [hTurned, ← hPair]
    exact ⟨hSilent, rfl, u.lt_windowAfter, rfl, rfl⟩
  · obtain ⟨u, hu⟩ : ∃ u, s.reach (BitVec.ofNat 64 (tollEnd s.side s.pair.rxK)) = u := ⟨_, rfl⟩
    have hPair : u.pair = s.pair := hu ▸ s.pair_reach _
    have hSilent : u.pair.silentRun = 3 := by
      rw [Pair.silentRun, hPair, hPin, hLink, Bool.or_false, if_neg Bool.false_ne_true]
      omega
    obtain ⟨hOn', hTurned⟩ := u.windowTurned_spec u.windowAfter
    refine ⟨_, (execTollWindowEnd_eq hOn hu).trans (if_pos hSilent), State.declareFailed_spec (hOn'.trans ?_) ?_⟩
    · exact hu ▸ (s.pairOn_reach _).trans hOn
    · rw [hTurned]
      exact hPair ▸ hSt
  · have hReach : s.reach s.driveAt = { s with time := (s.reach s.driveAt).time } := s.reach_eq _
    have hSenses' : (s.reach s.driveAt).senses = true := by
      rw [hReach]
      exact hSenses
    have hSensing' : ¬ (!s.pair.sensing) = true := by
      rw [hSensing]
      exact Bool.false_ne_true
    intro u
    show execTakeoverDrive true s = _
    unfold execTakeoverDrive
    rw [if_neg hSensing']
    dsimp only
    rw [hSenses']
    exact if_pos rfl
  · have hSensing' : ¬ (!s.pair.sensing) = true := by
      rw [hSensing]
      exact Bool.false_ne_true
    have hReach : s.reach s.driveAt = { s with time := (s.reach s.driveAt).time } := s.reach_eq _
    have hEdges' : ¬ (edges && (s.reach s.driveAt).senses) = true := by
      rw [hReach]
      exact Bool.eq_false_iff.1 hEdges
    have hPorts : (s.reach s.driveAt).takeoverPorts = s.takeoverPorts := by rw [hReach]; rfl
    let u := s.reach s.driveAt
    let v : State := { u with pair := { u.pair with
      sensing := false, driven := true, takeoverNs := BitVec.ofNat 32 (min ((u.now - u.pair.declaredAt).toNat / 256) 0xFFFFFFFF) } }
    have hPair : (s.takeoverPorts.foldl State.driveOne v).pair = v.pair := State.pair_drive _ v
    refine ⟨s.takeoverPorts.foldl State.driveOne v, ?_, by rw [hPair], by rw [hPair],
      fun b hb hBit => State.driven_foldl _ v (.inr (State.mem_takeoverPorts hb hBit))⟩
    show execTakeoverDrive edges s = _
    unfold execTakeoverDrive
    rw [if_neg hSensing']
    refine (if_neg hEdges').trans ?_
    exact congrArg (fun l : List Nat => Host.Outcome.next (l.foldl State.driveOne v)) hPorts

end Sys2Proof.Claims

/-! ### Reset pins, supplies and the warm reset (R387, R401, R402, R459) -/

namespace Sys2Proof.Machine
open Claims

/-- What a chip reset carries over: the timebase, the boot generation before it advances, the node ID, the fuses and the pins (R387). -/
def State.lasting (s : State) : TimeSt × Byte × Nat × Fuses × Pins := (s.time, s.fab.bgen, s.fab.nodeId, s.sec.fuses, s.pins)

/-- `t` has all that of `s`. -/
def Outlives (s t : State) : Prop := t.lasting = s.lasting

namespace Outlives

variable {s t u : State}

theorem refl (s : State) : Outlives s s := rfl

theorem trans (a : Outlives s t) (b : Outlives t u) : Outlives s u := Eq.trans b a

theorem ite {c : Prop} [Decidable c] (a : Outlives s t) (b : Outlives s u) : Outlives s (if c then t else u) := by
  split
  · exact a
  · exact b

theorem of_beside (h : Beside s t) : Outlives s t := by
  rw [Outlives, h]
  rfl

theorem beside (a : Outlives s t) (b : Beside t u) : Outlives s u := a.trans (of_beside b)

theorem foldl {α : Type} {f : State → α → State} {l : List α} (h : Outlives s t) (hf : ∀ u a, Outlives s u → Outlives s (f u a)) :
    Outlives s (l.foldl f t) := List.foldlRecOn l f h fun u hu a _ => hf u a hu

theorem raiseMech {m : Nat} {ctx : Option Nat} (h : Outlives s t) (hm : m < 32) : Outlives s (t.raiseMech m ctx) := by
  refine h.trans ?_
  have hBeside := t.raiseMech_beside hm (ctx := ctx)
  unfold BesideSafety at hBeside
  rw [Outlives, hBeside]
  rfl

theorem chipLinkReset (h : Outlives s t) : Outlives s t.chipLinkReset :=
  h.foldl fun _ _ h => ite (c := _ ∨ _) h h

theorem abandonAll (h : Outlives s t) : Outlives s t.abandonAll :=
  h.foldl fun u _ h => h.beside (Reports.refl u).abandonTag.beside

theorem loseLines {units : List Nat} (h : Outlives s t) : Outlives s (t.loseLines units) := by
  unfold State.loseLines
  refine h.foldl fun u _ h => ?_
  split
  · exact h
  · split
    · exact ite h (raiseMech (t := State.setReg64 _ _ _ _ _) h (by decide))
    · exact h

theorem flawedLines {ways lo hi : Nat} (h : Outlives s t) : Outlives s (t.flawedLines ways lo hi).2 := by
  refine List.foldlRecOn (motive := fun r : List Nat × State => Outlives s r.2) _ _ h fun r hr e _ => ?_
  dsimp only
  split
  · split
    · exact hr
    · exact hr
  · exact hr

theorem cachePass {ways lo hi : Nat} {wb inv : Bool} (h : Outlives s t) : Outlives s (t.cachePass ways lo hi wb inv) := by
  unfold State.cachePass
  refine h.foldl fun u e h => ?_
  split
  · exact h
  · have hBack (c : Prop) [Decidable c] (l : Line) : Outlives s (if c then u.writeBack l else u) := ite h h
    split
    · exact ite (hBack _ _) (ite (hBack _ _) (hBack _ _))
    · exact h

theorem visitSets {ways lo hi : Nat} {wb inv : Bool} (h : Outlives s t) : Outlives s (t.visitSets ways lo hi wb inv) := by
  unfold State.visitSets
  extract_lets u
  have hu : Outlives s u := by
    unfold u
    split
    · exact h.flawedLines.loseLines
    · exact h
  exact hu.cachePass

end Outlives


/-- `t` is `s` with the ROM's own state anew: the fuses stay. -/
def RomOnly (s t : State) : Prop :=
  t = { s with fab := { s.fab with bgen := t.fab.bgen }, sec := t.sec, free := t.free } ∧ t.sec.fuses = s.sec.fuses

theorem RomOnly.awaitHost {s t : State} (h : RomOnly s t) : RomOnly s t.awaitHost := by
  obtain ⟨hEq, hFuses⟩ := h
  unfold State.awaitHost
  split
  · refine ⟨?_, hFuses⟩
    rw [hEq]
  · refine ⟨?_, hFuses⟩
    rw [hEq]

theorem State.romGoes_of_untrained {t : State} (h : t.dramTrained = false) : t.romGoes = t := by
  unfold State.romGoes
  rw [if_pos (by rw [h]; rfl)]

theorem RomOnly.romGoes {s t : State} (h : RomOnly s t) (hAwait : t.sec.await = 1) : RomOnly s t.romGoes := by
  cases hTrained : t.dramTrained
  · rw [State.romGoes_of_untrained hTrained]
    exact h
  · unfold State.romGoes
    rw [if_neg (by rw [hTrained]; exact Bool.false_ne_true), if_pos hAwait]
    exact h.awaitHost

theorem RomOnly.trng {s t : State} (h : RomOnly s t) : RomOnly s t.trng.2 := by
  obtain ⟨hEq, hFuses⟩ := h
  refine ⟨?_, hFuses⟩
  unfold State.trng State.draw
  dsimp only
  rw [hEq]

/-- The ROM leaves all but its own state, and after a warm reset the boot generation, where it does not find the window's container at
once (R402, R407). -/
theorem State.romStart_romOnly (s : State) (warm : Bool) (hWarm : warm = true → s.dramTrained = false) :
    RomOnly s (s.romStart warm) ∧ (warm = true → (s.romStart warm).fab.bgen = s.fab.bgen) := by
  unfold State.romStart
  extract_lets o src u
  have hFail (b : Nat) : RomOnly s (u.bootFail b false) ∧ (warm = true → (u.bootFail b false).fab.bgen = s.fab.bgen) :=
    ⟨⟨rfl, rfl⟩, fun _ => rfl⟩
  split
  · exact hFail _
  split
  · exact hFail _
  split
  · exact hFail _
  split
  next b v hDraw =>
    have hv : RomOnly s v ∧ (warm = true → b = s.fab.bgen ∧ v.dramTrained = false) := by
      cases warm
      · obtain ⟨-, rfl⟩ := Prod.mk.inj hDraw
        exact ⟨⟨rfl, rfl⟩, fun h => absurd h Bool.false_ne_true⟩
      · obtain ⟨rfl, rfl⟩ := Prod.mk.inj hDraw
        exact ⟨⟨rfl, rfl⟩, fun _ => ⟨rfl, hWarm rfl⟩⟩
    split
    next c w hTrng =>
      have hw : RomOnly s w ∧ (warm = true → w.dramTrained = false) := by
        obtain rfl : v.trng.2 = w := congrArg Prod.snd hTrng
        exact ⟨hv.1.trng, fun h => (hv.2 h).2⟩
      extract_lets srcFab srcSec x
      have hx : RomOnly s x := by
        refine ⟨?_, hw.1.2⟩
        unfold x srcFab srcSec
        rw [hw.1.1]
      have hBgen : warm = true → x.fab.bgen = s.fab.bgen := fun h => (hv.2 h).1
      have hTrained : warm = true → x.dramTrained = false := hw.2
      clear_value x
      have hFailX (b : Nat) : RomOnly s (x.bootFail b false) ∧ (warm = true → (x.bootFail b false).fab.bgen = s.fab.bgen) := by
        refine ⟨⟨?_, hx.2⟩, hBgen⟩
        unfold State.bootFail
        rw [if_neg Bool.false_ne_true, hx.1]
      have hGoes : RomOnly s (State.romGoes { x with sec := { x.sec with await := if warm then 2 else 1 } }) ∧
          (warm = true → (State.romGoes { x with sec := { x.sec with await := if warm then 2 else 1 } }).fab.bgen = s.fab.bgen) := by
        have hAwait (n : Nat) : RomOnly s { x with sec := { x.sec with await := n } } := by
          refine ⟨?_, hx.2⟩
          rw [hx.1]
        cases warm
        · exact ⟨(hAwait 1).romGoes rfl, fun h => absurd h Bool.false_ne_true⟩
        · have hNot := State.romGoes_of_untrained (t := { x with sec := { x.sec with await := 2 } }) (hTrained rfl)
          exact ⟨(congrArg (RomOnly s) hNot).mpr (hAwait 2), fun _ => (congrArg (fun t : State => t.fab.bgen) hNot).trans (hBgen rfl)⟩
      split
      · exact hFailX _
      split
      · exact hGoes
      · exact hFailX _
      · exact ⟨hx, hBgen⟩

/-- `t` is `s` but for its registers and its power domains. -/
def PowerOnly (s t : State) : Prop := t = { s with regs := t.regs, power := t.power }

theorem PowerOnly.trans {s t u : State} (a : PowerOnly s t) (b : PowerOnly t u) : PowerOnly s u := by
  unfold PowerOnly at *
  rw [b, a]

theorem State.domainUp_powerOnly (s : State) (d : Nat) : PowerOnly s (s.domainUp d) := by
  unfold State.domainUp State.startDomain
  extract_lets u
  split
  · split
    · rfl
    · split
      · rfl
      · rfl
  · rfl
  · rfl

theorem State.gradeReset_powerOnly (s : State) : PowerOnly s s.gradeReset := by
  unfold State.gradeReset
  split
  · rfl
  · rfl

/-- The cause of a reset recorded (R387). -/
def State.causeLogged (s : State) (source : Nat) : State :=
  let v := s.setReg Page.device Reg.DV_RESET_CAUSE (BitVec.ofNat 32 (2 * source))
  (v.count Page.hang Reg.HG_CHIP_RESET_COUNT).logEvent 0x13 Page.hang none 0 0 source v.fab.bgen.toNat

theorem State.causeLogged_spec (s : State) (source : Nat) : Beside s (s.causeLogged source) ∧
    (s.causeLogged source).reg Page.device Reg.DV_RESET_CAUSE = BitVec.ofNat 32 (2 * source) := by
  unfold State.causeLogged
  extract_lets v
  have hv : v.reg Page.device Reg.DV_RESET_CAUSE = BitVec.ofNat 32 (2 * source) := State.reg_setReg_same _ _ _ _
  have hLog := (Reports.refl (v.count Page.hang Reg.HG_CHIP_RESET_COUNT)).logEvent (code := 0x13) (unit := Page.hang) (ctx := none)
    (gen := 0) (status := 0) (arg0 := source) (arg1 := v.fab.bgen.toNat)
  refine ⟨(Beside.refl s).setReg.count.trans hLog.beside, (hLog.reg (by decide) (by decide)).trans ?_⟩
  rw [State.reg_count_other (by decide) (by decide) (by decide), hv]

/-- The state that a warm reset hands to the ROM (R387). -/
def State.warmed (s : State) (source : Nat) : State :=
  State.causeLogged ((List.range 80).foldl (fun (s : State) (d : Nat) => s.domainUp d)
    ((s.chipLinkReset.abandonAll).visitSets 0xFFFF 0 8192 true true).warmState.gradeReset) source

theorem State.chipReset_eq (s : State) {source : Nat} (h : source ≠ 2) :
    s.chipReset source = if (s.warmed source).pins.wreset then (s.warmed source).romStart true else s.warmed source := by
  have hManual : ¬ (decide (source = 2) && s.flag Page.hang Reg.HG_CTRL 3) = true := by
    rw [decide_eq_false h, Bool.false_and]
    exact Bool.false_ne_true
  unfold State.chipReset
  extract_lets a
  have ha : a = s := if_neg hManual
  clear_value a
  subst ha
  unfold State.warmed State.causeLogged
  dsimp only

theorem State.warmed_spec (s : State) (source : Nat) :
    let t := s.warmed source
    t.fab.bgen = s.fab.bgen + 1 ∧ t.time = s.time ∧ t.ctxs = [] ∧ t.qm.image = none ∧ t.sec.fuses = s.sec.fuses ∧
    t.fab.nodeId = s.fab.nodeId ∧ t.pins.wreset = s.pins.wreset ∧ t.dramTrained = false ∧
    t.reg Page.device Reg.DV_RESET_CAUSE = BitVec.ofNat 32 (2 * source) := by
  have hLasts : Outlives s ((s.chipLinkReset.abandonAll).visitSets 0xFFFF 0 8192 true true) :=
    (Outlives.refl s).chipLinkReset.abandonAll.visitSets
  unfold State.warmed
  generalize (s.chipLinkReset.abandonAll).visitSets 0xFFFF 0 8192 true true = w at hLasts ⊢
  have hPower : PowerOnly w.warmState ((List.range 80).foldl (fun (s : State) (d : Nat) => s.domainUp d) w.warmState.gradeReset) :=
    List.foldlRecOn (motive := PowerOnly w.warmState) _ _ w.warmState.gradeReset_powerOnly
      fun u hu d _ => hu.trans (u.domainUp_powerOnly d)
  generalize (List.range 80).foldl (fun (s : State) (d : Nat) => s.domainUp d) w.warmState.gradeReset = u at hPower ⊢
  obtain ⟨hBeside, hReg⟩ := u.causeLogged_spec source
  generalize u.causeLogged source = t at hBeside hReg ⊢
  simp only [Outlives, State.lasting, Prod.mk.injEq] at hLasts
  obtain ⟨hTime, hBgen, hNode, hFuses, hPins⟩ := hLasts
  have ht : t = { w.warmState with regs := t.regs, power := t.power, fab := t.fab, hang := t.hang } := by
    rw [hBeside, hPower]
  have hFab : t.fab.bgen = w.warmState.fab.bgen ∧ t.fab.nodeId = w.warmState.fab.nodeId := by
    rw [hBeside, hPower]
    exact ⟨rfl, rfl⟩
  refine ⟨hFab.1.trans ?_, ?_, ?_, ?_, ?_, hFab.2.trans hNode, ?_, ?_, hReg⟩
  · exact congrArg (· + 1) hBgen
  · rw [ht]
    exact hTime
  · rw [ht]
    rfl
  · rw [ht]
    rfl
  · rw [ht]
    exact hFuses
  · rw [ht]
    show w.pins.wreset = s.pins.wreset
    rw [hPins]
  · rw [ht]
    rfl

theorem State.powerOn_pins (s : State) : s.powerOn.pins = { s.pins with held := false } := by
  unfold State.powerOn
  generalize hu : State.gradeReset _ = u
  have hPins : u.pins = { s.pins with held := false } := by
    rw [← hu, State.gradeReset_powerOnly]
  obtain ⟨⟨hRom, -⟩, -⟩ := (u.setReg Page.device Reg.DV_RESET_CAUSE 1).romStart_romOnly false fun h => absurd h Bool.false_ne_true
  rw [hRom]
  exact hPins

end Sys2Proof.Machine

namespace Sys2Proof.Claims
open Machine

/-- Settles O47: what the pins do by their definitions, a warm reset by what outlives it and what the ROM leaves. -/
theorem resetPinsAct : Obligations.ResetPinsAct := by
  intro s
  refine ⟨fun b e o hOff => ?_, fun hOn hHeld => ?_, fun hHeld => ?_, ⟨_, rfl, rfl, rfl, rfl, rfl, rfl, rfl, rfl, rfl, rfl, rfl, rfl, rfl,
    rfl, rfl, rfl⟩, fun hOn hReset source hSource => ?_, fun hOff source => ?_, fun hOn hReset => ?_, fun hOff => ?_,
    fun hOn hReset => ?_, fun hOn hHeld => ⟨fun k => ?_, fun r mv ns hNs hOut => ?_⟩, fun r mv ns hIn => ?_⟩
  · intro u
    have hExec : exec (.poresetRise b e o) s =
        if u.pins.pwrgd then .next u.powerOn else .next { u with pins := { u.pins with held := true } } :=
      if_neg (by rw [hOff]; exact Bool.false_ne_true)
    refine ⟨fun hGood => ⟨hExec.trans (if_pos hGood), ?_⟩, fun hBad => hExec.trans (if_neg ?_)⟩
    · rw [u.powerOn_pins]
    · exact Bool.eq_false_iff.1 hBad
  · exact if_pos (by rw [hHeld, hOn]; rfl)
  · exact if_neg (by rw [hHeld]; exact Bool.false_ne_true)
  · obtain ⟨hBgen, hTime, hCtxs, hImage, hFuses, hNode, hWreset, hTrained, hReg⟩ := s.warmed_spec source.val
    obtain ⟨⟨hRom, hRomFuses⟩, hRomBgen⟩ := (s.warmed source.val).romStart_romOnly true fun _ => hTrained
    have hExec : exec (.chipWarmReset source) s = .next ((s.warmed source.val).romStart true) := by
      refine (if_pos hOn).trans (congrArg Host.Outcome.next ?_)
      rw [s.chipReset_eq hSource, if_pos (hWreset.trans hReset)]
    generalize s.warmed source.val = t at *
    refine ⟨_, hExec, (hRomBgen rfl).trans hBgen, ?_, ?_, ?_, hRomFuses.trans hFuses, ?_, ?_⟩
    · rw [hRom]
      exact hTime
    · rw [hRom]
      exact hCtxs
    · rw [hRom]
      exact hImage
    · rw [hRom]
      exact hNode
    · rw [hRom]
      exact hReg
  · exact if_neg (by rw [hOff]; exact Bool.false_ne_true)
  · exact if_pos (by rw [hOn, hReset]; rfl)
  · exact if_neg (by rw [hOff]; exact Bool.false_ne_true)
  · exact if_pos (by rw [hOn, hReset]; rfl)
  · exact if_pos (by rw [hOn, hHeld]; rfl)
  · have hRun : (s.pins.poreset && !s.pins.held) = true := by rw [hOn, hHeld]; rfl
    refine if_pos ?_
    rw [hRun, decide_eq_true hNs, Bool.true_and, Bool.true_and, Bool.or_eq_true, decide_eq_true_eq, decide_eq_true_eq]
    exact hOut
  · refine if_neg fun h => ?_
    rw [Bool.and_eq_true, Bool.and_eq_true, Bool.or_eq_true, decide_eq_true_eq, decide_eq_true_eq, decide_eq_true_eq] at h
    obtain ⟨⟨-, hLong⟩, hOut⟩ := h
    change mv < (railRange r).1 ∨ (railRange r).2 < mv at hOut
    omega

end Sys2Proof.Claims

/-! ### Boot (R401–R408): the flash copies, the boot window, READY -/

namespace Sys2Proof.Machine
open Claims

variable {s : State}

theorem State.flash_of_boot {io : Bool} {c : List Byte} {e : Nat} (hBoot : s.sec.boot = 0) (hSrc : s.sec.bootSrc.toNat < 2)
    (hTrng : s.sec.trngStartup = true) (he : (if io then bootFlashIo else containerCause s.sec.fuses 1 1048576 c) = e) :
    execFlashReadDone io c s =
      .next (if e = 0 then s.bootFirmware (s.sec.copy + 1) c
        else if s.sec.copy = 0 then { s with sec := { s.sec with aCause := e, copy := 1 } } else s.bootFail e true) := by
  have hGo : ¬ (s.sec.boot ≠ 0 ∨ 2 ≤ s.sec.bootSrc.toNat ∨ (!s.sec.trngStartup) = true) := by
    rw [hTrng]
    rintro (h | h | h)
    · exact h hBoot
    · omega
    · exact Bool.false_ne_true h
  unfold execFlashReadDone
  dsimp only
  rw [if_neg hGo, he]
  cases e with
  | zero => exact congrArg Host.Outcome.next (if_pos rfl).symm
  | succ e =>
    rw [if_neg (Nat.succ_ne_zero e)]
    by_cases hCopy : s.sec.copy = 0
    · exact (if_pos hCopy).trans (congrArg Host.Outcome.next (if_pos hCopy).symm)
    · exact (if_neg hCopy).trans (congrArg Host.Outcome.next (if_neg hCopy).symm)

/-- SEC_BOOT_GO while the ROM waits (R407). -/
theorem State.bootGo_of_waiting (src : Nat) (hBoot : s.sec.boot = 1) :
    s.bootGo src =
      let w := s.windowContainer
      let e := containerCause w.2.sec.fuses 1 1048576 w.1
      if e = 0 then w.2.bootFirmware 3 w.1 else { w.2 with sec := { w.2.sec with cause := e, windowOpen := true } } := by
  unfold State.bootGo
  rw [if_neg (not_not_intro hBoot)]
  generalize s.windowContainer = w
  obtain ⟨c, t⟩ := w
  dsimp only
  generalize containerCause t.sec.fuses 1 1048576 c = e
  cases e with
  | zero => exact (if_pos rfl).symm
  | succ e => exact (if_neg (Nat.succ_ne_zero e)).symm

theorem State.sfCtrlWrite_rest (src : Nat) (v : W32) :
    s.sfCtrlWrite src v = { s with regs := (s.sfCtrlWrite src v).regs, safety := (s.sfCtrlWrite src v).safety } := by
  unfold State.sfCtrlWrite
  extract_lets off lft a b x
  have hRefused : OnlyRegs s (s.pgErrAt Page.safety off src [31]) := s.pgErrAt_onlyRegs _ _ _ _
  have hb : OnlyRegs s b := by
    unfold b
    split
    · exact OnlyRegs.refl.setFlag.setFld
    · exact OnlyRegs.refl.setFlag
  unfold OnlyRegs at hRefused hb
  split
  · rw [hRefused]
  · split
    · rw [hb]
    · rw [hb]

/-- A write of SF_CTRL with ARM leaves the device armed, unless its page is locked or the device is in safe state (R372). -/
theorem State.armed_sfCtrlWrite (src : Nat) {v : W32} (hv : bitOf v.toNat 0 = true) (hLocked : s.locked Page.safety = false)
    (hSafe : s.safety.safe = false) : (s.sfCtrlWrite src v).safety.armed = true := by
  cases hArmed : s.safety.armed
  · rw [(State.sfCtrlWrite_arm hv hLocked hArmed hSafe).1]
  · unfold State.sfCtrlWrite
    extract_lets off lft a b x
    have hb : b.safety = s.safety := by
      unfold b
      split
      · rfl
      · rfl
    clear_value b
    rw [hLocked, if_neg Bool.false_ne_true, if_neg (by rw [hb, hArmed, Bool.not_true, Bool.and_false]; exact Bool.false_ne_true), hb,
      hArmed]

theorem State.levelDone_rest (f : Nat × Nat × Nat → Bool) : s.levelDone f = { s with hang := (s.levelDone f).hang } := by
  unfold State.levelDone
  extract_lets more src t
  clear_value more
  split
  · cases more
    · rfl
    · rfl
  · rfl

end Sys2Proof.Machine

namespace Sys2Proof.Claims
open Machine

/-- Settles O48: a flash copy and the window by the cause that their containers give; READY by what the arming leaves. -/
theorem bootVerifies : Obligations.BootVerifies := by
  intro s src
  refine ⟨fun c hBoot hSrc hTrng => ?_, fun c hBoot hSrc hTrng hCopy => ?_, fun hBoot => congrArg Host.Outcome.next (if_pos hBoot),
    fun hBoot => congrArg Host.Outcome.next (State.bootGo_of_waiting src.val hBoot), fun hBoot hTrained => ?_⟩
  · intro e
    refine (State.flash_of_boot (io := false) (e := e) hBoot hSrc hTrng rfl).trans (congrArg Host.Outcome.next ?_)
    clear_value e
    obtain rfl | he := Decidable.em (e = 0)
    · rfl
    rw [if_neg he]
    by_cases hCopy : s.sec.copy = 0
    · rw [if_pos hCopy]
      simp only [he, hCopy, if_false, if_true]
    · rw [if_neg hCopy]
      simp only [he, hCopy, if_false]
      unfold State.bootFail State.awaitHost
      rw [if_pos rfl]
      cases hTrained : s.dramTrained
      · exact if_neg (Bool.eq_false_iff.1 hTrained)
      · exact if_pos hTrained
  · refine (State.flash_of_boot (io := true) (e := 1) hBoot hSrc hTrng rfl).trans (congrArg Host.Outcome.next ?_)
    rw [if_neg Nat.one_ne_zero, if_pos hCopy]
  · have hReady : ¬ (decide (s.sec.boot ≠ 3) || !s.dramTrained) = true := by
      have hAll : s.dramTrained = true := List.all_eq_true.2 fun ch hch => by
        rw [Bool.or_eq_true]
        exact hTrained ch (List.mem_range.1 hch)
      rw [hAll, decide_eq_false (not_not_intro hBoot)]
      exact Bool.false_ne_true
    let f := if s.sec.fwAdvance then { s.sec.fuses with fwSvn := max s.sec.fuses.fwSvn (min s.sec.fwSvn 32) } else s.sec.fuses
    let u : State := { s with sec := { s.sec with boot := 4, fuses := f } }
    let w := u.sfCtrlWrite 0 (s.reg Page.safety Reg.SF_CTRL ||| 1)
    let t := w.levelDone (·.1 == 3)
    have hSec : t.sec = u.sec := by
      unfold t w
      rw [State.levelDone_rest, State.sfCtrlWrite_rest]
    refine ⟨t, if_neg hReady, by rw [hSec], ?_, fun hLocked hSafe => ?_, fun hKeep => ?_⟩
    · rw [hSec]
      show s.sec.fuses.fwSvn ≤ f.fwSvn
      unfold f
      split
      · exact Nat.le_max_left _ _
      · exact Nat.le_refl _
    · have hArmed : w.safety.armed = true := State.armed_sfCtrlWrite 0 (bitOf_or_one _) hLocked hSafe
      unfold t
      rw [State.levelDone_rest]
      exact hArmed
    · rw [hSec]
      show f = s.sec.fuses
      unfold f
      rw [hKeep, if_neg Bool.false_ne_true]

end Sys2Proof.Claims

/-! ### Fuses, key slots, debug tokens and attestation (R411, R412, R415, R417–R419, R423) -/

namespace Sys2Proof.Machine
open Claims

variable {s : State}

theorem toNat_putBits (v : W32) {lo w : Nat} (x : Nat) (h : lo + w ≤ 32) :
    (BitVec.ofNat 32 (putBits v.toNat lo w x)).toNat = putBits v.toNat lo w x :=
  (BitVec.toNat_ofNat _ _).trans (Nat.mod_eq_of_lt (putBits_lt v.isLt h))

/-- A fuse command with the key of node 0: what its fields name (R411). -/
theorem State.fuseCmd_of_key {v : W32} {op : Nat} (hKey : bitsOf v.toNat 24 8 = 0x5A) :
    s.fuseCmd 0 (BitVec.ofNat 32 (putBits v.toNat 0 3 op)) = match op % 2 ^ 3 with
      | 1 => s.fuseRevoke (bitsOf v.toNat 3 5)
      | 2 => s.fuseProgram (bitsOf v.toNat 3 5) (bitsOf v.toNat 8 8)
      | _ => s := by
  unfold State.fuseCmd
  dsimp only
  rw [toNat_putBits v op (by decide), bitsOf_putBits_other (.inr (by decide)), bitsOf_putBits_same, bitsOf_putBits_other (.inr (by decide)),
    bitsOf_putBits_other (.inr (by decide))]
  refine if_neg ?_
  rintro (h | h)
  · exact h rfl
  · exact h hKey

theorem State.fuseCmd_of_other {src : Nat} (v : W32) (h : src ≠ 0) : s.fuseCmd src v = s := if_pos (.inl h)

theorem State.keyCtrl_of_other {src : Nat} (v : W32) (h : src ≠ 0) : s.keyCtrl src v = s := if_pos (.inl h)

/-- What a key command does to its slot, where no enabled region names the slot (R417). -/
def State.keyWork (s : State) (op k : Nat) : State :=
  if op = 1 then
    if s.sec.fuses.lifecycle = 2 then s
    else s.setKey k (some (deriveSlot s.sec.fuses.uds (s.rowBytes Page.security Reg.SEC_KEY_LABEL 32)))
  else if op = 2 then
    if s.sec.trngFail then s else s.trng.2.trng.2.setKey k (some (s.trng.1 ++ s.trng.2.trng.1))
  else s.setKey k none

theorem State.keyCtrl_of_op (v : W32) {op : Nat} (hOp : op = 1 ∨ op = 2 ∨ op = 3) :
    s.keyCtrl 0 (keyOp v op) =
      if s.slotInUse (bitsOf v.toNat 0 4) then s.writeRefused Page.security Reg.SEC_KEY_CTRL 0 else s.keyWork op (bitsOf v.toNat 0 4) := by
  have hMod : op % 2 ^ 2 = op := by omega
  unfold State.keyCtrl keyOp
  dsimp only
  rw [toNat_putBits v op (by decide), bitsOf_putBits_other (lo' := 0) (w' := 4) (.inl (by decide)), bitsOf_putBits_same, hMod,
    if_neg (by omega)]
  obtain rfl | rfl | rfl := hOp
  · rfl
  · rfl
  · rfl

/-- What a debug token changes (R419): the challenge is drawn anew, and the grant follows the token's check. -/
theorem State.dbgGo_spec (hLocked : s.sec.dbgLocked = false) :
    let token := s.rowBytes Page.security Reg.SEC_DBG_TOKEN 192
    let ok := s.tokenOk token
    let t := s.dbgGo 0
    t.sec.levels = (if ok then BitVec.ofNat 3 (natAt token 0x38 4) else s.sec.levels) ∧
    t.sec.dbgFails = (if ok then s.sec.dbgFails else min (s.sec.dbgFails + 1) 3) ∧
    t.sec.dbgLocked = (!ok && decide (2 ≤ s.sec.dbgFails)) ∧
    t.sec.keySlots = (if ok && bitOf (natAt token 0x38 4) 1 then [] else s.sec.keySlots) := by
  intro token ok t
  have ht : t = if ok then
        { s.trng.2 with sec := { s.trng.2.sec with
          challenge := s.trng.1, levels := BitVec.ofNat 3 (natAt token 0x38 4)
          keySlots := if bitOf (natAt token 0x38 4) 1 then [] else s.sec.keySlots
          keysCleared := if bitOf (natAt token 0x38 4) 1 then true else s.sec.keysCleared } }
      else { s.trng.2 with sec := { s.trng.2.sec with
        challenge := s.trng.1, dbgFails := min (s.sec.dbgFails + 1) 3, dbgLocked := min (s.sec.dbgFails + 1) 3 == 3 } } := by
    unfold t State.dbgGo
    rw [if_neg (by rw [hLocked]; simp)]
    show (if ok then _ else _) = _
    cases ok
    · rfl
    · rw [if_pos rfl, if_pos rfl]
      dsimp only
      cases bitOf (natAt token 0x38 4) 1
      · rfl
      · rfl
  rw [ht]
  clear_value ok
  cases ok
  · refine ⟨rfl, rfl, ?_, rfl⟩
    show (min (s.sec.dbgFails + 1) 3 == 3) = decide (2 ≤ s.sec.dbgFails)
    rw [beq_eq_decide]
    exact decide_eq_decide.2 (by omega)
  · exact ⟨rfl, rfl, hLocked, rfl⟩

theorem State.sendOffer_trngFail (s : State) (p : Nat) : (s.sendOffer p).sec.trngFail = s.sec.trngFail := by
  unfold State.sendOffer State.sendConfirm
  split
  · rfl
  · dsimp only
    split
    · rfl
    · rfl

/-- A recovered TRNG sends the offers that wait (R423); where none waits, nothing else happens. -/
theorem State.trngFail_offers (l : List Nat) (s : State) :
    (l.foldl (fun (s : State) (p : Nat) => if (s.link p).st = 5 then s.sendOffer p else s) s).sec.trngFail = s.sec.trngFail ∧
    ((∀ p ∈ l, (s.link p).st ≠ 5) →
      l.foldl (fun (s : State) (p : Nat) => if (s.link p).st = 5 then s.sendOffer p else s) s = s) := by
  induction l generalizing s with
  | nil => exact ⟨rfl, fun _ => rfl⟩
  | cons p l ih =>
    rw [List.foldl_cons]
    refine ⟨(ih _).1.trans ?_, fun h => ?_⟩
    · split
      · exact s.sendOffer_trngFail p
      · rfl
    · rw [if_neg (h p List.mem_cons_self)]
      exact (ih s).2 fun q hq => h q (List.mem_cons_of_mem _ hq)

end Sys2Proof.Machine

namespace Sys2Proof.Claims
open Machine

/-- Settles O49: each command of node 0 by the fields of its word. -/
theorem securityCommandsAct : Obligations.SecurityCommandsAct := by
  intro s src v f withFuses refused
  refine ⟨fun hSrc => ?_, fun hSrc hKey => ?_, fun hSrc => ?_, fun hSrc hLocked => ?_, fun hSrc => ?_, fun hSrc => ?_, rfl, ?_⟩
  · exact ⟨congrArg Host.Outcome.next (State.fuseCmd_of_other _ hSrc), congrArg Host.Outcome.next (State.fuseCmd_of_other _ hSrc),
      congrArg Host.Outcome.next (State.keyCtrl_of_other _ hSrc), congrArg Host.Outcome.next (State.keyCtrl_of_other _ hSrc),
      congrArg Host.Outcome.next (State.keyCtrl_of_other _ hSrc), congrArg Host.Outcome.next (if_pos (.inl hSrc)),
      congrArg Host.Outcome.next (if_pos hSrc), congrArg Host.Outcome.next (if_pos hSrc)⟩
  · have hRevoke : exec (.fuseRevoke src v) s = .next (s.fuseRevoke (bitsOf v.toNat 3 5)) := by
      show Host.Outcome.next (s.fuseCmd src.val _) = _
      rw [hSrc]
      exact congrArg Host.Outcome.next (State.fuseCmd_of_key (op := 1) hKey)
    have hProgram : exec (.fuseProgram src v) s = .next (s.fuseProgram (bitsOf v.toNat 3 5) (bitsOf v.toNat 8 8)) := by
      show Host.Outcome.next (s.fuseCmd src.val _) = _
      rw [hSrc]
      exact congrArg Host.Outcome.next (State.fuseCmd_of_key (op := 2) hKey)
    refine ⟨fun k hk hRange hSigner hOther => ?_, fun hSigner => ?_, fun hField hValue hMay => ?_, fun hField hValue => ?_,
      fun hField hLife => ?_⟩
    · obtain ⟨j, hj, hNe, hLive, hPerm⟩ := hOther
      have hAny : ((List.range 4).any fun j => j != k && !f.revoked j && bitOf (f.perm j) 0) = true := by
        refine List.any_eq_true.2 ⟨j, List.mem_range.2 hj, ?_⟩
        rw [hLive, hPerm, bne_iff_ne.2 hNe]
        rfl
      refine hRevoke.trans (congrArg Host.Outcome.next ?_)
      rw [hk]
      refine if_neg ?_
      rintro (h | h | h)
      · omega
      · exact hSigner h
      · rw [hAny] at h
        exact Bool.false_ne_true h
    · refine hRevoke.trans (congrArg Host.Outcome.next (if_pos (.inr (.inl ?_))))
      exact hSigner.symm
    · refine hProgram.trans (congrArg Host.Outcome.next ?_)
      unfold State.fuseProgram
      dsimp only
      rw [if_pos hField, hValue, if_pos ⟨rfl, by omega⟩]
      rfl
    · refine hProgram.trans (congrArg Host.Outcome.next ?_)
      unfold State.fuseProgram
      dsimp only
      rw [if_pos hField, if_neg fun h => hValue h.1]
      rfl
    · refine hProgram.trans (congrArg Host.Outcome.next ?_)
      unfold State.fuseProgram
      dsimp only
      rw [if_neg hField, if_pos hLife]
      rfl
  · intro k
    have hCtrl {op : Nat} (hOp : op = 1 ∨ op = 2 ∨ op = 3) :
        s.keyCtrl src.val (keyOp v op) =
          if s.slotInUse k then s.writeRefused Page.security Reg.SEC_KEY_CTRL src.val else s.keyWork op k := by
      rw [hSrc]
      exact State.keyCtrl_of_op v hOp
    refine ⟨fun hFree => ?_, fun hUsed => ?_⟩
    · rw [hFree] at hCtrl
      refine ⟨congrArg Host.Outcome.next (hCtrl (.inr (.inr rfl))), fun hLife => ?_, fun hTrng => ?_⟩
      · exact congrArg Host.Outcome.next ((hCtrl (.inl rfl)).trans (if_neg hLife))
      · refine ⟨s.trng.1 ++ s.trng.2.trng.1, s.trng.2.trng.2.setKey k (some (s.trng.1 ++ s.trng.2.trng.1)),
          congrArg Host.Outcome.next ((hCtrl (.inr (.inl rfl))).trans (if_neg (Bool.eq_false_iff.1 hTrng))),
          ?_, fun j hj => ?_, rfl⟩
        · unfold State.setKey
          dsimp only
          rw [SMap.get_set_same]
        · unfold State.setKey
          dsimp only
          rw [SMap.get_set_other _ _ _ _ _ _ hj]
          rfl
    · rw [hUsed] at hCtrl
      exact ⟨congrArg Host.Outcome.next (hCtrl (.inr (.inr rfl))), congrArg Host.Outcome.next (hCtrl (.inl rfl)),
        congrArg Host.Outcome.next (hCtrl (.inr (.inl rfl)))⟩
  · refine ⟨s.dbgGo src.val, rfl, ?_⟩
    rw [hSrc]
    exact State.dbgGo_spec hLocked
  · exact congrArg Host.Outcome.next (if_neg (not_not_intro hSrc))
  · exact congrArg Host.Outcome.next (if_neg (not_not_intro hSrc))
  · obtain ⟨hFail, hSame⟩ := State.trngFail_offers [0, 1, 2, 3] { s with sec := { s.sec with trngFail := false } }
    refine ⟨_, rfl, hFail, fun h => hSame fun p hp => h p ?_⟩
    simp only [List.mem_cons, List.not_mem_nil, or_false] at hp
    omega

end Sys2Proof.Claims

/-! ### Power domains and the operating point (R426–R433) -/

namespace Sys2Proof.Machine
open Claims

theorem pageInstance_of_link {p : Nat} (h : pageKind p = some .link) : pageInstance p < 4 := by
  have hRange : 0x300 ≤ p ∧ p < 0x340 := by
    by_contra hNot
    unfold pageKind at h
    split at h
    · exact absurd (List.mem_of_getElem? h) (by decide)
    split at h
    · exact absurd (List.mem_of_getElem? h) (by decide)
    split_ifs at h <;> cases h
  unfold pageInstance
  rw [show Page.dpPair = 0x11 from rfl, show Page.fabric = 0x303 from rfl, show Page.tsync = 0x304 from rfl]
  split_ifs <;> omega

/-- `t` has the power domains of `s`. -/
def PowerStays (s t : State) : Prop := t.power = s.power

namespace PowerStays

variable {s t u : State}

theorem refl (s : State) : PowerStays s s := rfl

theorem trans (a : PowerStays s t) (b : PowerStays t u) : PowerStays s u := Eq.trans b a

theorem ite {c : Prop} [Decidable c] (a : PowerStays s t) (b : PowerStays s u) : PowerStays s (if c then t else u) := by
  split
  · exact a
  · exact b

theorem foldl {α : Type} {f : State → α → State} {l : List α} (h : PowerStays s t) (hf : ∀ u a, PowerStays s u → PowerStays s (f u a)) :
    PowerStays s (l.foldl f t) := List.foldlRecOn l f h fun u hu a _ => hf u a hu

theorem beside (a : PowerStays s t) (b : Beside t u) : PowerStays s u := a.trans b.power

theorem frame (h : PowerStays s t) (e : u.power = t.power) : PowerStays s u := h.trans e

theorem bankDrop {p : Nat} (h : PowerStays s t) : PowerStays s (t.bankDrop p) := h.foldl fun _ _ h => ite h h

theorem sendZeros {p : Nat} (h : PowerStays s t) : PowerStays s (t.sendZeros p) := by
  unfold State.sendZeros
  exact ite h h

theorem portStart {p : Nat} (h : PowerStays s t) : PowerStays s (t.portStart p) := by
  unfold State.portStart
  extract_lets a
  have ha : PowerStays s a := bankDrop h
  clear_value a
  split
  · exact ha
  · exact ha

theorem portEnable {src p : Nat} (h : PowerStays s t) : PowerStays s (t.portEnable src p) := by
  unfold State.portEnable
  extract_lets pg
  split
  · exact h
  · split
    · exact ite (portStart h) (h.beside (Beside.refl t).setFlag.pgErrAt)
    · exact h
    · exact h

theorem portDisable {p : Nat} (h : PowerStays s t) : PowerStays s (t.portDisable p) := by
  unfold State.portDisable
  extract_lets a b x valid d
  have hd : PowerStays s d := h
  clear_value d
  split
  · exact sendZeros h
  · exact ite hd hd.sendZeros
  · exact h
  · exact h

theorem dpEnable {src : Nat} (h : PowerStays s t) : PowerStays s (t.dpEnable src) := by
  unfold State.dpEnable
  extract_lets pg a b _ _ d b' _
  have ha : PowerStays s a := h.beside (Beside.refl t).setFld
  have hb : PowerStays s b := ha.beside (Beside.refl a).setFlag
  have hRefused : PowerStays s ((a.setFlag pg Reg.PG_CTRL 0 false).enableRefused pg src) :=
    ha.beside (Beside.refl a).setFlag.pgErrAt
  have hb' : PowerStays s b' := h.beside (Beside.refl t).setFlag
  clear_value d b b'
  split
  · exact h
  · split
    · exact ite (hb.frame rfl) hRefused
    · exact hb'.frame rfl
    · exact h

theorem dpDisable (h : PowerStays s t) : PowerStays s t.dpDisable := by
  unfold State.dpDisable
  extract_lets a b src
  split
  · exact h
  · exact h
  · exact h
  · exact h

theorem linkEnable {src p : Nat} (h : PowerStays s t) : PowerStays s (t.linkEnable src p) := by
  unfold State.linkEnable
  exact ite h (ite (h.beside (Beside.refl t).pgErrAt) (ite h h))

theorem goDown {p : PortId} {cause : DownCause} (h : PowerStays s t) : PowerStays s (t.goDown p.val cause) := by
  by_cases hOff : (t.link p.val).st = 0 ∨ (t.link p.val).st = 8
  · rw [State.goDown, if_pos hOff]
    exact h
  · exact h.trans (t.goDown_stays p cause (fun e => hOff (.inl e)) fun e => hOff (.inr e)).power

theorem linkDisable {p : PortId} (h : PowerStays s t) : PowerStays s (t.linkDisable p.val) := by
  unfold State.linkDisable State.resetLink
  extract_lets l a
  have ha : PowerStays s a := by
    unfold a
    split
    · exact ite h h
    · exact h
  exact ite h (goDown ha)

theorem simpleEnable {page : Nat} {en : Bool} (h : PowerStays s t) : PowerStays s (t.simpleEnable page en) := by
  unfold State.simpleEnable State.lockPending
  exact ite (ite h h) h

theorem blockEnable {src page : Nat} {en : Bool} (h : PowerStays s t) : PowerStays s (t.blockEnable src page en) := by
  unfold State.blockEnable
  split
  · exact h
  next k hKind =>
    extract_lets p
    split
    · exact h
    split
    · exact h
    split
    · exact ite h.portEnable h.portDisable
    · exact ite h.portEnable h.portDisable
    · exact ite h.portEnable h.portDisable
    · exact ite h.dpEnable h.dpDisable
    · exact ite h.linkEnable (h.linkDisable (p := ⟨pageInstance page, pageInstance_of_link hKind⟩))
    · exact ite h.simpleEnable h

theorem groupFlush {q : Nat} (h : PowerStays s t) : PowerStays s (t.groupFlush q) := by
  unfold State.groupFlush
  refine h.foldl fun u e h => ?_
  split
  · exact h
  · refine ite ?_ h
    unfold State.evict
    split
    · exact h
    next l _ =>
      have hBack : PowerStays s (if l.dirty then u.writeBack l else u) := ite h h
      exact hBack.frame rfl

theorem pageReset {page : Nat} (h : PowerStays s t) : PowerStays s (t.pageReset page) := h

theorem domainLost {d : Nat} (h : PowerStays s t) : PowerStays s (t.domainLost d) := by
  unfold State.domainLost
  extract_lets a f k
  have ha : PowerStays s a := h.foldl fun _ _ h => h.pageReset
  clear_value f a
  have hPorts (l : List Nat) (g : Nat → Nat) : PowerStays s (l.foldl (fun (s : State) p => s.setPort (g p) {}) a) :=
    ha.foldl fun _ _ h => h
  exact ite ha (ite ha (ite ha (ite (hPorts _ _) (ite (hPorts _ _) (ite (hPorts _ _) (ite ha (ite ha (ite ha (ite ha ha)))))))))

end PowerStays

end Sys2Proof.Machine

/-! ### What the power commands do (R426–R433) -/

namespace Sys2Proof.Machine
open Claims

variable {s t : State} {d : Nat}

theorem PowerStays.domState (h : PowerStays s t) (d : Nat) : t.domState d = s.domState d := by
  rw [State.domState, show t.power = s.power from h, State.domState]

theorem State.domState_setDom (s : State) (d st e : Nat) : (s.setDom d st).domState e = if e = d then st else s.domState e :=
  SMap.get_set _ _ _ _ _

theorem mem_insertDomain {e d : Nat} {l : List Nat} : e ∈ insertDomain d l ↔ e = d ∨ e ∈ l := by
  induction l with
  | nil => simp [insertDomain]
  | cons x r ih =>
    unfold insertDomain
    split
    · exact List.mem_cons
    · split
      next h => rw [List.mem_cons, h]; simp
      next => rw [List.mem_cons, List.mem_cons, ih]; tauto

/-- An OFF domain starts, or waits in its turn (R427). -/
theorem State.domainUp_of_off (hOff : s.domState d = 0) (hNew : s.power.waiting.contains d = false) :
    s.domainUp d = (s.setFlag Page.power (Reg.PW_DOM_CTRL + 4 * d) 0 true).startDomain d := by
  unfold State.domainUp
  extract_lets u
  rw [show u.domState d = 0 from hOff]
  exact if_neg (by rw [show u.power.waiting.contains d = false from hNew]; exact Bool.false_ne_true)

/-- A refused stop (R426): the domain stays ON, and the refusal is recorded. -/
theorem State.domainDown_refused (src : Nat) (hd : d < 80) (hOn : s.domState d = 2) (hRefused : s.downRefused d = true) :
    (s.domainDown src d).domState d = 2 ∧ (s.domainDown src d).flag Page.power Reg.PG_ERR_STATUS 28 = true ∧
      (s.domainDown src d).fld Page.power Reg.PW_LAST_REFUSED 0 7 = d := by
  have hDown : s.domainDown src d =
      (s.pgErrAt Page.power (Reg.PW_DOM_CTRL + 4 * d) src [28, 0]).setFld Page.power Reg.PW_LAST_REFUSED 0 7 d := by
    unfold State.domainDown
    rw [hOn]
    exact if_pos hRefused
  have hPower : PowerStays s (s.domainDown src d) := by
    rw [hDown]
    exact (Beside.refl s).pgErrAt.setFld.power
  refine ⟨(hPower.domState d).trans hOn, ?_, ?_⟩
  · rw [hDown, State.flag, State.reg_setFld_off (by decide) (by decide) (by decide),
      State.reg_pgErrAt_other (by decide) (by decide) (by decide) (by decide)]
    show ((s.setFlag Page.power Reg.PG_ERR_STATUS 28 true).setFlag Page.power Reg.PG_ERR_STATUS 0 true).flag
      Page.power Reg.PG_ERR_STATUS 28 = true
    rw [State.flag_setFlag_beside (by decide) (by decide)]
    exact State.flag_setFlag_same (by decide) true
  · rw [hDown, State.fld_setFld_same (by decide), Nat.mod_eq_of_lt (by omega)]

/-- A stop that nothing forbids (R426): the domain is STOPPING, and every other stays. -/
theorem State.domainDown_stops (src : Nat) (hOn : s.domState d = 2) (hMay : s.downRefused d = false) (e : Nat) :
    (s.domainDown src d).domState e = if e = d then 3 else s.domState e := by
  have hDown : s.domainDown src d = (s.setFlag Page.power (Reg.PW_DOM_CTRL + 4 * d) 0 false).stopDomain d := by
    unfold State.domainDown
    rw [hOn]
    exact if_neg (by rw [hMay]; exact Bool.false_ne_true)
  rw [hDown]
  unfold State.stopDomain
  extract_lets u
  have hu : PowerStays s u :=
    PowerStays.foldl (t := s.setFlag Page.power (Reg.PW_DOM_CTRL + 4 * d) 0 false) rfl fun v p hv => hv.blockEnable
  rw [State.domState_setDom, hu.domState]

/-- A domain that reaches ON with none waiting (R427, R428). -/
theorem State.domainDone_on (hSt : s.domState d = 1) (hUp : s.flag Page.power (Reg.PW_DOM_CTRL + 4 * d) 0 = true)
    (hNone : s.power.waiting = []) :
    (s.domainDone d).domState d = 2 ∧ (s.domainDone d).flag Page.power Reg.PG_IRQ_STATUS 2 = true := by
  have hOn : (s.domainOn d).power.waiting = [] ∧ (s.domainOn d).domState d = 2 := by
    unfold State.domainOn
    extract_lets a b
    have hb : b.power.waiting = [] ∧ b.domState d = 2 := ⟨hNone, (s.domState_setDom d 2 d).trans (if_pos rfl)⟩
    have hFold : PowerStays b ((pagesOf d).foldl (fun (s : State) (p : Nat) =>
        if s.flag p Reg.PG_STATE 2 then (s.setFlag p Reg.PG_STATE 2 false).blockEnable s.node p true else s) b) :=
      (PowerStays.refl b).foldl fun u p hu => .ite (PowerStays.blockEnable (t := u.setFlag p Reg.PG_STATE 2 false) hu) hu
    exact ⟨(congrArg Power.waiting hFold).trans hb.1, (hFold.domState d).trans hb.2⟩
  have hDone : s.domainDone d = (s.domainOn d).irq Page.power 2 := by
    unfold State.domainDone State.startWaiting
    rw [hSt, hOn.1]
    exact if_pos hUp
  rw [hDone]
  exact ⟨(PowerStays.domState ((Reports.refl _).irq (by decide)).beside.power d).trans hOn.2, State.flag_irq (by decide)⟩

/-- A domain that reaches OFF with no UP pending (R427). -/
theorem State.domainDone_off (hSt : s.domState d = 3) (hUp : s.upPending d = false) (hBlocks : (pagesOf d).all s.blockOff = true) :
    (s.domainDone d).domState d = 0 ∧ (s.domainDone d).flag Page.power Reg.PG_IRQ_STATUS 2 = true := by
  unfold State.domainDone
  rw [hSt]
  extract_lets a b x
  have ha : PowerStays s a := .ite (PowerStays.groupFlush (.refl s)) (.refl s)
  have hLost : PowerStays s (a.domainLost d) := ha.domainLost
  have hb : b.domState d = 0 := ((a.domainLost d).domState_setDom d 0 d).trans (if_pos rfl)
  have hPend : b.upPending d = false := by
    show SMap.get (a.domainLost d).power.up d false = false
    rw [hLost]
    exact hUp
  have hx : x = b := if_neg (by rw [hPend]; exact Bool.false_ne_true)
  rw [if_pos hBlocks, hx]
  exact ⟨(PowerStays.domState ((Reports.refl _).irq (by decide)).beside.power d).trans hb, State.flag_irq (by decide)⟩

theorem State.power_reach (s : State) (t : W64) : (s.reach t).power = s.power := by rw [s.reach_eq t]

theorem State.fld_reach (s : State) (t : W64) (p o lo w : Nat) : (s.reach t).fld p o lo w = s.fld p o lo w := by
  rw [s.reach_eq t]
  rfl

theorem execThrottleStep_of_hot {u : State} (hHot : s.power.throttle = true) (hOp : s.power.op < s.opFloor)
    (hu : s.reach (s.power.stepAt + BitVec.ofNat 64 (usTb 1000)) = u) :
    execThrottleStep s = .next (State.setPoint { u with power := { s.power with stepAt := u.now } } (s.power.op + 1)) := by
  have hPower : u.power = s.power := hu ▸ s.power_reach _
  unfold execThrottleStep
  rw [if_pos (by rw [hHot, decide_eq_true hOp]; rfl), hu]
  dsimp only [State.modPower]
  rw [hPower]

theorem execSensorUpdate_eq {u : State} (l : List SensorReading)
    (hu : s.reach (s.power.sensorAt + BitVec.ofNat 64 (usTb 100)) = u) :
    execSensorUpdate l s = .next (([0, 1, 2, 3].foldl (fun (s : State) q => s.stackUpdate q)
      (State.sensorsSet { u with power := { s.power with sensorAt := u.now } } 0 l)).thermalLevels) := by
  have hPower : u.power = s.power := hu ▸ s.power_reach _
  unfold execSensorUpdate
  rw [hu]
  dsimp only [State.modPower]
  rw [hPower]

/-- An estimate of the power joins its window, or ends it (R432). -/
theorem execPowerEstimate_spec {u : State} (mw : Nat) (hu : s.reach (s.power.estAt + BitVec.ofNat 64 (usTb 100)) = u) :
    let n := 10 * max 1 (s.fld Page.power Reg.PW_LIMIT 16 7)
    let l := s.power.est ++ [mw]
    (l.length < n → execPowerEstimate mw s = .next { u with power := { s.power with est := l, estAt := u.now } }) ∧
    (n ≤ l.length → ∃ t, execPowerEstimate mw s = .next t ∧ t.power.est = [] ∧ t.power.estAt = u.now ∧
      t.fld Page.power Reg.PW_EST 0 16 = min (l.sum / l.length) 0xFFFF) := by
  intro n l
  have hPower : u.power = s.power := hu ▸ s.power_reach _
  have hLimit : u.fld Page.power Reg.PW_LIMIT 16 7 = s.fld Page.power Reg.PW_LIMIT 16 7 := hu ▸ s.fld_reach _ _ _ _ _
  let v : State := u.modPower fun p => { p with estAt := u.now }
  let w : State := v.setFld Page.power Reg.PW_EST 0 16 (min (l.sum / l.length) 0xFFFF)
  have hEst : execPowerEstimate mw s = if l.length < n then .next (v.modPower fun p => { p with est := l })
      else .next (w.modPower fun p => { p with
        est := [], lowWindows := if l.sum / l.length + 1000 ≤ w.powerLimit then p.lowWindows + 1 else 0 }) := by
    unfold execPowerEstimate
    rw [hu]
    dsimp only
    have hList : u.power.est = s.power.est := congrArg Power.est hPower
    rw [show (u.modPower fun p => { p with estAt := u.now }).power.est = s.power.est from hList,
      show (u.modPower fun p => { p with estAt := u.now }).fld Page.power Reg.PW_LIMIT 16 7 = s.fld Page.power Reg.PW_LIMIT 16 7
        from hLimit]
  refine ⟨fun hMore => ?_, fun hFull => ⟨_, hEst.trans (if_neg (Nat.not_lt.2 hFull)), rfl, rfl, ?_⟩⟩
  · rw [hEst, if_pos hMore]
    dsimp only [State.modPower, v]
    rw [hPower]
  · refine (State.fld_setFld_same (by decide)).trans (Nat.mod_eq_of_lt ?_)
    omega

theorem State.op_setPoint (s : State) (p : Nat) : (s.setPoint p).power.op = p := by
  unfold State.setPoint
  split
  next h => exact h.symm
  next => rfl

end Sys2Proof.Machine

namespace Sys2Proof.Claims
open Machine

/-- Settles O51: a domain's commands by its state; starting and stopping blocks touch no domain (`PowerStays`). -/
theorem powerDomainsFollow : Obligations.PowerDomainsFollow := by
  intro s src d off
  refine ⟨fun hOn => ?_, fun hOff hNew => ⟨fun hFew => ?_, fun hMany => ?_⟩,
    fun hOn hRefused => ⟨_, rfl, State.domainDown_refused src.val d.isLt hOn hRefused⟩,
    fun hOn hMay => ⟨_, rfl, ?_, fun e he => ?_⟩, fun hSt hUp hNone => ⟨_, rfl, State.domainDone_on hSt hUp hNone⟩,
    fun hSt hUp hBlocks => ⟨_, rfl, State.domainDone_off hSt hUp hBlocks⟩, fun mw => ?_, fun hRun => ?_, fun hHot hOp => ?_, fun l => ?_⟩
  · show Host.Outcome.next (s.domainUp d.val) = _
    unfold State.domainUp
    extract_lets u
    rw [show u.domState d.val = 2 from hOn] <;> rfl
  · refine congrArg Host.Outcome.next ((State.domainUp_of_off hOff hNew).trans ?_)
    exact if_pos hFew
  · have hWaits : s.domainUp d.val = (s.setFlag Page.power off 0 true).modPower fun p => { p with waiting := insertDomain d.val p.waiting } :=
      (State.domainUp_of_off hOff hNew).trans (if_neg (Nat.not_lt.2 hMany))
    refine ⟨_, congrArg Host.Outcome.next hWaits, hOff, ?_, fun e he => mem_insertDomain.2 (.inr he)⟩
    exact List.contains_iff_mem.2 (mem_insertDomain.2 (.inl rfl))
  · rw [State.domainDown_stops src.val hOn hMay, if_pos rfl]
  · rw [State.domainDown_stops src.val hOn hMay, if_neg he]
  · intro n l u
    have hUs : BitVec.ofNat 64 (usTb 100) = 25600000 := by decide
    have hu : s.reach (s.power.estAt + BitVec.ofNat 64 (usTb 100)) = u := by rw [hUs]
    clear_value u
    exact execPowerEstimate_spec mw hu
  · have hStep : exec .opPointChange s = .next (s.setPoint s.power.target) := by
      show execOpPointChange s = _
      unfold execOpPointChange
      rw [if_neg (by rw [hRun]; exact Bool.false_ne_true)]
    exact ⟨hStep, s.op_setPoint _⟩
  · intro u
    have hUs : BitVec.ofNat 64 (usTb 1000) = 256000000 := by decide
    have hu : s.reach (s.power.stepAt + BitVec.ofNat 64 (usTb 1000)) = u := by rw [hUs]
    clear_value u
    exact ⟨execThrottleStep_of_hot hHot hOp hu, u.op_setPoint _⟩
  · intro u v
    have hUs : BitVec.ofNat 64 (usTb 100) = 25600000 := by decide
    have hu : s.reach (s.power.sensorAt + BitVec.ofNat 64 (usTb 100)) = u := by rw [hUs]
    exact execSensorUpdate_eq l hu

end Sys2Proof.Claims

/-! ### Streams (R145–R148, R154–R157, R167, R171, R362) -/

namespace Sys2Proof.Machine
open Claims

theorem State.stream_flight (s : State) (c : CmdSlot) (op i : Nat) : (s.flight c op).stream i = s.stream i := rfl

section
variable {s : State} {c : CmdSlot} {op i : Nat} {used : List (Nat × Nat)} {body : Nat → State → State}

/-- A command on a stream in use does its work. -/
theorem State.onStream_of_live (h : Starts s c used) (hName : c.nat 0x08 2 = i) (hRange : i < 2048) (hLive : (s.stream i).st ≠ 0) :
    s.onStream c op used body = body i (s.flight c op) := by
  subst hName
  exact (State.command_of_starts h).trans (if_neg (not_or.mpr ⟨by omega, hLive⟩))

/-- A command on a FREE entry is refused (R155). -/
theorem State.onStream_of_free (h : Starts s c used) (hName : c.nat 0x08 2 = i) (hFree : (s.stream i).st = 0) :
    s.onStream c op used body = completed s c op 0x0E 0 0 := by
  subst hName
  exact (State.command_of_starts h).trans (if_pos (.inr hFree))

end

/-- An open that succeeds took a FREE entry, and no other entry changes (R154). -/
theorem State.openStream_of_ok {s t : State} {a : OpenArgs} {i : Nat} (h : s.openStream a = (0, i, t)) :
    (s.stream i).st = 0 ∧ (t.stream i).st = 6 ∧ (t.stream i).firstChunk = true ∧ (t.stream i).ctx = a.ctx ∧
      ∀ j, j ≠ i → t.stream j = s.stream j := by
  unfold State.openStream at h
  dsimp only at h
  split at h
  · cases h
  next k hFind =>
    split at h
    · cases h
    · split at h
      · cases h
        have hFree := List.find?_some hFind
        refine ⟨beq_iff_eq.mp hFree, ?_⟩
        simp +contextual
      · cases h

/-- A slot that is exported leaves the device in packets and is counted (R359). -/
theorem State.exportSlot_beside (s : State) (bar : Nat) (z : Bool) (e : Nat × Nat × Nat) : Beside s (s.exportSlot bar z e) := by
  unfold State.exportSlot
  refine Beside.count (List.foldlRecOn (imagePieces _) _ (Beside.refl s) fun t ht o _ => ?_)
  dsimp only
  split
  · exact ht
  · exact ht.trans (Reports.refl t).request.beside

/-! ### A push leaves the node ID -/

theorem State.node_slotDone (s : State) (q : Nat) (pushed : Bool) : (s.slotDone q pushed).node = s.node := by
  unfold State.slotDone State.noteEntry
  dsimp only
  split
  · rfl
  · split
    · split
      · rfl
      · rfl
    · split
      · rfl
      · rfl

theorem State.node_pushRefused (s : State) (q : Nat) : (s.pushRefused q).node = s.node := by
  unfold State.pushRefused
  dsimp only
  split
  · rfl
  · rfl

theorem State.node_agentWait (s : State) (unit : Nat) (obj : W64) (ctx : Option CtxId) : (s.agentWait unit obj ctx).node = s.node := by
  unfold State.agentWait State.addWait
  split
  · rfl
  · split
    · rfl
    · rfl

theorem State.node_writeSlotOf (s : State) (q : Nat) (pushed : Bool) (answer : Option Packet) (bytes : Nat → List Byte) :
    (s.writeSlotOf q pushed answer bytes).2.node = s.node := by
  unfold State.writeSlotOf
  extract_lets _ _ _ _ _ _ _ t u
  have hSent : u.node = s.node := t.node_agentWait _ _ _
  split
  · exact (State.node_slotDone _ _ _).trans (QueuesStay.refl s).writeSpan.2
  · split
    · exact s.node_slotDone q pushed
    · exact List.foldlRecOn (motive := fun v : State => v.node = s.node) _ _ hSent fun v hv _ _ =>
        (Reports.refl v).request.beside.node.trans hv

/-- A push leaves the node ID, whatever it answers. -/
theorem State.node_push (s : State) (q src : Nat) (own : Bool) (payload : List Byte) : (s.push q src own payload).2.node = s.node := by
  unfold State.push State.pushFor
  dsimp only
  split
  · exact s.node_pushRefused q
  · split
    · exact s.node_pushRefused q
    · split
      · exact s.node_pushRefused q
      · refine (State.node_writeSlotOf _ _ _ _ _).trans ?_
        split
        · split
          · rfl
          · rfl
        · rfl

end Sys2Proof.Machine

namespace Sys2Proof.Claims
open Machine

section
variable {s : State}

/-- The work lists of a context are written once its inputs have arrived (R167). -/
theorem execWorkListReady_of_arrived {n : CtxId} {cut : W64} (hCut : (s.ctx n.val).cutoff = some cut)
    (hReady : (s.ctx n.val).listReady = none) (hReads : s.readsOpen n.val = false) :
    let u := (s.writeLists n.val s.pattern.bar cut).agentDone Page.streams (BitVec.ofNat 64 n.val)
    let u := u.modCtx n.val fun x => { x with listReady := some u.now }
    let u := u.setFld Page.streams Reg.SM_WL_TIME_MAX 0 20
      (max (u.fld Page.streams Reg.SM_WL_TIME_MAX 0 20) (min ((u.now - cut).toNat / 256) 0xFFFFF))
    u.isBE n.val = false → exec (.workListReady n) s = .next ((u.ctxCores n.val).foldl (fun s c => s.resched c) u) := by
  intro u v w hRank
  have hOpen : ¬ (((s.ctx n.val).listReady.isSome || s.readsOpen n.val) = true) := by simp [hReady, hReads]
  show execWorkListReady n s = _
  unfold execWorkListReady
  dsimp only
  rw [hCut]
  refine (if_neg hOpen).trans ?_
  refine congrArg (fun t : State => Host.Outcome.next ((t.ctxCores n.val).foldl (fun s c => s.resched c) t)) (?_ : _ = w)
  exact if_neg (by rw [hRank]; exact Bool.false_ne_true)

/-- A due park of a stream whose bar is done, where `e` is what the write of its record answered (R145). -/
theorem execParkRecordWrite_of_due {i : StreamId} {w : StreamCmd} {rest : List StreamCmd} (status : Byte)
    (hWaits : (s.stream i.val).waiting = w :: rest) (hParking : (s.stream i.val).st = 3) (hDue : (s.stream i.val).due = true)
    (hDone : s.stepsDone (s.stream i.val) = true) {e : Nat} :
    let r := s.writeGlobal (.ctx (Fin.ofNat 64 (s.stream i.val).ctx)) 6 w.record (s.parkRecord i.val (s.stream i.val).dueT)
    (if r.1 ≠ 0 ∨ nodeOf w.record = r.2.node then r.1 else completionCode status) = e →
    let u := ((s.stream i.val).slots.foldl (fun (s : State) v =>
      s.xfer (v.1 / 16) (32 * (s.region (v.1 / 16) (v.1 % 16)).lines)) r.2).bindIfMirrored i.val 1
    exec (.parkRecordWrite i status) s =
      if e ≠ 0 then .next ((r.2.setStream i.val { s.stream i.val with st := 1, due := false, activeInBar := true }).finishWait i.val 0x43 e)
      else .next ((u.modStream i.val fun y => { y with
          st := 2, slots := [], due := false, activeInBar := false,
          resetAt := if y.resetPending then 0 else y.resetAt }).finishWait i.val 0x43 0) := by
  intro r he u
  subst he
  have hIdle : ¬ ((decide ((s.stream i.val).st ≠ 3) || !(s.stream i.val).due || !s.stepsDone (s.stream i.val)) = true) := by
    simp [hParking, hDue, hDone]
  show execParkRecordWrite i status s = _
  unfold execParkRecordWrite
  dsimp only
  rw [hWaits]
  exact if_neg hIdle

/-- A due unpark as the reads of its record answer (R146). -/
theorem execUnparkRun_of_due {i : StreamId} {w : StreamCmd} {rest : List StreamCmd} {f : Fetched}
    (hWaits : (s.stream i.val).waiting = w :: rest) (hParked : (s.stream i.val).st = 4) (hDue : (s.stream i.val).due = true) :
    let back (u : State) (e : Nat) : State := (u.modStream i.val fun y => { y with st := 2, due := false }).finishWait i.val 0x44 e
    (∀ e h u, e ≠ 0 → s.readRecord i.val w.record f 0 32 = (e, h, u) → exec (.unparkRun i f) s = .next (back u e)) ∧
    (∀ h0 u0 h u, s.readRecord i.val w.record f 0 32 = (0, h0, u0) →
      u0.readRecord i.val w.record f 0 (parkHeadBytes h0) = (0, h, u) →
      let ds := parkDescs h
      let free := u.allocIn (u.mirroredSection (s.stream i.val).section_) (ds.map fun d => (d.1, d.2.1)).eraseDups
      (free = none → exec (.unparkRun i f) s = .next (back u 0x06)) ∧
      (∀ m, free = some m → u.parkMatches i.val h = false → exec (.unparkRun i f) s = .next (back u 0x0E)) ∧
      (∀ m l v, free = some m → u.parkMatches i.val h = true →
        u.readRecord i.val w.record f (parkHeadBytes h) ((ds.map fun d => 32 * d.2.2.2.1).sum) = (0, l, v) →
        let put := ds.foldl (fun (s : State) d =>
          (s.putImage d.1 d.2.1 (SMap.get m (16 * d.1 + d.2.1) 0)
            (bytesAt l (d.2.2.2.2.2 - parkHeadBytes h) (32 * d.2.2.2.1))).xfer d.1 (32 * d.2.2.2.1)) v
        exec (.unparkRun i f) s = .next (((put.modStream i.val fun y => { y with
          st := 1, slots := m, due := false, activeInBar := true }).bindIfMirrored i.val 0).finishWait i.val 0x44 0))) := by
  intro back
  have hIdle : ¬ ((decide ((s.stream i.val).st ≠ 4) || !(s.stream i.val).due) = true) := by simp [hParked, hDue]
  have hOk : ¬ ((0 : Nat) ≠ 0) := fun h => h rfl
  have hExec : exec (.unparkRun i f) s = execUnparkRun i f s := rfl
  rw [hExec]
  unfold execUnparkRun
  dsimp only
  rw [hWaits]
  dsimp only
  rw [if_neg hIdle]
  refine ⟨fun e h u hFails hRead => ?_, fun h0 u0 h u hHead hDescs => ?_⟩
  · rw [hRead]
    exact if_pos hFails
  · rw [hHead]
    dsimp only
    rw [if_neg hOk, hDescs]
    dsimp only
    rw [if_neg hOk]
    refine ⟨fun hFull => ?_, fun m hRoom hOther => ?_, fun m l v hRoom hMatch hImages => ?_⟩
    · rw [hFull]
    · rw [hRoom]
      exact if_pos (by rw [hOther]; rfl)
    · rw [hRoom]
      refine (if_neg (by rw [hMatch]; exact Bool.false_ne_true)).trans ?_
      rw [hImages]
      exact if_neg hOk

/-- The status of a transfer within this device is the one that the transfer itself gave. -/
theorem status_of_local {p : Prop} [Decidable p] {n k : Nat} (h : p) : (if n ≠ 0 then n else if p then 0 else k) = n := by
  rw [if_pos h]
  exact ite_eq_left_iff.mpr fun h => (not_not.mp h).symm

/-- The last staged commit of a stream, to a buffer and a queue of this device (R171). -/
theorem execQueueOutputCommit_of_local {i : StreamId} {o : OutCommit} {copyStatus pushStatus : Byte}
    (hLast : (s.stream i.val).outCommits = [o]) (hPair : s.pair.st ≠ 2) (hBytes : o.payload ≠ []) :
    let x := s.stream i.val
    let a := x.outBufBase + BitVec.ofNat 64 (x.outBufNext * x.outBufSize)
    nodeOf a = s.node → x.outNode = s.node →
    let u := (s.setStream i.val { x with outCommits := [] }).agentDone Page.streams (BitVec.ofNat 64 (4096 + i.val))
    let r := u.writeGlobal .sys 4 a o.payload
    let fail (t : State) : State := (t.count Page.streams Reg.SM_PUSH_FAIL_COUNT).setFlag Page.streams Reg.SM_FLAGS 5 true
    let record : ChunkRec :=
      { stream := i.val, status := if o.ok then 0 else 1, cause := o.cause, length := o.payload.length, tBar := o.tBar,
        tFirst := o.tFirst, buf := a }
    let p := r.2.push x.outQueue s.node true record.toBytes
    exec (.queueOutputCommit i copyStatus pushStatus) s =
      if r.1 ≠ 0 then .next ((fail r.2).closeAfter i.val)
      else if p.1 ≠ 0 then .next ((fail p.2).closeAfter i.val)
      else .next ((p.2.modStream i.val fun x =>
        { x with outBufNext := (x.outBufNext + 1) % (x.outBufCountM1 + 1) }).closeAfter i.val) := by
  intro x a hHere hQueue u r fail record p
  have hExec : exec (.queueOutputCommit i copyStatus pushStatus) s = execQueueOutputCommit i copyStatus pushStatus s := rfl
  have hBytes' : ¬ (o.payload.isEmpty = true) := by simp [hBytes]
  have hWrite : r.2.node = s.node := by
    have hLocal : r = u.writeSpan .sys (localOf a) o.payload := if_pos hHere
    rw [hLocal]
    exact (QueuesStay.refl u).writeSpan.2
  have hPush : p.2.node = s.node := (State.node_push _ _ _ _ _).trans hWrite
  rw [hExec]
  unfold execQueueOutputCommit
  extract_lets _ y
  split
  next h => exact absurd (hLast.symm.trans h) (List.cons_ne_nil o [])
  next h =>
    cases hLast.symm.trans h
    extract_lets v w redirect node a'
    have hRedirect : redirect = false := by
      have hBoth : (u.pair.st == 2) = false := beq_eq_false_iff_ne.mpr hPair
      show (u.pair.st == 2 && _ && _) = false
      rw [hBoth, Bool.false_and, Bool.false_and]
    have hNode : node = s.node := (if_neg (by rw [hRedirect]; exact Bool.false_ne_true)).trans hQueue
    have hBuffer : a' = a := if_neg (by rw [hRedirect, Bool.false_and]; exact Bool.false_ne_true)
    have hCopy : (if o.payload.isEmpty = true then (0, w) else w.writeGlobal .sys 4 a' o.payload) = r := by
      rw [if_neg hBytes', hBuffer]
      rfl
    rw [hCopy]
    dsimp only
    rw [hNode, hBuffer, hWrite, if_neg hBytes']
    have hHere' : (o.payload.isEmpty || decide (nodeOf a = s.node)) = true := by rw [decide_eq_true hHere, Bool.or_true]
    dsimp only
    rw [hWrite, if_pos (rfl : s.node = s.node), show r.2.push y.outQueue s.node true _ = p from rfl, hPush, status_of_local rfl,
      status_of_local hHere']

/-- The MIRROR_EXPORT that a boundary started ends with its pieces handed to the link (R359). -/
theorem execMirrorExport_of_due {bar : Nat} (h : s.pattern.exportBar = some bar) :
    ∃ t, exec .mirrorExport s = .next t ∧ t.pattern = { s.pattern with exportBar := none, exportZ := none } ∧
      t.pair.unread = [] ∧ t.pair.kept = [] ∧ t.pair.exporting = false ∧ t.pair.exportDone = true ∧ t.streams = s.streams := by
  show ∃ t, execMirrorExport s = .next t ∧ _
  unfold execMirrorExport
  rw [h]
  dsimp -zeta only
  extract_lets z slots bytes u v ns w
  have hPieces : Beside s u :=
    List.foldlRecOn slots _ (Beside.refl s) fun t ht e _ => ht.trans (t.exportSlot_beside bar z e)
  have hSent : Beside s w := (hPieces.trans (Reports.refl u).trace.beside).setReg
  exact ⟨_, rfl, congrArg (fun p : Pattern => { p with exportBar := none, exportZ := none }) hSent.pattern, rfl, rfl, rfl, rfl, hSent.streams⟩

end

/-- Settles O42: each command by what all stream commands share, each event by the branches of its checks; what is sent and written on the
way leaves the node ID, the pattern engine and the streams. -/
theorem streamCommandsAndEventsAct : Obligations.StreamCommandsAndEventsAct := by
  unfold Obligations.StreamCommandsAndEventsAct
  refine ⟨fun s c i => ⟨fun hStarts hLegal => ⟨?_, ?_⟩, fun hName hRange hLive => ⟨?_, ?_, ?_⟩, fun hStarts hName hFree => ?_⟩,
    fun s => ⟨fun n cut hCut hReady hReads => execWorkListReady_of_arrived hCut hReady hReads,
      fun i w rest status hWaits hParking hDue hDone => ?_,
      fun i w rest f hWaits hParked hDue => execUnparkRun_of_due hWaits hParked hDue,
      fun i o copyStatus pushStatus hLast hPair hBytes hHere hQueue => ?_, fun bar h => execMirrorExport_of_due h⟩⟩
  case refine_1 =>
    refine congrArg Host.Outcome.next ((State.command_of_starts hStarts).trans ?_)
    exact if_neg (by rw [hLegal]; exact Bool.false_ne_true)
  case refine_2 =>
    intro hOk
    exact State.openStream_of_ok (s := s.flight c 0x40) (Prod.ext hOk rfl)
  case refine_3 =>
    exact fun hStarts => congrArg Host.Outcome.next (State.onStream_of_live hStarts hName hRange hLive)
  case refine_4 =>
    intro hStarts hAligned
    have hRecord : ¬ (c.nat 0x10 8 % 256 ≠ 0) := not_not.mpr hAligned
    exact ⟨congrArg Host.Outcome.next ((State.onStream_of_live hStarts hName hRange hLive).trans (if_neg hRecord)),
      congrArg Host.Outcome.next ((State.onStream_of_live hStarts hName hRange hLive).trans (if_neg hRecord))⟩
  case refine_5 =>
    intro hStarts hMode hFrame
    have hLegal : ¬ (1 < c.nat 0x0A 1 ∨ (c.nat 0x0A 1 = 0 ∧ (s.stream i).recFrames ≤ c.nat 0x0C 2)) := by omega
    have hExec : exec (.streamReset c) s = .next (s.cmdStreamReset c) := rfl
    rw [hExec]
    unfold State.cmdStreamReset
    rw [State.onStream_of_live hStarts hName hRange hLive]
    dsimp only
    rw [State.stream_flight, if_neg hLegal, if_pos hMode]
    exact ⟨fun hNone => congrArg Host.Outcome.next (if_neg (by rw [hNone]; exact Bool.false_ne_true)),
      fun hPending => congrArg Host.Outcome.next (if_pos hPending)⟩
  case refine_6 =>
    exact congrArg Host.Outcome.next (State.onStream_of_free hStarts hName hFree)
  case refine_7 =>
    have hExec {e : Nat} := execParkRecordWrite_of_due status hWaits hParking hDue hDone (e := e)
    refine ⟨fun hFails => (hExec (if_pos (.inl hFails))).trans (if_pos hFails), fun hOk hAway hStatus => ?_, fun hOk hEnd => ?_⟩
    · exact (hExec ((if_neg (not_or.mpr ⟨not_not.mpr hOk, hAway⟩)).trans (congrArg completionCode hStatus))).trans (if_pos (by decide))
    · refine (hExec (e := 0) ?_).trans (if_neg fun h => h rfl)
      split
      · exact hOk
      next h =>
        rw [hEnd.resolve_left fun hHere => h (.inr hHere)]
        rfl
  case refine_8 =>
    have hExec := execQueueOutputCommit_of_local (copyStatus := copyStatus) (pushStatus := pushStatus) hLast hPair hBytes hHere hQueue
    exact ⟨fun hCopy => hExec.trans (if_pos hCopy),
      fun hCopied hPush => hExec.trans ((if_neg (not_not.mpr hCopied)).trans (if_pos hPush)),
      fun hCopied hPushed => hExec.trans ((if_neg (not_not.mpr hCopied)).trans (if_neg (not_not.mpr hPushed)))⟩

end Sys2Proof.Claims
